-- ==== Sys2Proof/Word.lean ====
section
/-! DEFINITION. Words, bytes and the places of the device: the plain types every other file uses (00 R2, 01 R14). -/

namespace Sys2Proof

/-- A scalar register value or an address (01 R14). -/
abbrev Word := BitVec 64

/-- A vector register: 32 lanes of 32 bits (10 R208). -/
abbrev Vec := BitVec 1024

/-- The smallest addressable unit of memory. -/
abbrev Byte := BitVec 8

/-- A general register number 0 to 31, scalar or vector as the instruction says (01 R14). -/
abbrev Reg := Fin 32

/-- A predicate register number 0 to 7 (01 R14). -/
abbrev PReg := Fin 8

/-- A loop level 0 to 2 (02 R48). -/
abbrev Lvl := Fin 3

/-- A loop register id: lc0-lc2 are 0-2, lb0-lb2 are 3-5, le0-le2 are 6-8 (02 R43). -/
abbrev LReg := Fin 9

/-- A barrier id 0 to 3 (04 R99). -/
abbrev Bar := Fin 4

/-- A ring number 0 to 15 (06 R133). -/
abbrev Ring := Fin 16

/-- A tile by its position x + 32 y, 0 to 383 (00 R2, 08 R174). -/
abbrev TileId := Fin 384

/-- A core: its tile's position times 4 plus its core number in the tile (00 R2, 02 R28). -/
abbrev CoreId := Fin 1536

end Sys2Proof
end

