-- ==== Sys2Proof/Syntax.lean ====
section
/-! DEFINITION. The instructions and events of the opcode table (spec/opcode_table.json): one constructor per row.
C-words and lone words carry `m`, the switch marker S of bit 30 (01 R11); A-words carry their guard `g` (01 R12).
Events carry what identifies the thing they happen to; host commands carry their header and body (16 R293). -/

namespace Sys2Proof

/-- The guard of an A-word: bit 25 and bits 24:22 (01 R12). -/
structure Guard where
  neg : Bool
  p : PReg
  deriving DecidableEq, Repr, Inhabited

/-- Memory size codes 0 to 5 and 7; code 6 is reserved (08 R161). -/
inductive MemSz | i8 | n8 | i16 | n16 | i32 | n32 | x8
  deriving DecidableEq, Repr, Inhabited

/-- Element type codes 0 to 11; 12 to 15 are reserved (08 R161). -/
inductive ETy | f32 | f16 | bf16 | e4m3 | e5m2 | i4 | i8 | i16 | i32 | n8 | n16 | n32
  deriving DecidableEq, Repr, Inhabited

/-- Scope codes (08 R162, 04 R92): core, tile, territory, device. -/
inductive Scope | c | t | y | d
  deriving DecidableEq, Repr, Inhabited

/-- Conditions of CMP and CMPI, codes 0 to 9 (08 R162). -/
inductive Cond | eq | ne | lt | le | gt | ge | ltu | leu | gtu | geu
  deriving DecidableEq, Repr, Inhabited

/-- Conditions of VCMP, codes 0 to 5 (08 R162). -/
inductive VCond | eq | ne | lt | le | gt | ge
  deriving DecidableEq, Repr, Inhabited

/-- Atomic operations, codes 0 to 7 (08 R162). -/
inductive AtomOp | add | and | or | xor | min | max | xchg | cas
  deriving DecidableEq, Repr, Inhabited

/-- Atomic types, codes 0 to 2 (08 R162). -/
inductive AtomTy | i32 | n32 | f32
  deriving DecidableEq, Repr, Inhabited

/-- Rounding modes of VCVT, codes 0 to 3 (08 R162). -/
inductive Rm | rne | rz | ru | rd
  deriving DecidableEq, Repr, Inhabited

/-- Vote operations, codes 0 to 2 (08 R162). -/
inductive VoteOp | and | or | max
  deriving DecidableEq, Repr, Inhabited

/-- The float types of format AF and of st2, codes 0 to 2 (08 R158). -/
inductive FTy | f32 | f16 | bf16
  deriving DecidableEq, Repr, Inhabited

/-- The destination types dt2 of the stochastic conversion, codes 0 to 3 (08 R158). -/
inductive SrTy | f16 | bf16 | e4m3 | e5m2
  deriving DecidableEq, Repr, Inhabited

/-- System registers, numbers 0 to 16 (08 R163). -/
inductive SysReg
  | core | tile | shapev | sliceid | deadline | budget | frame | fsize | trapv | tcause | tpc
  | tinfo0 | tinfo1 | fpflags | rsp | ringbase | discsel
  deriving DecidableEq, Repr, Inhabited

/-- Weight formats of MLW, codes 0 to 3 (06 R120). -/
inductive WFmt | int8 | int4 | ternary | mxint8
  deriving DecidableEq, Repr, Inhabited

/-- Activation formats of MFMT, codes 0 to 4 (06 R123). -/
inductive AFmt | int8 | int4 | int16 | mxint8 | split
  deriving DecidableEq, Repr, Inhabited

/-- A host command as it arrives (16 R293): its session, the 32 bytes of its header, how many body bytes arrived after it, the number that
those bytes of the body make that its command says must be zero (0 where it names none), and whether it travelled inside the SPDM secure
session (17 R331). The fields of the header are read in Machine/Bytes.lean. -/
structure Hdr where
  sess : Nat
  bytes : List (BitVec 8)
  body : Nat
  pad : Nat
  secure : Bool
  deriving DecidableEq, Repr, Inhabited

/-- What an SPDM requester offers to negotiate (17 R331). -/
inductive SpdmHash | sha3_384 | other
  deriving DecidableEq, Repr, Inhabited
inductive SpdmSig | ed25519WithMlDsa65 | other
  deriving DecidableEq, Repr, Inhabited
inductive SpdmDhe | secp384r1 | other
  deriving DecidableEq, Repr, Inhabited
inductive SpdmAead | aes256Gcm | other
  deriving DecidableEq, Repr, Inhabited

structure SpdmAlgs where
  hash : SpdmHash
  sig : SpdmSig
  dhe : SpdmDhe
  aead : SpdmAead
  deriving DecidableEq, Repr, Inhabited

/-- A request to start an SPDM secure session: the session, and what its requester offers. -/
structure SpdmOffer where
  sess : Nat
  algs : SpdmAlgs
  deriving DecidableEq, Repr, Inhabited

/-- A code object as LOAD_CODE brings it (16 R300) with what its directives record (01 R19): its bundles, its data image,
`.slice` (cores, budget), `.frame`, its rings (slots, slot bytes) and its patch entries (word 0, word 1 of 07 R143). -/
structure CodeBody where
  words : List (BitVec 64)
  data : List (BitVec 8)
  slice : Option (Nat × Nat)
  frame : Nat
  rings : List (Nat × Nat)
  patches : List (BitVec 64 × BitVec 64)
  deriving DecidableEq, Repr, Inhabited

/-- The body of LAUNCH (16 R303). -/
structure LaunchBody where
  handle : Nat
  entry : Nat
  handler : Nat
  deadline : Nat
  budget : Nat
  frame : Nat
  cores : Nat
  coop : Nat
  target : Nat
  arglen : Nat
  args : BitVec 64
  deriving DecidableEq, Repr, Inhabited

/-- The body of CHECKPOINT (20 R344): buddy 0 is none, bpoff none is 'no parent'. -/
structure CkptBody where
  off : Nat
  limit : Nat
  full : Bool
  poff : Nat
  buddy : Nat
  boff : Nat
  bpoff : Option Nat
  deriving DecidableEq, Repr, Inhabited

/-- What DEBUG WRITE changes (16 R309): a register, or bytes of the slice's frame. -/
inductive DbgWrite
  | scalar (r : Reg) (x : BitVec 64)
  | vector (r : Reg) (x : BitVec 1024)
  | predicate (r : PReg) (x : Bool)
  | loopReg (r : LReg) (x : BitVec 32)
  | frame (off : Nat) (bytes : List (BitVec 8))
  deriving DecidableEq, Repr, Inhabited

/-- One constructor per row of spec/opcode_table.json. -/
inductive Instr
  /-- NOP_C (R200) -/
  | nopC (m : Bool)
  /-- RET (R184) -/
  | ret (m : Bool)
  /-- RETT (R188) -/
  | rett (m : Bool)
  /-- UPRET (R188) -/
  | upret (m : Bool)
  /-- EXIT (R189) -/
  | exit (m : Bool)
  /-- YIELD (R190) -/
  | yld (m : Bool)
  /-- TRAP (R187) -/
  | trap (m : Bool) (imm : BitVec 18)
  /-- BKPT (R187) -/
  | bkpt (m : Bool) (imm : BitVec 18)
  /-- FENCE (R239) -/
  | fence (m : Bool) (sc : Scope)
  /-- FENCESC (R239) -/
  | fencesc (m : Bool) (sc : Scope)
  /-- BR (R184) -/
  | br (m : Bool) (disp : BitVec 24)
  /-- BRP (R184) -/
  | brp (m : Bool) (n : Bool) (p : PReg) (disp : BitVec 20)
  /-- CALL (R184) -/
  | call (m : Bool) (disp : BitVec 24)
  /-- DETACH (R193) -/
  | detach (m : Bool) (disp : BitVec 24)
  /-- ATTACH (R193) -/
  | attach (m : Bool) (disp : BitVec 24)
  /-- LOOP (R185) -/
  | loop (m : Bool) (lvl : Lvl) (count : BitVec 12) (fin : BitVec 10)
  /-- LOOPR (R185) -/
  | loopr (m : Bool) (lvl : Lvl) (a : Reg) (fin : BitVec 10)
  /-- JMP (R184) -/
  | jmp (m : Bool) (a : Reg)
  /-- CALLR (R184) -/
  | callr (m : Bool) (a : Reg)
  /-- MVTL (R186) -/
  | mvtl (m : Bool) (lp : LReg) (a : Reg)
  /-- MVFL (R186) -/
  | mvfl (m : Bool) (d : Reg) (lp : LReg)
  /-- MFS (R194) -/
  | mfs (m : Bool) (d : Reg) (r : SysReg)
  /-- MTS (R194) -/
  | mts (m : Bool) (r : SysReg) (a : Reg)
  /-- DISC (R197) -/
  | disc (m : Bool) (d : Reg) (n : Fin 32)
  /-- CYCLE (R198) -/
  | cycle (m : Bool) (d : Reg)
  /-- SEAL (R199) -/
  | seal (m : Bool) (a : Reg) (b : Reg)
  /-- SPAWN (R192) -/
  | spawn (m : Bool) (d : Reg) (a : Reg)
  /-- LD (R234) -/
  | ld (m : Bool) (d : Reg) (a : Reg) (sz : MemSz) (disp : BitVec 11)
  /-- ST (R234) -/
  | st (m : Bool) (d : Reg) (a : Reg) (sz : MemSz) (disp : BitVec 11)
  /-- LDA (R235) -/
  | lda (m : Bool) (d : Reg) (a : Reg) (sz : MemSz) (sc : Scope) (disp : BitVec 9)
  /-- STL (R235) -/
  | stl (m : Bool) (d : Reg) (a : Reg) (sz : MemSz) (sc : Scope) (disp : BitVec 9)
  /-- LDP (R234) -/
  | ldp (m : Bool) (d : Reg) (a : Reg) (sz : MemSz) (disp : BitVec 11)
  /-- STP (R234) -/
  | stp (m : Bool) (d : Reg) (a : Reg) (sz : MemSz) (disp : BitVec 11)
  /-- VLD (R236) -/
  | vld (m : Bool) (d : Reg) (a : Reg) (disp : BitVec 11)
  /-- VST (R236) -/
  | vst (m : Bool) (d : Reg) (a : Reg) (disp : BitVec 11)
  /-- VLDP (R236) -/
  | vldp (m : Bool) (d : Reg) (a : Reg) (disp : BitVec 11)
  /-- VSTP (R236) -/
  | vstp (m : Bool) (d : Reg) (a : Reg) (disp : BitVec 11)
  /-- VLDS (R237) -/
  | vlds (m : Bool) (d : Reg) (a : Reg) (b : Reg) (sz : MemSz)
  /-- VSTS (R237) -/
  | vsts (m : Bool) (d : Reg) (a : Reg) (b : Reg) (sz : MemSz)
  /-- VGATH (R237) -/
  | vgath (m : Bool) (d : Reg) (a : Reg) (b : Reg) (sz : MemSz)
  /-- VSCAT (R237) -/
  | vscat (m : Bool) (d : Reg) (a : Reg) (b : Reg) (sz : MemSz)
  /-- ATOM (R238) -/
  | atom (m : Bool) (d : Reg) (a : Reg) (b : Reg) (op : AtomOp) (ty : AtomTy)
  /-- ATOMP (R238) -/
  | atomp (m : Bool) (d : Reg) (a : Reg) (b : Reg) (op : AtomOp) (ty : AtomTy)
  /-- BAR (R241) -/
  | bar (m : Bool) (id : Bar)
  /-- BARQ (R242) -/
  | barq (m : Bool) (d : Reg) (id : Bar)
  /-- VOTE (R243) -/
  | vote (m : Bool) (d : Reg) (a : Reg) (op : VoteOp)
  /-- RSUB (R245) -/
  | rsub (m : Bool) (a : Reg) (ring : Ring)
  /-- RGET (R135) -/
  | rget (m : Bool) (d : Reg) (ring : Ring)
  /-- RPUT (R135) -/
  | rput (m : Bool) (ring : Ring)
  /-- RREL (R135) -/
  | rrel (m : Bool) (ring : Ring)
  /-- BARCFG (R240) -/
  | barcfg (m : Bool) (id : Fin 4) (x0 : BitVec 5) (y0 : BitVec 4) (x1 : BitVec 5) (y1 : BitVec 4) (cnt : BitVec 2)
  /-- MSEND (R249) -/
  | msend (m : Bool) (a : Reg) (b : Reg)
  /-- MRECV (R250) -/
  | mrecv (m : Bool) (d : Reg) (a : Reg) (b : Reg)
  /-- MPROBE (R252) -/
  | mprobe (m : Bool) (d : Reg) (b : Reg)
  /-- MCAST (R255) -/
  | mcast (m : Bool) (a : Reg)
  /-- MRES (R254) -/
  | mres (m : Bool) (a : Reg)
  /-- NOP_A (R200) -/
  | nopA (g : Guard)
  /-- ADD (R201) -/
  | add (g : Guard) (d : Reg) (a : Reg) (b : Reg)
  /-- SUB (R201) -/
  | sub (g : Guard) (d : Reg) (a : Reg) (b : Reg)
  /-- MUL (R201) -/
  | mul (g : Guard) (d : Reg) (a : Reg) (b : Reg)
  /-- MULH (R201) -/
  | mulh (g : Guard) (d : Reg) (a : Reg) (b : Reg)
  /-- MULHU (R201) -/
  | mulhu (g : Guard) (d : Reg) (a : Reg) (b : Reg)
  /-- DIV (R202) -/
  | div (g : Guard) (d : Reg) (a : Reg) (b : Reg)
  /-- DIVU (R202) -/
  | divu (g : Guard) (d : Reg) (a : Reg) (b : Reg)
  /-- REM (R202) -/
  | rem (g : Guard) (d : Reg) (a : Reg) (b : Reg)
  /-- REMU (R202) -/
  | remu (g : Guard) (d : Reg) (a : Reg) (b : Reg)
  /-- AND (R201) -/
  | and (g : Guard) (d : Reg) (a : Reg) (b : Reg)
  /-- OR (R201) -/
  | or (g : Guard) (d : Reg) (a : Reg) (b : Reg)
  /-- XOR (R201) -/
  | xor (g : Guard) (d : Reg) (a : Reg) (b : Reg)
  /-- ANDN (R201) -/
  | andn (g : Guard) (d : Reg) (a : Reg) (b : Reg)
  /-- SHL (R201) -/
  | shl (g : Guard) (d : Reg) (a : Reg) (b : Reg)
  /-- SHR (R201) -/
  | shr (g : Guard) (d : Reg) (a : Reg) (b : Reg)
  /-- SRA (R201) -/
  | sra (g : Guard) (d : Reg) (a : Reg) (b : Reg)
  /-- ROTR (R201) -/
  | rotr (g : Guard) (d : Reg) (a : Reg) (b : Reg)
  /-- CLZ (R201) -/
  | clz (g : Guard) (d : Reg) (a : Reg)
  /-- CTZ (R201) -/
  | ctz (g : Guard) (d : Reg) (a : Reg)
  /-- POPC (R201) -/
  | popc (g : Guard) (d : Reg) (a : Reg)
  /-- MIN (R201) -/
  | min (g : Guard) (d : Reg) (a : Reg) (b : Reg)
  /-- MAX (R201) -/
  | max (g : Guard) (d : Reg) (a : Reg) (b : Reg)
  /-- MINU (R201) -/
  | minu (g : Guard) (d : Reg) (a : Reg) (b : Reg)
  /-- MAXU (R201) -/
  | maxu (g : Guard) (d : Reg) (a : Reg) (b : Reg)
  /-- MOV (R201) -/
  | mov (g : Guard) (d : Reg) (a : Reg)
  /-- EXTB (R201) -/
  | extb (g : Guard) (d : Reg) (a : Reg)
  /-- EXTH (R201) -/
  | exth (g : Guard) (d : Reg) (a : Reg)
  /-- LEA (R201) -/
  | lea (g : Guard) (d : Reg) (a : Reg) (b : Reg) (k : Fin 4)
  /-- ADDI (R203) -/
  | addi (g : Guard) (d : Reg) (imm : BitVec 16)
  /-- ANDI (R203) -/
  | andi (g : Guard) (d : Reg) (imm : BitVec 16)
  /-- ORI (R203) -/
  | ori (g : Guard) (d : Reg) (imm : BitVec 16)
  /-- XORI (R203) -/
  | xori (g : Guard) (d : Reg) (imm : BitVec 16)
  /-- MOVI (R203) -/
  | movi (g : Guard) (d : Reg) (imm : BitVec 16)
  /-- SHLI (R203) -/
  | shli (g : Guard) (d : Reg) (a : Reg) (sh : BitVec 6)
  /-- SHRI (R203) -/
  | shri (g : Guard) (d : Reg) (a : Reg) (sh : BitVec 6)
  /-- SRAI (R203) -/
  | srai (g : Guard) (d : Reg) (a : Reg) (sh : BitVec 6)
  /-- CMP (R204) -/
  | cmp (g : Guard) (pd : PReg) (a : Reg) (b : Reg) (cond : Cond)
  /-- CMPI (R204) -/
  | cmpi (g : Guard) (pd : PReg) (a : Reg) (cond : Cond) (imm : BitVec 10)
  /-- PAND (R205) -/
  | pand (g : Guard) (pd : PReg) (pa : PReg) (pb : PReg)
  /-- POR (R205) -/
  | por (g : Guard) (pd : PReg) (pa : PReg) (pb : PReg)
  /-- PXOR (R205) -/
  | pxor (g : Guard) (pd : PReg) (pa : PReg) (pb : PReg)
  /-- PNOT (R205) -/
  | pnot (g : Guard) (pd : PReg) (pa : PReg)
  /-- SEL (R205) -/
  | sel (g : Guard) (d : Reg) (a : Reg) (b : Reg) (pc : PReg)
  /-- TADR (R206) -/
  | tadr (g : Guard) (d : Reg) (a : Reg) (imm : BitVec 12)
  /-- VADD (R211) -/
  | vadd (g : Guard) (d : Reg) (a : Reg) (b : Reg) (ty : ETy)
  /-- VSUB (R211) -/
  | vsub (g : Guard) (d : Reg) (a : Reg) (b : Reg) (ty : ETy)
  /-- VMUL (R211) -/
  | vmul (g : Guard) (d : Reg) (a : Reg) (b : Reg) (ty : ETy)
  /-- VDIV (R211) -/
  | vdiv (g : Guard) (d : Reg) (a : Reg) (b : Reg) (ty : ETy)
  /-- VMIN (R211) -/
  | vmin (g : Guard) (d : Reg) (a : Reg) (b : Reg) (ty : ETy)
  /-- VMAX (R211) -/
  | vmax (g : Guard) (d : Reg) (a : Reg) (b : Reg) (ty : ETy)
  /-- VMINN (R211) -/
  | vminn (g : Guard) (d : Reg) (a : Reg) (b : Reg) (ty : ETy)
  /-- VMAXN (R211) -/
  | vmaxn (g : Guard) (d : Reg) (a : Reg) (b : Reg) (ty : ETy)
  /-- VSQRT (R213) -/
  | vsqrt (g : Guard) (d : Reg) (a : Reg) (ty : ETy)
  /-- VRCP (R213) -/
  | vrcp (g : Guard) (d : Reg) (a : Reg) (ty : ETy)
  /-- VRSQ (R213) -/
  | vrsq (g : Guard) (d : Reg) (a : Reg) (ty : ETy)
  /-- VEXP2 (R213) -/
  | vexp2 (g : Guard) (d : Reg) (a : Reg) (ty : ETy)
  /-- VLOG2 (R213) -/
  | vlog2 (g : Guard) (d : Reg) (a : Reg) (ty : ETy)
  /-- VABS (R214) -/
  | vabs (g : Guard) (d : Reg) (a : Reg) (ty : ETy)
  /-- VNEG (R214) -/
  | vneg (g : Guard) (d : Reg) (a : Reg) (ty : ETy)
  /-- VAND (R217) -/
  | vand (g : Guard) (d : Reg) (a : Reg) (b : Reg)
  /-- VOR (R217) -/
  | vor (g : Guard) (d : Reg) (a : Reg) (b : Reg)
  /-- VXOR (R217) -/
  | vxor (g : Guard) (d : Reg) (a : Reg) (b : Reg)
  /-- VNOT (R217) -/
  | vnot (g : Guard) (d : Reg) (a : Reg)
  /-- VSHL (R217) -/
  | vshl (g : Guard) (d : Reg) (a : Reg) (b : Reg) (ty : ETy)
  /-- VSHR (R217) -/
  | vshr (g : Guard) (d : Reg) (a : Reg) (b : Reg) (ty : ETy)
  /-- VSRA (R217) -/
  | vsra (g : Guard) (d : Reg) (a : Reg) (b : Reg) (ty : ETy)
  /-- VFMA (R212) -/
  | vfma (g : Guard) (d : Reg) (a : Reg) (b : Reg) (c : Reg) (f : FTy)
  /-- VFMS (R212) -/
  | vfms (g : Guard) (d : Reg) (a : Reg) (b : Reg) (c : Reg) (f : FTy)
  /-- VFNMA (R212) -/
  | vfnma (g : Guard) (d : Reg) (a : Reg) (b : Reg) (c : Reg) (f : FTy)
  /-- VCMP (R215) -/
  | vcmp (g : Guard) (d : Reg) (a : Reg) (b : Reg) (ty : ETy) (cond : VCond)
  /-- VSEL (R216) -/
  | vsel (g : Guard) (d : Reg) (a : Reg) (b : Reg) (c : Reg)
  /-- VCVT (R219) -/
  | vcvt (g : Guard) (d : Reg) (a : Reg) (dt : ETy) (st : ETy) (rm : Rm) (sat : Bool)
  /-- VCVT_SR (R220) -/
  | vcvtSr (g : Guard) (d : Reg) (a : Reg) (b : Reg) (dt : SrTy) (st : FTy) (sat : Bool)
  /-- VREDADD (R225) -/
  | vredadd (g : Guard) (d : Reg) (a : Reg) (n : Fin 32) (ty : ETy)
  /-- VREDMAX (R225) -/
  | vredmax (g : Guard) (d : Reg) (a : Reg) (n : Fin 32) (ty : ETy)
  /-- VREDMIN (R225) -/
  | vredmin (g : Guard) (d : Reg) (a : Reg) (n : Fin 32) (ty : ETy)
  /-- VPERM (R226) -/
  | vperm (g : Guard) (d : Reg) (a : Reg) (b : Reg) (ty : ETy)
  /-- VBCAST (R226) -/
  | vbcast (g : Guard) (d : Reg) (a : Reg) (ty : ETy)
  /-- VSLIDE (R226) -/
  | vslide (g : Guard) (d : Reg) (a : Reg) (b : Reg) (ty : ETy)
  /-- VIOTA (R226) -/
  | viota (g : Guard) (d : Reg) (ty : ETy)
  /-- VMOVS (R226) -/
  | vmovs (g : Guard) (d : Reg) (a : Reg) (b : Reg) (ty : ETy)
  /-- VEXT (R226) -/
  | vext (g : Guard) (d : Reg) (a : Reg) (b : Reg) (ty : ETy)
  /-- VSAT (R221) -/
  | vsat (g : Guard) (d : Reg) (a : Reg) (k : Fin 32) (ty : ETy)
  /-- VCLAMP (R222) -/
  | vclamp (g : Guard) (d : Reg) (a : Reg) (b : Reg) (ty : ETy)
  /-- VPACK (R223) -/
  | vpack (g : Guard) (d : Reg) (a : Reg) (b : Reg) (ty : ETy)
  /-- VUNPK (R224) -/
  | vunpk (g : Guard) (d : Reg) (a : Reg) (h : Bool) (ty : ETy)
  /-- VQMX (R227) -/
  | vqmx (g : Guard) (d : Reg) (a : Reg) (ty : ETy)
  /-- VDQMX (R228) -/
  | vdqmx (g : Guard) (d : Reg) (a : Reg) (ty : ETy)
  /-- LI_SIGNED (R160) -/
  | liSigned (m : Bool) (d : Reg) (p : BitVec 51)
  /-- LI_HBM (R160) -/
  | liHbm (m : Bool) (d : Reg) (p : BitVec 48)
  /-- LI_PEER (R160) -/
  | liPeer (m : Bool) (d : Reg) (p : BitVec 40)
  /-- LI_SHIFTED (R160) -/
  | liShifted (m : Bool) (d : Reg) (p : BitVec 51)
  /-- RWAIT (R137) -/
  | rwait (m : Bool) (ring : Fin 16) (n : BitVec 9) (limit : BitVec 32)
  /-- COPY (R260) -/
  | copy (m : Bool) (a : Reg) (b : Reg) (c : Reg) (tag : Fin 16)
  /-- COPYM (R263) -/
  | copym (m : Bool) (a : Reg) (tag : Fin 16)
  /-- CWAIT (R264) -/
  | cwait (m : Bool) (mask : BitVec 16)
  /-- CQUERY (R265) -/
  | cquery (m : Bool) (d : Reg)
  /-- MLW (R267) -/
  | mlw (m : Bool) (a : Reg) (bank : Fin 2) (fmt : BitVec 3)
  /-- MFMT (R268) -/
  | mfmt (m : Bool) (stream : Fin 4) (fmt : BitVec 3)
  /-- MMUL (R266) -/
  | mmul (m : Bool) (a : Reg) (b : Reg) (c : Reg) (acc : Fin 8) (bank : Fin 2) (stream : Fin 4) (f32 : Bool) (m1 : BitVec 2)
  /-- MOUT (R126) -/
  | mout (m : Bool) (a : Reg) (cnt : BitVec 6)
  /-- MDRAIN (R129) -/
  | mdrain (m : Bool) (a : Reg) (b : Reg) (acc : Fin 8) (cnt : BitVec 10)
  /-- MVER (R130) -/
  | mver (m : Bool) (d : Reg) (acc : Fin 8)
  /-- MZERO (R128) -/
  | mzero (m : Bool) (b : Reg) (acc : Fin 8)
  /-- MWAIT (R129) -/
  | mwait (m : Bool) (b : Reg) (acc : Fin 8)
  /-- OPATCH (R271) -/
  | opatch (m : Bool) (a : Reg) (cnt : BitVec 9)
  /-- OCLK (R146) -/
  | oclk (m : Bool) (dom : Fin 4) (n : BitVec 13)
  /-- OSET_Y (R272) -/
  | osetY (m : Bool) (a : Reg) (cell : BitVec 10)
  /-- OSET_RES (R272) -/
  | osetRes (m : Bool) (a : Reg) (cell : BitVec 10)
  /-- OSET_PORT (R149) -/
  | osetPort (m : Bool) (a : Reg) (port : BitVec 10)
  /-- OSET_BIND (R272) -/
  | osetBind (m : Bool) (port : BitVec 10) (ring : Fin 16) (unb : Bool)
  /-- OGET_Y (R335) -/
  | ogetY (m : Bool) (d : Reg) (cell : BitVec 10)
  /-- OGET_RES (R335) -/
  | ogetRes (m : Bool) (d : Reg) (cell : BitVec 10)
  /-- OGET_TAP (R335) -/
  | ogetTap (m : Bool) (d : Reg) (tap : BitVec 10)
  /-- OGET_DOM (R153) -/
  | ogetDom (m : Bool) (d : Reg) (dom : BitVec 10)
  /-- OSTEP (R146) -/
  | ostep (m : Bool) (mask : BitVec 4)
  /-- ORUN (R146) -/
  | orun (m : Bool) (a : Reg) (mask : BitVec 4)
  /-- OHALT (R146) -/
  | ohalt (m : Bool) (mask : BitVec 4)
  /-- OSAVE (R154) -/
  | osave (m : Bool) (a : Reg)
  /-- ORST (R154) -/
  | orst (m : Bool) (a : Reg)
  /-- OTAP (R274) -/
  | otap (m : Bool) (a : Reg) (tap : Fin 16)
  /-- TSHAPE (R275) -/
  | tshape (m : Bool) (d : Reg) (a : Reg)
  /-- TMAP (R276) -/
  | tmap (m : Bool) (d : Reg) (a : Reg)
  /-- TPRESS (R277) -/
  | tpress (m : Bool) (a : Reg)
  /-- TANCHOR (R278) -/
  | tanchor (m : Bool) (a : Reg) (on : Bool)
  /-- TFREEZE (R279) -/
  | tfreeze (m : Bool)
  /-- TTHAW (R279) -/
  | tthaw (m : Bool)
  /-- TEVAC (R280) -/
  | tevac (m : Bool)
  /-- ILLEGAL_INSTRUCTION (R167) -/
  | illegalInstruction (w1 : Bool)
  /-- EMULATION (R168) -/
  | emulation (w1 : Bool)
  /-- CHAIN_RELEASE (R254) -/
  | chainRelease (k : Nat)
  /-- SIZE_GRANT_RETURN (R60) -/
  | sizeGrantReturn (k : Nat)
  /-- HANDLER_TILE_ANSWER (R278) -/
  | handlerTileAnswer (k : Nat)
  /-- SPAWN_PLACEMENT (R192) -/
  | spawnPlacement (core : CoreId)
  /-- VARIABLE_LATENCY_RESPONSE (R45) -/
  | variableLatencyResponse (k : Nat)
  /-- FREEZE_RELEASE (R41) -/
  | freezeRelease (core : CoreId)
  /-- ASYNC_TRAP_ENTRY (R44) -/
  | asyncTrapEntry (core : CoreId)
  /-- DISPATCH (R29) -/
  | dispatch (tile : TileId)
  /-- HELD_SLICE_PLACEMENT (R25) -/
  | heldSlicePlacement (sl : Nat)
  /-- BUDGET_EXHAUSTED (R32) -/
  | budgetExhausted (sl : Nat)
  /-- BUDGET_GRACE_EXPIRY (R32) -/
  | budgetGraceExpiry (sl : Nat)
  /-- SLICE_LATE (R33) -/
  | sliceLate (sl : Nat)
  /-- SLICE_COMPLETION (R102) -/
  | sliceCompletion (sl : Nat)
  /-- RESULT_READ (R199) -/
  | resultRead (sl : Nat)
  /-- LAUNCH_COMPLETION (R305) -/
  | launchCompletion (la : Nat)
  /-- PEER_REQUEST_ARRIVAL (R84) -/
  | peerRequestArrival (k : Nat)
  /-- HBM_ACCESS (R86) -/
  | hbmAccess (k : Nat)
  /-- REFUSAL_ARRIVAL (R84) -/
  | refusalArrival (k : Nat)
  /-- ACK_ARRIVAL (R247) -/
  | ackArrival (k : Nat)
  /-- RETRANSMIT_TIMEOUT (R247) -/
  | retransmitTimeout (k : Nat)
  /-- MESSAGE_ARRIVAL (R251) -/
  | messageArrival (k : Nat)
  /-- CHAIN_RESERVATION (R254) -/
  | chainReservation (k : Nat)
  /-- CHAIN_ANSWER (R254) -/
  | chainAnswer (k : Nat)
  /-- CHAIN_PAYLOAD (R255) -/
  | chainPayload (k : Nat)
  /-- BARRIER_ARRIVAL (R100) -/
  | barrierArrival (k : Nat)
  /-- BARRIER_RELEASE (R100) -/
  | barrierRelease (k : Nat)
  /-- VOTE_CONTRIBUTION (R101) -/
  | voteContribution (k : Nat)
  /-- COPY_BEAT (R340) -/
  | copyBeat (tile : TileId) (k : Nat)
  /-- COPY_COMPLETE (R261) -/
  | copyComplete (tile : TileId) (k : Nat)
  /-- COPY_FAILURE (R261) -/
  | copyFailure (k : Nat)
  /-- MATRIX_START (R128) -/
  | matrixStart (core : CoreId) (k : Nat)
  /-- MATRIX_COMPLETE (R124) -/
  | matrixComplete (core : CoreId) (k : Nat)
  /-- STREAM_PUSH (R134) -/
  | streamPush (sl : Nat) (ring : Nat)
  /-- STREAM_PULL (R134) -/
  | streamPull (sl : Nat) (ring : Nat)
  /-- LOOP_COUNT_BLOCK_READY (R139) -/
  | loopCountBlockReady (sl : Nat) (ring : Nat)
  /-- RWAIT_TIMEOUT (R137) -/
  | rwaitTimeout (core : CoreId)
  /-- ORRERY_TICK (R147) -/
  | orreryTick (core : CoreId)
  /-- ORRERY_COUNT_END (R146) -/
  | orreryCountEnd (core : CoreId) (dom : Fin 4)
  /-- EPOCH_END (R54) -/
  | epochEnd
  /-- PHASE_START (R56) -/
  | phaseStart (tile : TileId)
  /-- SIZE_REQUEST (R60) -/
  | sizeRequest (k : Nat)
  /-- SIZE_GRANT (R60) -/
  | sizeGrant (k : Nat)
  /-- MOVE_COMMIT (R60) -/
  | moveCommit (tile : TileId)
  /-- EVACUATION_EXPIRY (R61) -/
  | evacuationExpiry (tile : TileId)
  /-- CESSION_CLEARING (R61) -/
  | cessionClearing (tile : TileId)
  /-- CESSION_JOINING (R61) -/
  | cessionJoining (tile : TileId)
  /-- UPCALL_ARRIVAL (R65) -/
  | upcallArrival (k : Nat)
  /-- FREEZE_MARK (R74) -/
  | freezeMark (k : Nat)
  /-- FREEZE_TAKES_HOLD (R74) -/
  | freezeTakesHold (terr : Nat)
  /-- THAW_REQUEST (R279) -/
  | thawRequest (k : Nat)
  /-- ANCHOR_REQUEST (R278) -/
  | anchorRequest (k : Nat)
  /-- ANCHOR_APPLY (R278) -/
  | anchorApply (k : Nat)
  /-- SHAPE_SNAPSHOT (R275) -/
  | shapeSnapshot (k : Nat)
  /-- PREEMPTION_HALT (R310) -/
  | preemptionHalt (core : CoreId)
  /-- QUIESCENCE_COMPLETE (R312) -/
  | quiescenceComplete (tile : TileId)
  /-- REPLAY_ABORT (R317) -/
  | replayAbort (sl : Nat)
  /-- PATROL_SCRUB (R354) -/
  | patrolScrub (page : Nat) (corrected : Nat) (uncorrectable : Nat)
  /-- ISLAND_POWER_WINDOW (R361) -/
  | islandPowerWindow (isl : Fin 32) (watts16 : Nat) (module16 : Nat)
  /-- THERMAL_THROTTLE (R362) -/
  | thermalThrottle (isl : Fin 32)
  /-- THERMAL_COOLED (R362) -/
  | thermalCooled (isl : Fin 32)
  /-- THERMAL_SHUTDOWN (R362) -/
  | thermalShutdown (isl : Fin 32)
  /-- DEVICE_RESET (R320) -/
  | deviceReset
  /-- POWER_LOSS (R347) -/
  | powerLoss
  /-- SPDM_SESSION_END (R332) -/
  | spdmSessionEnd (sess : Nat)
  /-- LINK_LOSS (R350) -/
  | linkLoss (k : Nat)
  /-- PARALLAX_STREAM_ARRIVAL (R350) -/
  | parallaxStreamArrival (k : Nat)
  /-- PARALLAX_ACK (R350) -/
  | parallaxAck (k : Nat) (status : Nat)
  /-- RMA_WRITE (R292) -/
  | rmaWrite (sess : Nat) (terr : Nat) (va : Nat) (bytes : List (BitVec 8))
  /-- RMA_READ (R292) -/
  | rmaRead (sess : Nat) (terr : Nat) (va : Nat) (len : Nat)
  /-- UNSUPPORTED_PACKET (R292) -/
  | unsupportedPacket
  /-- CREATE (R298) -/
  | create (h : Hdr) (tiles : List (Nat × Nat)) (minA : Nat) (maxB : Nat)
  /-- DISSOLVE (R299) -/
  | dissolve (h : Hdr)
  /-- POLICY (R359) -/
  | policy (h : Hdr) (id : Nat) (value : Nat)
  /-- POLICY_SET_ANCHOR (R359) -/
  | policySetAnchor (h : Hdr) (value : Nat)
  /-- POLICY_CLEAR_ANCHOR (R359) -/
  | policyClearAnchor (h : Hdr) (value : Nat)
  /-- PXPEERS (R359) -/
  | pxpeers (h : Hdr) (value : Nat)
  /-- OPS (R359) -/
  | ops (h : Hdr) (value : Nat)
  /-- MAP (R301) -/
  | mapPages (h : Hdr) (va : Nat) (len : Nat) (psize : Nat) (perm : Nat)
  /-- UNMAP (R302) -/
  | unmap (h : Hdr) (va : Nat) (len : Nat)
  /-- PROTECT (R302) -/
  | protect (h : Hdr) (va : Nat) (len : Nat) (perm : Nat)
  /-- LOAD_CODE (R300) -/
  | loadCode (h : Hdr) (body : CodeBody) (dimg : Nat)
  /-- LAUNCH (R303) -/
  | launch (h : Hdr) (body : LaunchBody)
  /-- PREEMPT (R310) -/
  | preempt (h : Hdr)
  /-- SAVE (R313) -/
  | save (h : Hdr) (off : Nat) (full : Bool)
  /-- RESTORE (R315) -/
  | restore (h : Hdr) (off : Nat)
  /-- RESUME (R310) -/
  | resume (h : Hdr)
  /-- DEBUG_CLAIM (R309) -/
  | debugClaim (h : Hdr) (sl : Nat)
  /-- DEBUG_RELEASE (R309) -/
  | debugRelease (h : Hdr) (sl : Nat)
  /-- DEBUG_HALT (R309) -/
  | debugHalt (h : Hdr) (sl : Nat)
  /-- DEBUG_READ (R309) -/
  | debugRead (h : Hdr) (sl : Nat)
  /-- DEBUG_WRITE (R309) -/
  | debugWrite (h : Hdr) (sl : Nat) (pos : Nat) (wr : DbgWrite)
  /-- DEBUG_STEP (R309) -/
  | debugStep (h : Hdr) (sl : Nat)
  /-- DEBUG_GO (R309) -/
  | debugGo (h : Hdr) (sl : Nat)
  /-- FWWRITE (R321) -/
  | fwwrite (h : Hdr) (off : Nat) (bytes : List (BitVec 8))
  /-- FWACTIVATE (R321) -/
  | fwactivate (h : Hdr) (force : Bool)
  /-- FWCOMMIT (R321) -/
  | fwcommit (h : Hdr)
  /-- OPEN (R324) -/
  | openSession (h : Hdr) (fa : BitVec 128) (nonce : List (BitVec 8))
  /-- CLOSE (R322) -/
  | close (h : Hdr)
  /-- RECEIPT (R327) -/
  | receipt (h : Hdr)
  /-- EVLOG (R322) -/
  | evlog (h : Hdr) (first : Nat) (count : Nat)
  /-- EPADD (R323) -/
  | epadd (h : Hdr) (idx : Nat) (fa : BitVec 128) (job : Nat) (ports : BitVec 8)
  /-- EPDEL (R323) -/
  | epdel (h : Hdr) (idx : Nat)
  /-- IF_READ (R330) -/
  | ifRead (h : Hdr) (reg : Nat)
  /-- IF_WRITE (R330) -/
  | ifWrite (h : Hdr) (reg : Nat) (value : BitVec 64)
  /-- GET_CERTIFICATE (R319) -/
  | getCertificate (sess : Nat) (slot : Nat)
  /-- CHALLENGE (R331) -/
  | challenge (sess : Nat) (nonce : List (BitVec 8))
  /-- GET_MEASUREMENTS (R331) -/
  | getMeasurements (sess : Nat) (index : Nat)
  /-- GET_DEVICE_INTERFACE_REPORT (R334) -/
  | getDeviceInterfaceReport (sess : Nat) (terr : Nat)
  /-- LOCK_INTERFACE_REQUEST (R332) -/
  | lockInterfaceRequest (sess : Nat) (terr : Nat)
  /-- START_INTERFACE_REQUEST (R332) -/
  | startInterfaceRequest (sess : Nat) (terr : Nat) (nonce : List (BitVec 8))
  /-- STOP_INTERFACE_REQUEST (R332) -/
  | stopInterfaceRequest (sess : Nat) (terr : Nat)
  /-- CREATE_INDEXED (R352) -/
  | createIndexed (h : Hdr) (version : Nat) (tiles : List (Nat × Nat × Nat)) (minA : Nat) (maxB : Nat)
  /-- DIRTY (R351) -/
  | dirty (h : Hdr) (first : Nat) (count : Nat)
  /-- CHECKPOINT (R348) -/
  | checkpoint (h : Hdr) (body : CkptBody)
  /-- PXSEND (R350) -/
  | pxsend (h : Hdr) (off : Nat) (buddy : Nat) (boff : Nat) (bpoff : Option Nat)
  /-- LOADPAGES (R353) -/
  | loadpages (h : Hdr) (off : Nat)
  /-- COUNTERS (R358) -/
  | counters (h : Hdr) (first : Nat) (count : Nat)
  /-- TELEMETRY (R363) -/
  | telemetry (h : Hdr)
  /-- FENCE_TILE (R358) -/
  | fenceTile (h : Hdr) (x : Nat) (y : Nat)
  /-- SPDM_SESSION_START (R331) -/
  | spdmSessionStart (sess : SpdmOffer)
  /-- UNKNOWN_COMMAND (R295) -/
  | unknownCommand (h : Hdr) (code : Nat)
  deriving DecidableEq, Repr

end Sys2Proof
end

