-- ==== Sys2Proof/Machine/Bytes.lean ====
section
/-! DEFINITION. Byte order (01 R21, 05 R106), and the header of a host command as its bytes give it (16 R293). -/

namespace Sys2Proof.Machine

/-- The little-endian number of a list of bytes (01 R21, 05 R106). -/
def leNat : List Byte → Nat
  | [] => 0
  | b :: bs => b.toNat + 256 * leNat bs

/-- The `n` little-endian bytes of a number. -/
def leBytes : Nat → Nat → List Byte
  | 0, _ => []
  | n + 1, x => BitVec.ofNat 8 x :: leBytes n (x / 256)

/-- The bytes of an ASCII label. -/
def ascii (x : String) : List Byte := x.toList.map (fun c => BitVec.ofNat 8 c.toNat)

/-- The 32 bytes of a header. -/
def headerBytes (code status len seq terr : Nat) (tag : BitVec 64) : List Byte :=
  leBytes 2 code ++ leBytes 2 status ++ leBytes 4 len ++ leBytes 8 seq ++ leBytes 2 terr ++ leBytes 6 0 ++ leBytes 8 tag.toNat

end Sys2Proof.Machine

namespace Sys2Proof

/-- A field of a command's header. -/
def Hdr.field (h : Hdr) (lo n : Nat) : Nat := Sys2Proof.Machine.leNat ((h.bytes.drop lo).take n)

/-- CODE. -/
def Hdr.code (h : Hdr) : Nat := h.field 0 2

/-- SEQ. -/
def Hdr.seq (h : Hdr) : Nat := h.field 8 8

/-- TERR, 0xFFFF for none. -/
def Hdr.terr (h : Hdr) : Nat := h.field 16 2

/-- TAG. -/
def Hdr.tag (h : Hdr) : BitVec 64 := BitVec.ofNat 64 (h.field 24 8)

/-- Check 1 of 16 R295: 32 bytes, STATUS and bytes 18 to 23 zero, and LEN, at most 65,536, that of the body that arrived. -/
def Hdr.formed (h : Hdr) : Bool :=
  h.bytes.length == 32 && h.field 2 2 == 0 && h.field 18 6 == 0 && h.field 4 4 == h.body && decide (h.body ≤ 65536)

end Sys2Proof
end

