-- ==== Sys2Proof/WellFormed.lean ====
section
/-! DEFINITION. Which instructions an encoding may carry: the limits on operands that 08 R167 makes an encoding check
(types an instruction accepts, immediates out of range). A host command is the one its header's CODE names. An event is always well formed
here: what it must meet is checked by its meaning. -/

namespace Sys2Proof

/-- Element width in bits (10 R208). -/
def ETy.width : ETy → Nat
  | .f32 | .i32 | .n32 => 32
  | .f16 | .bf16 | .i16 | .n16 => 16
  | .e4m3 | .e5m2 | .i8 | .n8 => 8
  | .i4 => 4

def ETy.isFloat : ETy → Bool
  | .f32 | .f16 | .bf16 | .e4m3 | .e5m2 => true
  | _ => false

/-- A signed integer type (05 R106). -/
def ETy.isSigned : ETy → Bool
  | .i4 | .i8 | .i16 | .i32 => true
  | _ => false

/-- The float types of the arithmetic instructions (10 R210). -/
def ETy.isArithFloat : ETy → Bool
  | .f32 | .f16 | .bf16 => true
  | _ => false

/-- i8, i16, i32, n8, n16, n32. -/
def ETy.isByteInt : ETy → Bool
  | .i8 | .i16 | .i32 | .n8 | .n16 | .n32 => true
  | _ => false

/-- VADD, VSUB, VMUL, VMIN, VMAX, VCMP (10 R210). -/
def ETy.arith (t : ETy) : Bool := t.isArithFloat || t.isByteInt

/-- VABS, VNEG, VCLAMP (10 R210). -/
def ETy.signedArith (t : ETy) : Bool := t.isArithFloat || (t.isByteInt && t.isSigned)

/-- VPACK, VUNPK: the narrow types (10 R210). -/
def ETy.narrow : ETy → Bool
  | .i4 | .i8 | .i16 | .n8 | .n16 => true
  | _ => false

/-- The reductions (10 R210). -/
def ETy.reducible : ETy → Bool
  | .f32 | .i32 | .n32 => true
  | _ => false

/-- VQMX and VDQMX (10 R210). -/
def ETy.mx : ETy → Bool
  | .i8 | .e4m3 | .e5m2 => true
  | _ => false

/-- The atomic operations each type accepts (11 R238). -/
def atomAccepts : AtomOp → AtomTy → Bool
  | .add, _ | .xchg, _ | .cas, _ => true
  | _, .f32 => false
  | _, _ => true

/-- The pairs, rounding codes and `sat` of the directed VCVT (10 R219). -/
def cvtAccepts (dt st : ETy) (rm : Rm) (sat : Bool) : Bool :=
  dt != st &&
  (dt.isFloat || st.isFloat || rm == .rne) &&
  (!sat || dt.isFloat || (!st.isFloat && dt.width ≤ st.width))

def FTy.toETy : FTy → ETy
  | .f32 => .f32 | .f16 => .f16 | .bf16 => .bf16

def SrTy.toETy : SrTy → ETy
  | .f16 => .f16 | .bf16 => .bf16 | .e4m3 => .e4m3 | .e5m2 => .e5m2

/-- Memory size codes of the strided and gather forms: 0 to 5 (11 R237). -/
def MemSz.lane : MemSz → Bool
  | .x8 => false
  | _ => true

/-- The header and the CODE of a host command (16 R293, R294, 17 R321, R322, 20 R344, 21 R358). -/
def Instr.command : Instr → Option (Hdr × Nat)
  | .openSession h _ _ => some (h, 0x0001)
  | .close h => some (h, 0x0002)
  | .receipt h => some (h, 0x0003)
  | .evlog h _ _ => some (h, 0x0004)
  | .epadd h _ _ _ _ => some (h, 0x0005)
  | .epdel h _ => some (h, 0x0006)
  | .create h _ _ _ => some (h, 0x0010)
  | .dissolve h => some (h, 0x0011)
  | .policy h _ _ => some (h, 0x0012)
  | .policySetAnchor h _ => some (h, 0x0012)
  | .policyClearAnchor h _ => some (h, 0x0012)
  | .pxpeers h _ => some (h, 0x0012)
  | .ops h _ => some (h, 0x0012)
  | .createIndexed h _ _ _ _ => some (h, 0x0013)
  | .mapPages h _ _ _ _ => some (h, 0x0014)
  | .unmap h _ _ => some (h, 0x0015)
  | .protect h _ _ _ => some (h, 0x0016)
  | .loadCode h _ _ => some (h, 0x0020)
  | .launch h _ => some (h, 0x0021)
  | .preempt h => some (h, 0x0030)
  | .save h _ _ => some (h, 0x0031)
  | .restore h _ => some (h, 0x0032)
  | .resume h => some (h, 0x0033)
  | .dirty h _ _ => some (h, 0x0034)
  | .checkpoint h _ => some (h, 0x0035)
  | .pxsend h _ _ _ _ => some (h, 0x0036)
  | .loadpages h _ => some (h, 0x0037)
  | .debugClaim h _ => some (h, 0x0040)
  | .debugRelease h _ => some (h, 0x0040)
  | .debugHalt h _ => some (h, 0x0040)
  | .debugRead h _ => some (h, 0x0040)
  | .debugWrite h _ _ _ => some (h, 0x0040)
  | .debugStep h _ => some (h, 0x0040)
  | .debugGo h _ => some (h, 0x0040)
  | .ifRead h _ => some (h, 0x0050)
  | .ifWrite h _ _ => some (h, 0x0051)
  | .counters h _ _ => some (h, 0x0060)
  | .telemetry h => some (h, 0x0061)
  | .fenceTile h _ _ => some (h, 0x0062)
  | .fwwrite h _ _ => some (h, 0x0070)
  | .fwactivate h _ => some (h, 0x0071)
  | .fwcommit h => some (h, 0x0072)
  | .unknownCommand h code => some (h, code)
  | _ => none

/-- The encoding checks on operands (08 R167, 09 R185, 11 R237, R238, R244, 12 R257, R271, 10 R210, R219 to R221). -/
def Instr.wf : Instr → Bool
  | .loop _ _ _ fin => fin != 0
  | .loopr _ _ _ fin => fin != 0
  | .vlds _ _ _ _ sz => sz.lane
  | .vsts _ _ _ _ sz => sz.lane
  | .vgath _ _ _ _ sz => sz.lane
  | .vscat _ _ _ _ sz => sz.lane
  | .atom _ _ _ _ op ty => atomAccepts op ty
  | .atomp _ _ _ _ op ty => atomAccepts op ty
  | .vadd _ _ _ _ ty => ty.arith
  | .vsub _ _ _ _ ty => ty.arith
  | .vmul _ _ _ _ ty => ty.arith
  | .vdiv _ _ _ _ ty => ty.isArithFloat
  | .vmin _ _ _ _ ty => ty.arith
  | .vmax _ _ _ _ ty => ty.arith
  | .vminn _ _ _ _ ty => ty.isArithFloat
  | .vmaxn _ _ _ _ ty => ty.isArithFloat
  | .vsqrt _ _ _ ty => ty.isArithFloat
  | .vrcp _ _ _ ty => ty.isArithFloat
  | .vrsq _ _ _ ty => ty.isArithFloat
  | .vexp2 _ _ _ ty => ty.isArithFloat
  | .vlog2 _ _ _ ty => ty.isArithFloat
  | .vabs _ _ _ ty => ty.signedArith
  | .vneg _ _ _ ty => ty.signedArith
  | .vshl _ _ _ _ ty => ty.isByteInt
  | .vshr _ _ _ _ ty => ty.isByteInt && !ty.isSigned
  | .vsra _ _ _ _ ty => ty.isByteInt && ty.isSigned
  | .vcmp _ _ _ _ ty _ => ty.arith
  | .vcvt _ _ _ dt sty rm sat => cvtAccepts dt sty rm sat
  | .vcvtSr _ _ _ _ dt sty _ => dt.toETy != sty.toETy
  | .vredadd _ _ _ _ ty => ty.reducible
  | .vredmax _ _ _ _ ty => ty.reducible
  | .vredmin _ _ _ _ ty => ty.reducible
  | .vperm _ _ _ _ ty => ty.isByteInt
  | .viota _ _ ty => ty.isByteInt
  | .vsat _ _ _ k ty => ty.isByteInt && k.val < ty.width
  | .vclamp _ _ _ _ ty => ty.signedArith
  | .vpack _ _ _ _ ty => ty.narrow
  | .vunpk _ _ _ _ ty => ty.narrow
  | .vqmx _ _ _ ty => ty.mx
  | .vdqmx _ _ _ ty => ty.mx
  | .rwait _ _ n _ => n.toNat ≤ 256
  | .osetBind _ _ ring unb => !unb || ring == 0
  | i => i.command.all (fun c => c.1.code == c.2)

end Sys2Proof
end

