-- ==== Sys2Proof/Decode.lean ====
section
/-! DEFINITION. Decoding any word, by the formats of 08 R155 to R166 and 12 R259, and the encoder written from the same
tables. Words are natural numbers below 2^32 (C-word, A-word) or 2^64 (bundle). -/

namespace Sys2Proof

/-- Bits hi down to lo of w (01 N39). -/
def fld (w hi lo : Nat) : Nat := w / 2 ^ lo % 2 ^ (hi - lo + 1)

/-- A one-bit field. -/
def bit (w i : Nat) : Bool := decide (w / 2 ^ i % 2 = 1)

/-- A bit as a number. -/
def bitN (b : Bool) : Nat := if b then 1 else 0

/-- A number below n, or nothing: a register id or ring outside its class is an encoding fault (09 R182, 11 R244). -/
def finOf (n x : Nat) [NeZero n] : Option (Fin n) := if x < n then some (Fin.ofNat n x) else none

/-- The value of a five-bit field that may hold 0 or 1 only (10 R224). -/
def flagOf (x : Nat) : Option Bool := if x = 0 then some false else if x = 1 then some true else none

/-- Codes of MemSz (08 R161 to R163; 06 R120, R123). -/
def MemSz.code : MemSz → Nat
  | .i8 => 0
  | .n8 => 1
  | .i16 => 2
  | .n16 => 3
  | .i32 => 4
  | .n32 => 5
  | .x8 => 7

def MemSz.ofCode : Nat → Option MemSz
  | 0 => some .i8
  | 1 => some .n8
  | 2 => some .i16
  | 3 => some .n16
  | 4 => some .i32
  | 5 => some .n32
  | 7 => some .x8
  | _ => none

/-- Codes of ETy (08 R161 to R163; 06 R120, R123). -/
def ETy.code : ETy → Nat
  | .f32 => 0
  | .f16 => 1
  | .bf16 => 2
  | .e4m3 => 3
  | .e5m2 => 4
  | .i4 => 5
  | .i8 => 6
  | .i16 => 7
  | .i32 => 8
  | .n8 => 9
  | .n16 => 10
  | .n32 => 11

def ETy.ofCode : Nat → Option ETy
  | 0 => some .f32
  | 1 => some .f16
  | 2 => some .bf16
  | 3 => some .e4m3
  | 4 => some .e5m2
  | 5 => some .i4
  | 6 => some .i8
  | 7 => some .i16
  | 8 => some .i32
  | 9 => some .n8
  | 10 => some .n16
  | 11 => some .n32
  | _ => none

/-- Codes of Scope (08 R161 to R163; 06 R120, R123). -/
def Scope.code : Scope → Nat
  | .c => 0
  | .t => 1
  | .y => 2
  | .d => 3

def Scope.ofCode : Nat → Option Scope
  | 0 => some .c
  | 1 => some .t
  | 2 => some .y
  | 3 => some .d
  | _ => none

/-- Codes of Cond (08 R161 to R163; 06 R120, R123). -/
def Cond.code : Cond → Nat
  | .eq => 0
  | .ne => 1
  | .lt => 2
  | .le => 3
  | .gt => 4
  | .ge => 5
  | .ltu => 6
  | .leu => 7
  | .gtu => 8
  | .geu => 9

def Cond.ofCode : Nat → Option Cond
  | 0 => some .eq
  | 1 => some .ne
  | 2 => some .lt
  | 3 => some .le
  | 4 => some .gt
  | 5 => some .ge
  | 6 => some .ltu
  | 7 => some .leu
  | 8 => some .gtu
  | 9 => some .geu
  | _ => none

/-- Codes of VCond (08 R161 to R163; 06 R120, R123). -/
def VCond.code : VCond → Nat
  | .eq => 0
  | .ne => 1
  | .lt => 2
  | .le => 3
  | .gt => 4
  | .ge => 5

def VCond.ofCode : Nat → Option VCond
  | 0 => some .eq
  | 1 => some .ne
  | 2 => some .lt
  | 3 => some .le
  | 4 => some .gt
  | 5 => some .ge
  | _ => none

/-- Codes of AtomOp (08 R161 to R163; 06 R120, R123). -/
def AtomOp.code : AtomOp → Nat
  | .add => 0
  | .and => 1
  | .or => 2
  | .xor => 3
  | .min => 4
  | .max => 5
  | .xchg => 6
  | .cas => 7

def AtomOp.ofCode : Nat → Option AtomOp
  | 0 => some .add
  | 1 => some .and
  | 2 => some .or
  | 3 => some .xor
  | 4 => some .min
  | 5 => some .max
  | 6 => some .xchg
  | 7 => some .cas
  | _ => none

/-- Codes of AtomTy (08 R161 to R163; 06 R120, R123). -/
def AtomTy.code : AtomTy → Nat
  | .i32 => 0
  | .n32 => 1
  | .f32 => 2

def AtomTy.ofCode : Nat → Option AtomTy
  | 0 => some .i32
  | 1 => some .n32
  | 2 => some .f32
  | _ => none

/-- Codes of Rm (08 R161 to R163; 06 R120, R123). -/
def Rm.code : Rm → Nat
  | .rne => 0
  | .rz => 1
  | .ru => 2
  | .rd => 3

def Rm.ofCode : Nat → Option Rm
  | 0 => some .rne
  | 1 => some .rz
  | 2 => some .ru
  | 3 => some .rd
  | _ => none

/-- Codes of VoteOp (08 R161 to R163; 06 R120, R123). -/
def VoteOp.code : VoteOp → Nat
  | .and => 0
  | .or => 1
  | .max => 2

def VoteOp.ofCode : Nat → Option VoteOp
  | 0 => some .and
  | 1 => some .or
  | 2 => some .max
  | _ => none

/-- Codes of FTy (08 R161 to R163; 06 R120, R123). -/
def FTy.code : FTy → Nat
  | .f32 => 0
  | .f16 => 1
  | .bf16 => 2

def FTy.ofCode : Nat → Option FTy
  | 0 => some .f32
  | 1 => some .f16
  | 2 => some .bf16
  | _ => none

/-- Codes of SrTy (08 R161 to R163; 06 R120, R123). -/
def SrTy.code : SrTy → Nat
  | .f16 => 0
  | .bf16 => 1
  | .e4m3 => 2
  | .e5m2 => 3

def SrTy.ofCode : Nat → Option SrTy
  | 0 => some .f16
  | 1 => some .bf16
  | 2 => some .e4m3
  | 3 => some .e5m2
  | _ => none

/-- Codes of SysReg (08 R161 to R163; 06 R120, R123). -/
def SysReg.code : SysReg → Nat
  | .core => 0
  | .tile => 1
  | .shapev => 2
  | .sliceid => 3
  | .deadline => 4
  | .budget => 5
  | .frame => 6
  | .fsize => 7
  | .trapv => 8
  | .tcause => 9
  | .tpc => 10
  | .tinfo0 => 11
  | .tinfo1 => 12
  | .fpflags => 13
  | .rsp => 14
  | .ringbase => 15
  | .discsel => 16

def SysReg.ofCode : Nat → Option SysReg
  | 0 => some .core
  | 1 => some .tile
  | 2 => some .shapev
  | 3 => some .sliceid
  | 4 => some .deadline
  | 5 => some .budget
  | 6 => some .frame
  | 7 => some .fsize
  | 8 => some .trapv
  | 9 => some .tcause
  | 10 => some .tpc
  | 11 => some .tinfo0
  | 12 => some .tinfo1
  | 13 => some .fpflags
  | 14 => some .rsp
  | 15 => some .ringbase
  | 16 => some .discsel
  | _ => none

/-- Codes of WFmt (08 R161 to R163; 06 R120, R123). -/
def WFmt.code : WFmt → Nat
  | .int8 => 0
  | .int4 => 1
  | .ternary => 2
  | .mxint8 => 3

def WFmt.ofCode : Nat → Option WFmt
  | 0 => some .int8
  | 1 => some .int4
  | 2 => some .ternary
  | 3 => some .mxint8
  | _ => none

/-- Codes of AFmt (08 R161 to R163; 06 R120, R123). -/
def AFmt.code : AFmt → Nat
  | .int8 => 0
  | .int4 => 1
  | .int16 => 2
  | .mxint8 => 3
  | .split => 4

def AFmt.ofCode : Nat → Option AFmt
  | 0 => some .int8
  | 1 => some .int4
  | 2 => some .int16
  | 3 => some .mxint8
  | 4 => some .split
  | _ => none

def decC0 (m : Bool) (w : Nat) : Option Instr :=
  if fld w 23 18 = 0 ∧ fld w 17 0 = 0 then some (.nopC m) else
  if fld w 23 18 = 1 ∧ fld w 17 0 = 0 then some (.ret m) else
  if fld w 23 18 = 2 ∧ fld w 17 0 = 0 then some (.rett m) else
  if fld w 23 18 = 3 ∧ fld w 17 0 = 0 then some (.upret m) else
  if fld w 23 18 = 4 ∧ fld w 17 0 = 0 then some (.exit m) else
  if fld w 23 18 = 5 ∧ fld w 17 0 = 0 then some (.yld m) else
  if fld w 23 18 = 6 then some (.trap m (BitVec.ofNat 18 (fld w 17 0))) else
  if fld w 23 18 = 7 then some (.bkpt m (BitVec.ofNat 18 (fld w 17 0))) else
  if fld w 23 18 = 8 ∧ fld w 17 2 = 0 then (do let sc ← Scope.ofCode (fld w 1 0); return .fence m sc) else
  if fld w 23 18 = 9 ∧ fld w 17 2 = 0 then (do let sc ← Scope.ofCode (fld w 1 0); return .fencesc m sc) else
  none

def decC1 (m : Bool) (w : Nat) : Option Instr :=
  some (.br m (BitVec.ofNat 24 (fld w 23 0)))

def decC2 (m : Bool) (w : Nat) : Option Instr :=
  some (.brp m (bit w 23) (Fin.ofNat 8 (fld w 22 20)) (BitVec.ofNat 20 (fld w 19 0)))

def decC3 (m : Bool) (w : Nat) : Option Instr :=
  some (.call m (BitVec.ofNat 24 (fld w 23 0)))

def decC4 (m : Bool) (w : Nat) : Option Instr :=
  some (.detach m (BitVec.ofNat 24 (fld w 23 0)))

def decC5 (m : Bool) (w : Nat) : Option Instr :=
  some (.attach m (BitVec.ofNat 24 (fld w 23 0)))

def decC6 (m : Bool) (w : Nat) : Option Instr :=
  (do let lvl ← finOf 3 (fld w 23 22); return .loop m lvl (BitVec.ofNat 12 (fld w 21 10)) (BitVec.ofNat 10 (fld w 9 0)))

def decC7 (m : Bool) (w : Nat) : Option Instr :=
  if fld w 16 10 = 0 then (do let lvl ← finOf 3 (fld w 23 22); return .loopr m lvl (Fin.ofNat 32 (fld w 21 17)) (BitVec.ofNat 10 (fld w 9 0))) else
  none

def decC8 (m : Bool) (w : Nat) : Option Instr :=
  if fld w 5 0 = 0 ∧ fld w 23 19 = 0 ∧ fld w 13 9 = 0 ∧ fld w 8 6 = 0 then some (.jmp m (Fin.ofNat 32 (fld w 18 14))) else
  if fld w 5 0 = 1 ∧ fld w 23 19 = 0 ∧ fld w 13 9 = 0 ∧ fld w 8 6 = 0 then some (.callr m (Fin.ofNat 32 (fld w 18 14))) else
  if fld w 5 0 = 2 ∧ fld w 13 9 = 0 ∧ fld w 8 6 = 0 then (do let lp ← finOf 9 (fld w 23 19); return .mvtl m lp (Fin.ofNat 32 (fld w 18 14))) else
  if fld w 5 0 = 3 ∧ fld w 13 9 = 0 ∧ fld w 8 6 = 0 then (do let lp ← finOf 9 (fld w 18 14); return .mvfl m (Fin.ofNat 32 (fld w 23 19)) lp) else
  if fld w 5 0 = 4 ∧ fld w 13 9 = 0 ∧ fld w 8 6 = 0 then (do let r ← SysReg.ofCode (fld w 18 14); return .mfs m (Fin.ofNat 32 (fld w 23 19)) r) else
  if fld w 5 0 = 5 ∧ fld w 13 9 = 0 ∧ fld w 8 6 = 0 then (do let r ← SysReg.ofCode (fld w 23 19); return .mts m r (Fin.ofNat 32 (fld w 18 14))) else
  if fld w 5 0 = 6 ∧ fld w 13 9 = 0 ∧ fld w 8 6 = 0 then some (.disc m (Fin.ofNat 32 (fld w 23 19)) (Fin.ofNat 32 (fld w 18 14))) else
  if fld w 5 0 = 7 ∧ fld w 18 14 = 0 ∧ fld w 13 9 = 0 ∧ fld w 8 6 = 0 then some (.cycle m (Fin.ofNat 32 (fld w 23 19))) else
  if fld w 5 0 = 8 ∧ fld w 23 19 = 0 ∧ fld w 8 6 = 0 then some (.seal m (Fin.ofNat 32 (fld w 18 14)) (Fin.ofNat 32 (fld w 13 9))) else
  if fld w 5 0 = 9 ∧ fld w 13 9 = 0 ∧ fld w 8 6 = 0 then some (.spawn m (Fin.ofNat 32 (fld w 23 19)) (Fin.ofNat 32 (fld w 18 14))) else
  none

def decC9 (m : Bool) (w : Nat) : Option Instr :=
  (do let sz ← MemSz.ofCode (fld w 13 11); return .ld m (Fin.ofNat 32 (fld w 23 19)) (Fin.ofNat 32 (fld w 18 14)) sz (BitVec.ofNat 11 (fld w 10 0)))

def decC10 (m : Bool) (w : Nat) : Option Instr :=
  (do let sz ← MemSz.ofCode (fld w 13 11); return .st m (Fin.ofNat 32 (fld w 23 19)) (Fin.ofNat 32 (fld w 18 14)) sz (BitVec.ofNat 11 (fld w 10 0)))

def decC11 (m : Bool) (w : Nat) : Option Instr :=
  (do let sz ← MemSz.ofCode (fld w 13 11); let sc ← Scope.ofCode (fld w 10 9); return .lda m (Fin.ofNat 32 (fld w 23 19)) (Fin.ofNat 32 (fld w 18 14)) sz sc (BitVec.ofNat 9 (fld w 8 0)))

def decC12 (m : Bool) (w : Nat) : Option Instr :=
  (do let sz ← MemSz.ofCode (fld w 13 11); let sc ← Scope.ofCode (fld w 10 9); return .stl m (Fin.ofNat 32 (fld w 23 19)) (Fin.ofNat 32 (fld w 18 14)) sz sc (BitVec.ofNat 9 (fld w 8 0)))

def decC13 (m : Bool) (w : Nat) : Option Instr :=
  (do let sz ← MemSz.ofCode (fld w 13 11); return .ldp m (Fin.ofNat 32 (fld w 23 19)) (Fin.ofNat 32 (fld w 18 14)) sz (BitVec.ofNat 11 (fld w 10 0)))

def decC14 (m : Bool) (w : Nat) : Option Instr :=
  (do let sz ← MemSz.ofCode (fld w 13 11); return .stp m (Fin.ofNat 32 (fld w 23 19)) (Fin.ofNat 32 (fld w 18 14)) sz (BitVec.ofNat 11 (fld w 10 0)))

def decC15 (m : Bool) (w : Nat) : Option Instr :=
  if fld w 13 11 = 0 then some (.vld m (Fin.ofNat 32 (fld w 23 19)) (Fin.ofNat 32 (fld w 18 14)) (BitVec.ofNat 11 (fld w 10 0))) else
  none

def decC16 (m : Bool) (w : Nat) : Option Instr :=
  if fld w 13 11 = 0 then some (.vst m (Fin.ofNat 32 (fld w 23 19)) (Fin.ofNat 32 (fld w 18 14)) (BitVec.ofNat 11 (fld w 10 0))) else
  none

def decC17 (m : Bool) (w : Nat) : Option Instr :=
  if fld w 13 11 = 0 then some (.vldp m (Fin.ofNat 32 (fld w 23 19)) (Fin.ofNat 32 (fld w 18 14)) (BitVec.ofNat 11 (fld w 10 0))) else
  none

def decC18 (m : Bool) (w : Nat) : Option Instr :=
  if fld w 13 11 = 0 then some (.vstp m (Fin.ofNat 32 (fld w 23 19)) (Fin.ofNat 32 (fld w 18 14)) (BitVec.ofNat 11 (fld w 10 0))) else
  none

def decC19 (m : Bool) (w : Nat) : Option Instr :=
  if fld w 5 0 = 0 then (do let sz ← MemSz.ofCode (fld w 8 6); return .vlds m (Fin.ofNat 32 (fld w 23 19)) (Fin.ofNat 32 (fld w 18 14)) (Fin.ofNat 32 (fld w 13 9)) sz) else
  if fld w 5 0 = 1 then (do let sz ← MemSz.ofCode (fld w 8 6); return .vsts m (Fin.ofNat 32 (fld w 23 19)) (Fin.ofNat 32 (fld w 18 14)) (Fin.ofNat 32 (fld w 13 9)) sz) else
  if fld w 5 0 = 2 then (do let sz ← MemSz.ofCode (fld w 8 6); return .vgath m (Fin.ofNat 32 (fld w 23 19)) (Fin.ofNat 32 (fld w 18 14)) (Fin.ofNat 32 (fld w 13 9)) sz) else
  if fld w 5 0 = 3 then (do let sz ← MemSz.ofCode (fld w 8 6); return .vscat m (Fin.ofNat 32 (fld w 23 19)) (Fin.ofNat 32 (fld w 18 14)) (Fin.ofNat 32 (fld w 13 9)) sz) else
  none

def decC20 (m : Bool) (w : Nat) : Option Instr :=
  if fld w 3 0 = 0 then (do let op ← AtomOp.ofCode (fld w 8 6); let ty ← AtomTy.ofCode (fld w 5 4); return .atom m (Fin.ofNat 32 (fld w 23 19)) (Fin.ofNat 32 (fld w 18 14)) (Fin.ofNat 32 (fld w 13 9)) op ty) else
  none

def decC21 (m : Bool) (w : Nat) : Option Instr :=
  if fld w 3 0 = 0 then (do let op ← AtomOp.ofCode (fld w 8 6); let ty ← AtomTy.ofCode (fld w 5 4); return .atomp m (Fin.ofNat 32 (fld w 23 19)) (Fin.ofNat 32 (fld w 18 14)) (Fin.ofNat 32 (fld w 13 9)) op ty) else
  none

def decC22 (m : Bool) (w : Nat) : Option Instr :=
  if fld w 5 0 = 0 ∧ fld w 23 19 = 0 ∧ fld w 18 14 = 0 ∧ fld w 13 9 = 0 then (do let id ← finOf 4 (fld w 8 6); return .bar m id) else
  if fld w 5 0 = 1 ∧ fld w 18 14 = 0 ∧ fld w 13 9 = 0 then (do let id ← finOf 4 (fld w 8 6); return .barq m (Fin.ofNat 32 (fld w 23 19)) id) else
  if fld w 5 0 = 2 ∧ fld w 13 9 = 0 then (do let op ← VoteOp.ofCode (fld w 8 6); return .vote m (Fin.ofNat 32 (fld w 23 19)) (Fin.ofNat 32 (fld w 18 14)) op) else
  if fld w 5 0 = 3 ∧ fld w 23 19 = 0 ∧ fld w 8 6 = 0 then (do let ring ← finOf 16 (fld w 13 9); return .rsub m (Fin.ofNat 32 (fld w 18 14)) ring) else
  if fld w 5 0 = 4 ∧ fld w 18 14 = 0 ∧ fld w 8 6 = 0 then (do let ring ← finOf 16 (fld w 13 9); return .rget m (Fin.ofNat 32 (fld w 23 19)) ring) else
  if fld w 5 0 = 5 ∧ fld w 23 19 = 0 ∧ fld w 18 14 = 0 ∧ fld w 8 6 = 0 then (do let ring ← finOf 16 (fld w 13 9); return .rput m ring) else
  if fld w 5 0 = 6 ∧ fld w 23 19 = 0 ∧ fld w 18 14 = 0 ∧ fld w 8 6 = 0 then (do let ring ← finOf 16 (fld w 13 9); return .rrel m ring) else
  none

def decC23 (m : Bool) (w : Nat) : Option Instr :=
  if fld w 1 0 = 0 then some (.barcfg m (Fin.ofNat 4 (fld w 23 22)) (BitVec.ofNat 5 (fld w 21 17)) (BitVec.ofNat 4 (fld w 16 13)) (BitVec.ofNat 5 (fld w 12 8)) (BitVec.ofNat 4 (fld w 7 4)) (BitVec.ofNat 2 (fld w 3 2))) else
  none

def decC24 (m : Bool) (w : Nat) : Option Instr :=
  if fld w 5 0 = 0 ∧ fld w 23 19 = 0 ∧ fld w 8 6 = 0 then some (.msend m (Fin.ofNat 32 (fld w 18 14)) (Fin.ofNat 32 (fld w 13 9))) else
  if fld w 5 0 = 1 ∧ fld w 8 6 = 0 then some (.mrecv m (Fin.ofNat 32 (fld w 23 19)) (Fin.ofNat 32 (fld w 18 14)) (Fin.ofNat 32 (fld w 13 9))) else
  if fld w 5 0 = 2 ∧ fld w 18 14 = 0 ∧ fld w 8 6 = 0 then some (.mprobe m (Fin.ofNat 32 (fld w 23 19)) (Fin.ofNat 32 (fld w 13 9))) else
  if fld w 5 0 = 3 ∧ fld w 23 19 = 0 ∧ fld w 13 9 = 0 ∧ fld w 8 6 = 0 then some (.mcast m (Fin.ofNat 32 (fld w 18 14))) else
  if fld w 5 0 = 4 ∧ fld w 23 19 = 0 ∧ fld w 13 9 = 0 ∧ fld w 8 6 = 0 then some (.mres m (Fin.ofNat 32 (fld w 18 14))) else
  none

/-- The C-word w (bit 31 is 0): its major selects the format (08 R157, R164). Before the operand checks of `Instr.wf`. -/
def rawC (w : Nat) : Option Instr :=
  let m := bit w 30
  match fld w 29 24 with
  | 0 => decC0 m w
  | 1 => decC1 m w
  | 2 => decC2 m w
  | 3 => decC3 m w
  | 4 => decC4 m w
  | 5 => decC5 m w
  | 6 => decC6 m w
  | 7 => decC7 m w
  | 8 => decC8 m w
  | 9 => decC9 m w
  | 10 => decC10 m w
  | 11 => decC11 m w
  | 12 => decC12 m w
  | 13 => decC13 m w
  | 14 => decC14 m w
  | 15 => decC15 m w
  | 16 => decC16 m w
  | 17 => decC17 m w
  | 18 => decC18 m w
  | 19 => decC19 m w
  | 20 => decC20 m w
  | 21 => decC21 m w
  | 22 => decC22 m w
  | 23 => decC23 m w
  | 24 => decC24 m w
  | _ => none

def decA0 (g : Guard) (w : Nat) : Option Instr :=
  if fld w 21 7 = 0 ∧ fld w 6 0 = 0 then some (.nopA g) else
  if fld w 6 0 = 1 then some (.add g (Fin.ofNat 32 (fld w 21 17)) (Fin.ofNat 32 (fld w 16 12)) (Fin.ofNat 32 (fld w 11 7))) else
  if fld w 6 0 = 2 then some (.sub g (Fin.ofNat 32 (fld w 21 17)) (Fin.ofNat 32 (fld w 16 12)) (Fin.ofNat 32 (fld w 11 7))) else
  if fld w 6 0 = 3 then some (.mul g (Fin.ofNat 32 (fld w 21 17)) (Fin.ofNat 32 (fld w 16 12)) (Fin.ofNat 32 (fld w 11 7))) else
  if fld w 6 0 = 4 then some (.mulh g (Fin.ofNat 32 (fld w 21 17)) (Fin.ofNat 32 (fld w 16 12)) (Fin.ofNat 32 (fld w 11 7))) else
  if fld w 6 0 = 5 then some (.mulhu g (Fin.ofNat 32 (fld w 21 17)) (Fin.ofNat 32 (fld w 16 12)) (Fin.ofNat 32 (fld w 11 7))) else
  if fld w 6 0 = 6 then some (.div g (Fin.ofNat 32 (fld w 21 17)) (Fin.ofNat 32 (fld w 16 12)) (Fin.ofNat 32 (fld w 11 7))) else
  if fld w 6 0 = 7 then some (.divu g (Fin.ofNat 32 (fld w 21 17)) (Fin.ofNat 32 (fld w 16 12)) (Fin.ofNat 32 (fld w 11 7))) else
  if fld w 6 0 = 8 then some (.rem g (Fin.ofNat 32 (fld w 21 17)) (Fin.ofNat 32 (fld w 16 12)) (Fin.ofNat 32 (fld w 11 7))) else
  if fld w 6 0 = 9 then some (.remu g (Fin.ofNat 32 (fld w 21 17)) (Fin.ofNat 32 (fld w 16 12)) (Fin.ofNat 32 (fld w 11 7))) else
  if fld w 6 0 = 10 then some (.and g (Fin.ofNat 32 (fld w 21 17)) (Fin.ofNat 32 (fld w 16 12)) (Fin.ofNat 32 (fld w 11 7))) else
  if fld w 6 0 = 11 then some (.or g (Fin.ofNat 32 (fld w 21 17)) (Fin.ofNat 32 (fld w 16 12)) (Fin.ofNat 32 (fld w 11 7))) else
  if fld w 6 0 = 12 then some (.xor g (Fin.ofNat 32 (fld w 21 17)) (Fin.ofNat 32 (fld w 16 12)) (Fin.ofNat 32 (fld w 11 7))) else
  if fld w 6 0 = 13 then some (.andn g (Fin.ofNat 32 (fld w 21 17)) (Fin.ofNat 32 (fld w 16 12)) (Fin.ofNat 32 (fld w 11 7))) else
  if fld w 6 0 = 14 then some (.shl g (Fin.ofNat 32 (fld w 21 17)) (Fin.ofNat 32 (fld w 16 12)) (Fin.ofNat 32 (fld w 11 7))) else
  if fld w 6 0 = 15 then some (.shr g (Fin.ofNat 32 (fld w 21 17)) (Fin.ofNat 32 (fld w 16 12)) (Fin.ofNat 32 (fld w 11 7))) else
  if fld w 6 0 = 16 then some (.sra g (Fin.ofNat 32 (fld w 21 17)) (Fin.ofNat 32 (fld w 16 12)) (Fin.ofNat 32 (fld w 11 7))) else
  if fld w 6 0 = 17 then some (.rotr g (Fin.ofNat 32 (fld w 21 17)) (Fin.ofNat 32 (fld w 16 12)) (Fin.ofNat 32 (fld w 11 7))) else
  if fld w 11 7 = 0 ∧ fld w 6 0 = 18 then some (.clz g (Fin.ofNat 32 (fld w 21 17)) (Fin.ofNat 32 (fld w 16 12))) else
  if fld w 11 7 = 0 ∧ fld w 6 0 = 19 then some (.ctz g (Fin.ofNat 32 (fld w 21 17)) (Fin.ofNat 32 (fld w 16 12))) else
  if fld w 11 7 = 0 ∧ fld w 6 0 = 20 then some (.popc g (Fin.ofNat 32 (fld w 21 17)) (Fin.ofNat 32 (fld w 16 12))) else
  if fld w 6 0 = 21 then some (.min g (Fin.ofNat 32 (fld w 21 17)) (Fin.ofNat 32 (fld w 16 12)) (Fin.ofNat 32 (fld w 11 7))) else
  if fld w 6 0 = 22 then some (.max g (Fin.ofNat 32 (fld w 21 17)) (Fin.ofNat 32 (fld w 16 12)) (Fin.ofNat 32 (fld w 11 7))) else
  if fld w 6 0 = 23 then some (.minu g (Fin.ofNat 32 (fld w 21 17)) (Fin.ofNat 32 (fld w 16 12)) (Fin.ofNat 32 (fld w 11 7))) else
  if fld w 6 0 = 24 then some (.maxu g (Fin.ofNat 32 (fld w 21 17)) (Fin.ofNat 32 (fld w 16 12)) (Fin.ofNat 32 (fld w 11 7))) else
  if fld w 11 7 = 0 ∧ fld w 6 0 = 25 then some (.mov g (Fin.ofNat 32 (fld w 21 17)) (Fin.ofNat 32 (fld w 16 12))) else
  if fld w 11 7 = 0 ∧ fld w 6 0 = 26 then some (.extb g (Fin.ofNat 32 (fld w 21 17)) (Fin.ofNat 32 (fld w 16 12))) else
  if fld w 11 7 = 0 ∧ fld w 6 0 = 27 then some (.exth g (Fin.ofNat 32 (fld w 21 17)) (Fin.ofNat 32 (fld w 16 12))) else
  if fld w 6 2 = 7 then some (.lea g (Fin.ofNat 32 (fld w 21 17)) (Fin.ofNat 32 (fld w 16 12)) (Fin.ofNat 32 (fld w 11 7)) (Fin.ofNat 4 (fld w 1 0))) else
  none

def decA1 (g : Guard) (w : Nat) : Option Instr :=
  if fld w 16 16 = 0 then some (.addi g (Fin.ofNat 32 (fld w 21 17)) (BitVec.ofNat 16 (fld w 15 0))) else
  none

def decA2 (g : Guard) (w : Nat) : Option Instr :=
  if fld w 16 16 = 0 then some (.andi g (Fin.ofNat 32 (fld w 21 17)) (BitVec.ofNat 16 (fld w 15 0))) else
  none

def decA3 (g : Guard) (w : Nat) : Option Instr :=
  if fld w 16 16 = 0 then some (.ori g (Fin.ofNat 32 (fld w 21 17)) (BitVec.ofNat 16 (fld w 15 0))) else
  none

def decA4 (g : Guard) (w : Nat) : Option Instr :=
  if fld w 16 16 = 0 then some (.xori g (Fin.ofNat 32 (fld w 21 17)) (BitVec.ofNat 16 (fld w 15 0))) else
  none

def decA5 (g : Guard) (w : Nat) : Option Instr :=
  if fld w 16 16 = 0 then some (.movi g (Fin.ofNat 32 (fld w 21 17)) (BitVec.ofNat 16 (fld w 15 0))) else
  none

def decA6 (g : Guard) (w : Nat) : Option Instr :=
  if fld w 5 0 = 0 then some (.shli g (Fin.ofNat 32 (fld w 21 17)) (Fin.ofNat 32 (fld w 16 12)) (BitVec.ofNat 6 (fld w 11 6))) else
  if fld w 5 0 = 1 then some (.shri g (Fin.ofNat 32 (fld w 21 17)) (Fin.ofNat 32 (fld w 16 12)) (BitVec.ofNat 6 (fld w 11 6))) else
  if fld w 5 0 = 2 then some (.srai g (Fin.ofNat 32 (fld w 21 17)) (Fin.ofNat 32 (fld w 16 12)) (BitVec.ofNat 6 (fld w 11 6))) else
  none

def decA7 (g : Guard) (w : Nat) : Option Instr :=
  if fld w 4 0 = 0 then (do let cond ← Cond.ofCode (fld w 8 5); return .cmp g (Fin.ofNat 8 (fld w 21 19)) (Fin.ofNat 32 (fld w 18 14)) (Fin.ofNat 32 (fld w 13 9)) cond) else
  none

def decA8 (g : Guard) (w : Nat) : Option Instr :=
  (do let cond ← Cond.ofCode (fld w 13 10); return .cmpi g (Fin.ofNat 8 (fld w 21 19)) (Fin.ofNat 32 (fld w 18 14)) cond (BitVec.ofNat 10 (fld w 9 0)))

def decA9 (g : Guard) (w : Nat) : Option Instr :=
  if fld w 12 2 = 0 ∧ fld w 1 0 = 0 then some (.pand g (Fin.ofNat 8 (fld w 21 19)) (Fin.ofNat 8 (fld w 18 16)) (Fin.ofNat 8 (fld w 15 13))) else
  if fld w 12 2 = 0 ∧ fld w 1 0 = 1 then some (.por g (Fin.ofNat 8 (fld w 21 19)) (Fin.ofNat 8 (fld w 18 16)) (Fin.ofNat 8 (fld w 15 13))) else
  if fld w 12 2 = 0 ∧ fld w 1 0 = 2 then some (.pxor g (Fin.ofNat 8 (fld w 21 19)) (Fin.ofNat 8 (fld w 18 16)) (Fin.ofNat 8 (fld w 15 13))) else
  if fld w 15 2 = 0 ∧ fld w 1 0 = 3 then some (.pnot g (Fin.ofNat 8 (fld w 21 19)) (Fin.ofNat 8 (fld w 18 16))) else
  none

def decA10 (g : Guard) (w : Nat) : Option Instr :=
  if fld w 3 0 = 0 then some (.sel g (Fin.ofNat 32 (fld w 21 17)) (Fin.ofNat 32 (fld w 16 12)) (Fin.ofNat 32 (fld w 11 7)) (Fin.ofNat 8 (fld w 6 4))) else
  none

def decA11 (g : Guard) (w : Nat) : Option Instr :=
  some (.tadr g (Fin.ofNat 32 (fld w 21 17)) (Fin.ofNat 32 (fld w 16 12)) (BitVec.ofNat 12 (fld w 11 0)))

def decA16 (g : Guard) (w : Nat) : Option Instr :=
  if fld w 2 0 = 0 then (do let ty ← ETy.ofCode (fld w 6 3); return .vadd g (Fin.ofNat 32 (fld w 21 17)) (Fin.ofNat 32 (fld w 16 12)) (Fin.ofNat 32 (fld w 11 7)) ty) else
  if fld w 2 0 = 1 then (do let ty ← ETy.ofCode (fld w 6 3); return .vsub g (Fin.ofNat 32 (fld w 21 17)) (Fin.ofNat 32 (fld w 16 12)) (Fin.ofNat 32 (fld w 11 7)) ty) else
  if fld w 2 0 = 2 then (do let ty ← ETy.ofCode (fld w 6 3); return .vmul g (Fin.ofNat 32 (fld w 21 17)) (Fin.ofNat 32 (fld w 16 12)) (Fin.ofNat 32 (fld w 11 7)) ty) else
  if fld w 2 0 = 3 then (do let ty ← ETy.ofCode (fld w 6 3); return .vdiv g (Fin.ofNat 32 (fld w 21 17)) (Fin.ofNat 32 (fld w 16 12)) (Fin.ofNat 32 (fld w 11 7)) ty) else
  if fld w 2 0 = 4 then (do let ty ← ETy.ofCode (fld w 6 3); return .vmin g (Fin.ofNat 32 (fld w 21 17)) (Fin.ofNat 32 (fld w 16 12)) (Fin.ofNat 32 (fld w 11 7)) ty) else
  if fld w 2 0 = 5 then (do let ty ← ETy.ofCode (fld w 6 3); return .vmax g (Fin.ofNat 32 (fld w 21 17)) (Fin.ofNat 32 (fld w 16 12)) (Fin.ofNat 32 (fld w 11 7)) ty) else
  if fld w 2 0 = 6 then (do let ty ← ETy.ofCode (fld w 6 3); return .vminn g (Fin.ofNat 32 (fld w 21 17)) (Fin.ofNat 32 (fld w 16 12)) (Fin.ofNat 32 (fld w 11 7)) ty) else
  if fld w 2 0 = 7 then (do let ty ← ETy.ofCode (fld w 6 3); return .vmaxn g (Fin.ofNat 32 (fld w 21 17)) (Fin.ofNat 32 (fld w 16 12)) (Fin.ofNat 32 (fld w 11 7)) ty) else
  none

def decA17 (g : Guard) (w : Nat) : Option Instr :=
  if fld w 11 7 = 0 ∧ fld w 2 0 = 0 then (do let ty ← ETy.ofCode (fld w 6 3); return .vsqrt g (Fin.ofNat 32 (fld w 21 17)) (Fin.ofNat 32 (fld w 16 12)) ty) else
  if fld w 11 7 = 0 ∧ fld w 2 0 = 1 then (do let ty ← ETy.ofCode (fld w 6 3); return .vrcp g (Fin.ofNat 32 (fld w 21 17)) (Fin.ofNat 32 (fld w 16 12)) ty) else
  if fld w 11 7 = 0 ∧ fld w 2 0 = 2 then (do let ty ← ETy.ofCode (fld w 6 3); return .vrsq g (Fin.ofNat 32 (fld w 21 17)) (Fin.ofNat 32 (fld w 16 12)) ty) else
  if fld w 11 7 = 0 ∧ fld w 2 0 = 3 then (do let ty ← ETy.ofCode (fld w 6 3); return .vexp2 g (Fin.ofNat 32 (fld w 21 17)) (Fin.ofNat 32 (fld w 16 12)) ty) else
  if fld w 11 7 = 0 ∧ fld w 2 0 = 4 then (do let ty ← ETy.ofCode (fld w 6 3); return .vlog2 g (Fin.ofNat 32 (fld w 21 17)) (Fin.ofNat 32 (fld w 16 12)) ty) else
  if fld w 11 7 = 0 ∧ fld w 2 0 = 5 then (do let ty ← ETy.ofCode (fld w 6 3); return .vabs g (Fin.ofNat 32 (fld w 21 17)) (Fin.ofNat 32 (fld w 16 12)) ty) else
  if fld w 11 7 = 0 ∧ fld w 2 0 = 6 then (do let ty ← ETy.ofCode (fld w 6 3); return .vneg g (Fin.ofNat 32 (fld w 21 17)) (Fin.ofNat 32 (fld w 16 12)) ty) else
  none

def decA18 (g : Guard) (w : Nat) : Option Instr :=
  if fld w 6 3 = 0 ∧ fld w 2 0 = 0 then some (.vand g (Fin.ofNat 32 (fld w 21 17)) (Fin.ofNat 32 (fld w 16 12)) (Fin.ofNat 32 (fld w 11 7))) else
  if fld w 6 3 = 0 ∧ fld w 2 0 = 1 then some (.vor g (Fin.ofNat 32 (fld w 21 17)) (Fin.ofNat 32 (fld w 16 12)) (Fin.ofNat 32 (fld w 11 7))) else
  if fld w 6 3 = 0 ∧ fld w 2 0 = 2 then some (.vxor g (Fin.ofNat 32 (fld w 21 17)) (Fin.ofNat 32 (fld w 16 12)) (Fin.ofNat 32 (fld w 11 7))) else
  if fld w 11 7 = 0 ∧ fld w 6 3 = 0 ∧ fld w 2 0 = 3 then some (.vnot g (Fin.ofNat 32 (fld w 21 17)) (Fin.ofNat 32 (fld w 16 12))) else
  if fld w 2 0 = 4 then (do let ty ← ETy.ofCode (fld w 6 3); return .vshl g (Fin.ofNat 32 (fld w 21 17)) (Fin.ofNat 32 (fld w 16 12)) (Fin.ofNat 32 (fld w 11 7)) ty) else
  if fld w 2 0 = 5 then (do let ty ← ETy.ofCode (fld w 6 3); return .vshr g (Fin.ofNat 32 (fld w 21 17)) (Fin.ofNat 32 (fld w 16 12)) (Fin.ofNat 32 (fld w 11 7)) ty) else
  if fld w 2 0 = 6 then (do let ty ← ETy.ofCode (fld w 6 3); return .vsra g (Fin.ofNat 32 (fld w 21 17)) (Fin.ofNat 32 (fld w 16 12)) (Fin.ofNat 32 (fld w 11 7)) ty) else
  none

def decA19 (g : Guard) (w : Nat) : Option Instr :=
  (do let f ← FTy.ofCode (fld w 1 0); return .vfma g (Fin.ofNat 32 (fld w 21 17)) (Fin.ofNat 32 (fld w 16 12)) (Fin.ofNat 32 (fld w 11 7)) (Fin.ofNat 32 (fld w 6 2)) f)

def decA20 (g : Guard) (w : Nat) : Option Instr :=
  (do let f ← FTy.ofCode (fld w 1 0); return .vfms g (Fin.ofNat 32 (fld w 21 17)) (Fin.ofNat 32 (fld w 16 12)) (Fin.ofNat 32 (fld w 11 7)) (Fin.ofNat 32 (fld w 6 2)) f)

def decA21 (g : Guard) (w : Nat) : Option Instr :=
  (do let f ← FTy.ofCode (fld w 1 0); return .vfnma g (Fin.ofNat 32 (fld w 21 17)) (Fin.ofNat 32 (fld w 16 12)) (Fin.ofNat 32 (fld w 11 7)) (Fin.ofNat 32 (fld w 6 2)) f)

def decA22 (g : Guard) (w : Nat) : Option Instr :=
  (do let ty ← ETy.ofCode (fld w 6 3); let cond ← VCond.ofCode (fld w 2 0); return .vcmp g (Fin.ofNat 32 (fld w 21 17)) (Fin.ofNat 32 (fld w 16 12)) (Fin.ofNat 32 (fld w 11 7)) ty cond)

def decA23 (g : Guard) (w : Nat) : Option Instr :=
  if fld w 1 0 = 0 then some (.vsel g (Fin.ofNat 32 (fld w 21 17)) (Fin.ofNat 32 (fld w 16 12)) (Fin.ofNat 32 (fld w 11 7)) (Fin.ofNat 32 (fld w 6 2))) else
  none

def decA24 (g : Guard) (w : Nat) : Option Instr :=
  (do let dt ← ETy.ofCode (fld w 11 8); let st ← ETy.ofCode (fld w 7 4); let rm ← Rm.ofCode (fld w 3 1); return .vcvt g (Fin.ofNat 32 (fld w 21 17)) (Fin.ofNat 32 (fld w 16 12)) dt st rm (bit w 0))

def decA25 (g : Guard) (w : Nat) : Option Instr :=
  if fld w 1 0 = 0 then (do let dt ← SrTy.ofCode (fld w 6 5); let st ← FTy.ofCode (fld w 4 3); return .vcvtSr g (Fin.ofNat 32 (fld w 21 17)) (Fin.ofNat 32 (fld w 16 12)) (Fin.ofNat 32 (fld w 11 7)) dt st (bit w 2)) else
  none

def decA26 (g : Guard) (w : Nat) : Option Instr :=
  if fld w 2 0 = 0 then (do let ty ← ETy.ofCode (fld w 6 3); return .vredadd g (Fin.ofNat 32 (fld w 21 17)) (Fin.ofNat 32 (fld w 16 12)) (Fin.ofNat 32 (fld w 11 7)) ty) else
  if fld w 2 0 = 1 then (do let ty ← ETy.ofCode (fld w 6 3); return .vredmax g (Fin.ofNat 32 (fld w 21 17)) (Fin.ofNat 32 (fld w 16 12)) (Fin.ofNat 32 (fld w 11 7)) ty) else
  if fld w 2 0 = 2 then (do let ty ← ETy.ofCode (fld w 6 3); return .vredmin g (Fin.ofNat 32 (fld w 21 17)) (Fin.ofNat 32 (fld w 16 12)) (Fin.ofNat 32 (fld w 11 7)) ty) else
  none

def decA27 (g : Guard) (w : Nat) : Option Instr :=
  if fld w 2 0 = 0 then (do let ty ← ETy.ofCode (fld w 6 3); return .vperm g (Fin.ofNat 32 (fld w 21 17)) (Fin.ofNat 32 (fld w 16 12)) (Fin.ofNat 32 (fld w 11 7)) ty) else
  if fld w 11 7 = 0 ∧ fld w 2 0 = 1 then (do let ty ← ETy.ofCode (fld w 6 3); return .vbcast g (Fin.ofNat 32 (fld w 21 17)) (Fin.ofNat 32 (fld w 16 12)) ty) else
  if fld w 2 0 = 2 then (do let ty ← ETy.ofCode (fld w 6 3); return .vslide g (Fin.ofNat 32 (fld w 21 17)) (Fin.ofNat 32 (fld w 16 12)) (Fin.ofNat 32 (fld w 11 7)) ty) else
  if fld w 16 12 = 0 ∧ fld w 11 7 = 0 ∧ fld w 2 0 = 3 then (do let ty ← ETy.ofCode (fld w 6 3); return .viota g (Fin.ofNat 32 (fld w 21 17)) ty) else
  if fld w 2 0 = 4 then (do let ty ← ETy.ofCode (fld w 6 3); return .vmovs g (Fin.ofNat 32 (fld w 21 17)) (Fin.ofNat 32 (fld w 16 12)) (Fin.ofNat 32 (fld w 11 7)) ty) else
  if fld w 2 0 = 5 then (do let ty ← ETy.ofCode (fld w 6 3); return .vext g (Fin.ofNat 32 (fld w 21 17)) (Fin.ofNat 32 (fld w 16 12)) (Fin.ofNat 32 (fld w 11 7)) ty) else
  none

def decA28 (g : Guard) (w : Nat) : Option Instr :=
  if fld w 2 0 = 0 then (do let ty ← ETy.ofCode (fld w 6 3); return .vsat g (Fin.ofNat 32 (fld w 21 17)) (Fin.ofNat 32 (fld w 16 12)) (Fin.ofNat 32 (fld w 11 7)) ty) else
  if fld w 2 0 = 1 then (do let ty ← ETy.ofCode (fld w 6 3); return .vclamp g (Fin.ofNat 32 (fld w 21 17)) (Fin.ofNat 32 (fld w 16 12)) (Fin.ofNat 32 (fld w 11 7)) ty) else
  if fld w 2 0 = 2 then (do let ty ← ETy.ofCode (fld w 6 3); return .vpack g (Fin.ofNat 32 (fld w 21 17)) (Fin.ofNat 32 (fld w 16 12)) (Fin.ofNat 32 (fld w 11 7)) ty) else
  if fld w 2 0 = 3 then (do let h ← flagOf (fld w 11 7); let ty ← ETy.ofCode (fld w 6 3); return .vunpk g (Fin.ofNat 32 (fld w 21 17)) (Fin.ofNat 32 (fld w 16 12)) h ty) else
  none

def decA48 (g : Guard) (w : Nat) : Option Instr :=
  if fld w 11 7 = 0 ∧ fld w 2 0 = 0 then (do let ty ← ETy.ofCode (fld w 6 3); return .vqmx g (Fin.ofNat 32 (fld w 21 17)) (Fin.ofNat 32 (fld w 16 12)) ty) else
  if fld w 11 7 = 0 ∧ fld w 2 0 = 1 then (do let ty ← ETy.ofCode (fld w 6 3); return .vdqmx g (Fin.ofNat 32 (fld w 21 17)) (Fin.ofNat 32 (fld w 16 12)) ty) else
  none

/-- The A-word w (08 R158, R165). Before the operand checks of `Instr.wf`. -/
def rawA (w : Nat) : Option Instr :=
  let g : Guard := Guard.mk (bit w 25) (Fin.ofNat 8 (fld w 24 22))
  match fld w 31 26 with
  | 0 => decA0 g w
  | 1 => decA1 g w
  | 2 => decA2 g w
  | 3 => decA3 g w
  | 4 => decA4 g w
  | 5 => decA5 g w
  | 6 => decA6 g w
  | 7 => decA7 g w
  | 8 => decA8 g w
  | 9 => decA9 g w
  | 10 => decA10 g w
  | 11 => decA11 g w
  | 16 => decA16 g w
  | 17 => decA17 g w
  | 18 => decA18 g w
  | 19 => decA19 g w
  | 20 => decA20 g w
  | 21 => decA21 g w
  | 22 => decA22 g w
  | 23 => decA23 g w
  | 24 => decA24 g w
  | 25 => decA25 g w
  | 26 => decA26 g w
  | 27 => decA27 g w
  | 28 => decA28 g w
  | 48 => decA48 g w
  | _ => none

def decL0 (m : Bool) (w : Nat) : Option Instr :=
  some (.liSigned m (Fin.ofNat 32 (fld w 23 19)) (BitVec.ofNat 51 (fld w 18 0 * 2 ^ 32 + fld w 63 32)))

def decL1 (m : Bool) (w : Nat) : Option Instr :=
  if fld w 18 16 = 0 then some (.liHbm m (Fin.ofNat 32 (fld w 23 19)) (BitVec.ofNat 48 (fld w 15 0 * 2 ^ 32 + fld w 63 32))) else
  none

def decL2 (m : Bool) (w : Nat) : Option Instr :=
  if fld w 18 8 = 0 then some (.liPeer m (Fin.ofNat 32 (fld w 23 19)) (BitVec.ofNat 40 (fld w 7 0 * 2 ^ 32 + fld w 63 32))) else
  none

def decL3 (m : Bool) (w : Nat) : Option Instr :=
  some (.liShifted m (Fin.ofNat 32 (fld w 23 19)) (BitVec.ofNat 51 (fld w 18 0 * 2 ^ 32 + fld w 63 32)))

def decL4 (m : Bool) (w : Nat) : Option Instr :=
  if fld w 10 0 = 0 then some (.rwait m (Fin.ofNat 16 (fld w 23 20)) (BitVec.ofNat 9 (fld w 19 11)) (BitVec.ofNat 32 (fld w 63 32))) else
  none

def decL5 (m : Bool) (w : Nat) : Option Instr :=
  if fld w 23 18 = 0 ∧ fld w 2 0 = 0 ∧ fld w 63 36 = 0 then some (.copy m (Fin.ofNat 32 (fld w 17 13)) (Fin.ofNat 32 (fld w 12 8)) (Fin.ofNat 32 (fld w 7 3)) (Fin.ofNat 16 (fld w 35 32))) else
  if fld w 23 18 = 1 ∧ fld w 2 0 = 0 ∧ fld w 12 8 = 0 ∧ fld w 7 3 = 0 ∧ fld w 63 36 = 0 then some (.copym m (Fin.ofNat 32 (fld w 17 13)) (Fin.ofNat 16 (fld w 35 32))) else
  if fld w 23 18 = 2 ∧ fld w 2 0 = 0 ∧ fld w 17 13 = 0 ∧ fld w 12 8 = 0 ∧ fld w 7 3 = 0 ∧ fld w 63 48 = 0 then some (.cwait m (BitVec.ofNat 16 (fld w 47 32))) else
  if fld w 23 18 = 3 ∧ fld w 2 0 = 0 ∧ fld w 17 13 = 0 ∧ fld w 12 8 = 0 ∧ fld w 63 32 = 0 then some (.cquery m (Fin.ofNat 32 (fld w 7 3))) else
  none

def decL48 (m : Bool) (w : Nat) : Option Instr :=
  if fld w 23 18 = 0 ∧ fld w 2 0 = 0 ∧ fld w 12 8 = 0 ∧ fld w 7 3 = 0 ∧ fld w 63 36 = 0 then some (.mlw m (Fin.ofNat 32 (fld w 17 13)) (Fin.ofNat 2 (fld w 32 32)) (BitVec.ofNat 3 (fld w 35 33))) else
  if fld w 23 18 = 1 ∧ fld w 2 0 = 0 ∧ fld w 17 13 = 0 ∧ fld w 12 8 = 0 ∧ fld w 7 3 = 0 ∧ fld w 63 37 = 0 then some (.mfmt m (Fin.ofNat 4 (fld w 33 32)) (BitVec.ofNat 3 (fld w 36 34))) else
  if fld w 23 18 = 2 ∧ fld w 2 0 = 0 ∧ fld w 63 41 = 0 then some (.mmul m (Fin.ofNat 32 (fld w 17 13)) (Fin.ofNat 32 (fld w 12 8)) (Fin.ofNat 32 (fld w 7 3)) (Fin.ofNat 8 (fld w 34 32)) (Fin.ofNat 2 (fld w 35 35)) (Fin.ofNat 4 (fld w 37 36)) (bit w 38) (BitVec.ofNat 2 (fld w 40 39))) else
  if fld w 23 18 = 3 ∧ fld w 2 0 = 0 ∧ fld w 12 8 = 0 ∧ fld w 7 3 = 0 ∧ fld w 63 38 = 0 then some (.mout m (Fin.ofNat 32 (fld w 17 13)) (BitVec.ofNat 6 (fld w 37 32))) else
  if fld w 23 18 = 4 ∧ fld w 2 0 = 0 ∧ fld w 7 3 = 0 ∧ fld w 63 45 = 0 then some (.mdrain m (Fin.ofNat 32 (fld w 17 13)) (Fin.ofNat 32 (fld w 12 8)) (Fin.ofNat 8 (fld w 34 32)) (BitVec.ofNat 10 (fld w 44 35))) else
  if fld w 23 18 = 5 ∧ fld w 2 0 = 0 ∧ fld w 17 13 = 0 ∧ fld w 12 8 = 0 ∧ fld w 63 35 = 0 then some (.mver m (Fin.ofNat 32 (fld w 7 3)) (Fin.ofNat 8 (fld w 34 32))) else
  if fld w 23 18 = 6 ∧ fld w 2 0 = 0 ∧ fld w 17 13 = 0 ∧ fld w 7 3 = 0 ∧ fld w 63 35 = 0 then some (.mzero m (Fin.ofNat 32 (fld w 12 8)) (Fin.ofNat 8 (fld w 34 32))) else
  if fld w 23 18 = 7 ∧ fld w 2 0 = 0 ∧ fld w 17 13 = 0 ∧ fld w 7 3 = 0 ∧ fld w 63 35 = 0 then some (.mwait m (Fin.ofNat 32 (fld w 12 8)) (Fin.ofNat 8 (fld w 34 32))) else
  none

def decL49 (m : Bool) (w : Nat) : Option Instr :=
  if fld w 23 18 = 0 ∧ fld w 2 0 = 0 ∧ fld w 12 8 = 0 ∧ fld w 7 3 = 0 ∧ fld w 63 41 = 0 then some (.opatch m (Fin.ofNat 32 (fld w 17 13)) (BitVec.ofNat 9 (fld w 40 32))) else
  if fld w 23 18 = 1 ∧ fld w 2 0 = 0 ∧ fld w 17 13 = 0 ∧ fld w 12 8 = 0 ∧ fld w 7 3 = 0 ∧ fld w 63 47 = 0 then some (.oclk m (Fin.ofNat 4 (fld w 33 32)) (BitVec.ofNat 13 (fld w 46 34))) else
  if fld w 23 18 = 2 ∧ fld w 2 0 = 0 ∧ fld w 12 8 = 0 ∧ fld w 7 3 = 0 ∧ fld w 63 49 = 0 ∧ fld w 33 32 = 0 ∧ fld w 47 44 = 0 ∧ fld w 48 48 = 0 then some (.osetY m (Fin.ofNat 32 (fld w 17 13)) (BitVec.ofNat 10 (fld w 43 34))) else
  if fld w 23 18 = 2 ∧ fld w 2 0 = 0 ∧ fld w 12 8 = 0 ∧ fld w 7 3 = 0 ∧ fld w 63 49 = 0 ∧ fld w 33 32 = 1 ∧ fld w 47 44 = 0 ∧ fld w 48 48 = 0 then some (.osetRes m (Fin.ofNat 32 (fld w 17 13)) (BitVec.ofNat 10 (fld w 43 34))) else
  if fld w 23 18 = 2 ∧ fld w 2 0 = 0 ∧ fld w 12 8 = 0 ∧ fld w 7 3 = 0 ∧ fld w 63 49 = 0 ∧ fld w 33 32 = 2 ∧ fld w 47 44 = 0 ∧ fld w 48 48 = 0 then some (.osetPort m (Fin.ofNat 32 (fld w 17 13)) (BitVec.ofNat 10 (fld w 43 34))) else
  if fld w 23 18 = 2 ∧ fld w 2 0 = 0 ∧ fld w 17 13 = 0 ∧ fld w 12 8 = 0 ∧ fld w 7 3 = 0 ∧ fld w 63 49 = 0 ∧ fld w 33 32 = 3 ∧ (fld w 48 48 = 0 ∨ fld w 47 44 = 0) then some (.osetBind m (BitVec.ofNat 10 (fld w 43 34)) (Fin.ofNat 16 (fld w 47 44)) (bit w 48)) else
  if fld w 23 18 = 3 ∧ fld w 2 0 = 0 ∧ fld w 17 13 = 0 ∧ fld w 12 8 = 0 ∧ fld w 63 44 = 0 ∧ fld w 33 32 = 0 then some (.ogetY m (Fin.ofNat 32 (fld w 7 3)) (BitVec.ofNat 10 (fld w 43 34))) else
  if fld w 23 18 = 3 ∧ fld w 2 0 = 0 ∧ fld w 17 13 = 0 ∧ fld w 12 8 = 0 ∧ fld w 63 44 = 0 ∧ fld w 33 32 = 1 then some (.ogetRes m (Fin.ofNat 32 (fld w 7 3)) (BitVec.ofNat 10 (fld w 43 34))) else
  if fld w 23 18 = 3 ∧ fld w 2 0 = 0 ∧ fld w 17 13 = 0 ∧ fld w 12 8 = 0 ∧ fld w 63 44 = 0 ∧ fld w 33 32 = 2 then some (.ogetTap m (Fin.ofNat 32 (fld w 7 3)) (BitVec.ofNat 10 (fld w 43 34))) else
  if fld w 23 18 = 3 ∧ fld w 2 0 = 0 ∧ fld w 17 13 = 0 ∧ fld w 12 8 = 0 ∧ fld w 63 44 = 0 ∧ fld w 33 32 = 3 then some (.ogetDom m (Fin.ofNat 32 (fld w 7 3)) (BitVec.ofNat 10 (fld w 43 34))) else
  if fld w 23 18 = 4 ∧ fld w 2 0 = 0 ∧ fld w 17 13 = 0 ∧ fld w 12 8 = 0 ∧ fld w 7 3 = 0 ∧ fld w 63 36 = 0 then some (.ostep m (BitVec.ofNat 4 (fld w 35 32))) else
  if fld w 23 18 = 5 ∧ fld w 2 0 = 0 ∧ fld w 12 8 = 0 ∧ fld w 7 3 = 0 ∧ fld w 63 36 = 0 then some (.orun m (Fin.ofNat 32 (fld w 17 13)) (BitVec.ofNat 4 (fld w 35 32))) else
  if fld w 23 18 = 6 ∧ fld w 2 0 = 0 ∧ fld w 17 13 = 0 ∧ fld w 12 8 = 0 ∧ fld w 7 3 = 0 ∧ fld w 63 36 = 0 then some (.ohalt m (BitVec.ofNat 4 (fld w 35 32))) else
  if fld w 23 18 = 7 ∧ fld w 2 0 = 0 ∧ fld w 12 8 = 0 ∧ fld w 7 3 = 0 ∧ fld w 63 32 = 0 then some (.osave m (Fin.ofNat 32 (fld w 17 13))) else
  if fld w 23 18 = 8 ∧ fld w 2 0 = 0 ∧ fld w 12 8 = 0 ∧ fld w 7 3 = 0 ∧ fld w 63 32 = 0 then some (.orst m (Fin.ofNat 32 (fld w 17 13))) else
  if fld w 23 18 = 9 ∧ fld w 2 0 = 0 ∧ fld w 12 8 = 0 ∧ fld w 7 3 = 0 ∧ fld w 63 36 = 0 then some (.otap m (Fin.ofNat 32 (fld w 17 13)) (Fin.ofNat 16 (fld w 35 32))) else
  none

def decL50 (m : Bool) (w : Nat) : Option Instr :=
  if fld w 23 18 = 0 ∧ fld w 2 0 = 0 ∧ fld w 12 8 = 0 ∧ fld w 63 32 = 0 then some (.tshape m (Fin.ofNat 32 (fld w 7 3)) (Fin.ofNat 32 (fld w 17 13))) else
  if fld w 23 18 = 1 ∧ fld w 2 0 = 0 ∧ fld w 12 8 = 0 ∧ fld w 63 32 = 0 then some (.tmap m (Fin.ofNat 32 (fld w 7 3)) (Fin.ofNat 32 (fld w 17 13))) else
  if fld w 23 18 = 2 ∧ fld w 2 0 = 0 ∧ fld w 12 8 = 0 ∧ fld w 7 3 = 0 ∧ fld w 63 32 = 0 then some (.tpress m (Fin.ofNat 32 (fld w 17 13))) else
  if fld w 23 18 = 3 ∧ fld w 2 0 = 0 ∧ fld w 12 8 = 0 ∧ fld w 7 3 = 0 ∧ fld w 63 33 = 0 then some (.tanchor m (Fin.ofNat 32 (fld w 17 13)) (bit w 32)) else
  if fld w 23 18 = 4 ∧ fld w 2 0 = 0 ∧ fld w 17 13 = 0 ∧ fld w 12 8 = 0 ∧ fld w 7 3 = 0 ∧ fld w 63 32 = 0 then some (.tfreeze m) else
  if fld w 23 18 = 5 ∧ fld w 2 0 = 0 ∧ fld w 17 13 = 0 ∧ fld w 12 8 = 0 ∧ fld w 7 3 = 0 ∧ fld w 63 32 = 0 then some (.tthaw m) else
  if fld w 23 18 = 6 ∧ fld w 2 0 = 0 ∧ fld w 17 13 = 0 ∧ fld w 12 8 = 0 ∧ fld w 7 3 = 0 ∧ fld w 63 32 = 0 then some (.tevac m) else
  none

/-- The lone bundle w: bits 31:0 are the C-word, bits 63:32 the extension word (08 R159, R166; 12 R259). Before the operand checks of `Instr.wf`. -/
def rawL (w : Nat) : Option Instr :=
  let m := bit w 30
  match fld w 29 24 with
  | 0 => decL0 m w
  | 1 => decL1 m w
  | 2 => decL2 m w
  | 3 => decL3 m w
  | 4 => decL4 m w
  | 5 => decL5 m w
  | 48 => decL48 m w
  | 49 => decL49 m w
  | 50 => decL50 m w
  | _ => none

/-- The instruction of a C-word, or none where it is not one (08 R167). -/
def decodeC (w : Nat) : Option Instr := (rawC w).filter Instr.wf

/-- The instruction of an A-word. -/
def decodeA (w : Nat) : Option Instr := (rawA w).filter Instr.wf

/-- The instruction of a lone bundle. -/
def decodeL (w : Nat) : Option Instr := (rawL w).filter Instr.wf

/-- A C-word or lone C-word in the extension space the C9 leaves unassigned (08 R168). -/
def extC (w : Nat) : Bool := decide (48 ≤ fld w 29 24)
def extL (w : Nat) : Bool := decide (51 ≤ fld w 29 24)

/-- An A-word in the unassigned extension space (08 R168). -/
def extA (w : Nat) : Bool := decide (49 ≤ fld w 31 26)

/-- What 64 bits at a bundle's address are (08 R155, R167 to R169): one lone instruction, a C and an A instruction,
a word that is not an instruction (which word), or, with a word in the extension space, the switch marker of that word, if it is word 0, and what
its words are. Words of the extension space come first: their fault is one of encoding, which every other fault yields to (08 R169). -/
inductive Bundle
  | lone (i : Instr)
  | pair (c a : Instr)
  | illegal (w1 : Bool)
  | extension (m : Bool) (is : List Instr)
  deriving DecidableEq, Repr

/-- Word 1 of a bundle, as what it is to be executed as. -/
def wordOne (w : Nat) : Instr :=
  if extA w then .emulation true else (decodeA w).getD (.illegalInstruction true)

/-- Word 0 is checked first; if it passes, word 1 (08 R169). -/
def decodeBundle (w : Nat) : Bundle :=
  let w0 := w % 2 ^ 32
  let w1 := w / 2 ^ 32 % 2 ^ 32
  if bit w0 31 then
    if extL w0 then .extension (bit w0 30) [.emulation false] else
    match decodeL (w % 2 ^ 64) with
    | some i => .lone i
    | none => .illegal false
  else if extC w0 then .extension (bit w0 30) [.emulation false, wordOne w1] else
    match decodeC w0 with
    | none => .illegal false
    | some c =>
      if extA w1 then .extension false [.emulation true, c] else
      match decodeA w1 with
      | none => .illegal true
      | some a => .pair c a

/-- Eight bytes as the hardware stores a bundle: word 0 at the lower address, each word little-endian (08 R155, 01 R21). -/
def bundleOfBytes (bs : List (BitVec 8)) : Nat :=
  bs.foldr (fun b acc => b.toNat + 256 * acc) 0

def bytesOfBundle (w : Nat) : List (BitVec 8) :=
  (List.range 8).map (fun i => BitVec.ofNat 8 (w / 256 ^ i))

/-- An instruction of nbits bits as a whole bundle. A 32-bit row of the table does not say which of the two words it is:
the word is taken as a C-word (with the A-word NOP) where it is one, else as an A-word (with the C-word NOP). -/
def tableBundle (nbits w : Nat) : Nat :=
  let v := w % 2 ^ nbits
  if 32 < nbits then v
  else if bit v 31 then
    match decodeA v with
    | some _ => v * 2 ^ 32
    | none => v
  else
    match decodeC v with
    | some _ => v
    | none => v * 2 ^ 32

/-- What the decoder reads from a row's bits (the bits above nbits are zero). -/
def decodeTableWord (nbits w : Nat) : Option Instr :=
  match decodeBundle (bundleOfBytes (bytesOfBundle (tableBundle nbits w))) with
  | .lone i => some i
  | .pair c a =>
    if tableBundle nbits w < 2 ^ 32 then some c else
    if tableBundle nbits w % 2 ^ 32 = 0 then some a else some c
  | .illegal _ => none
  | .extension _ _ => none

/-- What an instruction encodes to; an event has no encoding. -/
inductive Enc
  | cword (w : Nat)
  | aword (w : Nat)
  | lone (w : Nat)
  | event
  deriving DecidableEq, Repr

/-- The S bit and the lone bit of a C-word (08 R157, R159). -/
def sBit (m : Bool) : Nat := bitN m * 2 ^ 30
def loneBits (m : Bool) : Nat := 2 ^ 31 + bitN m * 2 ^ 30

/-- Bits 25:22 of an A-word (08 R158). -/
def guardBits (g : Guard) : Nat := bitN g.neg * 2 ^ 25 + g.p.val * 2 ^ 22

/-- A field's value at its lowest bit, over the rest of the word. -/
def put (x lo rest : Nat) : Nat := x * 2 ^ lo + rest

/-- The words of an instruction (08 R157 to R166, 12 R259). -/
def encode : Instr → Enc
  | .nopC m => .cword (put 0 0 (sBit m))
  | .ret m => .cword (put 262144 0 (sBit m))
  | .rett m => .cword (put 524288 0 (sBit m))
  | .upret m => .cword (put 786432 0 (sBit m))
  | .exit m => .cword (put 1048576 0 (sBit m))
  | .yld m => .cword (put 1310720 0 (sBit m))
  | .trap m imm => .cword (put (imm.toNat) 0 (put 1572864 0 (sBit m)))
  | .bkpt m imm => .cword (put (imm.toNat) 0 (put 1835008 0 (sBit m)))
  | .fence m sc => .cword (put (sc.code) 0 (put 2097152 0 (sBit m)))
  | .fencesc m sc => .cword (put (sc.code) 0 (put 2359296 0 (sBit m)))
  | .br m disp => .cword (put (disp.toNat) 0 (put 16777216 0 (sBit m)))
  | .brp m n p disp => .cword (put (disp.toNat) 0 (put (p.val) 20 (put (bitN n) 23 (put 33554432 0 (sBit m)))))
  | .call m disp => .cword (put (disp.toNat) 0 (put 50331648 0 (sBit m)))
  | .detach m disp => .cword (put (disp.toNat) 0 (put 67108864 0 (sBit m)))
  | .attach m disp => .cword (put (disp.toNat) 0 (put 83886080 0 (sBit m)))
  | .loop m lvl count fin => .cword (put (fin.toNat) 0 (put (count.toNat) 10 (put (lvl.val) 22 (put 100663296 0 (sBit m)))))
  | .loopr m lvl a fin => .cword (put (fin.toNat) 0 (put (a.val) 17 (put (lvl.val) 22 (put 117440512 0 (sBit m)))))
  | .jmp m a => .cword (put (a.val) 14 (put 134217728 0 (sBit m)))
  | .callr m a => .cword (put (a.val) 14 (put 134217729 0 (sBit m)))
  | .mvtl m lp a => .cword (put (a.val) 14 (put (lp.val) 19 (put 134217730 0 (sBit m))))
  | .mvfl m d lp => .cword (put (lp.val) 14 (put (d.val) 19 (put 134217731 0 (sBit m))))
  | .mfs m d r => .cword (put (r.code) 14 (put (d.val) 19 (put 134217732 0 (sBit m))))
  | .mts m r a => .cword (put (a.val) 14 (put (r.code) 19 (put 134217733 0 (sBit m))))
  | .disc m d n => .cword (put (n.val) 14 (put (d.val) 19 (put 134217734 0 (sBit m))))
  | .cycle m d => .cword (put (d.val) 19 (put 134217735 0 (sBit m)))
  | .seal m a b => .cword (put (b.val) 9 (put (a.val) 14 (put 134217736 0 (sBit m))))
  | .spawn m d a => .cword (put (a.val) 14 (put (d.val) 19 (put 134217737 0 (sBit m))))
  | .ld m d a sz disp => .cword (put (disp.toNat) 0 (put (sz.code) 11 (put (a.val) 14 (put (d.val) 19 (put 150994944 0 (sBit m))))))
  | .st m d a sz disp => .cword (put (disp.toNat) 0 (put (sz.code) 11 (put (a.val) 14 (put (d.val) 19 (put 167772160 0 (sBit m))))))
  | .lda m d a sz sc disp => .cword (put (disp.toNat) 0 (put (sc.code) 9 (put (sz.code) 11 (put (a.val) 14 (put (d.val) 19 (put 184549376 0 (sBit m)))))))
  | .stl m d a sz sc disp => .cword (put (disp.toNat) 0 (put (sc.code) 9 (put (sz.code) 11 (put (a.val) 14 (put (d.val) 19 (put 201326592 0 (sBit m)))))))
  | .ldp m d a sz disp => .cword (put (disp.toNat) 0 (put (sz.code) 11 (put (a.val) 14 (put (d.val) 19 (put 218103808 0 (sBit m))))))
  | .stp m d a sz disp => .cword (put (disp.toNat) 0 (put (sz.code) 11 (put (a.val) 14 (put (d.val) 19 (put 234881024 0 (sBit m))))))
  | .vld m d a disp => .cword (put (disp.toNat) 0 (put (a.val) 14 (put (d.val) 19 (put 251658240 0 (sBit m)))))
  | .vst m d a disp => .cword (put (disp.toNat) 0 (put (a.val) 14 (put (d.val) 19 (put 268435456 0 (sBit m)))))
  | .vldp m d a disp => .cword (put (disp.toNat) 0 (put (a.val) 14 (put (d.val) 19 (put 285212672 0 (sBit m)))))
  | .vstp m d a disp => .cword (put (disp.toNat) 0 (put (a.val) 14 (put (d.val) 19 (put 301989888 0 (sBit m)))))
  | .vlds m d a b sz => .cword (put (sz.code) 6 (put (b.val) 9 (put (a.val) 14 (put (d.val) 19 (put 318767104 0 (sBit m))))))
  | .vsts m d a b sz => .cword (put (sz.code) 6 (put (b.val) 9 (put (a.val) 14 (put (d.val) 19 (put 318767105 0 (sBit m))))))
  | .vgath m d a b sz => .cword (put (sz.code) 6 (put (b.val) 9 (put (a.val) 14 (put (d.val) 19 (put 318767106 0 (sBit m))))))
  | .vscat m d a b sz => .cword (put (sz.code) 6 (put (b.val) 9 (put (a.val) 14 (put (d.val) 19 (put 318767107 0 (sBit m))))))
  | .atom m d a b op ty => .cword (put (ty.code) 4 (put (op.code) 6 (put (b.val) 9 (put (a.val) 14 (put (d.val) 19 (put 335544320 0 (sBit m)))))))
  | .atomp m d a b op ty => .cword (put (ty.code) 4 (put (op.code) 6 (put (b.val) 9 (put (a.val) 14 (put (d.val) 19 (put 352321536 0 (sBit m)))))))
  | .bar m id => .cword (put (id.val) 6 (put 369098752 0 (sBit m)))
  | .barq m d id => .cword (put (id.val) 6 (put (d.val) 19 (put 369098753 0 (sBit m))))
  | .vote m d a op => .cword (put (op.code) 6 (put (a.val) 14 (put (d.val) 19 (put 369098754 0 (sBit m)))))
  | .rsub m a ring => .cword (put (ring.val) 9 (put (a.val) 14 (put 369098755 0 (sBit m))))
  | .rget m d ring => .cword (put (ring.val) 9 (put (d.val) 19 (put 369098756 0 (sBit m))))
  | .rput m ring => .cword (put (ring.val) 9 (put 369098757 0 (sBit m)))
  | .rrel m ring => .cword (put (ring.val) 9 (put 369098758 0 (sBit m)))
  | .barcfg m id x0 y0 x1 y1 cnt => .cword (put (cnt.toNat) 2 (put (y1.toNat) 4 (put (x1.toNat) 8 (put (y0.toNat) 13 (put (x0.toNat) 17 (put (id.val) 22 (put 385875968 0 (sBit m))))))))
  | .msend m a b => .cword (put (b.val) 9 (put (a.val) 14 (put 402653184 0 (sBit m))))
  | .mrecv m d a b => .cword (put (b.val) 9 (put (a.val) 14 (put (d.val) 19 (put 402653185 0 (sBit m)))))
  | .mprobe m d b => .cword (put (b.val) 9 (put (d.val) 19 (put 402653186 0 (sBit m))))
  | .mcast m a => .cword (put (a.val) 14 (put 402653187 0 (sBit m)))
  | .mres m a => .cword (put (a.val) 14 (put 402653188 0 (sBit m)))
  | .nopA g => .aword (put 0 0 (guardBits g))
  | .add g d a b => .aword (put (b.val) 7 (put (a.val) 12 (put (d.val) 17 (put 1 0 (guardBits g)))))
  | .sub g d a b => .aword (put (b.val) 7 (put (a.val) 12 (put (d.val) 17 (put 2 0 (guardBits g)))))
  | .mul g d a b => .aword (put (b.val) 7 (put (a.val) 12 (put (d.val) 17 (put 3 0 (guardBits g)))))
  | .mulh g d a b => .aword (put (b.val) 7 (put (a.val) 12 (put (d.val) 17 (put 4 0 (guardBits g)))))
  | .mulhu g d a b => .aword (put (b.val) 7 (put (a.val) 12 (put (d.val) 17 (put 5 0 (guardBits g)))))
  | .div g d a b => .aword (put (b.val) 7 (put (a.val) 12 (put (d.val) 17 (put 6 0 (guardBits g)))))
  | .divu g d a b => .aword (put (b.val) 7 (put (a.val) 12 (put (d.val) 17 (put 7 0 (guardBits g)))))
  | .rem g d a b => .aword (put (b.val) 7 (put (a.val) 12 (put (d.val) 17 (put 8 0 (guardBits g)))))
  | .remu g d a b => .aword (put (b.val) 7 (put (a.val) 12 (put (d.val) 17 (put 9 0 (guardBits g)))))
  | .and g d a b => .aword (put (b.val) 7 (put (a.val) 12 (put (d.val) 17 (put 10 0 (guardBits g)))))
  | .or g d a b => .aword (put (b.val) 7 (put (a.val) 12 (put (d.val) 17 (put 11 0 (guardBits g)))))
  | .xor g d a b => .aword (put (b.val) 7 (put (a.val) 12 (put (d.val) 17 (put 12 0 (guardBits g)))))
  | .andn g d a b => .aword (put (b.val) 7 (put (a.val) 12 (put (d.val) 17 (put 13 0 (guardBits g)))))
  | .shl g d a b => .aword (put (b.val) 7 (put (a.val) 12 (put (d.val) 17 (put 14 0 (guardBits g)))))
  | .shr g d a b => .aword (put (b.val) 7 (put (a.val) 12 (put (d.val) 17 (put 15 0 (guardBits g)))))
  | .sra g d a b => .aword (put (b.val) 7 (put (a.val) 12 (put (d.val) 17 (put 16 0 (guardBits g)))))
  | .rotr g d a b => .aword (put (b.val) 7 (put (a.val) 12 (put (d.val) 17 (put 17 0 (guardBits g)))))
  | .clz g d a => .aword (put (a.val) 12 (put (d.val) 17 (put 18 0 (guardBits g))))
  | .ctz g d a => .aword (put (a.val) 12 (put (d.val) 17 (put 19 0 (guardBits g))))
  | .popc g d a => .aword (put (a.val) 12 (put (d.val) 17 (put 20 0 (guardBits g))))
  | .min g d a b => .aword (put (b.val) 7 (put (a.val) 12 (put (d.val) 17 (put 21 0 (guardBits g)))))
  | .max g d a b => .aword (put (b.val) 7 (put (a.val) 12 (put (d.val) 17 (put 22 0 (guardBits g)))))
  | .minu g d a b => .aword (put (b.val) 7 (put (a.val) 12 (put (d.val) 17 (put 23 0 (guardBits g)))))
  | .maxu g d a b => .aword (put (b.val) 7 (put (a.val) 12 (put (d.val) 17 (put 24 0 (guardBits g)))))
  | .mov g d a => .aword (put (a.val) 12 (put (d.val) 17 (put 25 0 (guardBits g))))
  | .extb g d a => .aword (put (a.val) 12 (put (d.val) 17 (put 26 0 (guardBits g))))
  | .exth g d a => .aword (put (a.val) 12 (put (d.val) 17 (put 27 0 (guardBits g))))
  | .lea g d a b k => .aword (put (k.val) 0 (put (b.val) 7 (put (a.val) 12 (put (d.val) 17 (put 28 0 (guardBits g))))))
  | .addi g d imm => .aword (put (imm.toNat) 0 (put (d.val) 17 (put 67108864 0 (guardBits g))))
  | .andi g d imm => .aword (put (imm.toNat) 0 (put (d.val) 17 (put 134217728 0 (guardBits g))))
  | .ori g d imm => .aword (put (imm.toNat) 0 (put (d.val) 17 (put 201326592 0 (guardBits g))))
  | .xori g d imm => .aword (put (imm.toNat) 0 (put (d.val) 17 (put 268435456 0 (guardBits g))))
  | .movi g d imm => .aword (put (imm.toNat) 0 (put (d.val) 17 (put 335544320 0 (guardBits g))))
  | .shli g d a sh => .aword (put (sh.toNat) 6 (put (a.val) 12 (put (d.val) 17 (put 402653184 0 (guardBits g)))))
  | .shri g d a sh => .aword (put (sh.toNat) 6 (put (a.val) 12 (put (d.val) 17 (put 402653185 0 (guardBits g)))))
  | .srai g d a sh => .aword (put (sh.toNat) 6 (put (a.val) 12 (put (d.val) 17 (put 402653186 0 (guardBits g)))))
  | .cmp g pd a b cond => .aword (put (cond.code) 5 (put (b.val) 9 (put (a.val) 14 (put (pd.val) 19 (put 469762048 0 (guardBits g))))))
  | .cmpi g pd a cond imm => .aword (put (imm.toNat) 0 (put (cond.code) 10 (put (a.val) 14 (put (pd.val) 19 (put 536870912 0 (guardBits g))))))
  | .pand g pd pa pb => .aword (put (pb.val) 13 (put (pa.val) 16 (put (pd.val) 19 (put 603979776 0 (guardBits g)))))
  | .por g pd pa pb => .aword (put (pb.val) 13 (put (pa.val) 16 (put (pd.val) 19 (put 603979777 0 (guardBits g)))))
  | .pxor g pd pa pb => .aword (put (pb.val) 13 (put (pa.val) 16 (put (pd.val) 19 (put 603979778 0 (guardBits g)))))
  | .pnot g pd pa => .aword (put (pa.val) 16 (put (pd.val) 19 (put 603979779 0 (guardBits g))))
  | .sel g d a b pc => .aword (put (pc.val) 4 (put (b.val) 7 (put (a.val) 12 (put (d.val) 17 (put 671088640 0 (guardBits g))))))
  | .tadr g d a imm => .aword (put (imm.toNat) 0 (put (a.val) 12 (put (d.val) 17 (put 738197504 0 (guardBits g)))))
  | .vadd g d a b ty => .aword (put (ty.code) 3 (put (b.val) 7 (put (a.val) 12 (put (d.val) 17 (put 1073741824 0 (guardBits g))))))
  | .vsub g d a b ty => .aword (put (ty.code) 3 (put (b.val) 7 (put (a.val) 12 (put (d.val) 17 (put 1073741825 0 (guardBits g))))))
  | .vmul g d a b ty => .aword (put (ty.code) 3 (put (b.val) 7 (put (a.val) 12 (put (d.val) 17 (put 1073741826 0 (guardBits g))))))
  | .vdiv g d a b ty => .aword (put (ty.code) 3 (put (b.val) 7 (put (a.val) 12 (put (d.val) 17 (put 1073741827 0 (guardBits g))))))
  | .vmin g d a b ty => .aword (put (ty.code) 3 (put (b.val) 7 (put (a.val) 12 (put (d.val) 17 (put 1073741828 0 (guardBits g))))))
  | .vmax g d a b ty => .aword (put (ty.code) 3 (put (b.val) 7 (put (a.val) 12 (put (d.val) 17 (put 1073741829 0 (guardBits g))))))
  | .vminn g d a b ty => .aword (put (ty.code) 3 (put (b.val) 7 (put (a.val) 12 (put (d.val) 17 (put 1073741830 0 (guardBits g))))))
  | .vmaxn g d a b ty => .aword (put (ty.code) 3 (put (b.val) 7 (put (a.val) 12 (put (d.val) 17 (put 1073741831 0 (guardBits g))))))
  | .vsqrt g d a ty => .aword (put (ty.code) 3 (put (a.val) 12 (put (d.val) 17 (put 1140850688 0 (guardBits g)))))
  | .vrcp g d a ty => .aword (put (ty.code) 3 (put (a.val) 12 (put (d.val) 17 (put 1140850689 0 (guardBits g)))))
  | .vrsq g d a ty => .aword (put (ty.code) 3 (put (a.val) 12 (put (d.val) 17 (put 1140850690 0 (guardBits g)))))
  | .vexp2 g d a ty => .aword (put (ty.code) 3 (put (a.val) 12 (put (d.val) 17 (put 1140850691 0 (guardBits g)))))
  | .vlog2 g d a ty => .aword (put (ty.code) 3 (put (a.val) 12 (put (d.val) 17 (put 1140850692 0 (guardBits g)))))
  | .vabs g d a ty => .aword (put (ty.code) 3 (put (a.val) 12 (put (d.val) 17 (put 1140850693 0 (guardBits g)))))
  | .vneg g d a ty => .aword (put (ty.code) 3 (put (a.val) 12 (put (d.val) 17 (put 1140850694 0 (guardBits g)))))
  | .vand g d a b => .aword (put (b.val) 7 (put (a.val) 12 (put (d.val) 17 (put 1207959552 0 (guardBits g)))))
  | .vor g d a b => .aword (put (b.val) 7 (put (a.val) 12 (put (d.val) 17 (put 1207959553 0 (guardBits g)))))
  | .vxor g d a b => .aword (put (b.val) 7 (put (a.val) 12 (put (d.val) 17 (put 1207959554 0 (guardBits g)))))
  | .vnot g d a => .aword (put (a.val) 12 (put (d.val) 17 (put 1207959555 0 (guardBits g))))
  | .vshl g d a b ty => .aword (put (ty.code) 3 (put (b.val) 7 (put (a.val) 12 (put (d.val) 17 (put 1207959556 0 (guardBits g))))))
  | .vshr g d a b ty => .aword (put (ty.code) 3 (put (b.val) 7 (put (a.val) 12 (put (d.val) 17 (put 1207959557 0 (guardBits g))))))
  | .vsra g d a b ty => .aword (put (ty.code) 3 (put (b.val) 7 (put (a.val) 12 (put (d.val) 17 (put 1207959558 0 (guardBits g))))))
  | .vfma g d a b c f => .aword (put (f.code) 0 (put (c.val) 2 (put (b.val) 7 (put (a.val) 12 (put (d.val) 17 (put 1275068416 0 (guardBits g)))))))
  | .vfms g d a b c f => .aword (put (f.code) 0 (put (c.val) 2 (put (b.val) 7 (put (a.val) 12 (put (d.val) 17 (put 1342177280 0 (guardBits g)))))))
  | .vfnma g d a b c f => .aword (put (f.code) 0 (put (c.val) 2 (put (b.val) 7 (put (a.val) 12 (put (d.val) 17 (put 1409286144 0 (guardBits g)))))))
  | .vcmp g d a b ty cond => .aword (put (cond.code) 0 (put (ty.code) 3 (put (b.val) 7 (put (a.val) 12 (put (d.val) 17 (put 1476395008 0 (guardBits g)))))))
  | .vsel g d a b c => .aword (put (c.val) 2 (put (b.val) 7 (put (a.val) 12 (put (d.val) 17 (put 1543503872 0 (guardBits g))))))
  | .vcvt g d a dt st rm sat => .aword (put (bitN sat) 0 (put (rm.code) 1 (put (st.code) 4 (put (dt.code) 8 (put (a.val) 12 (put (d.val) 17 (put 1610612736 0 (guardBits g))))))))
  | .vcvtSr g d a b dt st sat => .aword (put (bitN sat) 2 (put (st.code) 3 (put (dt.code) 5 (put (b.val) 7 (put (a.val) 12 (put (d.val) 17 (put 1677721600 0 (guardBits g))))))))
  | .vredadd g d a n ty => .aword (put (ty.code) 3 (put (n.val) 7 (put (a.val) 12 (put (d.val) 17 (put 1744830464 0 (guardBits g))))))
  | .vredmax g d a n ty => .aword (put (ty.code) 3 (put (n.val) 7 (put (a.val) 12 (put (d.val) 17 (put 1744830465 0 (guardBits g))))))
  | .vredmin g d a n ty => .aword (put (ty.code) 3 (put (n.val) 7 (put (a.val) 12 (put (d.val) 17 (put 1744830466 0 (guardBits g))))))
  | .vperm g d a b ty => .aword (put (ty.code) 3 (put (b.val) 7 (put (a.val) 12 (put (d.val) 17 (put 1811939328 0 (guardBits g))))))
  | .vbcast g d a ty => .aword (put (ty.code) 3 (put (a.val) 12 (put (d.val) 17 (put 1811939329 0 (guardBits g)))))
  | .vslide g d a b ty => .aword (put (ty.code) 3 (put (b.val) 7 (put (a.val) 12 (put (d.val) 17 (put 1811939330 0 (guardBits g))))))
  | .viota g d ty => .aword (put (ty.code) 3 (put (d.val) 17 (put 1811939331 0 (guardBits g))))
  | .vmovs g d a b ty => .aword (put (ty.code) 3 (put (b.val) 7 (put (a.val) 12 (put (d.val) 17 (put 1811939332 0 (guardBits g))))))
  | .vext g d a b ty => .aword (put (ty.code) 3 (put (b.val) 7 (put (a.val) 12 (put (d.val) 17 (put 1811939333 0 (guardBits g))))))
  | .vsat g d a k ty => .aword (put (ty.code) 3 (put (k.val) 7 (put (a.val) 12 (put (d.val) 17 (put 1879048192 0 (guardBits g))))))
  | .vclamp g d a b ty => .aword (put (ty.code) 3 (put (b.val) 7 (put (a.val) 12 (put (d.val) 17 (put 1879048193 0 (guardBits g))))))
  | .vpack g d a b ty => .aword (put (ty.code) 3 (put (b.val) 7 (put (a.val) 12 (put (d.val) 17 (put 1879048194 0 (guardBits g))))))
  | .vunpk g d a h ty => .aword (put (ty.code) 3 (put (bitN h) 7 (put (a.val) 12 (put (d.val) 17 (put 1879048195 0 (guardBits g))))))
  | .vqmx g d a ty => .aword (put (ty.code) 3 (put (a.val) 12 (put (d.val) 17 (put 3221225472 0 (guardBits g)))))
  | .vdqmx g d a ty => .aword (put (ty.code) 3 (put (a.val) 12 (put (d.val) 17 (put 3221225473 0 (guardBits g)))))
  | .liSigned m d p => .lone (put (p.toNat / 4294967296) 0 (put (p.toNat % 4294967296) 32 (put (d.val) 19 (put 0 0 (loneBits m)))))
  | .liHbm m d p => .lone (put (p.toNat / 4294967296) 0 (put (p.toNat % 4294967296) 32 (put (d.val) 19 (put 16777216 0 (loneBits m)))))
  | .liPeer m d p => .lone (put (p.toNat / 4294967296) 0 (put (p.toNat % 4294967296) 32 (put (d.val) 19 (put 33554432 0 (loneBits m)))))
  | .liShifted m d p => .lone (put (p.toNat / 4294967296) 0 (put (p.toNat % 4294967296) 32 (put (d.val) 19 (put 50331648 0 (loneBits m)))))
  | .rwait m ring n limit => .lone (put (limit.toNat) 32 (put (n.toNat) 11 (put (ring.val) 20 (put 67108864 0 (loneBits m)))))
  | .copy m a b c tag => .lone (put (tag.val) 32 (put (c.val) 3 (put (b.val) 8 (put (a.val) 13 (put 83886080 0 (loneBits m))))))
  | .copym m a tag => .lone (put (tag.val) 32 (put (a.val) 13 (put 84148224 0 (loneBits m))))
  | .cwait m mask => .lone (put (mask.toNat) 32 (put 84410368 0 (loneBits m)))
  | .cquery m d => .lone (put (d.val) 3 (put 84672512 0 (loneBits m)))
  | .mlw m a bank fmt => .lone (put (fmt.toNat) 33 (put (bank.val) 32 (put (a.val) 13 (put 805306368 0 (loneBits m)))))
  | .mfmt m stream fmt => .lone (put (fmt.toNat) 34 (put (stream.val) 32 (put 805568512 0 (loneBits m))))
  | .mmul m a b c acc bank stream f32 m1 => .lone (put (m1.toNat) 39 (put (bitN f32) 38 (put (stream.val) 36 (put (bank.val) 35 (put (acc.val) 32 (put (c.val) 3 (put (b.val) 8 (put (a.val) 13 (put 805830656 0 (loneBits m))))))))))
  | .mout m a cnt => .lone (put (cnt.toNat) 32 (put (a.val) 13 (put 806092800 0 (loneBits m))))
  | .mdrain m a b acc cnt => .lone (put (cnt.toNat) 35 (put (acc.val) 32 (put (b.val) 8 (put (a.val) 13 (put 806354944 0 (loneBits m))))))
  | .mver m d acc => .lone (put (acc.val) 32 (put (d.val) 3 (put 806617088 0 (loneBits m))))
  | .mzero m b acc => .lone (put (acc.val) 32 (put (b.val) 8 (put 806879232 0 (loneBits m))))
  | .mwait m b acc => .lone (put (acc.val) 32 (put (b.val) 8 (put 807141376 0 (loneBits m))))
  | .opatch m a cnt => .lone (put (cnt.toNat) 32 (put (a.val) 13 (put 822083584 0 (loneBits m))))
  | .oclk m dom n => .lone (put (n.toNat) 34 (put (dom.val) 32 (put 822345728 0 (loneBits m))))
  | .osetY m a cell => .lone (put (cell.toNat) 34 (put (a.val) 13 (put 822607872 0 (loneBits m))))
  | .osetRes m a cell => .lone (put (cell.toNat) 34 (put (a.val) 13 (put 5117575168 0 (loneBits m))))
  | .osetPort m a port => .lone (put (port.toNat) 34 (put (a.val) 13 (put 9412542464 0 (loneBits m))))
  | .osetBind m port ring unb => .lone (put (bitN unb) 48 (put (ring.val) 44 (put (port.toNat) 34 (put 13707509760 0 (loneBits m)))))
  | .ogetY m d cell => .lone (put (cell.toNat) 34 (put (d.val) 3 (put 822870016 0 (loneBits m))))
  | .ogetRes m d cell => .lone (put (cell.toNat) 34 (put (d.val) 3 (put 5117837312 0 (loneBits m))))
  | .ogetTap m d tap => .lone (put (tap.toNat) 34 (put (d.val) 3 (put 9412804608 0 (loneBits m))))
  | .ogetDom m d dom => .lone (put (dom.toNat) 34 (put (d.val) 3 (put 13707771904 0 (loneBits m))))
  | .ostep m mask => .lone (put (mask.toNat) 32 (put 823132160 0 (loneBits m)))
  | .orun m a mask => .lone (put (mask.toNat) 32 (put (a.val) 13 (put 823394304 0 (loneBits m))))
  | .ohalt m mask => .lone (put (mask.toNat) 32 (put 823656448 0 (loneBits m)))
  | .osave m a => .lone (put (a.val) 13 (put 823918592 0 (loneBits m)))
  | .orst m a => .lone (put (a.val) 13 (put 824180736 0 (loneBits m)))
  | .otap m a tap => .lone (put (tap.val) 32 (put (a.val) 13 (put 824442880 0 (loneBits m))))
  | .tshape m d a => .lone (put (a.val) 13 (put (d.val) 3 (put 838860800 0 (loneBits m))))
  | .tmap m d a => .lone (put (a.val) 13 (put (d.val) 3 (put 839122944 0 (loneBits m))))
  | .tpress m a => .lone (put (a.val) 13 (put 839385088 0 (loneBits m)))
  | .tanchor m a on => .lone (put (bitN on) 32 (put (a.val) 13 (put 839647232 0 (loneBits m))))
  | .tfreeze m => .lone (put 839909376 0 (loneBits m))
  | .tthaw m => .lone (put 840171520 0 (loneBits m))
  | .tevac m => .lone (put 840433664 0 (loneBits m))
  | .illegalInstruction _ => .event
  | .emulation _ => .event
  | .variableLatencyResponse _ => .event
  | .freezeRelease _ => .event
  | .asyncTrapEntry _ => .event
  | .dispatch _ => .event
  | .heldSlicePlacement _ => .event
  | .budgetExhausted _ => .event
  | .budgetGraceExpiry _ => .event
  | .sliceLate _ => .event
  | .sliceCompletion _ => .event
  | .resultRead _ => .event
  | .launchCompletion _ => .event
  | .peerRequestArrival _ => .event
  | .hbmAccess _ => .event
  | .refusalArrival _ => .event
  | .ackArrival _ => .event
  | .retransmitTimeout _ => .event
  | .messageArrival _ => .event
  | .chainReservation _ => .event
  | .chainAnswer _ => .event
  | .chainPayload _ => .event
  | .barrierArrival _ => .event
  | .barrierRelease _ => .event
  | .voteContribution _ => .event
  | .copyBeat _ _ => .event
  | .copyComplete _ _ => .event
  | .copyFailure _ => .event
  | .matrixStart _ _ => .event
  | .matrixComplete _ _ => .event
  | .streamPush _ _ => .event
  | .streamPull _ _ => .event
  | .loopCountBlockReady _ _ => .event
  | .rwaitTimeout _ => .event
  | .orreryTick _ => .event
  | .orreryCountEnd _ _ => .event
  | .epochEnd => .event
  | .phaseStart _ => .event
  | .sizeRequest _ => .event
  | .sizeGrant _ => .event
  | .moveCommit _ => .event
  | .evacuationExpiry _ => .event
  | .cessionClearing _ => .event
  | .cessionJoining _ => .event
  | .upcallArrival _ => .event
  | .freezeMark _ => .event
  | .freezeTakesHold _ => .event
  | .thawRequest _ => .event
  | .anchorRequest _ => .event
  | .anchorApply _ => .event
  | .shapeSnapshot _ => .event
  | .preemptionHalt _ => .event
  | .quiescenceComplete _ => .event
  | .replayAbort _ => .event
  | .patrolScrub _ _ _ => .event
  | .islandPowerWindow _ _ _ => .event
  | .thermalThrottle _ => .event
  | .thermalCooled _ => .event
  | .thermalShutdown _ => .event
  | .deviceReset => .event
  | .powerLoss => .event
  | .spdmSessionEnd _ => .event
  | .linkLoss _ => .event
  | .parallaxStreamArrival _ => .event
  | .parallaxAck _ _ => .event
  | .rmaWrite _ _ _ _ => .event
  | .rmaRead _ _ _ _ => .event
  | .unsupportedPacket => .event
  | .create _ _ _ _ => .event
  | .dissolve _ => .event
  | .policy _ _ _ => .event
  | .policySetAnchor _ _ => .event
  | .policyClearAnchor _ _ => .event
  | .pxpeers _ _ => .event
  | .ops _ _ => .event
  | .mapPages _ _ _ _ _ => .event
  | .unmap _ _ _ => .event
  | .protect _ _ _ _ => .event
  | .loadCode _ _ _ => .event
  | .launch _ _ => .event
  | .preempt _ => .event
  | .save _ _ _ => .event
  | .restore _ _ => .event
  | .resume _ => .event
  | .debugClaim _ _ => .event
  | .debugRelease _ _ => .event
  | .debugHalt _ _ => .event
  | .debugRead _ _ => .event
  | .debugWrite _ _ _ _ => .event
  | .debugStep _ _ => .event
  | .debugGo _ _ => .event
  | .fwwrite _ _ _ => .event
  | .fwactivate _ _ => .event
  | .fwcommit _ => .event
  | .openSession _ _ _ => .event
  | .close _ => .event
  | .receipt _ => .event
  | .evlog _ _ _ => .event
  | .epadd _ _ _ _ _ => .event
  | .epdel _ _ => .event
  | .ifRead _ _ => .event
  | .ifWrite _ _ _ => .event
  | .getCertificate _ _ => .event
  | .challenge _ _ => .event
  | .getMeasurements _ _ => .event
  | .getDeviceInterfaceReport _ _ => .event
  | .lockInterfaceRequest _ _ => .event
  | .startInterfaceRequest _ _ _ => .event
  | .stopInterfaceRequest _ _ => .event
  | .createIndexed _ _ _ _ _ => .event
  | .dirty _ _ _ => .event
  | .checkpoint _ _ => .event
  | .pxsend _ _ _ _ _ => .event
  | .loadpages _ _ => .event
  | .counters _ _ _ => .event
  | .telemetry _ => .event
  | .fenceTile _ _ _ => .event
  | .spdmSessionStart _ => .event
  | .unknownCommand _ _ => .event
  | .chainRelease _ => .event
  | .sizeGrantReturn _ => .event
  | .handlerTileAnswer _ => .event
  | .spawnPlacement _ => .event

/-- The well-formed instruction as the bundle it stands in alone: the other word is NOP (01 R10). -/
def encodeBundle (i : Instr) : Option Nat :=
  match encode i with
  | .cword w => some w
  | .aword w => some (w * 2 ^ 32)
  | .lone w => some w
  | .event => none

end Sys2Proof
end

