-- ==== Sys2Proof/Config.lean ====
section
/-! DEFINITION. What one implementation fixes, and the free values: opaque constants with no body, so that no proof
can see a value the manual does not give. -/

namespace Sys2Proof.Config

/-- The free choice of which agent moves next, as a function of the model's step counter
(00 R8: the manual lists every outcome and fixes no order). -/
opaque choice : Nat → Nat

/-- A 64-bit value the manual names but does not give, as a function of the model's step counter. -/
opaque freeWord : Nat → BitVec 64

/-- Which words, of those that may be read next, are read now (13 R283, 15 R291: the manual allows every mix of old and new words), by the
model's step counter and the word's place. -/
opaque picks : Nat → Nat → Bool

/-- Whether the emulation handler emulates the bundle that traps, by the model's step counter; if it does, the registers written, as
register ids of 02 R43, with their values (16 R308). -/
opaque emulated : Nat → Option (List (Nat × BitVec 1024))

/-- What an emulated instruction does besides: the system registers it writes (0 TRAPV, 1 FPFLAGS, 2 DISCSEL), the bytes it stores by
address, the offset it transfers to, if it is a transfer; and its effects on engines and messages, as bundles whose instructions have those
effects, with the operands that they read, as register ids of 02 R43 (16 R308). -/
opaque emulatedSys : Nat → List (Nat × BitVec 64)
opaque emulatedStores : Nat → List (BitVec 64 × BitVec 8)
opaque emulatedTarget : Nat → Option (BitVec 64)
opaque emulatedWords : Nat → List (BitVec 64)
opaque emulatedOperand : Nat → Nat → BitVec 1024

/-- Silicon stepping, from fuses (08 R171). -/
opaque step : BitVec 16

/-- The tile positions that the fuses fence, before the bound of 8 (00 R2, 08 R174). -/
opaque fuseFenced : Nat → Bool

/-- The fused secret FS, 256 bits (17 R318). -/
opaque fuseSecret : BitVec 256

/-- The 32 bytes rnd that an ML-DSA-65 signature of a message takes: FIPS 204 lets them be random or zero, and 17 R328 names neither. -/
opaque signRandom : List (BitVec 8) → BitVec 256

/-- The signature where every round of signing was rejected, for which FIPS 204 gives none (17 R328). -/
opaque spentSignature : List (BitVec 8) → BitVec 26472

/-- The Ed25519 certificate chain of slot 0 and the ML-DSA-65 chain of slot 1 (17 R319). -/
opaque certificate : Nat → List (BitVec 8)

/-- The SVNMIN of the fuses when the model starts (17 R320). -/
opaque svnMin : Nat

/-- The SHA3-384 digest of Yilzan's two firmware keys, in fuses (17 R320). -/
opaque fuseKeyDigest : BitVec 384

/-- The firmware keys and the signatures that a firmware image carries; the manual does not give an image's layout (17 R320). -/
opaque imageKeyEd25519 : List (BitVec 8) → BitVec 256
opaque imageKeyMlDsa65 : List (BitVec 8) → BitVec 15616
opaque imageSigEd25519 : List (BitVec 8) → BitVec 512
opaque imageSigMlDsa65 : List (BitVec 8) → BitVec 26472

/-- The signed payload, the security version and the build number of a firmware image (17 R320, R330). -/
opaque imagePayload : List (BitVec 8) → List (BitVec 8)
opaque imageSvn : List (BitVec 8) → Nat
opaque imageBuild : List (BitVec 8) → BitVec 32

/-- The bytes of a flash bank when the model starts: bank 0 is primary, bank 1 secondary (17 R320). -/
opaque flashImage : Nat → List (BitVec 8)

/-- Bytes of a tile section of a context image whose widths the manual does not give (16 R314): by the image's writer, its number among the
images that module wrote, the section, the item of R314's list, and which of its parts. -/
opaque imagePart : BitVec 384 → Nat → Nat → Nat → Nat → List (BitVec 8)

/-- The replay blob of a core record, 6,144 bytes, opaque by 16 R314: by writer, number, section and core. -/
opaque replayBlob : BitVec 384 → Nat → Nat → Nat → BitVec 49152

/-- A byte of the checkpoint store that no image of the model gives, read as part of an image whose LEN names more bytes than it has
(20 R346): by writer, number and offset. -/
opaque storeByte : BitVec 384 → Nat → Nat → BitVec 8

/-- The transcript of an SPDM exchange, which its signatures cover (17 R331), as a function of the model's step counter. -/
opaque transcript : Nat → List (BitVec 8)

/-- A start nonce of 32 bytes returned by LOCK_INTERFACE_REQUEST (17 R332). -/
opaque startNonce : Nat → BitVec 256

end Sys2Proof.Config
end

