-- ==== Sys2Proof/Machine/Ed25519.lean ====
section
/-! DEFINITION. SHA-512 and the signature scheme Ed25519 of RFC 8032, which 17 R318 to R320 and R328 name. -/

namespace Sys2Proof.Machine

/-! ### SHA-512 -/

/-- The 80 round constants. -/
def sha512K : List (BitVec 64) :=
  [0x428A2F98D728AE22, 0x7137449123EF65CD, 0xB5C0FBCFEC4D3B2F, 0xE9B5DBA58189DBBC, 0x3956C25BF348B538, 0x59F111F1B605D019,
   0x923F82A4AF194F9B, 0xAB1C5ED5DA6D8118, 0xD807AA98A3030242, 0x12835B0145706FBE, 0x243185BE4EE4B28C, 0x550C7DC3D5FFB4E2,
   0x72BE5D74F27B896F, 0x80DEB1FE3B1696B1, 0x9BDC06A725C71235, 0xC19BF174CF692694, 0xE49B69C19EF14AD2, 0xEFBE4786384F25E3,
   0x0FC19DC68B8CD5B5, 0x240CA1CC77AC9C65] ++
  [0x2DE92C6F592B0275, 0x4A7484AA6EA6E483, 0x5CB0A9DCBD41FBD4, 0x76F988DA831153B5, 0x983E5152EE66DFAB, 0xA831C66D2DB43210,
   0xB00327C898FB213F, 0xBF597FC7BEEF0EE4, 0xC6E00BF33DA88FC2, 0xD5A79147930AA725, 0x06CA6351E003826F, 0x142929670A0E6E70,
   0x27B70A8546D22FFC, 0x2E1B21385C26C926, 0x4D2C6DFC5AC42AED, 0x53380D139D95B3DF, 0x650A73548BAF63DE, 0x766A0ABB3C77B2A8,
   0x81C2C92E47EDAEE6, 0x92722C851482353B] ++
  [0xA2BFE8A14CF10364, 0xA81A664BBC423001, 0xC24B8B70D0F89791, 0xC76C51A30654BE30, 0xD192E819D6EF5218, 0xD69906245565A910,
   0xF40E35855771202A, 0x106AA07032BBD1B8, 0x19A4C116B8D2D0C8, 0x1E376C085141AB53, 0x2748774CDF8EEB99, 0x34B0BCB5E19B48A8,
   0x391C0CB3C5C95A63, 0x4ED8AA4AE3418ACB, 0x5B9CCA4F7763E373, 0x682E6FF3D6B2B8A3, 0x748F82EE5DEFB2FC, 0x78A5636F43172F60,
   0x84C87814A1F0AB72, 0x8CC702081A6439EC] ++
  [0x90BEFFFA23631E28, 0xA4506CEBDE82BDE9, 0xBEF9A3F7B2C67915, 0xC67178F2E372532B, 0xCA273ECEEA26619C, 0xD186B8C721C0C207,
   0xEADA7DD6CDE0EB1E, 0xF57D4F7FEE6ED178, 0x06F067AA72176FBA, 0x0A637DC5A2C898A6, 0x113F9804BEF90DAE, 0x1B710B35131C471B,
   0x28DB77F523047D84, 0x32CAAB7B40C72493, 0x3C9EBE0A15C9BEBC, 0x431D67C49C100D4C, 0x4CC5D4BECB3E42B6, 0x597F299CFC657E2A,
   0x5FCB6FAB3AD6FAEC, 0x6C44198C4A475817]

/-- The initial hash value. -/
def sha512H : List (BitVec 64) :=
  [0x6A09E667F3BCC908, 0xBB67AE8584CAA73B, 0x3C6EF372FE94F82B, 0xA54FF53A5F1D36F1, 0x510E527FADE682D1, 0x9B05688C2B3E6C1F,
   0x1F83D9ABFB41BD6B, 0x5BE0CD19137E2179]

/-- The number of a list of bytes, the first the most significant. -/
def beNat (bs : List Byte) : Nat := bs.foldl (fun n b => 256 * n + b.toNat) 0

def beBytes (n x : Nat) : List Byte := (leBytes n x).reverse

/-- Word `i` of a list, 0 beyond it. -/
def wordAt (l : List (BitVec 64)) (i : Nat) : BitVec 64 := (l[i]?).getD 0

/-- The schedule, newest word first: each next word from those 2, 7, 15 and 16 places back. -/
def sha512Extend : Nat → List (BitVec 64) → List (BitVec 64)
  | 0, w => w
  | n + 1, w =>
    let x := wordAt w 1
    let y := wordAt w 14
    let s1 := x.rotateRight 19 ^^^ x.rotateRight 61 ^^^ (x >>> 6)
    let s0 := y.rotateRight 1 ^^^ y.rotateRight 8 ^^^ (y >>> 7)
    sha512Extend n ((s1 + wordAt w 6 + s0 + wordAt w 15) :: w)

/-- One round on the eight working variables. -/
def sha512Round (v : List (BitVec 64)) (kw : BitVec 64 × BitVec 64) : List (BitVec 64) :=
  let a := wordAt v 0
  let e := wordAt v 4
  let t1 := wordAt v 7 + (e.rotateRight 14 ^^^ e.rotateRight 18 ^^^ e.rotateRight 41) + ((e &&& wordAt v 5) ^^^ (~~~e &&& wordAt v 6)) + kw.1 + kw.2
  let t2 := (a.rotateRight 28 ^^^ a.rotateRight 34 ^^^ a.rotateRight 39) +
    ((a &&& wordAt v 1) ^^^ (a &&& wordAt v 2) ^^^ (wordAt v 1 &&& wordAt v 2))
  [t1 + t2, a, wordAt v 1, wordAt v 2, wordAt v 3 + t1, e, wordAt v 5, wordAt v 6]

/-- A block of 128 bytes. -/
def sha512Block (h : List (BitVec 64)) (bs : List Byte) : List (BitVec 64) :=
  let w := (List.range 16).map (fun i => BitVec.ofNat 64 (beNat ((bs.drop (8 * i)).take 8)))
  let v := (sha512K.zip (sha512Extend 64 w.reverse).reverse).foldl sha512Round h
  List.zipWith (· + ·) h v

def sha512Blocks : Nat → List (BitVec 64) → List Byte → List (BitVec 64)
  | 0, h, _ => h
  | n + 1, h, bs => sha512Blocks n (sha512Block h (bs.take 128)) (bs.drop 128)

/-- The 64 bytes of SHA-512. -/
def sha512 (bs : List Byte) : List Byte :=
  let p := bs ++ [0x80] ++ List.replicate ((239 - bs.length % 128) % 128) 0 ++ beBytes 16 (8 * bs.length)
  (sha512Blocks (p.length / 128) sha512H p).flatMap (fun x => beBytes 8 x.toNat)

/-! ### The curve -/

/-- `b` to the power `e` modulo `m`, where `e` has at most `n` bits. -/
def powMod : Nat → Nat → Nat → Nat → Nat
  | 0, _, _, m => 1 % m
  | n + 1, b, e, m =>
    let h := powMod n (b * b % m) (e / 2) m
    if e % 2 = 1 then b * h % m else h

/-- The field prime 2^255 − 19. -/
def edP : Nat := 2 ^ 255 - 19

/-- The order of the base point. -/
def edL : Nat := 2 ^ 252 + 27742317777372353535851937790883648493

def edInv (x : Nat) : Nat := powMod 255 x (edP - 2) edP

def edSub (x y : Nat) : Nat := (x + edP - y % edP) % edP

/-- The constant d = −121665 / 121666. -/
def edD : Nat := edSub 0 (121665 * edInv 121666 % edP)

/-- A point in extended coordinates: x = X / Z, y = Y / Z, x y = T / Z. -/
structure EdPoint where
  x : Nat
  y : Nat
  z : Nat
  t : Nat
  deriving DecidableEq, Repr

def EdPoint.zero : EdPoint := { x := 0, y := 1, z := 1, t := 0 }

/-- The sum of two points (RFC 8032, 5.1.4). -/
def EdPoint.add (p q : EdPoint) : EdPoint :=
  let a := edSub p.y p.x * edSub q.y q.x % edP
  let b := (p.y + p.x) * (q.y + q.x) % edP
  let c := p.t * 2 * edD * q.t % edP
  let d := p.z * 2 * q.z % edP
  let e := edSub b a
  let f := edSub d c
  let g := (d + c) % edP
  let h := (b + a) % edP
  { x := e * f % edP, y := g * h % edP, z := f * g % edP, t := e * h % edP }

/-- A multiple of a point, by a number of at most `n` bits. -/
def EdPoint.mul : Nat → Nat → EdPoint → EdPoint
  | 0, _, _ => .zero
  | n + 1, k, p =>
    let q := EdPoint.mul n (k / 2) (p.add p)
    if k % 2 = 1 then p.add q else q

/-- Two points are equal. -/
def EdPoint.same (p q : EdPoint) : Bool := p.x * q.z % edP == q.x * p.z % edP && p.y * q.z % edP == q.y * p.z % edP

/-- The 32 bytes of a point: y, with the parity of x in the top bit. -/
def EdPoint.encode (p : EdPoint) : List Byte :=
  let i := edInv p.z
  leBytes 32 (p.y * i % edP + p.x * i % edP % 2 * 2 ^ 255)

/-- A square root of u / v, if there is one. -/
def edRoot (u v : Nat) : Option Nat :=
  let v3 := v * v % edP * v % edP
  let v7 := v3 * v3 % edP * v % edP
  let x := u * v3 % edP * powMod 255 (u * v7 % edP) ((edP - 5) / 8) edP % edP
  let w := v * (x * x % edP) % edP
  if w = u then some x
  else if w = edSub 0 u then some (x * powMod 255 2 ((edP - 1) / 4) edP % edP) else none

/-- The point of 32 bytes, if they are one's (RFC 8032, 5.1.3). -/
def EdPoint.decode (bs : List Byte) : Option EdPoint :=
  let n := leNat bs
  let y := n % 2 ^ 255
  let sign := n / 2 ^ 255
  if edP ≤ y ∨ bs.length ≠ 32 then none
  else
    let yy := y * y % edP
    match edRoot (edSub yy 1) ((edD * yy + 1) % edP) with
    | none => none
    | some x =>
      if x = 0 ∧ sign = 1 then none
      else
        let x' := if x % 2 = sign then x else edP - x
        some { x := x', y := y, z := 1, t := x' * y % edP }

/-- The base point. -/
def edBase : EdPoint :=
  let x := 15112221349535400772501151409588531511454012693041857206046113283949847762202
  let y := 46316835694926478169428394003475163141307993866256225615783033603165251855960
  { x := x, y := y, z := 1, t := x * y % edP }

/-! ### Keys and signatures -/

/-- The secret scalar of a seed. -/
def edScalar (seed : List Byte) : Nat :=
  let n := leNat ((sha512 seed).take 32)
  n / 8 % 2 ^ 251 * 8 + 2 ^ 254

/-- The 32-byte public key of a seed (RFC 8032, 5.1.5). -/
@[irreducible] def ed25519Public (seed : List Byte) : List Byte := (edBase.mul 255 (edScalar seed)).encode

/-- The 64-byte signature of a message (RFC 8032, 5.1.6). -/
@[irreducible] def ed25519Sign (seed m : List Byte) : List Byte :=
  let r := leNat (sha512 ((sha512 seed).drop 32 ++ m)) % edL
  let rb := (edBase.mul 255 r).encode
  let k := leNat (sha512 (rb ++ ed25519Public seed ++ m)) % edL
  rb ++ leBytes 32 ((r + k * edScalar seed) % edL)

/-- Does a signature verify (RFC 8032, 5.1.7: the equation with the cofactor)? -/
@[irreducible] def ed25519Verify (pk m sig : List Byte) : Bool :=
  let s := leNat (sig.drop 32)
  match EdPoint.decode (sig.take 32), EdPoint.decode pk with
  | some r, some a =>
    let k := leNat (sha512 (sig.take 32 ++ pk ++ m)) % edL
    sig.length == 64 && decide (s < edL) && (edBase.mul 258 (8 * s)).same ((r.mul 4 8).add ((a.mul 256 k).mul 4 8))
  | _, _ => false

end Sys2Proof.Machine
end

