-- ==== Sys2Proof/Machine/Sha3.lean ====
section
/-! DEFINITION. SHA3-384 (FIPS 202), which 17 R318 to R328 and 20 R346 name, and the SHAKE functions that FIPS 204 uses. -/

namespace Sys2Proof.Machine

/-! ### Keccak -/

/-- The 24 round constants. -/
def keccakRc : List (BitVec 64) :=
  [0x0000000000000001, 0x0000000000008082, 0x800000000000808A, 0x8000000080008000, 0x000000000000808B, 0x0000000080000001,
   0x8000000080008081, 0x8000000000008009, 0x000000000000008A, 0x0000000000000088, 0x0000000080008009, 0x000000008000000A] ++
  [0x000000008000808B, 0x800000000000008B, 0x8000000000008089, 0x8000000000008003, 0x8000000000008002, 0x8000000000000080,
   0x000000000000800A, 0x800000008000000A, 0x8000000080008081, 0x8000000000008080, 0x0000000080000001, 0x8000000080008008]

/-- Rotation amounts by lane x + 5 y. -/
def keccakRot : List Nat :=
  [0, 1, 62, 28, 27, 36, 44, 6, 55, 20, 3, 10, 43, 25, 39, 41, 45, 15, 21, 8, 18, 2, 61, 56, 14]

def kLane (a : List (BitVec 64)) (x y : Nat) : BitVec 64 := (a[x % 5 + 5 * (y % 5)]?).getD 0

def kTheta (a : List (BitVec 64)) : List (BitVec 64) :=
  let ps := (List.range 5).map (fun x => kLane a x 0 ^^^ kLane a x 1 ^^^ kLane a x 2 ^^^ kLane a x 3 ^^^ kLane a x 4)
  let at' (i : Nat) : BitVec 64 := (ps[i % 5]?).getD 0
  (List.range 25).map (fun i => (a[i]?).getD 0 ^^^ (at' (i % 5 + 4) ^^^ (at' (i % 5 + 1)).rotateLeft 1))

/-- Lane (x, y) of the result is lane (x', y') rotated, where x = y' and y = 2 x' + 3 y'. -/
def kRhoPi (a : List (BitVec 64)) : List (BitVec 64) :=
  (List.range 25).map (fun i =>
    let x := i % 5
    let y := i / 5
    let x' := (x + 3 * y) % 5
    (kLane a x' x).rotateLeft ((keccakRot[x' + 5 * x]?).getD 0))

def kChi (a : List (BitVec 64)) : List (BitVec 64) :=
  (List.range 25).map (fun i => kLane a (i % 5) (i / 5) ^^^ (~~~(kLane a (i % 5 + 1) (i / 5)) &&& kLane a (i % 5 + 2) (i / 5)))

def kIota (rc : BitVec 64) : List (BitVec 64) → List (BitVec 64)
  | [] => []
  | x :: r => (x ^^^ rc) :: r

def keccakF (a : List (BitVec 64)) : List (BitVec 64) := keccakRc.foldl (fun a rc => kIota rc (kChi (kRhoPi (kTheta a)))) a

/-- The 64-bit lanes of a block. -/
def lanesOf : Nat → List Byte → List (BitVec 64)
  | 0, _ => []
  | n + 1, bs => BitVec.ofNat 64 (leNat (bs.take 8)) :: lanesOf n (bs.drop 8)

/-- A block of `rate` bytes is absorbed. -/
def absorb (rate : Nat) (a : List (BitVec 64)) (block : List Byte) : List (BitVec 64) :=
  let l := lanesOf (rate / 8) block
  keccakF ((List.range 25).map (fun i => (a[i]?).getD 0 ^^^ (l[i]?).getD 0))

/-- The message padded to whole blocks: the bits that end it, then pad10*1. -/
def spongePad (rate : Nat) (suffix : Byte) (bs : List Byte) : List Byte :=
  let q := rate - bs.length % rate
  bs ++ (if q = 1 then [suffix ||| 0x80] else [suffix] ++ List.replicate (q - 2) 0 ++ [0x80])

def absorbAll (rate : Nat) : Nat → List (BitVec 64) → List Byte → List (BitVec 64)
  | 0, a, _ => a
  | n + 1, a, bs => absorbAll rate n (absorb rate a (bs.take rate)) (bs.drop rate)

/-- The state once a message is absorbed. -/
def sponge (rate : Nat) (suffix : Byte) (bs : List Byte) : List (BitVec 64) :=
  let p := spongePad rate suffix bs
  absorbAll rate (p.length / rate) (List.replicate 25 0) p

/-- The number that the first `n` lanes hold, lane 0 the least significant. -/
def laneNum (n : Nat) (a : List (BitVec 64)) : Nat := (a.take n).foldr (fun x acc => x.toNat + 18446744073709551616 * acc) 0

/-- The 48 bytes of SHA3-384, as a number whose byte 0 is the least significant. -/
def sha3 (bs : List Byte) : BitVec 384 := BitVec.ofNat 384 (laneNum 6 (sponge 104 0x06 bs))

/-- The first `n` blocks of output. -/
def squeeze (rate : Nat) : Nat → List (BitVec 64) → List Byte
  | 0, _ => []
  | n + 1, a => leBytes rate (laneNum (rate / 8) a) ++ squeeze rate n (keccakF a)

/-- SHAKE128 and SHAKE256: `n` blocks, of 168 and of 136 bytes. -/
def shake128 (n : Nat) (bs : List Byte) : List Byte := squeeze 168 n (sponge 168 0x1F bs)

def shake256 (n : Nat) (bs : List Byte) : List Byte := squeeze 136 n (sponge 136 0x1F bs)

/-- The 48 bytes of a digest. -/
def digestBytes (d : BitVec 384) : List Byte := leBytes 48 d.toNat

end Sys2Proof.Machine
end

