-- ==== Sys2Proof/Machine/MlDsa.lean ====
section
/-! DEFINITION. The signature scheme ML-DSA-65 of FIPS 204, which 17 R318 to R320 and R328 name: q = 8,380,417, (k, l) = (6, 5), η = 4, τ = 49,
γ1 = 2^19, γ2 = (q − 1) / 32, ω = 55, 48 bytes of challenge. -/

namespace Sys2Proof.Machine

/-! ### The ring -/

def mlQ : Nat := 8380417
def mlG1 : Nat := 524288
def mlG2 : Nat := 261888

/-- A polynomial: 256 coefficients modulo q. -/
abbrev Poly := List Nat

def polyAdd (a b : Poly) : Poly := List.zipWith (fun x y => (x + y) % mlQ) a b

def polySub (a b : Poly) : Poly := List.zipWith (fun x y => (x + mlQ - y % mlQ) % mlQ) a b

def polyMul (a b : Poly) : Poly := List.zipWith (fun x y => x * y % mlQ) a b

/-- A power modulo q, of an exponent of at most `n` bits. -/
def mlPow : Nat → Nat → Nat → Nat
  | 0, _, _ => 1
  | n + 1, b, e =>
    let h := mlPow n (b * b % mlQ) (e / 2)
    if e % 2 = 1 then b * h % mlQ else h

/-- The 8 bits of a number in reverse order. -/
def bitRev8 (n : Nat) : Nat := ((List.range 8).map (fun i => n / 2 ^ i % 2 * 2 ^ (7 - i))).sum

def mlZeta (m : Nat) : Nat := mlPow 8 1753 (bitRev8 m)

def mlInv (x : Nat) : Nat := mlPow 23 x (mlQ - 2)

/-- The number-theoretic transform; block `m` splits into blocks 2 m and 2 m + 1. -/
def nttN : Nat → Nat → Poly → Poly
  | 0, _, w => w
  | n + 1, m, w =>
    let lo := w.take (w.length / 2)
    let z := mlZeta m
    let t := (w.drop (w.length / 2)).map (fun x => z * x % mlQ)
    nttN n (2 * m) (polyAdd lo t) ++ nttN n (2 * m + 1) (polySub lo t)

def ntt (w : Poly) : Poly := nttN 8 1 w

def inttN : Nat → Nat → Poly → Poly
  | 0, _, w => w
  | n + 1, m, w =>
    let a := inttN n (2 * m) (w.take (w.length / 2))
    let b := inttN n (2 * m + 1) (w.drop (w.length / 2))
    let z := mlInv (mlZeta m)
    polyAdd a b ++ (polySub a b).map (fun x => z * x % mlQ)

def intt (w : Poly) : Poly := (inttN 8 1 w).map (fun x => 8347681 * x % mlQ)

def polyZero : Poly := List.replicate 256 0

/-- A row of transformed polynomials times a column. -/
def polyDot (row v : List Poly) : Poly := (List.zipWith polyMul row v).foldl polyAdd polyZero

/-- The representative between −(q − 1) / 2 and (q − 1) / 2. -/
def mlSigned (x : Nat) : Int := if 2 * x < mlQ then x else (x : Int) - mlQ

def mlUnsigned (x : Int) : Nat := (x % (mlQ : Int)).toNat

/-- The greatest absolute value of a coefficient. -/
def polyNorm (a : Poly) : Nat := a.foldl (fun m x => max m (mlSigned x).natAbs) 0

/-! ### Rounding -/

/-- Power2Round: r = r1 2^13 + r0. -/
def power2Round (r : Nat) : Nat × Int :=
  let r0 : Int := if 4096 < r % 8192 then (r % 8192 : Nat) - 8192 else (r % 8192 : Nat)
  ((((r : Int) - r0) / 8192).toNat, r0)

/-- Decompose. -/
def decompose (r : Nat) : Nat × Int :=
  let k := r % (2 * mlG2)
  let r0 : Int := if mlG2 < k then (k : Int) - 2 * mlG2 else k
  if (r : Int) - r0 = mlQ - 1 then (0, r0 - 1) else (((r : Int) - r0).toNat / (2 * mlG2), r0)

def highBits (r : Nat) : Nat := (decompose r).1

def lowBits (r : Nat) : Nat := mlUnsigned (decompose r).2

/-- UseHint. -/
def useHint (h : Bool) (r : Nat) : Nat :=
  let d := decompose r
  if !h then d.1 else if 0 < d.2 then (d.1 + 1) % 16 else (d.1 + 15) % 16

/-! ### Packing -/

/-- Coefficients of `w` bits each, the first in the lowest bits. -/
def packBits (w : Nat) (l : List Nat) : List Byte := leBytes (w * l.length / 8) (l.foldr (fun x n => x + 2 ^ w * n) 0)

def unpackBits (w : Nat) : Nat → Nat → List Nat
  | 0, _ => []
  | n + 1, x => x % 2 ^ w :: unpackBits w n (x / 2 ^ w)

def unpackPoly (w : Nat) (bs : List Byte) : List Nat := unpackBits w 256 (leNat bs)

/-- `n` pieces of `w` bytes. -/
def chunks (w : Nat) : Nat → List Byte → List (List Byte)
  | 0, _ => []
  | n + 1, bs => bs.take w :: chunks w n (bs.drop w)

/-- Coefficients packed as b − x. -/
def packBelow (w b : Nat) (p : Poly) : List Byte := packBits w (p.map (fun x => ((b : Int) - mlSigned x).toNat))

def unpackBelow (w b : Nat) (bs : List Byte) : Poly := (unpackPoly w bs).map (fun x => mlUnsigned ((b : Int) - x))

/-- HintBitPack. -/
def packHints (h : List (List Bool)) : List Byte :=
  let at' (p : List Bool) : List Nat := p.zipIdx.filterMap (fun e => if e.1 then some e.2 else none)
  let ends := (List.range 6).map (fun i => ((h.take (i + 1)).map (fun p => (at' p).length)).sum)
  let js := h.flatMap at'
  (js ++ List.replicate (55 - js.length) 0 ++ ends).map (BitVec.ofNat 8)

/-- Is a list of numbers strictly rising? -/
def rising : List Nat → Bool
  | a :: b :: r => decide (a < b) && rising (b :: r)
  | _ => true

/-- HintBitUnpack. -/
def unpackHints (bs : List Byte) : Option (List (List Bool)) :=
  let n (i : Nat) : Nat := ((bs[i]?).map (·.toNat)).getD 0
  let ends := (List.range 6).map (fun i => n (55 + i))
  let from' (i : Nat) : Nat := if i = 0 then 0 else (ends[i - 1]?).getD 0
  let of (i : Nat) : List Nat := (List.range ((ends[i]?).getD 0 - from' i)).map (fun j => n (from' i + j))
  let ok := (List.range 6).all (fun i => decide (from' i ≤ (ends[i]?).getD 0) && decide ((ends[i]?).getD 0 ≤ 55) && rising (of i)) &&
    (List.range 55).all (fun j => decide (j < from' 6) || n j == 0)
  if ok then some ((List.range 6).map (fun i => (List.range 256).map (fun j => (of i).contains j))) else none

/-! ### Sampling -/

/-- H of FIPS 204, `n` bytes. -/
def mlHash (n : Nat) (bs : List Byte) : List Byte := (shake256 (n / 136 + 1) bs).take n

/-- RejNTTPoly: three bytes make a number of 23 bits, taken when it lies below q. -/
def rejNtt : Nat → Nat → List Byte → Poly
  | 0, _, _ => []
  | _, 0, _ => []
  | fuel + 1, n + 1, bs =>
    let z := leNat (bs.take 3) % 8388608
    if z < mlQ then z :: rejNtt fuel n (bs.drop 3) else rejNtt fuel (n + 1) (bs.drop 3)

/-- Row and column of the matrix that the seed ρ gives. -/
def mlMatrix (rho : List Byte) : List (List Poly) :=
  (List.range 6).map (fun r => (List.range 5).map (fun s =>
    rejNtt 896 256 (shake128 16 (rho ++ leBytes 1 s ++ leBytes 1 r))))

/-- RejBoundedPoly: a nibble below 9 makes the coefficient 4 minus it. -/
def rejBounded (bs : List Byte) : Poly :=
  ((bs.flatMap (fun b => [b.toNat % 16, b.toNat / 16])).filter (fun n => decide (n < 9))).take 256 |>.map (fun (n : Nat) => mlUnsigned (4 - (n : Int)))

/-- The secret polynomial number `r`. -/
def mlSecret (rho : List Byte) (r : Nat) : Poly := rejBounded (shake256 8 (rho ++ leBytes 2 r))

/-- ExpandMask. -/
def mlMask (rho : List Byte) (kappa : Nat) : List Poly :=
  (List.range 5).map (fun r => unpackBelow 20 mlG1 (mlHash 640 (rho ++ leBytes 2 (kappa + r))))

/-- The next byte that is at most `i`, and what follows it. -/
def byteUpTo (i : Nat) : List Byte → Nat × List Byte
  | [] => (0, [])
  | b :: r => if b.toNat ≤ i then (b.toNat, r) else byteUpTo i r

/-- SampleInBall. -/
def mlBall (seed : List Byte) : Poly :=
  let bs := shake256 4 seed
  let signs := leNat (bs.take 8)
  ((List.range 49).foldl (fun (acc : Poly × List Byte) k =>
    let i := 207 + k
    let (j, r) := byteUpTo i acc.2
    let c := acc.1.set i ((acc.1[j]?).getD 0)
    (c.set j (if signs / 2 ^ k % 2 = 1 then mlQ - 1 else 1), r)) (polyZero, bs.drop 8)).1

/-! ### Keys and signatures -/

/-- What a seed ξ gives: ρ, K, the secret vectors s1 and s2, and t. -/
structure MlKey where
  rho : List Byte
  k : List Byte
  s1 : List Poly
  s2 : List Poly
  t : List Poly

/-- Key generation (FIPS 204, algorithm 6). -/
def mlKey (xi : List Byte) : MlKey :=
  let h := mlHash 128 (xi ++ [6, 5])
  let rho := h.take 32
  let rho' := (h.drop 32).take 64
  let s1 := (List.range 5).map (mlSecret rho')
  let s2 := (List.range 6).map (fun r => mlSecret rho' (r + 5))
  let s1h := s1.map ntt
  { rho := rho, k := h.drop 96, s1 := s1, s2 := s2,
    t := List.zipWith polyAdd ((mlMatrix rho).map (fun row => intt (polyDot row s1h))) s2 }

/-- The 1,952 bytes of the public key. -/
def MlKey.public' (key : MlKey) : List Byte := key.rho ++ key.t.flatMap (fun p => packBits 10 (p.map (fun x => (power2Round x).1)))

@[irreducible] def mlDsa65Public (xi : List Byte) : List Byte := (mlKey xi).public'

/-- The message representative μ: of the public key's hash and the message with its context string. -/
def mlMu (pk m ctx : List Byte) : List Byte := mlHash 64 (mlHash 64 pk ++ [0, BitVec.ofNat 8 ctx.length] ++ ctx ++ m)

/-- The challenge: of μ and the high bits w1. -/
def mlChallenge (mu : List Byte) (w1 : List (List Nat)) : List Byte := mlHash 48 (mu ++ w1.flatMap (packBits 4))

/-- What the rounds of a signature use: the matrix, the transformed secrets and low part of t, the seed of the masks, μ. -/
structure MlSign where
  a : List (List Poly)
  s1 : List Poly
  s2 : List Poly
  t0 : List Poly
  rho : List Byte
  mu : List Byte

/-- One round of signing; none where it is rejected. -/
def MlSign.round (g : MlSign) (kappa : Nat) : Option (List Byte) :=
  let y := mlMask g.rho kappa
  let yh := y.map ntt
  let w := g.a.map (fun row => intt (polyDot row yh))
  let ct := mlChallenge g.mu (w.map (fun p => p.map highBits))
  let c := ntt (mlBall ct)
  let z := List.zipWith polyAdd y (g.s1.map (fun s => intt (polyMul c s)))
  let r := List.zipWith polySub w (g.s2.map (fun s => intt (polyMul c s)))
  let ct0 := g.t0.map (fun t => intt (polyMul c t))
  let h := List.zipWith (fun p t => List.zipWith (fun x y => highBits ((x + y) % mlQ) != highBits x) p t) r ct0
  if z.any (fun p => decide (mlG1 - 196 ≤ polyNorm p)) || r.any (fun p => decide (mlG2 - 196 ≤ polyNorm (p.map lowBits))) ||
      ct0.any (fun p => decide (mlG2 ≤ polyNorm p)) || decide (55 < (h.map (fun p => p.count true)).sum) then none
  else some (ct ++ z.flatMap (packBelow 20 mlG1) ++ packHints h)

/-- The first round that is not rejected, of at most `n`. -/
def MlSign.rounds (g : MlSign) : Nat → Nat → Option (List Byte)
  | 0, _ => none
  | n + 1, kappa => match g.round kappa with
    | some sig => some sig
    | none => g.rounds n (kappa + 5)

/-- The 3,309-byte signature of a message under a seed, with a context string and 32 random bytes (FIPS 204, algorithms 2 and 7); none where
every round that the two bytes of a mask's number allow is rejected. -/
@[irreducible] def mlDsa65Sign (xi m ctx rnd : List Byte) : Option (List Byte) :=
  let key := mlKey xi
  let mu := mlMu key.public' m ctx
  let g : MlSign := { a := mlMatrix key.rho, s1 := key.s1.map ntt, s2 := key.s2.map ntt,
                      t0 := key.t.map (fun p => ntt (p.map (fun x => mlUnsigned (power2Round x).2))),
                      rho := mlHash 64 (key.k ++ rnd ++ mu), mu := mu }
  g.rounds 13107 0

/-- Does a signature verify (FIPS 204, algorithms 3 and 8)? -/
@[irreducible] def mlDsa65Verify (pk m ctx sig : List Byte) : Bool :=
  let ct := sig.take 48
  let z := (chunks 640 5 (sig.drop 48)).map (unpackBelow 20 mlG1)
  match unpackHints (sig.drop 3248) with
  | none => false
  | some h =>
    let c := ntt (mlBall ct)
    let zh := z.map ntt
    let t1 := (chunks 320 6 (pk.drop 32)).map (fun bs => ntt ((unpackPoly 10 bs).map (fun x => x * 8192 % mlQ)))
    let w := List.zipWith (fun row t => intt (polySub (polyDot row zh) (polyMul c t))) (mlMatrix (pk.take 32)) t1
    let w1 := List.zipWith (fun hs p => List.zipWith useHint hs p) h w
    sig.length == 3309 && pk.length == 1952 && decide (ctx.length ≤ 255) && z.all (fun p => decide (polyNorm p < mlG1 - 196)) &&
      mlChallenge (mlMu pk m ctx) w1 == ct

end Sys2Proof.Machine
end

