-- ==== Sys2Proof/Machine/Identity.lean ====
section
/-! DEFINITION. The identity of the device and of its firmware (17 R318 to R320, R328): the keys that the boot ROM derives from the fused
secret, DEVID, the two signatures, and what the ROM accepts. -/

namespace Sys2Proof.Machine

/-- A key seed: bytes 0 to 31 of SHA3-384 over the label and FS (17 R318). -/
def idSeed (label : String) : List Byte := (digestBytes (sha3 (ascii label ++ leBytes 32 Config.fuseSecret.toNat))).take 32

def seedEd25519 : List Byte := idSeed "C9-IDK-ED25519"

def seedMlDsa65 : List Byte := idSeed "C9-IDK-MLDSA65"

/-- A list as exactly `n` bytes. -/
def sized (n : Nat) (bs : List Byte) : List Byte := leBytes n (leNat bs)

/-- The public keys pkE, 32 bytes, and pkM, 1,952 bytes (17 R318, R319). -/
def pkE : List Byte := sized 32 (ed25519Public seedEd25519)

def pkM : List Byte := sized 1952 (mlDsa65Public seedMlDsa65)

/-- The device identity digest (17 R319). -/
def devid : BitVec 384 := sha3 (pkE ++ pkM)

/-- The Ed25519 signature of a message under the device's key: 64 bytes. -/
def signEd25519 (m : List Byte) : List Byte := sized 64 (ed25519Sign seedEd25519 m)

/-- The ML-DSA-65 signature of a message under the device's key, with a context string: 3,309 bytes (log 68). -/
def signMlDsa65 (m ctx : List Byte) : List Byte :=
  sized 3309 ((mlDsa65Sign seedMlDsa65 m ctx (leBytes 32 (Config.signRandom (ctx ++ m)).toNat)).getD
    (leBytes 3309 (Config.spentSignature (ctx ++ m)).toNat))

/-- Do the keys that a firmware image names have the digest in the fuses, and do both signatures over its payload verify (17 R320), with no
context string (log 68)? -/
def imageSigned (img : List Byte) : Bool :=
  let e := leBytes 32 (Config.imageKeyEd25519 img).toNat
  let m := leBytes 1952 (Config.imageKeyMlDsa65 img).toNat
  let p := Config.imagePayload img
  sha3 (e ++ m) == Config.fuseKeyDigest && ed25519Verify e p (leBytes 64 (Config.imageSigEd25519 img).toNat) &&
    mlDsa65Verify m p [] (leBytes 3309 (Config.imageSigMlDsa65 img).toNat)

/-- Does the boot ROM accept an image (17 R320)? -/
def bootOk (svnMin : Nat) (img : List Byte) : Bool := imageSigned img && decide (svnMin ≤ Config.imageSvn img)

/-- The image the ROM boots: the primary bank's, else the secondary's. -/
def bootImage (flash : Vector (List Byte) 2) (primary : Fin 2) (svnMin : Nat) : Option (List Byte) :=
  if bootOk svnMin flash[primary] then some flash[primary]
  else if bootOk svnMin flash[1 - primary] then some flash[1 - primary] else none

end Sys2Proof.Machine
end

