-- ==== Sys2Proof/Machine/State.lean ====
section
/-! DEFINITION. The state of the device as plain data: cores, tiles, territories, slices, the messages in flight, the
command processor's records, and State.reset. Each field's docstring names the rule that gives it. -/

namespace Sys2Proof.Machine

/-! ### Results, pending marks, traps and parks of a core -/

/-- What a result writes when it lands (02 R38, R39). A loop register written by LOOP is `hard`: it takes effect at once,
where MVTL follows 02 R50. -/
inductive Wr
  | scalar (r : Reg) (x : Word)
  | vector (r : Reg) (x : Vec)
  | pred (r : PReg) (x : Bool)
  | loopReg (r : LReg) (x : BitVec 32) (hard : Bool)
  | sys (r : SysReg) (x : Word)
  | flagsOnly
  deriving DecidableEq, Repr, Inhabited

/-- A register id (02 R43): class times 256 plus number. System registers have no id there. -/
inductive RegId
  | scalar (r : Reg)
  | vector (r : Reg)
  | pred (r : PReg)
  | acc (r : Fin 8)
  | loopReg (r : LReg)
  | sys (r : SysReg)
  deriving DecidableEq, Repr, Inhabited

/-- What a local access still does once it reaches the bank, in the cycle after its bundle issued (04 R89): a load of one element or one
vector, a load of 32 elements, an LDA's load, a store's bytes, or an atomic. Keys are those of State.mem. -/
inductive LocalAcc
  | load (key : Nat) (d : Reg) (sz : MemSz)
  | loadVec (key : Nat) (d : Reg)
  | loadLanes (keys : List Nat) (d : Reg) (sz : MemSz)
  | loadPend (key : Nat) (d : Reg) (sz : MemSz) (id : Nat)
  | store (ws : List (Nat × List Byte))
  | atom (key : Nat) (d : Reg) (op : AtomOp) (ty : AtomTy) (x cmp : BitVec 32)
  deriving DecidableEq, Repr, Inhabited

/-- What an OGET reads of the Orrery (12 R272): an integrand, a residue, a tap's counter, a domain's status. -/
inductive OrrRead
  | y (cell : Nat)
  | res (cell : Nat)
  | tap (k : Fin 16)
  | dom (d : Fin 4)
  deriving DecidableEq, Repr, Inhabited

/-- A fixed-latency result in flight: bundles to run, what it writes, the flags set when it lands (02 R38, 05 R113). The result of an
OGET of a running domain names what it reads: any step boundary up to its landing may give its value (07 R152). -/
structure Flight where
  dist : Nat
  wr : Wr
  flags : BitVec 6
  src : Option OrrRead := none
  deriving DecidableEq, Repr, Inhabited

/-- A variable-latency result in flight and its pending mark (02 R40): the request, the register that is marked (none for s0),
and the result once it has arrived. It lands at the park that clears the mark. -/
structure Pend where
  id : Nat
  reg : Option RegId
  got : Option (Wr × BitVec 6)
  deriving DecidableEq, Repr, Inhabited

/-- A cause with its two informations (02 R42, R43). -/
structure TrapRec where
  code : BitVec 8
  i0 : Word
  i1 : Word
  async : Bool
  deriving DecidableEq, Repr, Inhabited

/-- What a bundle does to the order of issue (08 R178, 09 R184, R185, R188): after the delay bundle a jump, the end of the
slice or a yield; `untaken`, a branch not taken, which still has its delay bundle; `skip`, a jump with no delay bundle
(LOOP of count 0); `rett`, the return from a handler; `evac`, TEVAC, with no delay bundle. -/
inductive XferKind | jump | exit | yld | untaken | skip | rett | evac
  deriving DecidableEq, Repr, Inhabited

structure Xfer where
  kind : XferKind
  target : Word
  deriving DecidableEq, Repr, Inhabited

/-- The loop registers in effect for a level (02 R50): lb and le, and the values written to le that wait, each with the
number of end checks it still waits for. -/
structure LoopEff where
  lb : BitVec 32
  le : BitVec 32
  leQ : List (Nat × BitVec 32)
  deriving DecidableEq, Repr, Inhabited

/-- The control state before a bundle, to which a trap at that bundle's own address goes back (06 R137, R140). -/
structure Back where
  pc : Word
  delay : Option Xfer
  lreg : Vector (BitVec 32) 9
  leff : Vector LoopEff 3
  deriving DecidableEq, Repr, Inhabited

/-- Why a core is parked, and so when the park ends. -/
inductive ParkWhy
  | marker
  | fence (sc : Scope)
  | storeRelease (sc : Scope)
  | spawn (d : Reg) (a : Word) (req : Nat)
  | barFence (id : Bar)
  | barWait (id : Bar) (flips : Nat)
  | chain
  | cwait (mask : BitVec 16)
  | drain (acc : Fin 8) (ver : BitVec 16) (mid : Nat)
  | mwait (acc : Fin 8) (ver : BitVec 16)
  | rwait (ring : Ring) (n : Nat) (deadline : Nat) (back : Back)
  | orrery (until' : Nat) (op : Nat)
  | answer (id : Nat)
  | exitWait
  | yieldWait
  | returning (until' : Nat)
  deriving DecidableEq, Repr, Inhabited

/-- A park: its reason, and whether its end clears the pending marks (02 R40, 11 R232). -/
structure Park where
  why : ParkWhy
  marks : Bool
  deriving DecidableEq, Repr, Inhabited

/-- Why a core is frozen (02 R41): a full queue or table has too few entries free, where `need` counts also those that the lower positions of
its bundle take (12 R258, R260); a tag runs; or until a cycle. -/
inductive Freeze
  | copyQueue (need : Nat)
  | matrixQueue
  | locks (need : Nat)
  | votes (need : Nat)
  | tag (t : Fin 16)
  | until' (cycle : Nat)
  deriving DecidableEq, Repr, Inhabited

/-- The interrupted stream's state while a handler runs (02 R44, R45): results in flight, pending results, the delay bundle
owed, a park held, the requests it had outstanding, and refusals of those that have arrived, each with whether it is taken only at the
park that waits for its result. -/
structure Replay where
  flight : List Flight
  pend : List Pend
  delay : Option Xfer
  owed : Option Xfer
  park : Option Park
  reqs : List Nat
  refused : List (Nat × TrapRec × Bool)
  deriving DecidableEq, Repr, Inhabited

/-! ### Engines of a core -/

/-- A copy tag (12 R262). -/
inductive Tag
  | idle
  | running
  | complete
  | failed (t : TrapRec)
  deriving DecidableEq, Repr, Inhabited

/-- Validity of a weight bank (06 R121). -/
inductive BankOk | never | valid | badCode (off : Nat) | badMap
  deriving DecidableEq, Repr, Inhabited

/-- A weight bank (06 R120, R121): the format latched when an MLW issues, the format of its contents, validity, bytes
(unlisted bytes are 0), and the MLWs issued to it that have not completed. -/
structure Bank where
  fmt : WFmt
  held : WFmt
  ok : BankOk
  bytes : List (Nat × Byte)
  loading : Nat
  deriving DecidableEq, Repr, Inhabited

/-- An accumulator (06 R127 to R130): 1,024 entries (unlisted ones are 0), version counter, OVF, the versions this core has
issued, OVF as last seen, OVF as each of the last 32,768 versions completed (newest first), and flags of completed commands not yet
reported, each with the version its completion made. -/
structure Acc where
  ents : List (Nat × BitVec 32)
  ver : BitVec 16
  ovf : Bool
  issued : BitVec 16
  ovfSeen : Bool
  ovfLog : List Bool
  flags : List (BitVec 16 × BitVec 6)
  deriving DecidableEq, Repr, Inhabited

/-- An entry of an outlier list (06 R126). -/
structure Outlier where
  k : Nat
  n : Nat
  delta : BitVec 32
  deriving DecidableEq, Repr, Inhabited

/-- A piece of what a controller or an engine reads or writes by messages: one that lies in one 256-byte block of HBM (04 R86), or a beat's read of
a peer frame. Its item (of a copy: the beat's first byte), its offset in the item, its address and length, whether it is to be written, the
number of the request that reads or writes it (none before it is sent), and the bytes, once they are there. -/
structure Seg where
  item : Nat
  off : Nat
  va : Nat
  len : Nat
  store : Bool
  req : Option Nat
  bytes : Option (List Byte)
  deriving DecidableEq, Repr, Inhabited

/-- Has the piece's request been sent and not been answered? A write is kept until it is. -/
def Seg.asked (g : Seg) : Bool := g.req.isSome && (g.bytes.isNone || g.store)

/-- What a matrix-queue entry does (06 R128). Addresses are offsets in the frame; rows hold what the array read, and `w` the bank as it
stood when the multiply started (06 R122). A load from HBM holds the pieces it reads and the lowest refusal (offset, cause). -/
inductive MKind
  | mul (bank : Fin 2) (fmt : AFmt) (f32 : Bool) (addr stride rows : Nat) (outl : List Outlier) (deferred : Bool)
      (data : List (List Byte)) (w : Option Bank)
  | drain (addr count : Nat)
  | zero
  | load (bank : Fin 2) (fmt : WFmt) (src : Word) (segs : List Seg) (bad : Option (Nat × TrapRec))
  deriving DecidableEq, Repr, Inhabited

/-- A matrix-queue entry: its number, kind, accumulator and version, whether a COPYM follow-on still awaits its copy,
whether it is voided, and whether the array or drain port has taken it (06 R128, R131). Its range-lock entry names its number. -/
structure MEntry where
  mid : Nat
  kind : MKind
  acc : Fin 8
  ver : BitVec 16
  waitsCopy : Bool
  voided : Bool
  running : Bool
  deriving DecidableEq, Repr, Inhabited

/-- An Orrery cell (07 R141): integrand, residue, last increment and patch entry (dx code, four dy terms). -/
structure Cell where
  y : BitVec 32
  res : BitVec 32
  dz : Int
  dx : BitVec 10
  dy : List (BitVec 16)
  deriving DecidableEq, Repr, Inhabited

/-- A step-clock domain (07 R146, R153): running, period, the count of the last ORUN, steps left (none: until OHALT), steps since
the last start, OVR, ticks until the next step, and the steps that OSTEPs have asked for. -/
structure Dom where
  run : Bool
  period : Nat
  count : BitVec 32
  left : Option Nat
  steps : BitVec 32
  ovr : Bool
  phase : Nat
  once : Nat
  deriving DecidableEq, Repr, Inhabited

/-- An input port (07 R149): queued increments, the place of the oldest among its 64, and the load ring it is bound to. -/
structure Port where
  queue : List Int
  head : Nat
  ring : Option Ring
  deriving DecidableEq, Repr, Inhabited

/-- A tap (07 R150, 12 R274): mode 0 off, 1 count, 2 sample; first cell, width, P, ring, counter, samples in the slot held,
steps since the last sample. -/
structure Tap where
  mode : Nat
  cell : Nat
  w : Nat
  p : Nat
  ring : Ring
  count : BitVec 64
  samples : Nat
  since : Nat
  holds : Bool
  deriving DecidableEq, Repr, Inhabited

/-- A change that OSET or OPATCH makes to a running domain and that has not reached it: any step boundary from issue to the end of the
second tick may be its moment (07 R152). -/
inductive OrrWrite
  | y (cell : Nat) (x : BitVec 32)
  | res (cell : Nat) (x : BitVec 32)
  | patch (cell : Nat) (dx : BitVec 10) (dy : List (BitVec 16))
  deriving DecidableEq, Repr, Inhabited

/-- The Orrery (07 R141 to R153): cells (unlisted ones are empty), domains, HOLD, crossing FIFOs by 3a + b, input ports,
taps, the cycle of its last tick, and changes to running domains that are on their way, each with the ticks it may still wait. -/
structure Orrery where
  cells : List (Nat × Cell)
  doms : Vector Dom 4
  hold : Bool
  fifos : Vector (List (List (Nat × Int))) 12
  ports : Vector Port 16
  taps : Vector Tap 16
  lastTick : Option Nat
  late : List (Nat × OrrWrite)
  deriving DecidableEq, Repr, Inhabited

/-- An open chain (11 R253 to R255): its number, hops (physical tile and logical index), payload bytes, frame id, offset, and the shape
version its issuer's tile held when it asked for the buffers (03 R64, R71). -/
structure Chain where
  cid : Nat
  hops : List (TileId × Nat)
  len : Nat
  fid : Nat
  off : Nat
  ver : BitVec 32
  deriving DecidableEq, Repr, Inhabited

/-- A reservation under way (11 R254): the chain it asks for and the offset of STATUS in the frame; none for one that is made
again after a pre-emption, which leaves STATUS unchanged (16 R312). -/
structure ChainAsk where
  chain : Chain
  statusOff : Option Nat
  /-- It has been refused and is to be made again. -/
  refused : Bool
  deriving DecidableEq, Repr, Inhabited

/-- A core: registers, control state, pipeline, and its engines. -/
structure Core where
  /-- s0 to s31 (01 R14); the accessor reads s0 as 0. -/
  sreg : Vector Word 32
  /-- v0 to v31 (10 R208). -/
  vreg : Vector Vec 32
  /-- p0 to p7; the accessor reads p0 as true. -/
  preg : Vector Bool 8
  /-- lc0-2, lb0-2, le0-2 by id (02 R43). -/
  lreg : Vector (BitVec 32) 9
  /-- lb and le in effect for levels 0 to 2 (02 R50). -/
  leff : Vector LoopEff 3
  /-- FPFLAGS (05 R112). -/
  fpflags : BitVec 6
  /-- TCAUSE (02 R42). -/
  tcause : Word
  /-- TPC (09 R196). -/
  tpc : Word
  /-- TINFO0 and TINFO1 (02 R43). -/
  tinfo0 : Word
  tinfo1 : Word
  /-- TRAPV (09 R196). -/
  trapv : Word
  /-- RSP (02 R47, 09 R196). -/
  rsp : Word
  /-- RINGBASE (09 R196). -/
  ringbase : Word
  /-- DISCSEL.PAGE (08 R170). -/
  discsel : BitVec 8
  /-- Offset of the next bundle to issue (09 R182). -/
  pc : Word
  /-- The return-address store, newest first, at most 16 (02 R47). -/
  ras : List Word
  /-- Entries in the spill area (02 R47). -/
  spilled : Nat
  /-- When present, the next bundle is a delay bundle, and this is what follows it (08 R178). -/
  delay : Option Xfer
  /-- EXIT, YIELD or TEVAC whose last bundle has issued and that takes effect once that bundle's parks have ended (09 R189, R190). -/
  owed : Option Xfer
  /-- The transfer the words of the bundle now issuing ask for; none between bundles (09 R184). -/
  xfer : Option Xfer
  /-- The cause to raise once the bundle now issuing has issued: TRAP, BKPT (09 R187); none between bundles. -/
  after : Option TrapRec
  /-- Fixed-latency results in flight, pending results, and what stops issue (02 R38, R40, R41). -/
  flight : List Flight
  pend : List Pend
  park : Option Park
  freeze : Option Freeze
  /-- Refusals that wait for a park (04 R84), each with the request refused and whether only the park that waits for that request's
  result takes it (04 R85, R87). -/
  refused : List (Nat × TrapRec × Bool)
  /-- The local accesses that have not reached their banks, oldest first, each with the bundles issued since its own (04 R89, 08 R180). -/
  acc : List (Nat × LocalAcc)
  /-- Asynchronous causes that wait for a bundle boundary (02 R42). -/
  causes : List TrapRec
  replay : Option Replay
  /-- Requests of this core not yet acknowledged end to end (04 R92, R102). -/
  outst : List Nat
  /-- The slice this core is held by (02 R29). -/
  sl : Option Nat
  /-- Gang position and log2 of the gang's size (02 R28). -/
  pos : Nat
  gsize : Nat
  /-- DET: a detached follower (02 R28, R36). -/
  det : Bool
  /-- The rendezvous a detached follower waits for (02 R36). -/
  rendez : Option Word
  /-- Halted by pre-emption (16 R310). -/
  halted : Bool
  /-- Halted by a debugger, and the bundles it may still issue (16 R309). -/
  dbgHalt : Bool
  dbgSteps : Nat
  /-- While a debugger's step runs, which is a stream of its own: the results in flight and pending of the stream that was stopped
  (02 R38). -/
  dbgHeld : Option (List Flight × List Pend)
  /-- The core cycle in which it last issued (02 R38: one bundle per cycle). -/
  issuedAt : Option Nat
  /-- The cycle of the time base at which its last bundle issued on it: an attached follower issues later than its leader (02 R34, 09 R198). -/
  ownAt : Nat
  tags : Vector Tag 16
  banks : Vector Bank 2
  streams : Vector AFmt 4
  accs : Vector Acc 8
  mq : List MEntry
  /-- The matrix fault record (12 R270). -/
  mfault : Option TrapRec
  /-- The outlier list bound to the next multiply (06 R126). -/
  outl : List Outlier
  orr : Orrery
  chain : Option Chain
  ask : Option ChainAsk
  /-- SEAL-named buffers in issue order (09 R199). -/
  seals : List (Word × Nat)
  deriving DecidableEq, Repr, Inhabited

/-! ### Slices and rings -/

/-- A stream subscription (06 R138, R139, 11 R245). `next` counts the items its controller has taken up: fetched for a push, asked for by
a pull; `sent` the items of a load ring that it has sent to the tile; `segs` are the pieces it holds or waits for, `bad` the lowest piece
refused (item, offset, cause), `seen` says that the loop-count block's flag has been seen. -/
structure Sub where
  va : Nat
  rowb : Nat
  nrow : Nat
  rstr : Int
  c0 : Nat
  c1 : Nat
  c2 : Nat
  s0 : Int
  s1 : Int
  s2 : Int
  lcb : Option Nat
  flagv : BitVec 32
  waitsLcb : Bool
  seen : Bool
  next : Nat
  sent : Nat
  segs : List Seg
  bad : Option (Nat × Nat × TrapRec)
  stopped : Bool
  deriving DecidableEq, Repr, Inhabited

/-- Who besides the core works a ring (07 R149, R150). -/
inductive RingUser | port (k : Fin 16) | tap (k : Fin 16)
  deriving DecidableEq, Repr, Inhabited

/-- A ring (06 R133 to R140): its slots in the frame, direction once subscribed (false load, true store), counts, tags,
subscription, fault record, other user, the bytes a port has taken from the slot it reads, the slots freed last, each with the cycle
(13 R282), and the words that a pull has read of its slot so far (13 R283). HEAD of a store ring counts the items whose writes have been
acknowledged (06 R137). -/
structure RingSt where
  slots : Nat
  bytes : Nat
  base : Nat
  dir : Option Bool
  head : Nat
  tail : Nat
  got : Nat
  tags : List (BitVec 16)
  sub : Option Sub
  fault : Option TrapRec
  user : Option (Nat × RingUser)
  taken : Nat
  freed : List (Nat × Nat)
  pulled : List (Nat × BitVec 64)
  deriving DecidableEq, Repr, Inhabited

/-- A core of a slice: the slice's number and the gang position (requests outlive a YIELD, which may change cores). -/
abbrev Who := Nat × Nat

/-- Where a slice stands (02 R25, R29 to R31). -/
inductive SliceSt | held | queued | running | exiting | ended
  deriving DecidableEq, Repr, Inhabited

/-- How a slice ends (16 R305); `replay`: it is aborted and queued again (16 R317). -/
inductive EndHow | exit | budget | evacuated | nested (code : BitVec 8) | dataLoss | dissolved | ifError | expired | replay
  deriving DecidableEq, Repr, Inhabited

/-- A slice (02 R23 to R33). -/
structure Slice where
  uid : Nat
  launch : Nat
  terr : Nat
  /-- The tile it is queued or runs on; none while it is held with no tile. -/
  tile : Option TileId
  /-- SLICEID (02 R27). -/
  sid : Nat
  code : Nat
  entry : Word
  handler : Word
  /-- DEADLINE (02 R27). -/
  deadline : Word
  /-- Declared budget, BUDGET (remaining), cycles charged (02 R27, R32). -/
  declared : Nat
  left : Nat
  charged : Nat
  /-- The cycles charged when it was last dispatched (16 R317). -/
  recCharged : Nat
  /-- Frame request rounded up, granted frame: id, base in the scratchpad, size (02 R24, 04 R83). -/
  frameReq : Nat
  fid : Option Nat
  fbase : Nat
  fsize : Nat
  ncores : Nat
  args : Word
  target : Option Nat
  coop : Bool
  st : SliceSt
  /-- Arrival sequence (02 R29). -/
  arrival : Nat
  /-- Its cores, leader first. -/
  cores : List CoreId
  /-- Registers, control and replay state saved by YIELD, leader first (02 R31). -/
  saved : List Core
  late : Bool
  /-- Grace left once BUDGET has reached zero (02 R32). -/
  grace : Option Nat
  rings : List RingSt
  /-- The ring descriptor table it holds (16 R306). -/
  table : Option Nat
  how : EndHow
  replays : Nat
  /-- It has issued an instruction after which it is not replayed (16 R317). -/
  noReplay : Bool
  evacuated : Bool
  /-- Claimed by a debugger (16 R309). -/
  claimed : Bool
  /-- Its frame is given to it afresh and zeroed at its next dispatch (03 R62, 16 R317). -/
  fresh : Bool
  /-- The ceding tile it was re-homed from, while it is held (03 R61). -/
  home : Option TileId
  /-- The buffers it named, once it has completed (09 R199), and the words read so far of the first (15 R291). -/
  seals : List (Word × Nat)
  read : List (Nat × BitVec 64)
  deriving DecidableEq, Repr, Inhabited

/-! ### Tiles -/

/-- A range-lock entry (04 R97): its number, scratchpad range, whether it is a destination, the operation that owns it. -/
structure Lock where
  entry : Nat
  lo : Nat
  len : Nat
  dst : Bool
  op : Nat
  deriving DecidableEq, Repr, Inhabited

/-- Where a copy reads or writes (12 R260): this tile's scratchpad, a tile resolved at issue, a hole, or HBM. -/
inductive CLoc
  | local' (phys : Nat)
  | peer (t : TileId) (lidx fid off : Nat)
  | hole (lidx : Nat)
  | hbm (va : Nat)
  deriving DecidableEq, Repr, Inhabited

/-- An accepted copy (12 R260 to R263): the next byte, the pieces of beats whose source is read by messages and that are still to be written, the
write requests not yet acknowledged (request, byte), the lowest failure so far (byte, cause), the matrix entry that follows on, the shape version at issue, and a stop (19 R341). -/
structure Copy where
  cid : Nat
  who : Who
  terr : Nat
  tag : Fin 16
  src : CLoc
  dst : CLoc
  srcA : Word
  dstA : Word
  len : Nat
  next : Nat
  reads : List Seg
  outIds : List (Nat × Nat)
  failed : Option (Nat × TrapRec)
  follow : Option Nat
  ver : BitVec 32
  stopped : Bool
  deriving DecidableEq, Repr, Inhabited

/-- A barrier's configuration (04 R99). -/
structure BarCfg where
  x0 : Nat
  y0 : Nat
  x1 : Nat
  y1 : Nat
  count : Nat
  deriving DecidableEq, Repr, Inhabited

/-- A tile's barrier (04 R99, R100, 11 R242, 14 R285): configuration, validity, phase, executions in this phase and beyond,
arrivals of its children with the configurations they carried, whether its own arrival has gone up, whether a mismatch has been found and
whether a core of the tile has taken it, and the configurations of arrivals held while it is not configured (count 0: the news of a mismatch). -/
structure Barrier where
  cfg : Option BarCfg
  valid : Bool
  phase : Bool
  arr : Nat
  kids : Nat
  sent : Bool
  bad : Bool
  told : Bool
  from' : List BarCfg
  held : List BarCfg
  deriving DecidableEq, Repr, Inhabited

/-- A posted receive (11 R250). -/
structure Posted where
  id : Nat
  who : Who
  fid : Nat
  src : Option Nat
  tag : Option (BitVec 16)
  cap : Nat
  off : Nat
  d : Reg
  deriving DecidableEq, Repr, Inhabited

/-- The payload of a message on its way into the buffer of the receive that took it: whose receive, its number, the frame offset, the
payload, the words still to be written, and the record to deliver after them (11 R250). -/
structure Fill where
  who : Who
  id : Nat
  off : Nat
  bytes : List Byte
  todo : List Nat
  wr : Wr
  deriving DecidableEq, Repr, Inhabited

/-- A message in the overflow queue (11 R251). -/
structure QMsg where
  fid : Nat
  src : Nat
  tag : BitVec 16
  bytes : List Byte
  deriving DecidableEq, Repr, Inhabited

/-- A claim that waits for its grants (03 R60): the gaining territory, the losing one (none for a free tile). -/
structure Claim where
  /-- The cycle of the phase start at which it was made; its size requests and grants carry it. -/
  start : Nat
  gain : Nat
  lose : Option Nat
  lossOk : Bool
  gainOk : Bool
  /-- Abandoned: by an anchor (12 R278) or a freeze mark (03 R74). -/
  dead : Bool
  deriving DecidableEq, Repr, Inhabited

/-- A cession under way (03 R61): the gaining territory (none: released to the free pool), the last cycle of the evacuation
budget, whether evacuation has ended, whether clearing is done, and the losing territory's shape version from the commit on. -/
structure Cession where
  gain : Option Nat
  lastCycle : Nat
  expired : Bool
  cleared : Bool
  ver : BitVec 32
  deriving DecidableEq, Repr, Inhabited

/-- A tile. Its place x + 32 y is its index in State.tiles. -/
structure Tile where
  fenced : Bool
  /-- The cycle in which FENCE fenced it; the fence map shows it from the next one (21 R358). -/
  fencedAt : Option Nat
  owner : Option Nat
  lidx : Nat
  ceding : Option Cession
  /-- Being annexed: the territory and the cycle of step 6 (03 R61). -/
  joining : Option (Nat × Nat)
  /-- TPRESS bias, raw and smoothed pressure (03 R53, R54). -/
  bias : Nat
  raw : Nat
  press : Nat
  /-- Anchors of TANCHOR and of firmware (03 R73). -/
  anchT : Bool
  anchF : Bool
  /-- The cycle in which it last completed step 6 of a move, from which cooldown counts (03 R56). -/
  moved : Option Nat
  claim : Option Claim
  bars : Vector Barrier 4
  /-- Votes in flight: number and voting core's request (04 R101), and the next vote number. -/
  votes : List (Nat × Nat × Who)
  voteNo : Nat
  locks : List Lock
  copyQ : List Copy
  posted : List Posted
  overflow : List QMsg
  fills : List Fill
  upcalls : List TrapRec
  chainBufs : List Nat
  ctr : Vector (BitVec 64) 16
  lastFid : Option Nat
  nextSid : Nat
  lastBeat : Option Nat
  /-- Code objects resident in its instruction cache (16 R300). -/
  resident : List Nat
  /-- It has quiesced since its context was halted (16 R312). -/
  quiet : Bool
  /-- The pre-emption message has reached it, and its context is still halted (11 R246, 16 R310, R311). -/
  preempt : Bool
  /-- The shape version of its territory since which it is a member: what was issued under an earlier one is not for it (03 R71, 12 R265). -/
  joinVer : BitVec 32
  deriving DecidableEq, Repr, Inhabited

/-! ### Messages -/

/-- A place in a peer frame or in HBM, with the address as the program gave it (04 R80). -/
inductive Place
  | peer (t : TileId) (lidx fid off : Nat)
  | hbm (va : Nat)
  deriving DecidableEq, Repr, Inhabited

/-- What a load's data becomes when it arrives: a scalar or a vector register. -/
inductive LoadTo | scalar (r : Reg) (sz : MemSz) | vector (r : Reg)
  deriving DecidableEq, Repr, Inhabited

/-- Snapshot requests (12 R275, R276). -/
inductive SnapKind | shape (off : Nat) | map (idx : Nat)
  deriving DecidableEq, Repr, Inhabited

/-- What the handler tile answers (12 R278, R279). -/
inductive AnswerKind | done | fault (t : TrapRec)
  deriving DecidableEq, Repr, Inhabited

/-- The bodies of mesh messages, by the class each travels in (11 R246). A `read` is a copy beat's, or an MLW's. Of a refusal, `own` says whether only the park that waits for the
request's result takes it (04 R85, R87). An answer to a vote travels in class 5. -/
inductive Msg
  /-- class 0 -/
  | load (p : Place) (a : Word) (len : Nat) (dest : LoadTo)
  | store (p : Place) (a : Word) (bytes : List Byte)
  | atom (p : Place) (a : Word) (op : AtomOp) (ty : AtomTy) (x cmp : BitVec 32) (d : Reg)
  | copyWr (p : Place) (a : Word) (bytes : List Byte) (cid : Nat) (ver : BitVec 32)
  | read (p : Place) (a : Word) (len : Nat) (ver : BitVec 32) (mlw : Bool)
  | push (sl ring item : Nat) (bytes : List Byte)
  | fetch (sl ring item : Nat)
  | rowRead (sl ring va len : Nat)
  | rowWrite (sl ring va : Nat) (bytes : List Byte)
  /-- class 1 -/
  | tagged (t : TileId) (lidx fid src : Nat) (tag : BitVec 16) (bytes : List Byte)
  /-- class 2 -/
  | reserve (c : Chain) (hop : Nat)
  | payload (c : Chain) (hop : Nat) (bytes : List Byte) (ver : BitVec 32)
  /-- class 3 -/
  | reply (req : Nat) (wr : Wr) (flags : BitVec 6)
  | refuse (req : Nat) (t : TrapRec) (own : Bool)
  | chainAns (cid : Nat) (ok : Bool) (hole : Option TrapRec)
  | chainFault (cid : Nat) (t : TrapRec)
  | data (req : Nat) (bytes : List Byte)
  | fetched (sl ring item : Nat) (bytes : List Byte)
  | rowData (sl ring req : Nat) (bytes : List Byte)
  | rowBad (sl ring req : Nat) (t : TrapRec)
  /-- class 4 -/
  | ack (req : Nat)
  /-- class 5; `void` is a barrier message whose barrier has become invalid (03 R72) -/
  | void
  | preempt
  | chainFree (cid : Nat)
  | barArrive (id : Bar) (cfg : BarCfg)
  | barRelease (id : Bar) (cfg : BarCfg) (bad : Bool)
  | vote (no : Nat) (op : VoteOp) (x : Word) (d : Reg)
  | sizeReq (terr : Nat) (loss : Bool) (g : TileId) (start : Nat)
  | sizeGrant (terr : Nat) (loss : Bool) (ok : Bool) (g : TileId) (start : Nat)
  | sizeReturn (terr : Nat) (loss : Bool) (start : Nat)
  | upcall (terr : Nat) (t : TrapRec)
  | freezeReq
  | thawReq
  | anchorReq (lidx : Nat) (on : Bool)
  | anchorFwd (home : Nat) (req : Nat) (ver : BitVec 32) (on counted : Bool)
  | snapReq (d : Reg) (k : SnapKind)
  | snapAns (req : Nat) (wr : Wr) (rec : List Byte) (off : Nat)
  | answer (req : Nat) (k : AnswerKind)
  deriving DecidableEq, Repr, Inhabited

/-- A message in flight (11 R246, R247). Nodes 0 to 383 are tiles, 384 to 511 the stream controllers, 512 is the command processor. -/
structure Packet where
  id : Nat
  src : Nat
  dst : Nat
  cls : Nat
  seq : Nat
  /-- The cycle in which it was last sent, and the shape version its source's tile held at issue (03 R71). -/
  sent : Nat
  ver : BitVec 32
  /-- The requester (none: firmware, a controller or a tile). -/
  who : Option Who
  terr : Nat
  body : Msg
  deriving DecidableEq, Repr, Inhabited

/-! ### Territories, launches, sessions -/

/-- A 2 MiB piece of a territory's virtual space (16 R301): virtual piece number, permission, physical piece number. -/
structure Page where
  vpn : Nat
  rw : Bool
  ppn : Nat
  /-- It is part of a 1 GiB page. -/
  big : Bool
  /-- Its dirty bit (04 R88). -/
  dirty : Bool
  deriving DecidableEq, Repr, Inhabited

/-- The states of the attested interface (17 R332). -/
inductive IfState | unlocked | locked | run | error
  deriving DecidableEq, Repr, Inhabited

/-- The attested interface (17 R330): registers 0 to 8 and the start nonce. -/
structure Iface where
  st : IfState
  regs : Vector Word 9
  nonce : List Byte
  attested : Bool
  deriving DecidableEq, Repr, Inhabited

/-- A territory-wide vote (04 R101): number, operation (none before the first contribution), value so far, tiles still to contribute, the VOTEs that wait for the
result (tile, core, request, destination), and whether the operations differ. -/
structure Vote where
  no : Nat
  op : Option VoteOp
  x : Word
  todo : List TileId
  voters : List (TileId × Who × Nat × Reg)
  bad : Bool
  deriving DecidableEq, Repr, Inhabited

/-- A territory whose slices are being ended (16 R299, 17 R332, R333): how, the command to answer, the session whose
STOP_INTERFACE_REQUEST is to be answered, and whether the tiles stay members. -/
structure Dying where
  how : EndHow
  reply : Option Hdr
  stop : Option Nat
  stays : Bool
  deriving DecidableEq, Repr, Inhabited

/-- The interface of a territory that its entry to ERROR has dissolved, until STOP_INTERFACE_REQUEST leaves ERROR (17 R332, R333). -/
structure Ghost where
  terr : Nat
  sess : Nat
  iface : Iface
  deriving DecidableEq, Repr, Inhabited

/-- A registered code object (16 R300). -/
structure CodeObj where
  handle : Nat
  terr : Nat
  body : CodeBody
  dimg : Nat
  deriving DecidableEq, Repr, Inhabited

/-- A launch (16 R303, R305). -/
structure Launch where
  id : Nat
  sess : Nat
  terr : Nat
  seq : Nat
  open' : Nat
  nslice : Nat
  late : Nat
  replays : Nat
  status : Nat
  /-- The status that every slice's end is reported with, once its territory is dissolved (16 R299, 17 R333). -/
  forced : Option Nat
  first : Nat
  cause : BitVec 8
  deriving DecidableEq, Repr, Inhabited

/-- An endpoint table entry (17 R323). -/
structure Endpoint where
  fa : BitVec 128
  job : Nat
  ports : BitVec 8
  deriving DecidableEq, Repr, Inhabited

/-- An event of the measurement chain (17 R324). -/
structure ChainEvent where
  ty : Byte
  hash : BitVec 384
  deriving DecidableEq, Repr, Inhabited

/-- A session (17 R322 to R328). -/
structure Session where
  id : Nat
  nonce : List Byte
  chain : BitVec 384
  log : List ChainEvent
  /-- Events that an image carried into the session, before those of the log (16 R315). -/
  evBase : Nat
  eps : List (Nat × Endpoint)
  nextSeq : Nat
  counts : Vector Nat 6
  replays : Nat
  shape : BitVec 384
  /-- A command of the session has been accepted and has not yet taken its effect (16 R296). -/
  busy : Bool
  deriving DecidableEq, Repr, Inhabited

/-! ### Images and the host side -/

/-- A tile section of a context image (16 R314): the tile record, its four cores, its slices, the bytes of its frames. -/
structure Section where
  lidx : Nat
  isCeding : Bool
  pos : TileId
  tile : Tile
  cores : List Core
  slices : List Slice
  cells : List (Nat × Byte)
  deriving DecidableEq, Repr, Inhabited

/-- A context image with its commit record (16 R313, 20 R346): the record's fields at the store offset, the number that its opaque bytes
follow, then the header's fields and what the image holds. -/
structure Image where
  off : Nat
  magic : List Byte
  gen : Nat
  parent : Option Nat
  len : Nat
  digest : BitVec 384
  writer : BitVec 384
  no : Nat
  imagic : List Byte
  major : Nat
  minor : Nat
  terr : Nat
  born : Nat
  frz : Bool
  full : Bool
  members : Nat
  ver : BitVec 32
  stepping : BitVec 16
  chain : BitVec 384
  evcnt : Nat
  replays : Nat
  savedAt : Nat
  sections : List Section
  /-- 64 KiB granules of the virtual space, with their bytes (unlisted ones are 0). -/
  pages : List (Nat × List (Nat × Byte))
  /-- What 16 R314 does not list: slices held on no tile, code objects, open launches, votes, waiting freezes, request numbers. -/
  loose : List Slice
  codes : List CodeObj
  launches : List Launch
  votes : List Vote
  nextVote : Nat
  mark : Bool
  waiting : List (Who × Nat × TileId)
  nextReq : Nat
  /-- What has been written over its bytes in the store since they were written, by the offset in them, oldest first (20 R347). -/
  patched : List (Nat × List Byte)
  deriving DecidableEq, Repr, Inhabited

/-- A SAVE or CHECKPOINT accepted and not yet answered (16 R313, 20 R347, R348): the command, store offset, FULL, the checkpoint's body,
whether the context resumes after it, and how far the writing is: not begun, the record zeroed, or the image, which is then written. -/
structure Saving where
  h : Hdr
  off : Nat
  full : Bool
  ckpt : Option CkptBody
  resume : Bool
  zeroed : Bool
  image : Option Image
  deriving DecidableEq, Repr, Inhabited

/-- A territory (03 R51, R52, R68, R74, R78). -/
structure Terr where
  id : Nat
  /-- Its number among the territories that this module has created: TERR numbers are given again (03 R51, 20 R348). -/
  born : Nat
  sess : Nat
  handler : TileId
  ver : BitVec 32
  mark : Bool
  frz : Bool
  /-- TFREEZEs that wait for FRZ (12 R279): core, request, tile. -/
  waiting : List (Who × Nat × TileId)
  /-- The tiles whose moves hold a grant of this handler tile (03 R60), with the start of the claim: that may leave, that may join. -/
  lossGrants : List (TileId × Nat)
  gainGrants : List (TileId × Nat)
  /-- The tiles whose grants stand, in the order given, until the loss commits or the tile joins: shape versions follow it (03 R68). -/
  order : List TileId
  minA : Nat
  maxB : Nat
  evac : Nat
  /-- Policy values that take effect from the next phase (03 R78). -/
  pendPol : List (Nat × Nat)
  /-- Firmware anchors to be set or cleared from the next phase (03 R78). -/
  pendAnch : List (TileId × Bool)
  /-- Anchors counted for requests whose answer is still under way (12 R278). -/
  anchPending : Nat
  pages : List Page
  /-- Dirty 64 KiB granules (04 R88) and whether a DIRTY has been executed (20 R351). -/
  dirty : List Nat
  dirtyRead : Bool
  /-- The cycle of the last write to HBM, and the granules written in it (20 R351). -/
  wroteAt : Nat
  wrote : List Nat
  dirtySince : Bool
  lastCoop : Option Nat
  votes : List Vote
  nextVote : Nat
  /-- Halted by PREEMPT; the PREEMPT and the SAVE that wait to be answered (16 R296, R310, R312). -/
  halted : Bool
  haltReply : Option Hdr
  /-- An image has been written since the halt (03 R66). -/
  imaged : Bool
  saving : Option Saving
  dying : Option Dying
  iface : Iface
  deriving DecidableEq, Repr, Inhabited

/-- A Parallax stream that leaves this module (20 R350): what it copies, the image last, and where the buddy writes it. -/
structure PxOut where
  sess : Nat
  terr : Nat
  born : Nat
  buddy : Nat
  off : Nat
  boff : Nat
  bpoff : Option Nat
  images : List Image
  deriving DecidableEq, Repr, Inhabited

/-- A Parallax stream that reaches this module: the sender's fabric address, the offsets, the images, the record last, whether it arrives
whole or breaks off, and how far the writing is (20 R347). -/
structure PxIn where
  fa : BitVec 128
  boff : Nat
  bpoff : Option Nat
  images : List Image
  whole : Bool
  stage : Nat
  deriving DecidableEq, Repr, Inhabited

/-- What an entry of the matrix queue is to a debugger (16 R309). -/
inductive MRow | mul | drain | zero | load
  deriving DecidableEq, Repr, Inhabited

/-- What DEBUG READ returns of a core (16 R309): registers as they stand; the scalar, predicate and loop results in flight with their
distances; the number of vector results in flight; a bit per register that is pending, by class; accumulators, matrix queue and copy tags;
and what OGET reads. -/
structure CoreRead where
  sreg : Vector Word 32
  vreg : Vector Vec 32
  preg : Vector Bool 8
  lreg : Vector (BitVec 32) 9
  flight : List (Word × Nat × Wr)
  vectors : Nat
  pendS : BitVec 32
  pendV : BitVec 32
  pendP : BitVec 8
  pendL : BitVec 9
  accs : List (List (Nat × BitVec 32) × BitVec 16 × Bool)
  mq : List (MRow × Fin 8 × BitVec 16 × Bool)
  tags : Word
  cells : List (Nat × BitVec 32 × BitVec 32)
  taps : List (BitVec 64)
  doms : List Word
  deriving DecidableEq, Repr, Inhabited

/-- What a response carries besides its status (16 R293). -/
inductive Body
  | empty
  | words (ws : List (BitVec 64))
  | bytes (bs : List Byte)
  | events (es : List (Nat × ChainEvent))
  | debug (cs : List CoreRead) (bars : List Word) (len : Nat)
  deriving DecidableEq, Repr, Inhabited

/-- A piece of the response to COUNTERS or TELEMETRY, read in one cycle (21 R355, R363): the place that heads a member's counters, a tile's
counter, one of the device's counters 16 to 20, the header of TELEMETRY, an island's record. -/
inductive Probe
  | place (t : TileId)
  | tile (t : TileId) (id : Fin 16)
  | dev (id : Fin 5)
  | sample
  | island (i : Fin 32)
  deriving DecidableEq, Repr, Inhabited

/-- A COUNTERS or TELEMETRY whose response is being read: the command, its CODE, the pieces still to be read and those read, each with its
place in the response. They are read one by one, in any order (21 R355, R363). -/
structure Reading where
  h : Hdr
  code : Nat
  todo : List (Nat × Probe)
  got : List (Nat × List Byte)
  deriving DecidableEq, Repr, Inhabited

/-- A message to the host (16 R293, R305, 17 R331, 20 R350). -/
inductive HostMsg
  | response (sess : Nat) (header : List Byte) (body : Body)
  | completion (sess seq status nslice late replays first : Nat) (cause : BitVec 8)
  | pxdone (sess off boff status : Nat)
  | pxack (fa : BitVec 128) (boff status : Nat)
  | rma (sess : Nat) (ok : Bool) (bytes : List Byte)
  | spdm (sess kind : Nat) (bytes : List Byte)
  | tdisp (sess kind : Nat) (ok : Bool) (bytes : List Byte)
  deriving DecidableEq, Repr, Inhabited

/-- An island (21 R360 to R363): clock in sixteenths of nominal, held by the thermal limit, power of the last window in
sixteenths of a watt. -/
structure Island where
  clk : Nat
  hot : Bool
  watts16 : Nat
  deriving DecidableEq, Repr, Inhabited

/-- An ECC error that the next accesses find, on a tile (scratchpad, weight bank, reserved area) or in a 2 MiB piece of HBM: corrected words,
and in HBM uncorrectable ones (21 R356, R357). -/
inductive EccError
  | tile (t : TileId)
  | hbm (page corrected uncorrectable : Nat)
  deriving DecidableEq, Repr, Inhabited

/-- Power state: running, halted by the thermal shutdown, without power. -/
inductive Power | on | shutdown | off
  deriving DecidableEq, Repr, Inhabited

/-- Device-wide settings, firmware and environment. -/
structure Dev where
  /-- H, W and cooldown (03 R78), and changes that wait for the next phase. -/
  h : Nat
  w : Nat
  cool : Nat
  pendPol : List (Nat × Nat)
  /-- STORE in GiB, PXPEERS, OPS, ISLANDCAP, MODCAP, SCRUB (21 R359). -/
  store : Nat
  pxpeers : List (BitVec 128)
  ops : List (BitVec 128)
  islandcap : Vector Nat 32
  modcap : Nat
  scrub : Nat
  /-- Counters 16 to 20 (21 R356). -/
  ctr : Vector (BitVec 64) 5
  isl : Vector Island 32
  module16 : Nat
  /-- The window of 17,000 cycles in which the module total last stepped every island down (21 R361). -/
  modWin : Option Nat
  power : Power
  /-- Flash banks, which is primary, SVNMIN, boot count, receipts of this boot, boot failure (17 R320, R321, R328). -/
  flash : Vector (List Byte) 2
  primary : Fin 2
  svnMin : Nat
  boots : Nat
  receipts : Nat
  bootFail : Bool
  /-- The image that booted (17 R320), and the sessions that run inside an SPDM secure session (17 R331). -/
  running : List Byte
  spdm : List Nat
  /-- The FWACTIVATE that waits until every territory has ended (17 R321). -/
  activating : Option Hdr
  /-- Images written so far; numbers their opaque bytes (20 R346). -/
  images : Nat
  /-- Next slice, launch, code handle, territory, request and operation numbers. No request is numbered 0. -/
  nextUid : Nat
  nextLaunch : Nat
  nextHandle : Nat
  nextTerr : Nat
  nextReq : Nat
  nextArr : Nat
  deriving DecidableEq, Repr, Inhabited

/-- What the last word given to exec did (MODEL's own; 08 R156: a bundle issues whole or not at all). -/
inductive Issue
  | issued
  | trapped (t : TrapRec)
  | stalled
  deriving DecidableEq, Repr, Inhabited

/-- The device. -/
structure State where
  /-- The device time base, which CYCLE reads (03 R53, 09 R198). -/
  now : Nat
  /-- The core whose bundle issues: registers in an instruction are this core's. -/
  cur : CoreId
  /-- The MODEL's own counter of steps with a choice; free values are functions of it. -/
  stepNo : Nat
  /-- The MODEL's own record of what the last word did. -/
  issue : Issue
  /-- Scratchpad bytes at tile × 2^22 + offset, HBM bytes at 2^40 + physical address. -/
  mem : List Host.Cell
  cores : Vector Core 1536
  tiles : Vector Tile 384
  terrs : List Terr
  ghosts : List Ghost
  slices : List Slice
  launches : List Launch
  codes : List CodeObj
  /-- Messages in flight, oldest first; copies sources keep until acknowledged; sequence numbers next sent and next
  expected for each (source, destination, class) (11 R247). -/
  net : List Packet
  kept : List Packet
  txSeq : List ((Nat × Nat × Nat) × Nat)
  rxSeq : List ((Nat × Nat × Nat) × Nat)
  sessions : List Session
  dev : Dev
  readings : List Reading
  /-- Committed images of the checkpoint store (20 R345, R346). -/
  store : List Image
  pxOut : List PxOut
  pxIn : List PxIn
  /-- Host commands and other events of the outside world that have not yet happened, oldest first. -/
  inputs : List Instr
  /-- ECC errors that reads are still to find, oldest first: of the outside world too (21 R356). -/
  errors : List EccError
  /-- Events that the current cycle of the time base makes due, in order. -/
  due : List Instr
  /-- Messages sent to the host, oldest first. -/
  outbox : List HostMsg
  deriving DecidableEq, Repr

/-- Why the machine stops. -/
inductive Fault
  /-- Raised by step when the module has no power, or is shut down by its temperature, and no reset or power event is the next
  input (20 R347, 21 R362: it waits for a reset). Safe: a machine without power executes nothing. -/
  | waitsForReset
  deriving DecidableEq, Repr

/-- Why an instruction has no meaning. -/
inductive Refusal
  /-- Raised by exec for an instruction the model does not give a meaning. Safe: nothing is claimed of it. -/
  | notModelled (mnemonic : String)
  deriving DecidableEq, Repr

/-! ### Reset -/

/-- An empty Orrery cell: no dx source, four unused dy terms (07 R142). -/
def Cell.empty : Cell := { y := 0, res := 0, dz := 0, dx := 0x3FF, dy := [0x3FF, 0x3FF, 0x3FF, 0x3FF] }

/-- A halted domain in OSTEP-only mode (07 R142). -/
def Dom.empty : Dom := { run := false, period := 0, count := 0, left := none, steps := 0, ovr := false, phase := 0, once := 0 }

def Port.empty : Port := { queue := [], head := 0, ring := none }

def Tap.off : Tap :=
  { mode := 0, cell := 0, w := 1, p := 1, ring := 0, count := 0, samples := 0, since := 0, holds := false }

/-- The Orrery at a slice's first bundle, before the `.patch` entries (07 R142). -/
def Orrery.empty : Orrery :=
  { cells := [], doms := Vector.replicate 4 Dom.empty, hold := false, fifos := Vector.replicate 12 [],
    ports := Vector.replicate 16 Port.empty, taps := Vector.replicate 16 Tap.off, lastTick := none, late := [] }

def Bank.empty : Bank := { fmt := .int8, held := .int8, ok := .never, bytes := [], loading := 0 }

def Acc.empty : Acc := { ents := [], ver := 0, ovf := false, issued := 0, ovfSeen := false, ovfLog := [false], flags := [] }

/-- A core with every register zero, nothing in flight, no slice and empty engines (02 R26, 06 R123, R127, 12 R262). -/
def Core.reset : Core :=
  { sreg := Vector.replicate 32 0, vreg := Vector.replicate 32 0, preg := Vector.replicate 8 false,
    lreg := Vector.replicate 9 0, leff := Vector.replicate 3 { lb := 0, le := 0, leQ := [] },
    fpflags := 0, tcause := 0, tpc := 0, tinfo0 := 0, tinfo1 := 0, trapv := 0, rsp := 0, ringbase := 0,
    discsel := 0, pc := 0, ras := [], spilled := 0, delay := none, owed := none, xfer := none, after := none,
    flight := [], pend := [], park := none, freeze := none, refused := [], acc := [], causes := [], replay := none,
    outst := [], sl := none, pos := 0, gsize := 0, det := false, rendez := none, halted := false,
    dbgHalt := false, dbgSteps := 0, dbgHeld := none, issuedAt := none, ownAt := 0, tags := Vector.replicate 16 .idle,
    banks := Vector.replicate 2 Bank.empty, streams := Vector.replicate 4 .int8,
    accs := Vector.replicate 8 Acc.empty, mq := [], mfault := none, outl := [], orr := Orrery.empty,
    chain := none, ask := none, seals := [] }

/-- An unconfigured barrier (11 R242). -/
def Barrier.empty : Barrier :=
  { cfg := none, valid := false, phase := false, arr := 0, kids := 0, sent := false, bad := false, told := false, from' := [], held := [] }

/-- A free, clear tile (03 R52, 21 R355). -/
def Tile.reset : Tile :=
  { fenced := false, fencedAt := none, owner := none, lidx := 0, ceding := none, joining := none, bias := 0, raw := 0, press := 0,
    anchT := false, anchF := false, moved := none, claim := none, bars := Vector.replicate 4 Barrier.empty,
    votes := [], voteNo := 0, locks := [], copyQ := [], posted := [], overflow := [], fills := [], upcalls := [],
    chainBufs := [], ctr := Vector.replicate 16 0, lastFid := none, nextSid := 0, lastBeat := none, resident := [], quiet := false, preempt := false, joinVer := 0 }

/-- Is a tile position fenced by the fuses? At most 8 of the 384 are (00 R2, 08 R174): the first 8 that the fuses name. -/
def fusedOut (n : Nat) : Bool :=
  Config.fuseFenced n && decide (((List.range n).filter Config.fuseFenced).length < 8)

/-- USABLE: the tiles the fuses leave, 376 to 384 (08 R174). -/
def usableTiles : Nat := 384 - ((List.range 384).filter fusedOut).length

def flashReset : Vector (List Byte) 2 := Vector.ofFn (fun i => Config.flashImage i.val)

/-- Device settings at their stated defaults, counters at 0 (03 R78, 21 R355, R359). -/
def Dev.reset : Dev :=
  { h := 16, w := 1700000, cool := 1700000, pendPol := [], store := 0, pxpeers := [], ops := [],
    islandcap := Vector.replicate 32 56, modcap := 1800, scrub := 3600000, ctr := Vector.replicate 5 0,
    isl := Vector.replicate 32 { clk := 16, hot := false, watts16 := 0 }, module16 := 0, modWin := none, power := .on,
    flash := flashReset, primary := 0, svnMin := Config.svnMin, boots := 1, receipts := 0,
    bootFail := (bootImage flashReset 0 Config.svnMin).isNone, running := (bootImage flashReset 0 Config.svnMin).getD [], spdm := [], activating := none,
    images := 0, nextUid := 0, nextLaunch := 0, nextHandle := 0, nextTerr := 0, nextReq := 1, nextArr := 0 }

/-- The device right after reset: every usable tile is in the free pool, no territory exists, nothing is in flight
(03 R52), the time base stands at its reset value. -/
def State.reset : State :=
  { now := 0, cur := 0, stepNo := 0, issue := .issued, mem := [], cores := Vector.replicate 1536 Core.reset,
    tiles := Vector.ofFn (fun i => { Tile.reset with fenced := fusedOut i.val }), terrs := [], ghosts := [], slices := [], launches := [], codes := [], net := [],
    kept := [], txSeq := [], rxSeq := [], sessions := [], dev := Dev.reset, readings := [], store := [], pxOut := [], pxIn := [],
    inputs := [], errors := [], due := [], outbox := [] }

end Sys2Proof.Machine
end

