-- ==== Sys2Proof/Machine/Ops.lean ====
section
/-! DEFINITION. The operations the meanings share: sparse memory, registers, the checks made at issue, results in flight,
taking a trap, and turning a meaning's result into an outcome. -/

namespace Sys2Proof.Machine

/-- What a meaning answers. -/
abbrev Out := Host.Outcome State Fault Refusal

/-! ### Sparse memory in canonical form -/

/-- Reading a sorted sparse list; an unlisted key reads as the default. -/
def sget {α : Type} (dflt : α) : List (Nat × α) → Nat → α
  | [], _ => dflt
  | (k, b) :: r, a => if k = a then b else if a < k then dflt else sget dflt r a

/-- Writing a sorted sparse list; writing the default removes the entry. -/
def sset {α : Type} [DecidableEq α] (dflt : α) : List (Nat × α) → Nat → α → List (Nat × α)
  | [], a, x => if x = dflt then [] else [(a, x)]
  | (k, b) :: r, a, x =>
    if a < k then (if x = dflt then (k, b) :: r else (a, x) :: (k, b) :: r)
    else if a = k then (if x = dflt then r else (a, x) :: r)
    else (k, b) :: sset dflt r a x

/-- Keys rise strictly from `lo` on, and no entry is the byte an unlisted address reads as. -/
def memWfFrom : Nat → List Host.Cell → Bool
  | _, [] => true
  | lo, (k, b) :: r => decide (lo ≤ k) && decide (b ≠ 0) && memWfFrom (k + 1) r

/-- The canonical form of memory. -/
def Memory.wf (m : List Host.Cell) : Bool := memWfFrom 0 m

/-- What an unlisted address reads as: 0 (DESIGN CHOICE, log 4). -/
def unlisted : Byte := 0

/-- Writes consecutive bytes. -/
def writeBytes : List Host.Cell → Nat → List Byte → List Host.Cell
  | m, _, [] => m
  | m, a, x :: xs => writeBytes (sset unlisted m a x) (a + 1) xs

/-- Clears the bytes from `a` to `a + n - 1`. -/
def clearBytes (m : List Host.Cell) (a n : Nat) : List Host.Cell :=
  m.filter (fun c => c.1 < a || a + n ≤ c.1)

/-- Key of the byte at scratchpad offset `off` of tile `t`. -/
def scratchKey (t off : Nat) : Nat := t * 4194304 + off

/-- Key of the HBM byte at physical address `pa`. -/
def hbmKey (pa : Nat) : Nat := 1099511627776 + pa

/-- The reserved area: the top 64 KiB of the 3 MiB scratchpad (04 R82). -/
def reservedBase : Nat := 0x2F0000

def State.byte (s : State) (k : Nat) : Byte := sget unlisted s.mem k

/-- `n` bytes from key `k` on. -/
def State.bytes (s : State) (k n : Nat) : List Byte := (List.range n).map (fun i => s.byte (k + i))

def State.setBytes (s : State) (k : Nat) (bs : List Byte) : State := { s with mem := writeBytes s.mem k bs }

def State.clear (s : State) (k n : Nat) : State := { s with mem := clearBytes s.mem k n }

/-- A little-endian number of `n` bytes. -/
def State.num (s : State) (k n : Nat) : Nat := leNat (s.bytes k n)

/-! ### Vectors of fixed length -/

def vset {α : Type} {n : Nat} (v : Vector α n) (i : Fin n) (x : α) : Vector α n := v.set i.val x i.isLt

def vmod {α : Type} {n : Nat} (v : Vector α n) (i : Fin n) (f : α → α) : Vector α n := vset v i (f v[i])

/-! ### Cores, tiles and slices -/

/-- The core whose word runs. -/
def State.c (s : State) : Core := s.cores[s.cur]

def State.modCore (s : State) (c : CoreId) (f : Core → Core) : State := { s with cores := vmod s.cores c f }

def State.modCur (s : State) (f : Core → Core) : State := s.modCore s.cur f

/-- A core's tile. -/
def tileOf (c : CoreId) : TileId := ⟨c.val / 4, by omega⟩

/-- Core `k` of a tile. -/
def coreOf (t : TileId) (k : Fin 4) : CoreId := ⟨t.val * 4 + k.val, by omega⟩

def State.modTile (s : State) (t : TileId) (f : Tile → Tile) : State := { s with tiles := vmod s.tiles t f }

def State.tile (s : State) : TileId := tileOf s.cur

def State.findSlice (s : State) (uid : Nat) : Option Slice := s.slices.find? (fun x => x.uid == uid)

def State.slice! (s : State) (uid : Nat) : Slice := (s.findSlice uid).getD default

def State.modSlice (s : State) (uid : Nat) (f : Slice → Slice) : State :=
  { s with slices := s.slices.map (fun x => if x.uid = uid then f x else x) }

/-- The slice the current core is held by. -/
def State.sl (s : State) : Slice := match s.c.sl with
  | some u => s.slice! u
  | none => default

def State.findTerr (s : State) (id : Nat) : Option Terr := s.terrs.find? (fun x => x.id == id)

def State.terr! (s : State) (id : Nat) : Terr := (s.findTerr id).getD default

def State.modTerr (s : State) (id : Nat) (f : Terr → Terr) : State :=
  { s with terrs := s.terrs.map (fun x => if x.id = id then f x else x) }

def State.findCode (s : State) (h : Nat) : Option CodeObj := s.codes.find? (fun x => x.handle == h)

/-- The slice's code object. -/
def State.codeOf (s : State) (sl : Slice) : CodeBody := match s.findCode sl.code with
  | some o => o.body
  | none => default

/-- The length of a code object in bytes. -/
def CodeBody.size (b : CodeBody) : Nat := b.words.length * 8

/-- The leader's core of the current core's slice. -/
def State.leaderId (s : State) : CoreId := s.sl.cores.headD s.cur

/-- Does the current core use its own control registers: the leader and a detached follower do (02 R34). -/
def State.ownsControl (s : State) : Bool := s.c.pos = 0 || s.c.det

/-- The core whose control registers the current core follows. -/
def State.ctlId (s : State) : CoreId := if s.ownsControl then s.cur else s.leaderId

def State.ctl (s : State) : Core := s.cores[s.ctlId]

/-- PC: the byte offset of the issuing bundle within its code object (09 R182). -/
def State.pcNow (s : State) : Word := s.ctl.pc

/-- A core that a request of a slice belongs to: the running core, or the record a YIELD saved. -/
def State.own (s : State) (w : Who) : Option Core := match s.findSlice w.1 with
  | none => none
  | some x => match x.cores[w.2]? with
    | some c => some s.cores[c]
    | none => x.saved[w.2]?

def State.modOwn (s : State) (w : Who) (f : Core → Core) : State := match s.findSlice w.1 with
  | none => s
  | some x => match x.cores[w.2]? with
    | some c => s.modCore c f
    | none => s.modSlice w.1 (fun y => { y with saved := y.saved.modify w.2 f })

/-- The current core as a requester. -/
def State.me (s : State) : Who := (s.c.sl.getD 0, s.c.pos)

/-! ### Registers -/

/-- Scalar registers; s0 reads as zero (01 R14). -/
def Core.s (c : Core) (r : Reg) : Word := if r = 0 then 0 else c.sreg[r]

def Core.v (c : Core) (r : Reg) : Vec := c.vreg[r]

/-- Predicate registers; p0 reads as true (01 R14). -/
def Core.p (c : Core) (r : PReg) : Bool := r == 0 || c.preg[r]

/-- A write to s0 is discarded (02 R39). -/
def Core.setS (c : Core) (r : Reg) (x : Word) : Core := if r = 0 then c else { c with sreg := vset c.sreg r x }

def Core.setV (c : Core) (r : Reg) (x : Vec) : Core := { c with vreg := vset c.vreg r x }

/-- A write to p0 is discarded (02 R39). -/
def Core.setP (c : Core) (r : PReg) (x : Bool) : Core := if r = 0 then c else { c with preg := vset c.preg r x }

def State.rs (s : State) (r : Reg) : Word := s.c.s r

def State.rv (s : State) (r : Reg) : Vec := s.c.v r

def State.rp (s : State) (r : PReg) : Bool := s.c.p r

/-- Lane i of a vector register: its 32 bits (10 R208). -/
def lane (x : Vec) (i : Nat) : BitVec 32 := x.extractLsb' (32 * i) 32

/-- A vector from its 32 lanes, lane 0 first. -/
def ofLanes (ls : List (BitVec 32)) : Vec :=
  BitVec.ofNat 1024 (ls.foldr (fun x acc => x.toNat + 4294967296 * acc) 0)

/-- Sign extension of the low `n` bits (01 R21). -/
def sext (x n : Nat) : Int := let y := x % 2 ^ n; if y < 2 ^ (n - 1) then y else (y : Int) - 2 ^ n

def wordOfInt (x : Int) : Word := BitVec.ofInt 64 x

/-! ### Loop registers -/

def lcId (l : Lvl) : LReg := ⟨l.val, by omega⟩

def lbId (l : Lvl) : LReg := ⟨3 + l.val, by omega⟩

def leId (l : Lvl) : LReg := ⟨6 + l.val, by omega⟩

def Core.lc (c : Core) (l : Lvl) : BitVec 32 := c.lreg[lcId l]

/-- Makes the written lb and le of an inactive level those in effect (02 R50). -/
def Core.syncLoop (c : Core) (l : Lvl) : Core :=
  if c.lc l = 0 then { c with leff := vset c.leff l { lb := c.lreg[lbId l], le := c.lreg[leId l], leQ := [] } } else c

/-- The level of a loop register id, and which of lc (0), lb (1), le (2) it is. -/
def lregLevel (r : LReg) : Lvl := ⟨r.val % 3, by omega⟩

/-- A loop register takes a value as the bundle at `pc` issues (02 R50). -/
def Core.landLoop (c : Core) (pc : Word) (r : LReg) (x : BitVec 32) (hard : Bool) : Core :=
  let l := lregLevel r
  let c1 := { c with lreg := vset c.lreg r x }
  let e := c1.leff[l]
  if hard then
    let e' : LoopEff := if r.val < 3 then e else if r.val < 6 then { e with lb := x }
      else { e with le := x, leQ := [] }
    { c1 with leff := vset c1.leff l e' }
  else if r.val < 3 then
    c1.syncLoop l
  else if c1.lc l = 0 then c1.syncLoop l
  else if r.val < 6 then c1
  else
    let n := if pc.toNat = e.le.toNat || pc.toNat + 8 = e.le.toNat then 2 else 1
    { c1 with leff := vset c1.leff l { e with leQ := e.leQ ++ [(n, x)] } }

/-! ### Results -/

/-- The register a result writes. -/
def Wr.reg : Wr → Option RegId
  | .scalar r _ => if r = 0 then none else some (.scalar r)
  | .vector r _ => some (.vector r)
  | .pred r _ => if r = 0 then none else some (.pred r)
  | .loopReg r _ _ => some (.loopReg r)
  | .sys r _ => some (.sys r)
  | .flagsOnly => none

/-- A register id as a trap reports it (02 R43). A system register has no id there: a free value. -/
def RegId.code (free : Word) : RegId → Word
  | .scalar r => BitVec.ofNat 64 r.val
  | .vector r => BitVec.ofNat 64 (256 + r.val)
  | .pred r => BitVec.ofNat 64 (512 + r.val)
  | .acc r => BitVec.ofNat 64 (768 + r.val)
  | .loopReg r => BitVec.ofNat 64 (1024 + r.val)
  | .sys _ => free

/-- A system register takes a value written by MTS (09 R195, R196). -/
def Core.landSys (c : Core) (r : SysReg) (x : Word) : Core := match r with
  | .trapv => { c with trapv := x &&& 0x1FFF8#64 }
  | .fpflags => { c with fpflags := x.setWidth 6 }
  | .discsel => { c with discsel := x.setWidth 8 }
  | _ => c

/-- One result lands as the bundle at `pc` issues. -/
def Core.land (pc : Word) (c : Core) (w : Wr) : Core := match w with
  | .scalar r x => c.setS r x
  | .vector r x => c.setV r x
  | .pred r x => c.setP r x
  | .loopReg r x h => c.landLoop pc r x h
  | .sys r x => c.landSys r x
  | .flagsOnly => c

/-- The results land in order on their registers. -/
def Core.landRegs (c : Core) (pc : Word) (fs : List Flight) : Core := fs.foldl (fun c f => c.land pc f.wr) c

/-- The flags of results that land together. -/
def flagsOf (fs : List Flight) : BitVec 6 := fs.foldl (fun a f => a ||| f.flags) 0

/-- FPFLAGS gains flags (05 R113). -/
def Core.orFlags (c : Core) (fl : BitVec 6) : Core := { c with fpflags := c.fpflags ||| fl }

/-- Lands results in order, then ORs their flags into FPFLAGS. -/
def Core.landAll (c : Core) (pc : Word) (fs : List Flight) : Core := (c.landRegs pc fs).orFlags (flagsOf fs)

/-- The results in flight that land in the next bundle. -/
def Core.dueNext (c : Core) : List Flight := c.flight.filter (fun f => f.dist ≤ 1)

/-- A bundle begins to issue: every result in flight is one bundle nearer, and those that are due land (02 R38). Their flags land
too, but MFS sees them from the next bundle on (05 R113): they are ORed in once the bundle has issued. -/
def Core.age (c : Core) (pc : Word) : Core :=
  let rest := (c.flight.filter (fun f => 1 < f.dist)).map (fun f => { f with dist := f.dist - 1 })
  ({ c with flight := rest, acc := c.acc.map (fun (a : Nat × LocalAcc) => (a.1 + 1, a.2)) }).landRegs pc c.dueNext

/-- A result of latency `n` (LandAt, 01 R21). -/
def State.landAt (s : State) (w : Wr) (n : Nat) (fl : BitVec 6) : State :=
  s.modCur (fun c => { c with flight := c.flight ++ [{ dist := n, wr := w, flags := fl }] })

/-- A pending result (Pend, 01 R21), its request numbered `id`. -/
def State.pendOn (s : State) (id : Nat) (r : Option RegId) : State :=
  s.modCur (fun c => { c with pend := c.pend ++ [{ id := id, reg := r, got := none }] })

/-- The register of a scalar destination, none for s0. -/
def dstS (r : Reg) : Option RegId := if r = 0 then none else some (.scalar r)

/-! ### Checks at issue -/

/-- A precise cause (Fault, 01 R21). -/
def cause (code : BitVec 8) (i0 i1 : Word) : TrapRec := { code := code, i0 := i0, i1 := i1, async := false }

def Core.isPend (c : Core) (r : RegId) : Bool := c.pend.any (fun p => p.reg == some r)

/-- The register that a local access will write, with its latency (11 R234, R236 to R238); none for s0 and for a pending load. -/
def LocalAcc.lands : LocalAcc → Option (RegId × Nat)
  | .load _ d _ => (dstS d).map (·, 5)
  | .loadVec _ d => some (.vector d, 5)
  | .loadLanes _ d _ => some (.vector d, 8)
  | .atom _ d _ _ _ _ => (dstS d).map (·, 6)
  | _ => none

/-- Would a result of latency `n` land on `r` with another one in flight, or with that of an access under way (02 R39)? -/
def Core.clash (c : Core) (r : RegId) (n : Nat) : Bool :=
  c.flight.any (fun f => f.dist == n && f.wr.reg == some r) || c.acc.any (fun a => a.2.lands == some (r, n + a.1))

/-- Does this write collide (02 R39)? The latency is none for a variable-latency result. -/
def Core.collides (c : Core) (d : RegId × Option Nat) : Bool :=
  c.isPend d.1 || (match d.2 with
    | some n => c.clash d.1 n
    | none => false)

/-- The value TINFO1 takes for a write collision: the landing distance, which a variable-latency write does not have
(a free value there). -/
def landingInfo (free : Word) : Option Nat → Word
  | some n => BitVec.ofNat 64 n
  | none => free

/-- Pending reads, then write collisions (02 R39, R40; 11 R231). Of several pending operands, or several colliding results, TINFO0 names the
first in the instruction's operand order (DESIGN CHOICE, log 47: the manual does not say which). -/
def State.checkRegs (s : State) (reads : List RegId) (writes : List (RegId × Option Nat)) : Option TrapRec :=
  match reads.find? (fun r => s.c.isPend r) with
  | some r => some (cause 0x03 (r.code (Config.freeWord s.stepNo)) 0)
  | none => match writes.find? (fun d => s.c.collides d) with
    | some d => some (cause 0x04 (d.1.code (Config.freeWord s.stepNo)) (landingInfo (Config.freeWord s.stepNo) d.2))
    | none => none

/-- A scalar destination as a write; s0 never collides (02 R39). -/
def wS (r : Reg) (n : Option Nat) : List (RegId × Option Nat) := if r = 0 then [] else [(.scalar r, n)]

def wV (r : Reg) (n : Option Nat) : List (RegId × Option Nat) := [(.vector r, n)]

/-- A predicate destination; p0 never collides (02 R39). -/
def wP (r : PReg) (n : Option Nat) : List (RegId × Option Nat) := if r = 0 then [] else [(.pred r, n)]

/-- The guard of an A-word, read at issue (01 R12). -/
def State.guardOn (s : State) (g : Guard) : Bool := s.rp g.p != g.neg

/-! ### What a meaning's check and effect answer -/

/-- The word has its effect; a precise trap, with nothing changed; or the core freezes (02 R41) and the bundle waits. -/
inductive Res
  | ok (s : State)
  | trap (t : TrapRec)
  | freeze (f : Freeze)

/-! ### Ending a slice's run, and traps -/

/-- A core's stream stops: every result in flight and pending mark is discarded (09 R189). Its requests stay outstanding, and a local
access already issued is still performed (04 R89). -/
def Core.stopStream (c : Core) : Core :=
  { c with flight := [], pend := [], delay := none, owed := none, xfer := none, after := none, park := some { why := .exitWait, marks := false },
           freeze := none, refused := [], causes := [], replay := none, rendez := none, dbgHeld := none }

/-- Its posted receives are freed (11 R251). -/
def State.freePosted (s : State) (x : Slice) : State := match x.tile with
  | some t => s.modTile t (fun y => { y with posted := y.posted.filter (fun q => q.who.1 != x.uid), fills := y.fills.filter (fun f => f.who.1 != x.uid) })
  | none => s

/-- A slice's copies issue no further beat, on whatever tile they run: a YIELD may have left some behind (19 R341). -/
def State.cutCopies (s : State) (uid : Nat) : State :=
  { s with tiles := s.tiles.map (fun y => { y with
      copyQ := y.copyQ.map (fun q => if q.who.1 = uid then { q with stopped := true } else q) }) }

/-- The range-lock entries of the matrix commands that some cores still hold are freed (04 R97, 06 R128). -/
def State.freeMatrixLocks (s : State) (t : TileId) (cs : List CoreId) : State :=
  let mids := cs.flatMap (fun c => (s.cores[c]).mq.map (·.mid))
  s.modTile t (fun y => { y with locks := y.locks.filter (fun l => !mids.contains l.op) })

/-- Stopped other than by its own EXIT, YIELD or TEVAC, a slice issues no further copy beat, and its matrix commands and tags are
discarded (19 R341). Tags and accumulators go when the frame is released; a command in the array leaves nothing. -/
def State.cutEngines (s : State) (x : Slice) (how : EndHow) : State := match how, x.tile with
  | .exit, _ => s
  | .evacuated, _ => s
  | _, none => s.cutCopies x.uid
  | _, some t => x.cores.foldl (fun s c => s.modCore c (fun k => { k with mq := [], mfault := none }))
      ((s.cutCopies x.uid).freeMatrixLocks t x.cores)

/-- A slice stops issuing for good and waits for its accesses and engines (02 R30, 04 R102). -/
def State.stopSlice (s : State) (uid : Nat) (how : EndHow) : State :=
  let x := s.slice! uid
  let s1 := ((x.cores.foldl (fun s c => s.modCore c Core.stopStream) s).freePosted x).cutEngines x how
  s1.modSlice uid (fun y => { y with st := .exiting, how := how, grace := none })

/-- INH (02 R42). -/
def Core.inh (c : Core) : Bool := c.tcause.getLsbD 9

/-- TCAUSE.CODE (02 R42). -/
def Core.causeCode (c : Core) : BitVec 8 := c.tcause.setWidth 8

/-- TCAUSE after a trap: INH set, ASYNC as the cause says, CODE (02 R42, R44). -/
def tcauseOf (t : TrapRec) : Word := 0x200#64 ||| (if t.async then 0x100#64 else 0#64) ||| t.code.setWidth 64

/-- A core that did not fault sees code 0 (02 R45). -/
def noCause : TrapRec := cause 0 0 0

/-- A debugger's step is over: what it left in flight joins what the stopped stream has (02 R38). -/
def Core.unstep (c : Core) : Core := match c.dbgHeld with
  | some (fs, ps) => { c with flight := fs ++ c.flight, pend := ps ++ c.pend, dbgHeld := none }
  | none => c

/-- TAKING A TRAP on one core (02 R44): the interrupted stream moves into replay state, TCAUSE, TPC and the informations are
written, INH is set, and issue continues at TRAPV. -/
def Core.takeTrap (c : Core) (t : TrapRec) (tpc : Word) : Core :=
  { c with replay := some { flight := c.flight, pend := c.pend, delay := c.delay, owed := c.owed, park := c.park, reqs := c.outst,
                             refused := c.refused },
           refused := [],
           flight := [], pend := [], delay := none, owed := none, park := none, freeze := none, xfer := none, after := none,
           tcause := tcauseOf t, tpc := tpc, tinfo0 := t.i0, tinfo1 := t.i1, pc := c.trapv }

/-- The cores that issue with core `c`: a detached follower alone, the leader with its attached followers (02 R34). -/
def State.gang (s : State) (c : CoreId) : List CoreId :=
  let k := s.cores[c]
  if k.pos = 0 then
    match k.sl with
    | some u => (s.slice! u).cores.filter (fun d => d == c || !(s.cores[d]).det)
    | none => [c]
  else [c]

/-- Takes a trap on every core of a gang (02 R45): each its own cause, code 0 where it has none. A cause that comes while INH
is set goes to firmware, which ends the slice (02 R46). Every core's TPC is `tpc`. -/
def State.trapGang (s : State) (g : List CoreId) (ts : List (CoreId × TrapRec)) (tpc : Word) : State :=
  let s0 := { s with stepNo := s.stepNo + 1 }
  let nested := ts.find? (fun x => (s.cores[x.1]).inh)
  match nested with
  | some (c, t) => match (s.cores[c]).sl with
    | some u => s0.stopSlice u (.nested t.code)
    | none => s0
  | none => g.foldl (fun s c => s.modCore c (fun k => k.unstep.takeTrap ((ts.find? (fun x => x.1 == c)).elim noCause (·.2)) tpc)) s0

/-- The unit (leader or detached follower) that the current core issues with. -/
def State.unit (s : State) : CoreId := s.ctlId

/-- A precise trap of the current core's word: TPC at the bundle, nothing else changed (01 R20, 02 R43). -/
def State.preciseTrap (s : State) (t : TrapRec) : State :=
  { s.trapGang (s.gang s.unit) [(s.cur, t)] s.pcNow with issue := .trapped t }

/-- The outcome of a word. -/
def finish (s : State) : Res → Out
  | .ok s' => .next { s' with issue := .issued }
  | .trap t => .next (s.preciseTrap t)
  | .freeze f => .next { s.modCur (fun c => { c with freeze := some f }) with issue := .stalled }

/-! ### The shapes of words -/

/-- An A-word with one fixed-latency result. When the guard is false it has no effect at all (01 R12). -/
def aluWord (g : Guard) (reads : List RegId) (writes : List (RegId × Option Nat)) (w : Wr) (n : Nat) (fl : BitVec 6)
    (s : State) : Out :=
  if s.guardOn g then
    match s.checkRegs reads writes with
    | some t => finish s (.trap t)
    | none => finish s (.ok (s.landAt w n fl))
  else finish s (.ok s)

/-- The switch marker: the bundle's core parks after it, and the end of that park clears the pending marks (02 R40). A park the
word itself began then clears them too. -/
def Core.mark (c : Core) : Core :=
  match c.park with
  | none => { c with park := some { why := .marker, marks := true } }
  | some p => { c with park := some { p with marks := true } }

def State.mark (s : State) (m : Bool) : State := if m then s.modCur Core.mark else s

/-- A C-word or lone word: its register checks, its own check and effect, and the switch marker. -/
def cWord (m : Bool) (reads : List RegId) (writes : List (RegId × Option Nat)) (k : State → Res) (s : State) : Out :=
  match s.checkRegs reads writes with
  | some t => finish s (.trap t)
  | none => match k s with
    | .ok s' => finish s (.ok (s'.mark m))
    | r => finish s r

/-- A C-word that may not stand in a delay bundle (08 R178). -/
def cWordNoDelay (m : Bool) (reads : List RegId) (writes : List (RegId × Option Nat)) (k : State → Res) (s : State) : Out :=
  if s.ctl.delay.isSome then finish s (.trap (cause 0x01 s.pcNow 0)) else cWord m reads writes k s

/-- A C-word or lone word whose whole effect is one fixed-latency result. -/
def cResult (m : Bool) (reads : List RegId) (writes : List (RegId × Option Nat)) (w : State → Wr) (n : Nat) (s : State) : Out :=
  cWord m reads writes (fun s => .ok (s.landAt (w s) n 0)) s

/-- A privileged fault names the bundle in TINFO0 (02 R43). -/
def State.privileged (s : State) : TrapRec := cause 0x13 s.pcNow 0

/-- An immediate outside its range, or a refusal that is illegal, names the bundle in TINFO0 (12 R257, R273). -/
def State.illegal (s : State) : TrapRec := cause 0x01 s.pcNow 0

def State.setXfer (s : State) (x : Xfer) : State :=
  if s.ownsControl then s.modCur (fun c => { c with xfer := some x }) else s

end Sys2Proof.Machine
end

