-- ==== Sys2Proof/Machine/Flags.lean ====
section
/-! DEFINITION. The number formats (05 R103, R104), the FPFLAGS bits (05 R112), and rounding with its flags
(05 R108 to R111): every flag a float operation sets is computed here. -/

namespace Sys2Proof.Machine

/-! ### FPFLAGS bits (05 R112) -/

def flagNV : BitVec 6 := 1
def flagDZ : BitVec 6 := 2
def flagOF : BitVec 6 := 4
def flagUF : BitVec 6 := 8
def flagNX : BitVec 6 := 16
def flagSAT : BitVec 6 := 32

/-! ### Formats -/

/-- A floating-point format: fraction bits, exponent bits, bias, and whether it has infinities (05 R103, R104). -/
structure FFmt where
  frac : Nat
  expo : Nat
  bias : Nat
  hasInf : Bool
  deriving DecidableEq, Repr

def fF32 : FFmt := { frac := 23, expo := 8, bias := 127, hasInf := true }
def fF16 : FFmt := { frac := 10, expo := 5, bias := 15, hasInf := true }
def fBF16 : FFmt := { frac := 7, expo := 8, bias := 127, hasInf := true }
def fE5M2 : FFmt := { frac := 2, expo := 5, bias := 15, hasInf := true }
def fE4M3 : FFmt := { frac := 3, expo := 4, bias := 7, hasInf := false }

def FFmt.width (f : FFmt) : Nat := 1 + f.expo + f.frac

/-- The sign bit's weight. -/
def FFmt.signBit (f : FFmt) : Nat := 2 ^ (f.expo + f.frac)

/-- The least exponent of a normal number. -/
def FFmt.emin (f : FFmt) : Int := 1 - (f.bias : Int)

/-- The magnitude bits of the largest finite value. -/
def FFmt.maxMag (f : FFmt) : Nat :=
  if f.hasInf then (2 ^ f.expo - 1) * 2 ^ f.frac - 1 else 2 ^ (f.expo + f.frac) - 2

/-- The magnitude bits of infinity. -/
def FFmt.infMag (f : FFmt) : Nat := (2 ^ f.expo - 1) * 2 ^ f.frac

/-- CanonNaN (05 R104): quiet, sign 0. -/
def FFmt.canonNaN (f : FFmt) : Nat :=
  if f.hasInf then f.infMag + 2 ^ (f.frac - 1) else 2 ^ (f.expo + f.frac) - 1

/-- A decoded value: a NaN (signalling or not), an infinity, or ± m × 2^e. -/
inductive Fp
  | nan (sig : Bool)
  | inf (neg : Bool)
  | fin (neg : Bool) (m : Nat) (e : Int)
  deriving DecidableEq, Repr

/-- The value an encoding stands for (05 R103, R104). -/
def FFmt.decode (f : FFmt) (x : Nat) : Fp :=
  let neg := decide (x / f.signBit % 2 = 1)
  let mag := x % f.signBit
  let ex := mag / 2 ^ f.frac
  let fr := mag % 2 ^ f.frac
  if f.hasInf then
    if ex = 2 ^ f.expo - 1 then
      if fr = 0 then .inf neg else .nan (decide (fr < 2 ^ (f.frac - 1)))
    else if ex = 0 then .fin neg fr (f.emin - f.frac)
    else .fin neg (2 ^ f.frac + fr) ((ex : Int) - f.bias - f.frac)
  else if mag = 2 ^ (f.expo + f.frac) - 1 then .nan false
  else if ex = 0 then .fin neg fr (f.emin - f.frac)
  else .fin neg (2 ^ f.frac + fr) ((ex : Int) - f.bias - f.frac)

/-- Magnitude bits with a sign. -/
def FFmt.withSign (f : FFmt) (neg : Bool) (mag : Nat) : Nat := if neg then f.signBit + mag else mag

/-! ### Rounding -/

/-- The rounding modes (05 R108); the stochastic one carries its 16-bit draw. -/
inductive RMode
  | rne | rz | ru | rd
  | sr (r : Nat)
  deriving DecidableEq, Repr

/-- Is the magnitude `n + rem / 2^sh`, plus something smaller when `sticky`, rounded up? (05 R108, R109) -/
def roundsUp (mode : RMode) (neg : Bool) (n rem sh : Nat) (sticky : Bool) : Bool :=
  let inexact := rem != 0 || sticky
  match mode with
  | .rne => decide (2 ^ sh < 2 * rem) || (decide (2 * rem = 2 ^ sh) && (sticky || n % 2 == 1))
  | .rz => false
  | .ru => inexact && !neg
  | .rd => inexact && neg
  | .sr r => inexact && decide (65536 ≤ rem * 65536 / 2 ^ sh + r)

/-- Rounds m × 2^e (plus something below a unit of m when `sticky`) to a multiple n × 2^q: n, and whether it is inexact. -/
def roundAt (mode : RMode) (neg : Bool) (m : Nat) (e q : Int) (sticky : Bool) : Nat × Bool :=
  if q ≤ e then (m * 2 ^ (e - q).toNat, sticky)
  else
    let sh := (q - e).toNat
    let n := m / 2 ^ sh
    let rem := m % 2 ^ sh
    (if roundsUp mode neg n rem sh sticky then n + 1 else n, rem != 0 || sticky)

/-- Is n × 2^q below 2^p? -/
def belowPow (n : Nat) (q p : Int) : Bool :=
  if q ≤ p then decide (n < 2 ^ (p - q).toNat) else n == 0

/-- The magnitude bits of n × 2^q, for n below 2^(frac+1) or equal to it, q at least the format's least quantum. -/
def FFmt.encodeMag (f : FFmt) (n : Nat) (q : Int) : Nat :=
  if n < 2 ^ f.frac then n
  else (q + f.frac + f.bias - 1).toNat * 2 ^ f.frac + n

/-- The result of an overflow (05 R110). -/
def FFmt.overflowMag (f : FFmt) (mode : RMode) (sat neg : Bool) : Nat × Bool :=
  let big := if f.hasInf then (f.infMag, false) else (f.canonNaN, true)
  if sat then (f.maxMag, false)
  else match mode with
    | .rne => big
    | .sr _ => big
    | .rz => (f.maxMag, false)
    | .ru => if neg then (f.maxMag, false) else big
    | .rd => if neg then big else (f.maxMag, false)

/-- Round(x, fmt, mode) (01 R21) of ± (m × 2^e, plus something below a unit of m when `sticky`), with the flags of
05 R110 and R111. -/
def FFmt.round (f : FFmt) (mode : RMode) (sat : Bool) (neg : Bool) (m : Nat) (e : Int) (sticky : Bool) : Nat × BitVec 6 :=
  if m = 0 then (f.withSign neg 0, 0)
  else
    let top : Int := e + Nat.log2 m
    let qu : Int := top - f.frac
    let q : Int := max qu (f.emin - f.frac)
    let r := roundAt mode neg m e q sticky
    let mag := f.encodeMag r.1 q
    if f.maxMag < mag then
      let o := f.overflowMag mode sat neg
      (if o.2 then o.1 else f.withSign neg o.1, flagOF ||| flagNX)
    else
      let ru := roundAt mode neg m e qu sticky
      let tiny := r.2 && belowPow ru.1 qu f.emin
      (f.withSign neg mag, (if r.2 then flagNX else 0) ||| (if tiny then flagUF else 0))

end Sys2Proof.Machine
end

