-- ==== Sys2Proof/Machine/Float.lean ====
section
/-! DEFINITION. The floating-point operations on encodings: arithmetic, order, elementary functions, conversions, and the
microscaling blocks (05 R105 to R119, 10 R211 to R222). Each answers the result's bits and its flags. -/

namespace Sys2Proof.Machine

/-- A result's bits and flags. -/
abbrev FRes := Nat × BitVec 6

/-- The flag of reading a signalling NaN (05 R105). -/
def Fp.sigFlag : Fp → BitVec 6
  | .nan true => flagNV
  | _ => 0

def Fp.isNaN : Fp → Bool
  | .nan _ => true
  | _ => false

def Fp.neg : Fp → Bool
  | .nan _ => false
  | .inf n => n
  | .fin n _ _ => n

def Fp.negate : Fp → Fp
  | .nan b => .nan b
  | .inf n => .inf (!n)
  | .fin n m e => .fin (!n) m e

def Fp.isZero : Fp → Bool
  | .fin _ m _ => m == 0
  | _ => false

/-- An infinite result; E4M3 has none and gives CanonNaN (05 R110). -/
def FFmt.infinity (f : FFmt) (neg : Bool) : Nat := if f.hasInf then f.withSign neg f.infMag else f.canonNaN

/-! ### Addition, product, quotient -/

/-- The exact sum of two finite values: sign, magnitude, exponent; an exact zero's sign under RNE (05 R108). -/
def addExact (n1 : Bool) (m1 : Nat) (e1 : Int) (n2 : Bool) (m2 : Nat) (e2 : Int) : Bool × Nat × Int :=
  let e := min e1 e2
  let a : Int := (m1 * 2 ^ (e1 - e).toNat : Nat)
  let b : Int := (m2 * 2 ^ (e2 - e).toNat : Nat)
  let x := (if n1 then -a else a) + (if n2 then -b else b)
  (if x = 0 then n1 && n2 else decide (x < 0), x.natAbs, e)

/-- RoundNE(x + y) (10 R211). -/
def FFmt.addFp (f : FFmt) (x y : Fp) : FRes :=
  let sig := x.sigFlag ||| y.sigFlag
  match x, y with
  | .nan _, _ => (f.canonNaN, sig)
  | _, .nan _ => (f.canonNaN, sig)
  | .inf a, .inf b => if a = b then (f.infinity a, 0) else (f.canonNaN, flagNV)
  | .inf a, _ => (f.infinity a, 0)
  | _, .inf b => (f.infinity b, 0)
  | .fin n1 m1 e1, .fin n2 m2 e2 =>
    let r := addExact n1 m1 e1 n2 m2 e2
    f.round .rne false r.1 r.2.1 r.2.2 false

def FFmt.add (f : FFmt) (x y : Nat) : FRes := f.addFp (f.decode x) (f.decode y)

def FFmt.sub (f : FFmt) (x y : Nat) : FRes := f.addFp (f.decode x) (f.decode y).negate

/-- The product before rounding; none for 0 × ∞. -/
def mulExact (x y : Fp) : Option Fp := match x, y with
  | .inf a, .inf b => some (.inf (a != b))
  | .inf a, .fin b m _ => if m = 0 then none else some (.inf (a != b))
  | .fin a m _, .inf b => if m = 0 then none else some (.inf (a != b))
  | .fin a m1 e1, .fin b m2 e2 => some (.fin (a != b) (m1 * m2) (e1 + e2))
  | x, y => some (if x.isNaN then x else y)

/-- RoundNE(x × y) (10 R211). -/
def FFmt.mul (f : FFmt) (a b : Nat) : FRes :=
  let x := f.decode a
  let y := f.decode b
  let sig := x.sigFlag ||| y.sigFlag
  match mulExact x y with
  | none => (f.canonNaN, flagNV)
  | some (.nan _) => (f.canonNaN, sig)
  | some (.inf n) => (f.infinity n, 0)
  | some (.fin n m e) => f.round .rne false n m e false

/-- RoundNE of ±(x × y) ± z from the exact value (10 R212). -/
def FFmt.fma (f : FFmt) (negProd negAdd : Bool) (a b c : Nat) : FRes :=
  let x := f.decode a
  let y := f.decode b
  let z0 := f.decode c
  let z := if negAdd then z0.negate else z0
  let sig := x.sigFlag ||| y.sigFlag ||| z.sigFlag
  match mulExact x y with
  | none => (f.canonNaN, flagNV)
  | some p0 =>
    let p := if negProd then p0.negate else p0
    if p.isNaN || z.isNaN then (f.canonNaN, sig) else f.addFp p z

/-- RoundNE(x / y) (10 R211). -/
def FFmt.div (f : FFmt) (a b : Nat) : FRes :=
  let x := f.decode a
  let y := f.decode b
  let sig := x.sigFlag ||| y.sigFlag
  match x, y with
  | .nan _, _ => (f.canonNaN, sig)
  | _, .nan _ => (f.canonNaN, sig)
  | .inf _, .inf _ => (f.canonNaN, flagNV)
  | .inf n, .fin k _ _ => (f.infinity (n != k), 0)
  | .fin n _ _, .inf k => (f.withSign (n != k) 0, 0)
  | .fin n m1 e1, .fin k m2 e2 =>
    if m2 = 0 then
      if m1 = 0 then (f.canonNaN, flagNV) else (f.infinity (n != k), flagDZ)
    else
      let num := m1 * 2 ^ 64
      f.round .rne false (n != k) (num / m2) (e1 - 64 - e2) (num % m2 != 0)

/-! ### Square roots and reciprocals (10 R213) -/

/-- The integer square root, one bit at a time from bit `k - 1` down. -/
def isqrtGo (n : Nat) : Nat → Nat → Nat
  | 0, r => r
  | k + 1, r =>
    let t := r + 2 ^ k
    isqrtGo n k (if t * t ≤ n then t else r)

/-- The integer square root of `n`. -/
def isqrt (n : Nat) : Nat := isqrtGo n (Nat.log2 n / 2 + 1) 0

/-- √x. -/
def FFmt.sqrt (f : FFmt) (a : Nat) : FRes :=
  match f.decode a with
  | .nan s => (f.canonNaN, (Fp.nan s).sigFlag)
  | .inf n => if n then (f.canonNaN, flagNV) else (f.infinity false, 0)
  | .fin n m e =>
    if m = 0 then (f.withSign n 0, 0)
    else if n then (f.canonNaN, flagNV)
    else
      let k : Nat := if e % 2 = 0 then 80 else 81
      let w := m * 2 ^ k
      let r := isqrt w
      f.round .rne false false r ((e - k) / 2) (r * r != w)

/-- 1 / x. -/
def FFmt.rcp (f : FFmt) (a : Nat) : FRes :=
  match f.decode a with
  | .nan s => (f.canonNaN, (Fp.nan s).sigFlag)
  | .inf n => (f.withSign n 0, 0)
  | .fin n m e =>
    if m = 0 then (f.infinity n, flagDZ)
    else f.round .rne false n (2 ^ 100 / m) (-100 - e) (2 ^ 100 % m != 0)

/-- 1 / √x. -/
def FFmt.rsq (f : FFmt) (a : Nat) : FRes :=
  match f.decode a with
  | .nan s => (f.canonNaN, (Fp.nan s).sigFlag)
  | .inf n => if n then (f.canonNaN, flagNV) else (f.withSign false 0, 0)
  | .fin n m e =>
    if m = 0 then (f.infinity n, flagDZ)
    else if n then (f.canonNaN, flagNV)
    else
      let m' := if e % 2 = 0 then m else m * 2
      let e' := if e % 2 = 0 then e else e - 1
      let r := isqrt (2 ^ 160 / m')
      f.round .rne false false r (-80 - e' / 2) (r * r * m' != 2 ^ 160)

/-! ### 2^x and log2 x (10 R213): exact series in fixed point with 192 fraction bits, truncated far below the rounding
position; outside the exact cases the value is irrational, so the result is always inexact. -/

/-- Fraction bits of the fixed point. -/
def fixBits : Nat := 192

/-- The sum of z^(2k+1) / (2k+1) for k below `n`, from the term `t` = z^(2k+1), with z² = `z2`, all in fixed point. -/
def atanhGo (z2 : Nat) : Nat → Nat → Nat → Nat
  | 0, _, _ => 0
  | n + 1, k, t => t / (2 * k + 1) + atanhGo z2 n (k + 1) (t * z2 / 2 ^ fixBits)

/-- 2 artanh(p / q) in fixed point, for p / q at most 1/3: the natural logarithm of (q + p) / (q - p). -/
def lnRatio (p q : Nat) : Nat :=
  let z := p * 2 ^ fixBits / q
  2 * atanhGo (z * z / 2 ^ fixBits) 70 0 z

/-- ln 2 in fixed point. -/
def ln2Fix : Nat := lnRatio 1 3

/-- The terms of the exponential series from the k-th on. -/
def expGo (x : Nat) : Nat → Nat → Nat → Nat
  | 0, _, _ => 0
  | n + 1, k, t => t + expGo x n (k + 1) (t * x / 2 ^ fixBits / (k + 1))

/-- e^x in fixed point for x in [0, 1). -/
def expFix (x : Nat) : Nat := expGo x 60 0 (2 ^ fixBits)

/-- 2^x. -/
def FFmt.exp2 (f : FFmt) (a : Nat) : FRes :=
  match f.decode a with
  | .nan s => (f.canonNaN, (Fp.nan s).sigFlag)
  | .inf n => if n then (f.withSign false 0, 0) else (f.infinity false, 0)
  | .fin n m e =>
    if m = 0 then f.round .rne false false 1 0 false
    else if (12 : Int) < e + Nat.log2 m then
      -- far beyond every format's range
      f.round .rne false false 1 (if n then -8192 else 8192) false
    else
      -- x = ± m × 2^e with fixed denominators: floor and fraction with 2^160 in the denominator
      let d := if e < 0 then (-e).toNat else 0
      let xi : Int := (if n then -1 else 1) * ((m * 2 ^ e.toNat : Nat) : Int)
      let k := xi / (2 ^ d : Nat)
      let fr := (xi % (2 ^ d : Nat)).toNat
      if fr = 0 then f.round .rne false false 1 k false
      else
        let y := expFix (fr * 2 ^ fixBits / 2 ^ d * ln2Fix / 2 ^ fixBits)
        f.round .rne false false y (k - fixBits) true

/-- log2 x. -/
def FFmt.log2 (f : FFmt) (a : Nat) : FRes :=
  match f.decode a with
  | .nan s => (f.canonNaN, (Fp.nan s).sigFlag)
  | .inf n => if n then (f.canonNaN, flagNV) else (f.infinity false, 0)
  | .fin n m e =>
    if m = 0 then (f.infinity true, flagDZ)
    else if n then (f.canonNaN, flagNV)
    else
      let t := Nat.log2 m
      let ex : Int := e + t
      if m = 2 ^ t then f.round .rne false (decide (ex < 0)) ex.natAbs 0 false
      else
        -- m / 2^t in (1, 2): ln = 2 artanh((m - 2^t) / (m + 2^t))
        let l := lnRatio (m - 2 ^ t) (m + 2 ^ t) * 2 ^ fixBits / ln2Fix
        let v : Int := ex * (2 ^ fixBits : Nat) + l
        let mag := if v < 0 then v.natAbs - 1 else v.natAbs
        f.round .rne false (decide (v < 0)) mag (-(fixBits : Int)) true

/-! ### Order (05 R114) -/

/-- A key that orders encodings with −0 below +0, for values that are no NaN. -/
def FFmt.orderKey (f : FFmt) (x : Nat) : Int :=
  let mag : Int := (x % f.signBit : Nat)
  if x / f.signBit % 2 = 1 then -mag - 1 else mag

/-- MIN or MAX (`big`), with the NaN rule of MINN and MAXN when `num`. -/
def FFmt.minmax (f : FFmt) (big num : Bool) (x y : Nat) : FRes :=
  let a := f.decode x
  let b := f.decode y
  let fl := a.sigFlag ||| b.sigFlag
  if a.isNaN || b.isNaN then
    if num && !(a.isNaN && b.isNaN) then (if a.isNaN then y else x, fl) else (f.canonNaN, fl)
  else
    let less := decide (f.orderKey x < f.orderKey y)
    (if less == big then y else x, fl)

/-- The real order's key: ±0 are equal. -/
def FFmt.valueKey (f : FFmt) (x : Nat) : Int :=
  let mag : Int := (x % f.signBit : Nat)
  if x / f.signBit % 2 = 1 then -mag else mag

/-- An integer relation by a vector condition. -/
def vcondInt (c : VCond) (x y : Int) : Bool := match c with
  | .eq => decide (x = y)
  | .ne => decide (x ≠ y)
  | .lt => decide (x < y)
  | .le => decide (x ≤ y)
  | .gt => decide (y < x)
  | .ge => decide (y ≤ x)

/-- VCMP's relation and flags (05 R114, 10 R215). -/
def FFmt.cmp (f : FFmt) (c : VCond) (x y : Nat) : Bool × BitVec 6 :=
  let a := f.decode x
  let b := f.decode y
  let ordered := c != .eq && c != .ne
  if a.isNaN || b.isNaN then
    (c == .ne, if ordered then flagNV else a.sigFlag ||| b.sigFlag)
  else (vcondInt c (f.valueKey x) (f.valueKey y), 0)

/-! ### Conversions (05 R115, 10 R218) -/

/-- Saturates to limits; the Bool says whether the value changed. -/
def satInt (x lo hi : Int) : Int × Bool := if x < lo then (lo, true) else if hi < x then (hi, true) else (x, false)

/-- The limits of an integer type of `w` bits (05 R107). -/
def intLo (signed : Bool) (w : Nat) : Int := if signed then -(2 ^ (w - 1)) else 0
def intHi (signed : Bool) (w : Nat) : Int := if signed then 2 ^ (w - 1) - 1 else 2 ^ w - 1

/-- The low `w` bits of an integer. -/
def bitsOf (w : Nat) (x : Int) : Nat := (x % (2 ^ w : Nat)).toNat

/-- The integer an element of `w` bits stands for. -/
def intOf (signed : Bool) (w x : Nat) : Int := if signed then sext x w else (x % 2 ^ w : Nat)

/-- Float to float. -/
def cvtFF (src dst : FFmt) (mode : RMode) (sat : Bool) (x : Nat) : FRes :=
  match src.decode x with
  | .nan s => (dst.canonNaN, (Fp.nan s).sigFlag)
  | .inf n =>
    if sat then (dst.withSign n dst.maxMag, flagNX)
    else if dst.hasInf then (dst.infinity n, 0) else (dst.canonNaN, flagNV)
  | .fin n m e => dst.round mode sat n m e false

/-- Float to integer: rounded, then saturated. -/
def cvtFI (src : FFmt) (signed : Bool) (w : Nat) (mode : RMode) (x : Nat) : FRes :=
  match src.decode x with
  | .nan _ => (0, flagNV)
  | .inf n => (bitsOf w (if n then intLo signed w else intHi signed w), flagNV)
  | .fin n m e =>
    let r := roundAt mode n m e 0 false
    let v : Int := if n then -(r.1 : Int) else r.1
    let c := satInt v (intLo signed w) (intHi signed w)
    (bitsOf w c.1, if c.2 then flagNV else if r.2 then flagNX else 0)

/-- Integer to float. -/
def cvtIF (dst : FFmt) (signed : Bool) (w : Nat) (mode : RMode) (sat : Bool) (x : Nat) : FRes :=
  let v := intOf signed w x
  dst.round mode sat (decide (v < 0)) v.natAbs 0 false

/-- Integer to integer. -/
def cvtII (ssigned : Bool) (sw : Nat) (dsigned : Bool) (dw : Nat) (sat : Bool) (x : Nat) : FRes :=
  let v := intOf ssigned sw x
  if sat then
    let c := satInt v (intLo dsigned dw) (intHi dsigned dw)
    (bitsOf dw c.1, if c.2 then flagSAT else 0)
  else (bitsOf dw v, 0)

/-- The 16-bit draw of stochastic rounding (05 R109). -/
def srDraw (seed : BitVec 32) (lane e : Nat) : Nat :=
  let z0 : BitVec 32 := seed + 0x9E3779B9#32 * BitVec.ofNat 32 (lane + 32 * e)
  let z1 := z0 ^^^ (z0 >>> 16)
  let z2 := z1 * 0x7FEB352D#32
  let z3 := z2 ^^^ (z2 >>> 15)
  let z4 := z3 * 0x846CA68B#32
  let z5 := z4 ^^^ (z4 >>> 16)
  z5.toNat / 65536

/-! ### Microscaling blocks (05 R117, R118) -/

/-- An element format of a block: MXINT8 (none) or a float format. -/
abbrev MxFmt := Option FFmt

/-- emax: 0 for MXINT8, 8 for E4M3, 15 for E5M2. -/
def mxEmax : MxFmt → Int
  | none => 0
  | some f => if f.hasInf then 15 else 8

/-- floor(log2 m) of a non-zero finite value. -/
def floorLog2 (m : Nat) (e : Int) : Int := e + Nat.log2 m

/-- floor(log2 max |x|) over the finite non-zero values of a block; none when all are zero. -/
def blockExp : List Fp → Option Int
  | [] => none
  | .fin _ m e :: r => match blockExp r with
    | none => if m = 0 then none else some (floorLog2 m e)
    | some k => if m = 0 then some k else some (max k (floorLog2 m e))
  | _ :: r => blockExp r

def clampInt (x lo hi : Int) : Int := (satInt x lo hi).1

/-- One element of a block with shared exponent X: its byte, and whether its value times the scale differs from x. -/
def mxElem (k : MxFmt) (shared : Int) : Fp → Nat × Bool
  | .fin n m e => match k with
    | none =>
      let r := roundAt .rne n m (e + 6 - shared) 0 false
      let v : Int := if n then -(r.1 : Int) else r.1
      let c := satInt v (-127) 127
      (bitsOf 8 c.1, r.2 || c.2)
    | some f =>
      let r := f.round .rne true n m (e - shared) false
      (r.1, r.2 != 0)
  | _ => (0, false)

/-- Quantises a block (05 R118): the element bytes, the scale byte, the flags. -/
def mxQuant (k : MxFmt) (xs : List Fp) : List Nat × Nat × BitVec 6 :=
  if xs.any (fun x => match x with
    | .fin _ _ _ => false
    | _ => true) then (xs.map (fun _ => 0), 0xFF, flagNV)
  else match blockExp xs with
    | none => (xs.map (fun _ => 0), 0, 0)
    | some ex =>
      let shared := clampInt (ex - mxEmax k) (-127) 127
      let es := xs.map (mxElem k shared)
      (es.map (·.1), (shared + 127).toNat, if es.any (·.2) then flagNX else 0)

/-- Decodes one element byte with its scale byte into FP32 (05 R118, 10 R228). -/
def mxDecode (k : MxFmt) (scale x : Nat) : FRes :=
  match k with
  | none =>
    if scale = 0xFF then (fF32.canonNaN, 0)
    else
      let v := sext x 8
      fF32.round .rne false (decide (v < 0)) v.natAbs ((scale : Int) - 127 - 6) false
  | some f => match f.decode x with
    | .nan s => (fF32.canonNaN, (Fp.nan s).sigFlag)
    | .inf n => if scale = 0xFF then (fF32.canonNaN, 0) else (fF32.infinity n, 0)
    | .fin n m e =>
      if scale = 0xFF then (fF32.canonNaN, 0) else fF32.round .rne false n m (e + scale - 127) false

/-- The three-slice split of a block of FP32 values (05 R119): the integers m, the scale byte σ, the flags. -/
def splitBlock (xs : List Fp) : List Int × Nat × BitVec 6 :=
  if xs.any (fun x => match x with
    | .fin _ _ _ => false
    | _ => true) then (xs.map (fun _ => 0), 0xFF, flagNV)
  else match blockExp xs with
    | none => (xs.map (fun _ => 0), 0, 0)
    | some ex =>
      let e' := max ex (-105)
      let ms := xs.map (fun x => match x with
        | .fin n m e =>
          let r := roundAt .rne n m (e + 22 - e') 0 false
          let v : Int := if n then -(r.1 : Int) else r.1
          let c := satInt v (-(2 ^ 23)) (2 ^ 23 - 1)
          (c.1, r.2 || c.2)
        | _ => (0, false))
      (ms.map (·.1), (e' - 22 + 127).toNat, if ms.any (·.2) then flagNX else 0)

end Sys2Proof.Machine
end

