-- ==== Sys2Proof/Machine/Operands.lean ====
section
/-! DEFINITION. Operand forms of the memory and engine instructions: addresses and their spaces (04 R80), the checks of an
access (04 R81, 08 R177), range locks (04 R97, R98), displacements and sizes (09, 11 R234), and bytes of the slice's frame. -/

namespace Sys2Proof.Machine

/-! ### Address spaces (04 R80) -/

/-- What an address names. -/
inductive Addr
  | local' (off : Nat)
  | reserved (off : Nat)
  | peer (lidx fid off : Nat)
  | hbm (va : Nat)
  | bad
  deriving DecidableEq, Repr

/-- Bits 63:60 select the space; the bits the layout marks as zero must be zero. -/
def parseAddr (a : Word) : Addr :=
  let x := a.toNat
  match x / 2 ^ 60 with
  | 0 => if x < 2 ^ 22 then .local' x else .bad
  | 1 => if x % 2 ^ 60 < 2 ^ 16 then .reserved (x % 2 ^ 60) else .bad
  | 2 => if x / 2 ^ 22 % 2 ^ 20 = 0 then .peer (x / 2 ^ 50 % 2 ^ 10) (x / 2 ^ 42 % 2 ^ 8) (x % 2 ^ 22) else .bad
  | 4 => if x % 2 ^ 60 < 2 ^ 48 then .hbm (x % 2 ^ 60) else .bad
  | _ => .bad

/-- Which class of spaces an opcode accepts (08 R177). -/
inductive Reach | near | far | any
  deriving DecidableEq, Repr

def Reach.accepts (r : Reach) (a : Addr) : Bool := match a, r with
  | .bad, _ => false
  | .local' _, .far => false
  | .reserved _, .far => false
  | .peer _ _ _, .near => false
  | .hbm _, .near => false
  | _, _ => true

/-- Checks 1 to 5 of 04 R81, in their order, on `size` bytes at `a` with the alignment `align` the access demands. -/
def State.checkAccess (s : State) (r : Reach) (a : Word) (size align : Nat) : Option TrapRec :=
  let p := parseAddr a
  let sl := s.sl
  if !r.accepts p then some (cause 0x06 a 0)
  else match p with
    | .reserved _ => some s.privileged
    | _ =>
      if a.toNat % align ≠ 0 then some (cause 0x05 a (BitVec.ofNat 64 align))
      else match p with
        | .local' off => if sl.fid.isNone || decide (sl.fsize < off + size) then some (cause 0x06 a 0) else none
        | .peer _ fid _ => if fid = 255 && sl.fid.isNone then some (cause 0x06 a 0) else none
        | _ => none

/-! ### The slice's own frame -/

/-- The key of a byte of the current slice's frame. -/
def State.frameKey (s : State) (off : Nat) : Nat := scratchKey s.tile (s.sl.fbase + off)

/-- Little-endian number of `n` bytes at a frame offset. -/
def State.frameNum (s : State) (off n : Nat) : Nat := s.num (s.frameKey off) n

def State.frameBytes (s : State) (off n : Nat) : List Byte := s.bytes (s.frameKey off) n

def State.setFrame (s : State) (off : Nat) (bs : List Byte) : State := s.setBytes (s.frameKey off) bs

/-! ### Members -/

/-- Is the tile a member of the territory: owned, and neither ceding nor joining (03 R51)? -/
def Tile.isMember (t : Tile) (terr : Nat) : Bool := t.owner == some terr && t.ceding.isNone && t.joining.isNone

/-- The tiles, by position. -/
def allTiles : List TileId := List.finRange 384

/-- The members of a territory, by position. -/
def State.members (s : State) (terr : Nat) : List TileId := allTiles.filter (fun t => (s.tiles[t]).isMember terr)

/-- The member at a logical index; none for a hole (03 R67). -/
def State.memberAt (s : State) (terr lidx : Nat) : Option TileId :=
  allTiles.find? (fun t => (s.tiles[t]).isMember terr && (s.tiles[t]).lidx == lidx)

/-- A live slice with this frame on a tile: running, exiting or yielded, of the territory (04 R83, R84). -/
def State.liveFrame (s : State) (t : TileId) (terr fid : Nat) : Option Slice :=
  s.slices.find? (fun x => x.tile == some t && x.terr == terr && x.fid == some fid &&
    !x.fresh && (x.st == .running || x.st == .exiting || !x.saved.isEmpty))

/-- The tile's own scratchpad offset that a peer address names, when the index is that of the issuing tile and the frame is live there. -/
def State.ownPeer (s : State) (lidx fid off : Nat) : Option Nat :=
  if s.memberAt s.sl.terr lidx = some s.tile then
    (s.liveFrame s.tile s.sl.terr (if fid = 255 then s.sl.fid.getD 255 else fid)).map (fun x => x.fbase + off)
  else none

/-! ### Range locks (04 R97, R98) -/

/-- Do two ranges share a byte? -/
def overlaps (a n b m : Nat) : Bool := decide (a < b + m) && decide (b < a + n) && decide (0 < n) && decide (0 < m)

/-- The lowest-numbered entry that refuses an access to `n` bytes at physical scratchpad offset `p` of the tile: any entry for
a store or atomic, a destination entry for a load. -/
def Tile.lockHit (t : Tile) (p n : Nat) (store : Bool) : Option Nat :=
  let hits := t.locks.filter (fun l => overlaps p n l.lo l.len && (store || l.dst))
  hits.foldl (fun acc l => match acc with
    | none => some l.entry
    | some k => some (min k l.entry)) none

/-- Free entries of the 32. -/
def Tile.freeLocks (t : Tile) : Nat := 32 - t.locks.length

/-- The lowest free entry number, which a new range takes (DESIGN CHOICE, log 72: 04 R97 does not say which). -/
def Tile.lockFree (t : Tile) : Nat :=
  ((List.range 32).find? (fun k => !(t.locks.any (fun l => l.entry == k)))).getD 0

/-- Registers ranges (scratchpad offset, length, whether a destination) for operation `op`. -/
def Tile.register (t : Tile) (rs : List (Nat × Nat × Bool)) (op : Nat) : Tile :=
  rs.foldl (fun t r => { t with locks := t.locks ++ [{ entry := t.lockFree, lo := r.1, len := r.2.1, dst := r.2.2, op := op }] }) t

/-- Frees every entry of an operation. -/
def Tile.release (t : Tile) (op : Nat) : Tile := { t with locks := t.locks.filter (fun l => l.op != op) }

/-- The range-lock check of an access to `n` bytes at scratchpad offset `p` of the issuing tile (04 R98). -/
def State.checkLock (s : State) (a : Word) (p n : Nat) (store : Bool) : Option TrapRec :=
  match (s.tiles[s.tile]).lockHit p n store with
  | some k => some (cause 0x08 a (BitVec.ofNat 64 k))
  | none => none

/-- The range-lock check of any access: one to the issuing tile's own scratchpad is checked, whichever space names it (04 R98). -/
def State.checkLocks (s : State) (a : Word) (n : Nat) (store : Bool) : Option TrapRec := match parseAddr a with
  | .local' off => s.checkLock a (s.sl.fbase + off) n store
  | .peer lidx fid off => (s.ownPeer lidx fid off).bind (fun p => s.checkLock a p n store)
  | _ => none

/-- Both checks of one access: 04 R81, then 04 R98 (11 R231). -/
def State.checkMem (s : State) (r : Reach) (a : Word) (size align : Nat) (store : Bool) : Option TrapRec :=
  match s.checkAccess r a size align with
  | some t => some t
  | none => s.checkLocks a size store

/-- A field of a word: bits `hi` to `lo`. -/
def wbits (x : Word) (hi lo : Nat) : Nat := x.toNat / 2 ^ lo % 2 ^ (hi + 1 - lo)

/-! ### Sizes, displacements, extension (08 R161, 11 R234) -/

/-- The bytes of a memory size code. -/
def sizeOf' : MemSz → Nat
  | .i8 => 1
  | .n8 => 1
  | .i16 => 2
  | .n16 => 2
  | .i32 => 4
  | .n32 => 4
  | .x8 => 8

/-- Is a loaded value sign-extended? i codes and size 8. -/
def sizeSigned : MemSz → Bool
  | .i8 => true
  | .i16 => true
  | .i32 => true
  | .x8 => true
  | _ => false

/-- A loaded value extended to 64 bits. -/
def extLoad (sz : MemSz) (x : Nat) : Word :=
  if sizeSigned sz then wordOfInt (sext x (8 * sizeOf' sz)) else BitVec.ofNat 64 x

/-- An address with a scaled displacement: base + SignExt(disp) × scale, modulo 2^64. -/
def dispAddr {n : Nat} (base : Word) (disp : BitVec n) (scale : Nat) : Word :=
  base + BitVec.ofInt 64 (disp.toInt * scale)

/-- A branch target: PC + 8 × SignExt(disp) (09 R184). -/
def branchTarget {n : Nat} (pc : Word) (disp : BitVec n) : Word := pc + BitVec.ofInt 64 (disp.toInt * 8)

/-! ### Tiles of a territory -/

/-- The member (or ceding tile of the territory) at a logical index (03 R51, R71). -/
def State.tileAt (s : State) (terr lidx : Nat) : Option TileId :=
  (List.finRange 384).find? (fun t => (s.tiles[t]).owner == some terr && (s.tiles[t]).lidx == lidx)

end Sys2Proof.Machine
end

