-- ==== Sys2Proof/Machine/Net.lean ====
section
/-! DEFINITION. The mesh: sending, sequence numbers, acknowledgements and retransmission (11 R246, R247), counters (21 R356),
what a request finds at its target (04 R84, R85, R87), and how a refusal or a result reaches its core. -/

namespace Sys2Proof.Machine

/-! ### Counters -/

/-- The receipt field a tile counter feeds (21 R357), if any. -/
def receiptField : Fin 16 → Option (Fin 6)
  | 10 => some 0
  | 11 => some 1
  | 12 => some 2
  | 2 => some 3
  | 4 => some 4
  | _ => none

def State.modSession (s : State) (id : Nat) (f : Session → Session) : State :=
  { s with sessions := s.sessions.map (fun x => if x.id = id then f x else x) }

/-- One more in a receipt's counter; each field saturates at 2^32 − 1 (21 R357). -/
def Session.count (x : Session) (i : Fin 6) : Session :=
  { x with counts := vmod x.counts i (fun n => min (n + 1) 4294967295) }

/-- A tile counter increments, and with it the receipt field of the territory the tile counts for (21 R356, R357). -/
def State.bump (s : State) (t : TileId) (i : Fin 16) : State :=
  let s1 := s.modTile t (fun x => { x with ctr := vmod x.ctr i (· + 1) })
  match receiptField i, (s.tiles[t]).owner with
  | some f, some a => s1.modSession (s.terr! a).sess (fun x => x.count f)
  | _, _ => s1

/-! ### Versions -/

/-- The shape version a territory's tiles see (03 R68). -/
def State.shapeVer (s : State) (terr : Nat) : BitVec 32 := (s.terr! terr).ver

/-! ### Sending -/

def lookupSeq (l : List ((Nat × Nat × Nat) × Nat)) (k : Nat × Nat × Nat) : Nat :=
  ((l.find? (fun x => x.1 == k)).map (·.2)).getD 0

def bumpSeq (l : List ((Nat × Nat × Nat) × Nat)) (k : Nat × Nat × Nat) : List ((Nat × Nat × Nat) × Nat) :=
  if l.any (fun x => x.1 == k) then l.map (fun x => if x.1 = k then (k, x.2 + 1) else x) else l ++ [(k, 1)]

def Packet.key (p : Packet) : Nat × Nat × Nat := (p.src, p.dst, p.cls)

/-- Sends a message and keeps a copy until it is acknowledged; an acknowledgement (class 4) is not kept (11 R247).
Its number is the one `dev.nextReq` held. -/
def State.send (s : State) (src dst cls : Nat) (who : Option Who) (terr : Nat) (body : Msg) : State :=
  let key := (src, dst, cls)
  let p : Packet := { id := s.dev.nextReq, src := src, dst := dst, cls := cls, seq := lookupSeq s.txSeq key,
                      sent := s.now, ver := s.shapeVer terr, who := who, terr := terr, body := body }
  { s with net := s.net ++ [p], kept := if cls = 4 then s.kept else s.kept ++ [p],
           txSeq := bumpSeq s.txSeq key, dev := { s.dev with nextReq := s.dev.nextReq + 1 } }

/-- Counts a request as outstanding until it is acknowledged end to end (04 R92, R102). -/
def State.addOut (s : State) (w : Who) (id : Nat) : State := s.modOwn w (fun c => { c with outst := c.outst ++ [id] })

def State.doneOut (s : State) (w : Who) (id : Nat) : State :=
  s.modOwn w (fun c => { c with outst := c.outst.filter (· != id) })

/-- The first message in flight of its (source, destination, class) with this number: the one that may arrive next (04 R91). -/
def State.firstPacket (s : State) (k : Nat) : Option Packet :=
  match s.net.find? (fun p => p.id == k) with
  | none => none
  | some p => match s.net.find? (fun q => q.key == p.key) with
    | some q => if q.id = k then some q else none
    | none => none

/-- Takes the first message with this number out of flight. -/
def State.takePacket (s : State) (k : Nat) : State := { s with net := s.net.eraseP (fun p => p.id == k) }

/-- Acknowledges a message end to end, from its destination. -/
def State.sendAck (s : State) (p : Packet) : State := s.send p.dst p.src 4 p.who p.terr (.ack p.id)

/-- The tile of a node that is one. -/
def nodeTile (n : Nat) : Option TileId := if h : n < 384 then some ⟨n, h⟩ else none

def State.bumpNode (s : State) (n : Nat) (i : Fin 16) : State := match nodeTile n with
  | some t => s.bump t i
  | none => s

/-- The request that a response answers: it acknowledges it (11 R247). -/
def Msg.answers : Msg → Option Nat
  | .reply req _ _ => some req
  | .refuse req _ _ => some req
  | .data req _ => some req
  | .rowData _ _ req _ => some req
  | .rowBad _ _ req _ => some req
  | _ => none

/-- Does a message's destination still keep a response to it, which its source has not acknowledged? -/
def State.respondsTo (s : State) (p : Packet) : Bool := s.kept.any (fun q => q.src == p.dst && q.dst == p.src && q.body.answers == some p.id)

/-- A message arrives: only the next in sequence is accepted and acted on; a duplicate is discarded and acknowledged again; one
out of sequence is discarded (11 R247). A duplicate whose response is still on its way is acknowledged by that response, which is itself sent
again until it is acknowledged (DESIGN CHOICE, log 35). -/
def State.arrive (s : State) (p : Packet) (act : State → State) : State :=
  let s1 := s.takePacket p.id
  let want := lookupSeq s.rxSeq p.key
  if p.seq = want then act { s1 with rxSeq := bumpSeq s1.rxSeq p.key }
  else if p.seq < want then (if s.respondsTo p then s1.bumpNode p.dst 13 else (s1.bumpNode p.dst 13).sendAck p)
  else s1.bumpNode p.dst 14

/-- The source of a request forgets its copy. -/
def State.forget (s : State) (id : Nat) : State := { s with kept := s.kept.filter (fun p => p.id != id) }

/-- Resends every message of one (source, destination, class) from the oldest not acknowledged on (go-back-N, 11 R247). -/
def State.resend (s : State) (key : Nat × Nat × Nat) : State :=
  let again := (s.kept.filter (fun p => p.key == key)).map (fun p => { p with sent := s.now })
  let s1 := { s with net := s.net ++ again,
                     kept := s.kept.map (fun p => if p.key = key then { p with sent := s.now } else p) }
  again.foldl (fun s p => s.bumpNode p.src 12) s1

/-! ### What a request finds -/

/-- The physical address of an HBM virtual address of a territory, for a read or a write (04 R86); or the refusal's
TINFO1 (04 R87). -/
def State.translate (s : State) (terr va : Nat) (write : Bool) : Except Word Nat :=
  match (s.terr! terr).pages.find? (fun p => p.vpn == va / 2097152) with
  | none => .error 0
  | some p => if write && !p.rw then .error 1 else .ok (p.ppn * 2097152 + va % 2097152)

/-- A translation failure (04 R87). -/
def transFault (va : Nat) (i1 : Word) : TrapRec := cause 0x07 (BitVec.ofNat 64 va) i1

/-- A stale peer (03 R71): asynchronous, the index and the shape version seen. -/
def stalePeer (lidx : Nat) (ver : BitVec 32) : TrapRec :=
  { code := 0x0A, i0 := BitVec.ofNat 64 lidx, i1 := ver.setWidth 64, async := true }

/-- The stream controller that is the home of an HBM address, as a node (04 R86). -/
def hbmNode (va : Nat) : Nat := 384 + va / 2097152 % 8 * 16 + va / 256 % 16

/-- What an access finds at its target: the key of its first byte, or a refusal. -/
inductive Found
  | at' (key : Nat)
  | refused (t : TrapRec)

/-- Was something that was issued under version `ver` issued before the commit that made version `c`? Versions count modulo 2^32. -/
def beforeVer (ver c : BitVec 32) : Bool := decide (0 < (c - ver).toNat ∧ (c - ver).toNat < 2147483648)

/-- Is a tile still the one a request was resolved to: owned by the territory under the index, a member since before the request was issued, and,
while it is ceding, not yet cleared and the request issued before the commit (03 R61, R64, R71, 12 R265)? -/
def State.isHere (s : State) (t : TileId) (terr lidx : Nat) (ver : BitVec 32) : Bool :=
  let x := s.tiles[t]
  x.owner == some terr && x.lidx == lidx && x.joining.isNone && !beforeVer ver x.joinVer && x.ceding.all (fun c => !c.cleared && beforeVer ver c.ver)

/-- A peer access reaches its tile (04 R84, R85, 03 R64, R71). `a` is the address as the program gave it. -/
def State.findPeer (s : State) (t : TileId) (terr lidx fid off size : Nat) (ver : BitVec 32) (a : Word) : Found :=
  if !s.isHere t terr lidx ver then .refused (stalePeer lidx ver)
  else match s.liveFrame t terr fid with
    | none => .refused (cause 0x09 a 0)
    | some x => if x.fsize < off + size then .refused (cause 0x06 a 0) else .at' (scratchKey t (x.fbase + off))

/-- The counter a refused peer access increments at the target (21 R356). -/
def refusalCounter (t : TrapRec) : Fin 16 := if t.code = 0x0A then 2 else 3

/-- An HBM access reaches its home. -/
def State.findHbm (s : State) (terr va : Nat) (write : Bool) : Found :=
  match s.translate terr va write with
  | .ok pa => .at' (hbmKey pa)
  | .error i1 => .refused (transFault va i1)

/-- A granule is written at cycle `now`: its dirty bit is set, and the cycle is kept, for a DIRTY that clears the bit in that cycle
leaves it set (04 R88, 20 R351). -/
def Terr.wroteGranule (x : Terr) (g now : Nat) : Terr :=
  let old := if x.wroteAt = now then x.wrote else []
  { x with dirty := if x.dirty.contains g then x.dirty else x.dirty ++ [g],
           wroteAt := now, wrote := if old.contains g then old else old ++ [g] }

/-- A write to HBM sets the dirty bits of its 64 KiB granule and of its 2 MiB page (04 R88). -/
def State.markDirty (s : State) (terr va : Nat) : State :=
  s.modTerr terr (fun x =>
    { x.wroteGranule (va / 65536) s.now with
      pages := x.pages.map (fun p => if p.vpn = va / 2097152 then { p with dirty := true } else p) })

/-! ### Results and refusals at the core -/

/-- The zero a register receives when a load's target has gone (04 R85). -/
def zeroWr : RegId → Wr
  | .scalar r => .scalar r 0
  | .vector r => .vector r 0
  | .pred r => .pred r false
  | _ => .flagsOnly

/-- A pending result arrives. -/
def deliverTo (ps : List Pend) (id : Nat) (w : Wr) (fl : BitVec 6) : List Pend :=
  ps.map (fun p => if p.id = id then { p with got := some (w, fl) } else p)

/-- A result arrives for the stream that issued its request, whichever runs now (02 R45). The flags of a result that no register
takes are set at once (04 R95). -/
def Core.deliver (c : Core) (id : Nat) (w : Wr) (fl : BitVec 6) : Core :=
  let later : BitVec 6 := if w = .flagsOnly then 0 else fl
  let c1 := { c with pend := deliverTo c.pend id w later,
                     dbgHeld := c.dbgHeld.map (fun h => (h.1, deliverTo h.2 id w later)),
                     replay := c.replay.map (fun r => { r with pend := deliverTo r.pend id w later }) }
  if w = .flagsOnly then { c1 with fpflags := c1.fpflags ||| fl } else c1

/-- A refusal arrives for the stream that issued the request: it waits there for that stream's park (02 R45, 04 R84). A load's pending
mark stays until then. -/
def Core.refuse (c : Core) (id : Nat) (t : TrapRec) (own : Bool) : Core :=
  match c.replay with
  | some r =>
    if r.reqs.contains id then { c with replay := some { r with refused := r.refused ++ [(id, t, own)] } }
    else { c with refused := c.refused ++ [(id, t, own)] }
  | none => { c with refused := c.refused ++ [(id, t, own)] }

/-- A cause that needs no message: it stands at the core at once, under a request number of its own. -/
def State.refuseNow (s : State) (w : Who) (id : Nat) (t : TrapRec) (own : Bool) : State :=
  s.modOwn w (fun c => c.refuse id t own)

/-- A core's requests of class 0 to its own tile that its tile has not yet performed: a local access after a park must see them (04 R90). -/
def State.selfPending (s : State) (core : CoreId) : Bool :=
  let k := s.cores[core]
  let n := (tileOf core).val
  let beat (b : Msg) : Bool := match b with
    | .copyWr _ _ _ _ _ => true
    | .read _ _ _ _ _ => true
    | _ => false
  s.kept.any (fun p => p.src == n && p.dst == n && p.cls == 0 && p.who == some (k.sl.getD 0, k.pos) && !beat p.body &&
    decide (lookupSeq s.rxSeq p.key ≤ p.seq))

/-- The slice has issued an instruction after which it is not replayed (16 R317). -/
def State.noReplay (s : State) : State := match s.c.sl with
  | some u => s.modSlice u (fun x => { x with noReplay := true })
  | none => s

/-! ### Issuing a far access -/

/-- Issues a request to a peer frame or to HBM (class 0). A peer index is resolved now; a hole is a stale peer, counted on this
tile (03 R71). The request number is `dev.nextReq`; a result is pending on `reg` when `pends`. -/
def State.farAccess (s : State) (a : Word) (pends : Bool) (reg : Option RegId) (mk : Place → Msg) : State :=
  let id := s.dev.nextReq
  let sl := s.sl
  let s1 := if pends then s.pendOn id reg else s
  match parseAddr a with
  | .peer lidx fid off =>
    match s.memberAt sl.terr lidx with
    | some t =>
      let f := if fid = 255 then sl.fid.getD 255 else fid
      (s1.send s.tile t.val 0 (some s.me) sl.terr (mk (.peer t lidx f off))).addOut s.me id
    | none =>
      let s2 := { s1.bump s.tile 2 with dev := { s1.dev with nextReq := id + 1 } }
      s2.refuseNow s.me id (stalePeer lidx (s.shapeVer sl.terr)) pends
  | .hbm va => (s1.send s.tile (hbmNode va) 0 (some s.me) sl.terr (mk (.hbm va))).addOut s.me id
  | _ => s1

end Sys2Proof.Machine
end

