-- ==== Sys2Proof/Machine/Memory.lean ====
section
/-! DEFINITION. Loads, stores, vector accesses, atomics and fences (11 R231 to R239), and the steps in which a request is
performed at its home and its answer returns (04 R84 to R95, 11 R247). -/

namespace Sys2Proof.Machine

/-! ### Shapes -/

/-- A vector from its 128 bytes (10 R208). -/
def vecOfBytes (bs : List Byte) : Vec := BitVec.ofNat 1024 (leNat bs)

def bytesOfVec (x : Vec) : List Byte := leBytes 128 x.toNat

/-- The value a load of `sz` finds in its bytes. -/
def loadVal (sz : MemSz) (bs : List Byte) : Word := extLoad sz (leNat bs)

/-- The low bytes of a register that a store of `sz` writes. -/
def storeBytes (sz : MemSz) (x : Word) : List Byte := leBytes (sizeOf' sz) x.toNat

/-! ### Local accesses (04 R89) -/

/-- A local access of the bundle that issues, which reaches the bank in a later cycle. -/
def State.setAcc (s : State) (a : LocalAcc) : State := s.modCur (fun c => { c with acc := c.acc ++ [(0, a)] })

/-- A result of a core lands `n` bundles after the one that issued it. -/
def State.inFlight (s : State) (core : CoreId) (w : Wr) (n : Nat) (fl : BitVec 6) : State :=
  s.modCore core (fun c => { c with flight := c.flight ++ [{ dist := n, wr := w, flags := fl }] })

/-- The new value of an atomic, and its flags (04 R95, 11 R238). -/
def atomNew (op : AtomOp) (ty : AtomTy) (old x cmp : BitVec 32) : BitVec 32 × BitVec 6 :=
  match op with
  | .add => match ty with
    | .f32 => let r := fF32.add old.toNat x.toNat; (BitVec.ofNat 32 r.1, r.2)
    | _ => (old + x, 0)
  | .and => (old &&& x, 0)
  | .or => (old ||| x, 0)
  | .xor => (old ^^^ x, 0)
  | .min => (match ty with
    | .i32 => if x.slt old then x else old
    | _ => if x.ult old then x else old, 0)
  | .max => (match ty with
    | .i32 => if old.slt x then x else old
    | _ => if old.ult x then x else old, 0)
  | .xchg => (x, 0)
  | .cas => (if old = cmp then x else old, 0)

/-- What the destination receives: the old value. -/
def atomOld (ty : AtomTy) (old : BitVec 32) : Word := match ty with
  | .i32 => old.signExtend 64
  | _ => old.setWidth 64

/-- The vector that elements at these keys make, each extended to 32 bits. -/
def State.lanesAt (s : State) (keys : List Nat) (sz : MemSz) : Vec :=
  ofLanes (keys.map (fun k => (loadVal sz (s.bytes k (sizeOf' sz))).setWidth 32))

/-- A local access reaches the bank, `lag` bundles after its own: a load reads what stands there now, a store writes, an atomic does both
(04 R89). Its result lands as many bundles after its own as its latency says. -/
def State.reach (s : State) (core : CoreId) (lag : Nat) : LocalAcc → State
  | .load k d sz => s.inFlight core (.scalar d (loadVal sz (s.bytes k (sizeOf' sz)))) (5 - lag) 0
  | .loadVec k d => s.inFlight core (.vector d (vecOfBytes (s.bytes k 128))) (5 - lag) 0
  | .loadLanes ks d sz => s.inFlight core (.vector d (s.lanesAt ks sz)) (8 - lag) 0
  | .loadPend k d sz id => s.modCore core (fun c => c.deliver id (.scalar d (loadVal sz (s.bytes k (sizeOf' sz)))) 0)
  | .store ws => ws.foldl (fun s w => s.setBytes w.1 w.2) s
  | .atom k d op ty x cmp =>
    let old := BitVec.ofNat 32 (s.num k 4)
    let r := atomNew op ty old x cmp
    (s.setBytes k (leBytes 4 r.1.toNat)).inFlight core (.scalar d (atomOld ty old)) (6 - lag) r.2

/-- Those of a core's accesses under way that are at least `n` bundles old are performed, the oldest first. -/
def State.performFrom (s : State) (n : Nat) (core : CoreId) : State :=
  let as := (s.cores[core]).acc
  (as.filter (fun a => decide (n ≤ a.1))).foldl (fun s a => s.reach core a.1 a.2)
    (s.modCore core (fun c => { c with acc := c.acc.filter (fun a => decide (a.1 < n)) }))

/-- A core's oldest access under way, if any, is performed. -/
def State.performAcc (s : State) (core : CoreId) : State := match (s.cores[core]).acc with
  | [] => s
  | a :: r => (s.modCore core (fun c => { c with acc := r })).reach core a.1 a.2

/-- The accesses of several cores that are as old as `least` says are performed: those of earlier bundles first, within a bundle in order of
positions (08 R180). No access waits for more than three bundles. -/
def State.performOld (s : State) (least : Core → Nat) (cs : List CoreId) : State :=
  [3, 2, 1, 0].foldl (fun s n => cs.foldl (fun s c => if least s.cores[c] ≤ n then s.performFrom n c else s) s) s

/-- All of them are. -/
def State.performAccs (s : State) (cs : List CoreId) : State := s.performOld (fun _ => 0) cs

/-- The bundles that may issue before an access of the core is performed: an access of position i in bundle t comes before every access of
bundle t + i + 1, and may come after those of the bundles between (08 R180). -/
def Core.mayLag (c : Core) : Nat := if c.det then 0 else c.pos

/-- Must an access of `d`, `m` bundles old, be performed before one of `c` that is `n` bundles old (08 R180)? -/
def Core.accBefore (c d : Core) (n m : Nat) : Bool := if m = n then decide (d.mayLag < c.mayLag) else decide (n + d.mayLag < m + c.mayLag ∧ n < m)

/-- May the oldest access under way of a core reach its bank now, among those of its gang? -/
def State.accFirst (s : State) (g : List CoreId) (core : CoreId) : Bool := match (s.cores[core]).acc with
  | [] => false
  | a :: _ => g.all (fun d => d == core || (s.cores[d]).acc.all (fun b => !(s.cores[core]).accBefore s.cores[d] a.1 b.1))

/-- A local access: both checks, then its effect on the frame offset. -/
def State.withLocal (s : State) (a : Word) (size align : Nat) (store : Bool) (k : Nat → State) : Res :=
  match s.checkMem .near a size align store with
  | some t => .trap t
  | none => match parseAddr a with
    | .local' off => .ok (k off)
    | _ => .ok s

/-- A far access: both checks, then the request. -/
def State.withFar (s : State) (a : Word) (size align : Nat) (store : Bool) (k : State) : Res :=
  match s.checkMem .far a size align store with
  | some t => .trap t
  | none => .ok k

/-- The end of a park that is over: a marked one waits on for its results (02 R40). -/
def Core.endPark (c : Core) : Core := match c.park with
  | some p => if p.marks then { c with park := some { why := .marker, marks := true } } else { c with park := none }
  | none => c

/-- Does the park of a core take a refusal? Any park of its stream takes one that no park in particular waits for; one for a result that is
still marked waits for the park that clears the mark, or that of a YIELD, EXIT or TEVAC (04 R84, R85, R87). -/
def Core.takes (c : Core) (p : Park) (r : Nat × TrapRec × Bool) : Bool :=
  let waits (ps : List Pend) : Bool := ps.any (fun q => q.id == r.1)
  !(c.dbgHeld.any (fun h => waits h.2)) && (!r.2.2 || p.marks || p.why == .yieldWait || !waits c.pend)

/-- The first refusal that a core's park takes. -/
def Core.takable (c : Core) : Option (Nat × TrapRec × Bool) := c.park.bind (fun p => c.refused.find? (c.takes p))

/-- A park of the current core that leaves pending marks in place (11 R232). -/
def State.parkOn (s : State) (w : ParkWhy) : State := s.modCur (fun c => { c with park := some { why := w, marks := false } })

/-! ### Scalar loads and stores (11 R234, R235) -/

def execLd (m : Bool) (d a : Reg) (sz : MemSz) (disp : BitVec 11) (s : State) : Out :=
  cWord m [.scalar a] (wS d (some 5)) (fun s =>
    let n := sizeOf' sz
    let ad := dispAddr (s.rs a) disp n
    s.withLocal ad n n false (fun off => s.setAcc (.load (s.frameKey off) d sz))) s

def execSt (m : Bool) (d a : Reg) (sz : MemSz) (disp : BitVec 11) (s : State) : Out :=
  cWord m [.scalar a, .scalar d] [] (fun s =>
    let n := sizeOf' sz
    let ad := dispAddr (s.rs a) disp n
    s.withLocal ad n n true (fun off => s.setAcc (.store [(s.frameKey off, storeBytes sz (s.rs d))]))) s

/-- A local value that is delivered as a variable-latency result, at once (11 R235). -/
def State.pendNow (s : State) (reg : Option RegId) (w : Wr) : State :=
  let id := s.dev.nextReq
  let s1 := s.pendOn id reg
  ({ s1 with dev := { s1.dev with nextReq := id + 1 } }).modCur (fun c => c.deliver id w 0)

/-- A load through memory of any space with a pending result. -/
def State.loadAny (s : State) (r : Reach) (ad : Word) (n : Nat) (d : Reg) (sz : MemSz) : Res :=
  match s.checkMem r ad n n false with
  | some t => .trap t
  | none => match parseAddr ad with
    | .local' off =>
      let id := s.dev.nextReq
      .ok (({ s.pendOn id (dstS d) with dev := { s.dev with nextReq := id + 1 } }).setAcc (.loadPend (s.frameKey off) d sz id))
    | _ => .ok (s.farAccess ad true (dstS d) (fun p => .load p ad n (.scalar d sz)))

/-- LDA acts as if its bundle carried the switch marker (04 R93). -/
def execLda (_m : Bool) (d a : Reg) (sz : MemSz) (_sc : Scope) (disp : BitVec 9) (s : State) : Out :=
  cWord true [.scalar a] (wS d none) (fun s =>
    let n := sizeOf' sz
    s.loadAny .any (dispAddr (s.rs a) disp n) n d sz) s

/-- Issues a store of any space by the current core; the checks have been made. -/
def State.storeAny (s : State) (ad : Word) (bs : List Byte) : State :=
  match parseAddr ad with
  | .local' off => s.setAcc (.store [(s.frameKey off, bs)])
  | _ => s.farAccess ad false none (fun p => .store p ad bs)

/-- Are a core's accesses complete at a scope (04 R92)? At scope t that asks for its requests to its own tile (04 R90). An STL.c finds nothing to
wait for: it begins no park that 04 R90 speaks of (DESIGN CHOICE, log 76). -/
def State.fenced (s : State) (core : CoreId) (sc : Scope) : Bool :=
  sc == .c || (!s.selfPending core && (sc == .t || (s.cores[core]).outst.isEmpty))

/-- A bundle waits in a park before it issues: nothing of it has happened. -/
def State.waitFirst (s : State) (w : ParkWhy) : State := { s.parkOn w with issue := .stalled }

/-- A core's refusal that an STL's park takes, at whatever scope (04 R84). -/
def Core.stlRefused (c : Core) (sc : Scope) : Bool := c.refused.any (c.takes { why := .storeRelease sc, marks := false })

/-- STL parks until the earlier accesses are complete at its scope, and only then issues, with the checks of a plain store (04 R93,
11 R235). A park with nothing to wait for and no refusal to take is over at once. -/
def execStl (m : Bool) (d a : Reg) (sz : MemSz) (sc : Scope) (disp : BitVec 9) (s : State) : Out :=
  if s.fenced s.cur sc && !s.c.stlRefused sc then
    cWord m [.scalar a, .scalar d] [] (fun s =>
      let n := sizeOf' sz
      let ad := dispAddr (s.rs a) disp n
      match s.checkMem .any ad n n true with
      | some t => .trap t
      | none => .ok (s.storeAny ad (storeBytes sz (s.rs d)))) s
  else .next (s.waitFirst (.storeRelease sc))

def execLdp (m : Bool) (d a : Reg) (sz : MemSz) (disp : BitVec 11) (s : State) : Out :=
  cWord m [.scalar a] (wS d none) (fun s =>
    let n := sizeOf' sz
    s.loadAny .far (dispAddr (s.rs a) disp n) n d sz) s

def execStp (m : Bool) (d a : Reg) (sz : MemSz) (disp : BitVec 11) (s : State) : Out :=
  cWord m [.scalar a, .scalar d] [] (fun s =>
    let n := sizeOf' sz
    let ad := dispAddr (s.rs a) disp n
    s.withFar ad n n true (s.storeAny ad (storeBytes sz (s.rs d)))) s

/-! ### Whole vector registers (11 R236) -/

def execVld (m : Bool) (d a : Reg) (disp : BitVec 11) (s : State) : Out :=
  cWord m [.scalar a] (wV d (some 5)) (fun s =>
    let ad := dispAddr (s.rs a) disp 128
    s.withLocal ad 128 128 false (fun off => s.setAcc (.loadVec (s.frameKey off) d))) s

def execVst (m : Bool) (d a : Reg) (disp : BitVec 11) (s : State) : Out :=
  cWord m [.scalar a, .vector d] [] (fun s =>
    let ad := dispAddr (s.rs a) disp 128
    s.withLocal ad 128 128 true (fun off => s.setAcc (.store [(s.frameKey off, bytesOfVec (s.rv d))]))) s

def execVldp (m : Bool) (d a : Reg) (disp : BitVec 11) (s : State) : Out :=
  cWord m [.scalar a] (wV d none) (fun s =>
    let ad := dispAddr (s.rs a) disp 128
    s.withFar ad 128 128 false (s.farAccess ad true (some (.vector d)) (fun p => .load p ad 128 (.vector d)))) s

def execVstp (m : Bool) (d a : Reg) (disp : BitVec 11) (s : State) : Out :=
  cWord m [.scalar a, .vector d] [] (fun s =>
    let ad := dispAddr (s.rs a) disp 128
    s.withFar ad 128 128 true (s.storeAny ad (bytesOfVec (s.rv d)))) s

/-! ### Strided, gather and scatter forms (11 R237) -/

/-- The address of lane l in the strided forms. -/
def stridedAddr (base stride : Word) (l : Nat) : Word := base + BitVec.ofInt 64 ((l : Int) * stride.toInt)

/-- The address of lane l in the gather and scatter forms. -/
def gatherAddr (base : Word) (idx : Vec) (l : Nat) : Word := base + (lane idx l).signExtend 64

/-- The first check that fails over all lanes: 04 R81 on every element, then range locks; the lowest lane is reported. -/
def State.checkLanes (s : State) (addr : Nat → Word) (n : Nat) (store : Bool) : Option TrapRec :=
  match (List.range 32).findSome? (fun l => s.checkAccess .near (addr l) n n) with
  | some t => some t
  | none => (List.range 32).findSome? (fun l => s.checkMem .near (addr l) n n store)

/-- The frame offset of a checked local address. -/
def localOff (a : Word) : Nat := a.toNat

/-- The keys of the lanes' elements. -/
def State.laneKeys (s : State) (addr : Nat → Word) : List Nat := (List.range 32).map (fun l => s.frameKey (localOff (addr l)))

/-- The low bytes of the lanes, each with its element's key, in ascending order of lanes. -/
def State.laneStores (s : State) (addr : Nat → Word) (sz : MemSz) (x : Vec) : List (Nat × List Byte) :=
  (List.range 32).map (fun l => (s.frameKey (localOff (addr l)), leBytes (sizeOf' sz) (lane x l).toNat))

/-- A load of 32 elements at latency 8. -/
def lanesLoadRes (s : State) (addr : Nat → Word) (sz : MemSz) (d : Reg) : Res :=
  match s.checkLanes addr (sizeOf' sz) false with
  | some t => .trap t
  | none => .ok (s.setAcc (.loadLanes (s.laneKeys addr) d sz))

def lanesStoreRes (s : State) (addr : Nat → Word) (sz : MemSz) (d : Reg) : Res :=
  match s.checkLanes addr (sizeOf' sz) true with
  | some t => .trap t
  | none => .ok (s.setAcc (.store (s.laneStores addr sz (s.rv d))))

def execVlds (m : Bool) (d a b : Reg) (sz : MemSz) (s : State) : Out :=
  cWord m [.scalar a, .scalar b] (wV d (some 8)) (fun s => lanesLoadRes s (stridedAddr (s.rs a) (s.rs b)) sz d) s
def execVsts (m : Bool) (d a b : Reg) (sz : MemSz) (s : State) : Out :=
  cWord m [.scalar a, .scalar b, .vector d] [] (fun s => lanesStoreRes s (stridedAddr (s.rs a) (s.rs b)) sz d) s
def execVgath (m : Bool) (d a b : Reg) (sz : MemSz) (s : State) : Out :=
  cWord m [.scalar a, .vector b] (wV d (some 8)) (fun s => lanesLoadRes s (gatherAddr (s.rs a) (s.rv b)) sz d) s
def execVscat (m : Bool) (d a b : Reg) (sz : MemSz) (s : State) : Out :=
  cWord m [.scalar a, .vector b, .vector d] [] (fun s => lanesStoreRes s (gatherAddr (s.rs a) (s.rv b)) sz d) s

/-! ### Atomics (04 R95, 11 R238) -/

/-- The registers an atomic reads: for cas, the destination supplies the comparand (08 R162). -/
def atomReads (op : AtomOp) (d a b : Reg) : List RegId :=
  [.scalar a, .scalar b] ++ (if op = .cas then [.scalar d] else [])

def execAtom (m : Bool) (d a b : Reg) (op : AtomOp) (ty : AtomTy) (s : State) : Out :=
  cWord m (atomReads op d a b) (wS d (some 6)) (fun s =>
    s.withLocal (s.rs a) 4 4 true (fun off =>
      s.setAcc (.atom (s.frameKey off) d op ty ((s.rs b).setWidth 32) ((s.rs d).setWidth 32)))) s

def execAtomp (m : Bool) (d a b : Reg) (op : AtomOp) (ty : AtomTy) (s : State) : Out :=
  cWord m (atomReads op d a b) (wS d none) (fun s =>
    s.withFar (s.rs a) 4 4 true ((s.farAccess (s.rs a) true (dstS d)
      (fun p => .atom p (s.rs a) op ty ((s.rs b).setWidth 32) ((s.rs d).setWidth 32) d)).noReplay)) s

/-! ### Fences (04 R93, R94, 11 R239) -/

/-- Parks until the earlier accesses are complete at the scope. At scope c nothing is waited for, and no park begins that could take a refusal or
that 04 R90 speaks of (DESIGN CHOICE, log 76: 11 R239 says that it parks for nothing, and 04 R84 and R90 do not say more). -/
def fenceRes (sc : Scope) (s : State) : Res := if sc = .c then .ok s else .ok (s.parkOn (.fence sc))

def execFence (m : Bool) (sc : Scope) (s : State) : Out := cWord m [] [] (fenceRes sc) s

/-- FENCESC: one core moves per step, so the order in which the parks end is the one total order of 04 R94. -/
def execFencesc (m : Bool) (sc : Scope) (s : State) : Out := cWord m [] [] (fun s => fenceRes sc s) s

/-! ### Requests performed at their home -/

/-- The result a load's data becomes. -/
def loadWr (dest : LoadTo) (bs : List Byte) : Wr := match dest with
  | .scalar r sz => if r = 0 then .flagsOnly else .scalar r (loadVal sz bs)
  | .vector r => .vector r (vecOfBytes bs)

/-- The answer of class 3 to a request. -/
def State.answer (s : State) (p : Packet) (b : Msg) : State := s.send p.dst p.src 3 p.who p.terr b

/-- Is a refusal of this request taken only at the park that waits for its result? A load's stale peer or translation fault is
(04 R85, R87), and an atomic's stale peer, which R85 reports in the same way. -/
def ownPark (b : Msg) (t : TrapRec) : Bool := match b with
  | .load _ _ _ _ => t.code == 0x0A || t.code == 0x07
  | .atom _ _ _ _ _ _ _ => t.code == 0x0A
  | _ => false

/-- The shape version under which a request was issued: a beat's is that of its copy, an MLW's that of its start (03 R71). -/
def Packet.issued (p : Packet) : BitVec 32 := match p.body with
  | .copyWr _ _ _ _ v => v
  | .read _ _ _ v _ => v
  | _ => p.ver

/-- Performs a request whose target is found at a key, or refuses it. `wrote` follows a write. -/
def State.perform (s : State) (p : Packet) (f : Found) (wrote : State → State) : State :=
  match f with
  | .refused t => s.answer p (.refuse p.id t (ownPark p.body t))
  | .at' key => match p.body with
    | .load _ _ n dest => s.answer p (.reply p.id (loadWr dest (s.bytes key n)) 0)
    | .store _ _ bs => (wrote (s.setBytes key bs)).sendAck p
    | .copyWr _ _ bs _ _ => (wrote (s.setBytes key bs)).sendAck p
    | .read _ _ n _ _ => s.answer p (.data p.id (s.bytes key n))
    | .atom _ _ op ty x cmp d =>
      let old := BitVec.ofNat 32 (s.num key 4)
      let r := atomNew op ty old x cmp
      (wrote (s.setBytes key (leBytes 4 r.1.toNat))).answer p
        (.reply p.id (if d = 0 then .flagsOnly else .scalar d (atomOld ty old)) r.2)
    | _ => s

/-- The place, address and size of a class-0 request, and whether it writes. -/
def requestOf : Msg → Option (Place × Word × Nat × Bool)
  | .load p a n _ => some (p, a, n, false)
  | .store p a bs => some (p, a, bs.length, true)
  | .copyWr p a bs _ _ => some (p, a, bs.length, true)
  | .read p a n _ _ => some (p, a, n, false)
  | .atom p a _ _ _ _ _ => some (p, a, 4, true)
  | _ => none

/-- A request reaches a tile and is checked and performed there (04 R84, R85, R89). -/
def execPeerRequestArrival (k : Nat) (s : State) : Out :=
  match s.firstPacket k with
  | none => .next s
  | some p => match nodeTile p.dst, requestOf p.body with
    | some t, some (.peer _ lidx fid off, a, n, _) =>
      .next (s.arrive p (fun s =>
        let f := s.findPeer t p.terr lidx fid off n p.issued a
        let s1 := match f with
          | .refused tr => s.bump t (refusalCounter tr)
          | .at' _ => s
        s1.perform p f id))
    | _, _ => .next s

/-! ### Answers -/

/-- The request a message answers, as its source kept it. -/
def State.keptReq (s : State) (id : Nat) : Option Packet := s.kept.find? (fun p => p.id == id)

/-- The vote that waited on a request is no longer in flight on its tile (11 R243). -/
def State.dropVote (s : State) (node req : Nat) : State := match nodeTile node with
  | some t => s.modTile t (fun x => { x with votes := x.votes.filter (fun v => v.2.1 != req) })
  | none => s

/-- A variable-latency response is delivered to the stream whose bundle issued its request (02 R45); it acknowledges the
request (11 R247). -/
def execVariableLatencyResponse (k : Nat) (s : State) : Out :=
  match s.firstPacket k with
  | none => .next s
  | some p => match p.body, p.who with
    | .reply req w fl, some who =>
      .next (s.arrive p (fun s =>
        (((((s.sendAck p).forget req).doneOut who req).dropVote p.dst req).modOwn who (fun c => c.deliver req w fl))))
    | _, _ => .next s

/-- Is the request a copy's beat? -/
def isCopyReq : Option Packet → Bool
  | some q => match q.body with
    | .copyWr _ _ _ _ _ => true
    | .read _ _ _ _ mlw => !mlw
    | _ => false
  | none => false

/-- Is it an MLW's? -/
def isLoadReq : Option Packet → Bool
  | some q => match q.body with
    | .read _ _ _ _ mlw => mlw
    | _ => false
  | none => false

/-- Changes what the matrix queue's loads hold. -/
def Core.modLoads (c : Core) (f : List Seg → Option (Nat × TrapRec) → List Seg × Option (Nat × TrapRec)) : Core :=
  { c with mq := c.mq.map (fun e => match e.kind with
      | .load bank fmt src segs bad => let r := f segs bad
        { e with kind := .load bank fmt src r.1 r.2 }
      | _ => e) }

/-- The piece of a request has its bytes. -/
def fillSegs (gs : List Seg) (req : Nat) (bs : List Byte) : List Seg := gs.map (fun g => if g.req = some req then { g with bytes := some bs } else g)

/-- A piece of a bank load is refused: the lowest refusal is kept (12 R270). -/
def Core.refuseLoad (c : Core) (req : Nat) (t : TrapRec) : Core := c.modLoads (fun segs bad =>
  match segs.find? (fun g => g.req == some req) with
  | some g => (segs.filter (fun g => g.req != some req), if bad.any (fun b => decide (b.1 < g.off)) then bad else some (g.off, t))
  | none => (segs, bad))

/-- A refusal reaches the issuing core and waits for its park (04 R84, R85, R87); that of an MLW's read stays with the command. A chain that lost a hop's write is still
outstanding until its last hop acknowledges it (11 R255, R256). -/
def execRefusalArrival (k : Nat) (s : State) : Out :=
  match s.firstPacket k with
  | none => .next s
  | some p => match p.body, p.who with
    | .refuse req t own, some who =>
      if isCopyReq (s.keptReq req) then .next s
      else if isLoadReq (s.keptReq req) then .next (s.arrive p (fun s => ((s.sendAck p).forget req).modOwn who (fun c => c.refuseLoad req t)))
      else .next (s.arrive p (fun s =>
        ((((s.sendAck p).forget req).doneOut who req).dropVote p.dst req).modOwn who (fun c => c.refuse req t own)))
    | .chainFault cid t, some who =>
      .next (s.arrive p (fun s => (s.sendAck p).modOwn who (fun c => c.refuse cid t false)))
    | _, _ => .next s

/-- The cycles a source waits for an acknowledgement (11 R247). -/
def retransmitAfter : Nat := 16384

/-- No acknowledgement came within 16,384 cycles: the source resends (11 R247). -/
def execRetransmitTimeout (k : Nat) (s : State) : Out :=
  match s.keptReq k with
  | some p => if p.sent + retransmitAfter ≤ s.now then .next (s.resend p.key) else .next s
  | none => .next s

end Sys2Proof.Machine
end

