-- ==== Sys2Proof/Machine/Chain.lean ====
section
/-! DEFINITION. The measurement chain of a session (17 R324 to R326): EV_CODE, EV_ARGS, EV_SHAPE and EV_RESULT. -/

namespace Sys2Proof.Machine

/-- M at OPEN. -/
def chainStart (nonce : List Byte) : BitVec 384 := sha3 (ascii "C9-MC" ++ nonce ++ digestBytes devid)

/-- The session records an event: type and content. -/
def Session.event (x : Session) (ty : Byte) (content : List Byte) : Session :=
  let h := sha3 content
  { x with chain := sha3 (digestBytes x.chain ++ [ty] ++ leBytes 8 (x.evBase + x.log.length) ++ digestBytes h),
           log := x.log ++ [{ ty := ty, hash := h }] }

def State.findSession (s : State) (id : Nat) : Option Session := s.sessions.find? (fun x => x.id == id)

def State.session! (s : State) (id : Nat) : Session := (s.findSession id).getD default

/-- EV_CODE (17 R324): the bytes of the code and of the data image. -/
def codeBytes (b : CodeBody) : List Byte := b.words.flatMap (fun w => leBytes 8 w.toNat)

def State.evCode (s : State) (sess : Nat) (b : CodeBody) : State :=
  s.modSession sess (fun x => x.event 0x01
    (leBytes 4 (codeBytes b).length ++ codeBytes b ++ leBytes 8 b.data.length ++ b.data))

/-- EV_ARGS. -/
def State.evArgs (s : State) (sess : Nat) (bs : List Byte) : State := s.modSession sess (fun x => x.event 0x02 bs)

/-- The content of EV_SHAPE: the members in ascending logical index, with their positions. -/
def State.shapeContent (s : State) (terr : Nat) : List Byte :=
  let ms := s.members terr
  let sorted := (List.range 1024).flatMap (fun i => ms.filter (fun t => (s.tiles[t]).lidx == i))
  leBytes 2 ms.length ++ sorted.flatMap (fun t => leBytes 2 (s.tiles[t]).lidx ++ leBytes 2 t.val)

/-- EV_SHAPE; the receipt reports the hash of the last one (17 R328). -/
def State.evShape (s : State) (terr : Nat) : State :=
  let c := s.shapeContent terr
  s.modSession (s.terr! terr).sess (fun x => { x.event 0x03 c with shape := sha3 c })

/-- EV_RESULT over a buffer, or over the empty string and SEALF when it does not translate (17 R326). -/
def State.evResult (s : State) (sess : Nat) (r : Except TrapRec (List Byte)) : State := match r with
  | .ok bs => s.modSession sess (fun x => x.event 0x04 bs)
  | .error _ => s.modSession sess (fun x => (x.event 0x04 []).count 5)

end Sys2Proof.Machine
end

