-- ==== Sys2Proof/Machine/Control.lean ====
section
/-! DEFINITION. Control, loops, traps and system registers (09 R182 to R199; 02 R36, R37, R47 to R50; 08 R167 to R174). -/

namespace Sys2Proof.Machine

/-- The size in bytes of the current slice's code object. -/
def State.codeSize (s : State) : Nat := CodeBody.size (s.codeOf s.sl)

/-- A meaning of the control registers: an attached follower's are not used, so there it has no effect (02 R34). -/
def State.ctlOnly (s : State) (k : State → Res) : Res := if s.ownsControl then k s else .ok s

/-- Asks for a transfer after the delay bundle. -/
def State.transfer (s : State) (kind : XferKind) (target : Word) : State :=
  s.modCur (fun c => { c with xfer := some { kind := kind, target := target } })

/-! ### Dies, sectors, islands and their clocks (00 R3, R4, 21 R360 to R362) -/

/-- The die of a tile: the columns 0 to 15 and 16 to 31 (00 R4). -/
def dieOf (t : TileId) : Fin 2 := ⟨t.val % 32 / 16, by omega⟩

/-- The sector of a tile, a block of 8 by 6; the HBM stack of the same number serves it (00 R3, R4). -/
def sectorOf (t : TileId) : Fin 8 := ⟨t.val % 32 / 8 + 4 * (t.val / 32 / 6), by omega⟩

/-- The island of a tile: 12 tiles of 4 columns by 3 rows (00 R4). -/
def islandOf (t : TileId) : Fin 32 := ⟨t.val % 32 / 4 + 8 * (t.val / 32 / 3), by omega⟩

/-- Is a territory's context between its pre-emption request and the halt of its last core? -/
def State.haltUnder (s : State) (y : Terr) : Bool := y.halted && s.slices.any (fun x =>
  x.terr == y.id && x.cores.any (fun c => !(s.cores[c]).halted))

/-- Does such a context have a tile in the island (21 R361)? -/
def State.halting (s : State) (i : Fin 32) : Bool := s.terrs.any (fun y => s.haltUnder y &&
  (List.finRange 384).any (fun t => islandOf t == i && (s.tiles[t]).owner == some y.id))

/-- The island's clock in sixteenths of nominal: 8 at the thermal limit, nominal while a context of it is being halted, else what the
caps set (21 R360 to R362). -/
def State.clkOf (s : State) (i : Fin 32) : Nat :=
  let x := s.dev.isl[i]
  if x.hot then 8 else if s.halting i then 16 else x.clk

/-- The time-base cycle at which the current core issues: an attached follower at position k issues k core cycles after the
leader (09 R198). -/
def State.issueCycle (s : State) : Nat :=
  if s.ownsControl then s.now else s.now + s.c.pos * 16 / s.clkOf (islandOf s.tile)

/-- The same of any core. -/
def State.cycleOf (s : State) (core : CoreId) : Nat := ({ s with cur := core }).issueCycle

/-- The cycle of the time base at which a tile's island reaches its n-th core cycle from now. -/
def State.coreCycle (s : State) (t : TileId) (n : Nat) : Nat :=
  let clk := s.clkOf (islandOf t)
  (16 * (s.now * clk / 16 + n) + clk - 1) / clk

/-! ### Branches (09 R184) -/

def execBr (m : Bool) (disp : BitVec 24) (s : State) : Out :=
  cWordNoDelay m [] [] (fun s => s.ctlOnly (fun s => .ok (s.transfer .jump (branchTarget s.pcNow disp)))) s

/-- Taken only when pN XOR the N bit is 1; not taken, it still has its delay bundle. -/
def execBrp (m n : Bool) (p : PReg) (disp : BitVec 20) (s : State) : Out :=
  cWordNoDelay m [.pred p] [] (fun s => s.ctlOnly (fun s =>
    .ok (s.transfer (if s.rp p != n then .jump else .untaken) (branchTarget s.pcNow disp)))) s

def execJmp (m : Bool) (a : Reg) (s : State) : Out :=
  cWordNoDelay m [.scalar a] [] (fun s => s.ctlOnly (fun s => .ok (s.transfer .jump (s.rs a)))) s

/-! ### The return-address store (02 R47) -/

/-- The base of a core's spill area in the reserved area: core c at c × 0x780 (16 R306). -/
def spillBase (c : CoreId) : Nat := c.val % 4 * 0x780

/-- A spill or refill freezes the core for the 2 core cycles after the one its bundle issues in. -/
def State.spillFreeze (s : State) : Freeze := .until' (s.coreCycle s.tile 3)

/-- Pushes a return address; a full store first spills its oldest entry. -/
def State.pushRet (s : State) (ret : Word) : Res :=
  let c := s.c
  if c.ras.length < 16 then .ok (s.modCur (fun c => { c with ras := ret :: c.ras }))
  else if 240 ≤ c.spilled then .trap (cause 0x06 c.rsp 0)
  else
    let s1 := s.setBytes (scratchKey s.tile (reservedBase + c.rsp.toNat)) (leBytes 8 (c.ras.getLastD 0).toNat)
    .ok (s1.modCur (fun c => { c with ras := ret :: c.ras.dropLast, spilled := c.spilled + 1, rsp := c.rsp + 8,
                                      freeze := some s.spillFreeze }))

/-- Pops a return address, refilling from the spill area; underflow faults. -/
def State.popRet (s : State) : Res :=
  let c := s.c
  match c.ras with
  | t :: r => .ok ((s.modCur (fun c => { c with ras := r })).transfer .jump t)
  | [] =>
    if c.spilled = 0 then .trap (cause 0x0F 0 0)
    else
      let at' := c.rsp - 8
      let t := BitVec.ofNat 64 (s.num (scratchKey s.tile (reservedBase + at'.toNat)) 8)
      .ok ((s.modCur (fun c => { c with spilled := c.spilled - 1, rsp := at',
                                        freeze := some s.spillFreeze })).transfer .jump t)

/-- A call: pushes PC + 16 and transfers. -/
def State.callTo (s : State) (target : Word) : Res := match s.pushRet (s.pcNow + 16) with
  | .ok s' => .ok (s'.transfer .jump target)
  | r => r

def execCall (m : Bool) (disp : BitVec 24) (s : State) : Out :=
  cWordNoDelay m [] [] (fun s => s.ctlOnly (fun s => s.callTo (branchTarget s.pcNow disp))) s

def execCallr (m : Bool) (a : Reg) (s : State) : Out :=
  cWordNoDelay m [.scalar a] [] (fun s => s.ctlOnly (fun s => s.callTo (s.rs a))) s

def execRet (m : Bool) (s : State) : Out :=
  cWordNoDelay m [] [] (fun s => s.ctlOnly State.popRet) s

/-! ### Hardware loops (02 R48 to R50, 09 R185, R186) -/

/-- The three results of LOOP and LOOPR. -/
def loopWrites (l : Lvl) : List (RegId × Option Nat) :=
  [(.loopReg (lcId l), some 1), (.loopReg (lbId l), some 1), (.loopReg (leId l), some 1)]

/-- LOOP's effect: lc, lb and le land with latency 1; a count of 0 skips to the bundle after the end bundle. -/
def State.openLoop (s : State) (l : Lvl) (count : BitVec 32) (fin : BitVec 10) : Res :=
  let le := s.pcNow + BitVec.ofNat 64 (8 * fin.toNat)
  if s.codeSize ≤ le.toNat then .trap (cause 0x06 le 0)
  else
    let s1 := ((s.landAt (.loopReg (lcId l) count true) 1 0).landAt
      (.loopReg (lbId l) ((s.pcNow + 8).setWidth 32) true) 1 0).landAt (.loopReg (leId l) (le.setWidth 32) true) 1 0
    .ok (if count = 0 then s1.transfer .skip (le + 8) else s1)

/-- The writes of the control registers, which an attached follower does not make. -/
def State.ctlWrites (s : State) (w : List (RegId × Option Nat)) : List (RegId × Option Nat) := if s.ownsControl then w else []

def execLoop (m : Bool) (lvl : Lvl) (count : BitVec 12) (fin : BitVec 10) (s : State) : Out :=
  cWordNoDelay m [] (s.ctlWrites (loopWrites lvl)) (fun s => s.ctlOnly (fun s =>
    s.openLoop lvl (count.setWidth 32) fin)) s

def execLoopr (m : Bool) (lvl : Lvl) (a : Reg) (fin : BitVec 10) (s : State) : Out :=
  cWordNoDelay m [.scalar a] (s.ctlWrites (loopWrites lvl)) (fun s => s.ctlOnly (fun s =>
    s.openLoop lvl ((s.rs a).setWidth 32) fin)) s

/-- MVTL checks an lb or le value at issue (09 R186). -/
def execMvtl (m : Bool) (lp : LReg) (a : Reg) (s : State) : Out :=
  cWord m [.scalar a] (s.ctlWrites [(.loopReg lp, some 1)]) (fun s => s.ctlOnly (fun s =>
    let x := s.rs a
    if 3 ≤ lp.val ∧ x.toNat % 8 ≠ 0 then .trap (cause 0x05 x 8)
    else if 3 ≤ lp.val ∧ s.codeSize ≤ x.toNat then .trap (cause 0x06 x 0)
    else .ok (s.landAt (.loopReg lp (x.setWidth 32) false) 1 0))) s

def execMvfl (m : Bool) (d : Reg) (lp : LReg) (s : State) : Out :=
  cResult m [] (wS d (some 1)) (fun s => .scalar d ((s.ctl.lreg[lp]).setWidth 64)) 1 s

/-! ### Traps and returns (09 R187, R188) -/

def State.raiseAfter (s : State) (code : BitVec 8) (imm : BitVec 18) : State :=
  s.modCur (fun c => { c with after := some (cause code (imm.setWidth 64) 0) })

def execTrap (m : Bool) (imm : BitVec 18) (s : State) : Out := cWord m [] [] (fun s => .ok (s.raiseAfter 0x15 imm)) s

def execBkpt (m : Bool) (imm : BitVec 18) (s : State) : Out := cWord m [] [] (fun s => .ok (s.raiseAfter 0x14 imm)) s

/-- Is the code an upcall's (09 R188)? -/
def isUpcall (code : BitVec 8) : Bool := code == 0x20 || code == 0x21 || code == 0x31

/-- The check of RETT (false) and UPRET (true): INH set, and the kind of return that the cause asks for; a core whose code is 0
accepts either. -/
def State.returnRes (s : State) (up : Bool) : Res :=
  let c := s.c
  if !c.inh then .trap (cause 0x01 s.pcNow 0)
  else if c.causeCode != 0 && isUpcall c.causeCode != up then .trap (cause 0x01 s.pcNow 0)
  else .ok (s.transfer .rett c.tpc)

def execRett (m : Bool) (s : State) : Out := cWordNoDelay m [] [] (fun s => s.returnRes false) s

def execUpret (m : Bool) (s : State) : Out := cWordNoDelay m [] [] (fun s => s.returnRes true) s

/-! ### Ending and yielding (09 R189, R190, 02 R37) -/

/-- The slice counts as evacuated when it leaves a ceding tile (03 R61, R62). -/
def State.evacuate (s : State) : State :=
  if (s.tiles[s.tile]).ceding.isSome then
    match s.c.sl with
    | some u => s.modSlice u (fun x => { x with evacuated := true })
    | none => s
  else s

/-- Is a follower of the current slice detached? -/
def State.anyDetached (s : State) : Bool := s.sl.cores.any (fun c => (s.cores[c]).det)

/-- EXIT: only the leader executes it; an attached follower's copy does nothing of its own. -/
def execExit (m : Bool) (s : State) : Out :=
  cWordNoDelay m [] [] (fun s =>
    if s.c.det then .trap (cause 0x01 s.pcNow 2)
    else s.ctlOnly (fun s => .ok (s.evacuate.transfer .exit 0))) s

/-- YIELD; from the cycle in which BUDGET reaches zero it acts as EXIT (02 R32). -/
def execYld (m : Bool) (s : State) : Out :=
  cWordNoDelay m [] [] (fun s =>
    if s.c.det then .trap (cause 0x01 s.pcNow 2)
    else s.ctlOnly (fun s =>
      if s.sl.left = 0 then .ok (s.evacuate.transfer .exit 0)
      else if s.anyDetached then .trap (cause 0x01 s.pcNow 2)
      else .ok (s.evacuate.transfer .yld 0))) s

/-! ### Gangs (02 R36, 09 R193) -/

/-- An attached follower becomes detached at the target, with its own empty control state; others do nothing. The follower at position
k has issued the DETACH k core cycles after the leader, and goes on from there (02 R34, 09 R198). -/
def execDetach (m : Bool) (disp : BitVec 24) (s : State) : Out :=
  cWordNoDelay m [] [] (fun s =>
    if s.ownsControl then .ok s
    else
      let t := branchTarget s.pcNow disp
      .ok (s.modCur (fun c => { c with
        det := true, pc := t, lreg := Vector.replicate 9 0, leff := Vector.replicate 3 { lb := 0, le := 0, leQ := [] },
        ras := [], spilled := 0, rsp := BitVec.ofNat 64 (spillBase s.cur), delay := none, rendez := none,
        issuedAt := some s.issueCycle }))) s

/-- A detached follower stops and waits for the leader at the rendezvous; others do nothing. -/
def execAttach (m : Bool) (disp : BitVec 24) (s : State) : Out :=
  cWordNoDelay m [] [] (fun s =>
    if s.c.det then
      let t := branchTarget s.pcNow disp
      if s.codeSize ≤ t.toNat then .trap (cause 0x06 t 0)
      else .ok (s.modCur (fun c => { c with rendez := some t }))
    else .ok s) s

/-! ### System registers (09 R194 to R196) -/

/-- Anchored: the handler tile, a firmware anchor or a TANCHOR anchor (03 R73). -/
def State.anchored (s : State) (t : TileId) : Bool :=
  let x := s.tiles[t]
  x.anchT || x.anchF || (match x.owner with
    | some a => (s.terr! a).handler == t
    | none => false)

def bit64 (b : Bool) (i : Nat) : Nat := if b then 2 ^ i else 0

/-- TILE (03 R69). -/
def State.tileReg (s : State) (t : TileId) : Word :=
  let x := s.tiles[t]
  BitVec.ofNat 64 (x.owner.getD 0 * 2 ^ 32 + bit64 x.ceding.isSome 31 + bit64 (s.anchored t) 30 +
    t.val / 32 * 2 ^ 24 + t.val % 32 * 2 ^ 16 + x.lidx)

/-- The highest logical index in use (03 R70). -/
def State.maxIndex (s : State) (terr : Nat) : Nat :=
  (s.members terr).foldl (fun a t => max a (s.tiles[t]).lidx) 0

/-- SHAPEV (03 R70). -/
def State.shapevReg (s : State) (terr : Nat) : Word :=
  let y := s.terr! terr
  BitVec.ofNat 64 (bit64 y.frz 42 + s.maxIndex terr * 2 ^ 32 + y.ver.toNat)

/-- CORE (02 R28). -/
def State.coreReg (s : State) : Word :=
  let c := s.c
  BitVec.ofNat 64 (bit64 c.det 6 + c.pos * 16 + c.gsize * 4 + s.cur.val % 4)

/-- What MFS returns, read at the issue cycle: BUDGET falls by the cycles an attached follower issues later. An attached follower's TRAPV, TCAUSE, TPC, TINFO and FPFLAGS are its own; RSP is the
leader's, whose return-address store the gang uses. -/
def State.readSys (s : State) (r : SysReg) : Word := match r with
  | .core => s.coreReg
  | .tile => s.tileReg s.tile
  | .shapev => s.shapevReg s.sl.terr
  | .sliceid => BitVec.ofNat 64 s.sl.sid
  | .deadline => s.sl.deadline
  | .budget => BitVec.ofNat 64 (s.sl.left - (s.issueCycle - s.now))
  | .frame => BitVec.ofNat 64 (s.sl.fid.getD 255)
  | .fsize => BitVec.ofNat 64 s.sl.fsize
  | .trapv => s.c.trapv
  | .tcause => s.c.tcause
  | .tpc => s.c.tpc &&& 0x1FFF8#64
  | .tinfo0 => s.c.tinfo0
  | .tinfo1 => s.c.tinfo1
  | .fpflags => s.c.fpflags.setWidth 64
  | .rsp => s.ctl.rsp
  | .ringbase => s.c.ringbase
  | .discsel => s.c.discsel.setWidth 64

def execMfs (m : Bool) (d : Reg) (r : SysReg) (s : State) : Out :=
  cResult m [] (wS d (some 1)) (fun s => .scalar d (s.readSys r)) 1 s

/-- The registers a program may write (09 R195). -/
def programWrites : SysReg → Bool
  | .trapv => true
  | .fpflags => true
  | .discsel => true
  | _ => false

def execMts (m : Bool) (r : SysReg) (a : Reg) (s : State) : Out :=
  cWord m [.scalar a] [(.sys r, some 1)] (fun s =>
    if programWrites r then .ok (s.landAt (.sys r (s.rs a)) 1 0) else .trap s.privileged) s

/-! ### Discovery and time (08 R170 to R174, 09 R197, R198) -/

/-- The fence map's bit of a tile: 1 from the cycle after the one in which FENCE fenced it (08 R174, 21 R358). -/
def Tile.shownFenced (x : Tile) (now : Nat) : Bool := x.fenced && x.fencedAt.all (fun c => decide (c < now))

/-- A word of the fence map: bit i of word 8 + j is tile position 64 j + i (08 R174). -/
def State.fenceWord (s : State) (j : Nat) : Word :=
  BitVec.ofNat 64 ((List.range 64).foldl (fun acc i =>
    acc + (if h : 64 * j + i < 384 then bit64 ((s.tiles[64 * j + i]'h).shownFenced s.now) i else 0)) 0)

/-- Word n of the discovery page `page` (08 R170 to R174). -/
def State.discWord (s : State) (page : BitVec 8) (n : Nat) : Word :=
  if page ≠ 0 then 0
  else match n with
    | 0 => (0x5A17#64 <<< 48) ||| (0x00C9#64 <<< 32) ||| (Config.step.setWidth 64 <<< 16)
    | 1 => 0x0100#64
    | 2 => 0xF#64
    | 3 => BitVec.ofNat 64 (32 * 2 ^ 40 + 12 * 2 ^ 32 + usableTiles * 2 ^ 16 + 4 * 2 ^ 8)
    | 8 => s.fenceWord 0
    | 9 => s.fenceWord 1
    | 10 => s.fenceWord 2
    | 11 => s.fenceWord 3
    | 12 => s.fenceWord 4
    | 13 => s.fenceWord 5
    | _ => 0

def execDisc (m : Bool) (d : Reg) (n : Fin 32) (s : State) : Out :=
  cResult m [] (wS d (some 1)) (fun s => .scalar d (s.discWord s.c.discsel n.val)) 1 s

def execCycle (m : Bool) (d : Reg) (s : State) : Out :=
  cResult m [] (wS d (some 1)) (fun s => .scalar d (BitVec.ofNat 64 s.issueCycle)) 1 s

/-! ### SEAL and SPAWN (09 R191, R192, R199) -/

/-- The buffers a slice has named. -/
def State.sealCount (s : State) : Nat := (s.sl.cores.map (fun c => (s.cores[c]).seals.length)).sum

/-- In an attached gang only the leader's SEAL names a buffer. -/
def execSeal (m : Bool) (a b : Reg) (s : State) : Out :=
  cWord m [.scalar a, .scalar b] [] (fun s => s.ctlOnly (fun s =>
    let x := s.rs a
    let n := (s.rs b).toNat
    match parseAddr x with
    | .hbm _ =>
      if n = 0 ∨ 4294967296 ≤ n ∨ 16 ≤ s.sealCount then .trap (cause 0x06 x 0)
      else .ok (s.modCur (fun c => { c with seals := c.seals ++ [(x, n)] }))
    | _ => .trap (cause 0x06 x 0))) s

/-- The SPAWN the leader of this gang has just issued, if its park stands. -/
def spawnReq (c : Core) : Option Nat := match c.park with
  | some p => match p.why with
    | .spawn _ _ req => some req
    | _ => none
  | none => none

/-- SPAWN first parks as FENCE.y; SPAWN_PLACEMENT then reads the descriptor. A follower uses the leader's request. -/
def execSpawn (m : Bool) (d a : Reg) (s : State) : Out :=
  cWord m [.scalar a] (wS d none) (fun s =>
    if s.ownsControl then
      match s.checkMem .near (s.rs a) 32 32 false with
      | some t => .trap t
      | none =>
        let req := s.dev.nextReq
        let s1 := { s with dev := { s.dev with nextReq := req + 1 } }
        .ok (((s1.pendOn req (dstS d)).parkOn (.spawn d (s.rs a) req)).noReplay)
    else match spawnReq s.ctl with
      | some req => .ok ((s.pendOn req (dstS d)).parkOn (.fence .y))
      | none => .ok (s.parkOn (.fence .y))) s

/-! ### Words that are not instructions (08 R167, R168) -/

/-- A word that is no instruction: TINFO0 is the bundle, TINFO1 the word. -/
def execIllegalInstruction (w1 : Bool) (s : State) : Out :=
  finish s (.trap (cause 0x01 s.pcNow (if w1 then 1 else 0)))

/-- A register that an emulated instruction writes, by its id (02 R43). -/
def emulatedWr (e : Nat × BitVec 1024) : Wr :=
  if h : e.1 < 32 then .scalar ⟨e.1, h⟩ (e.2.setWidth 64)
  else if h : 256 ≤ e.1 ∧ e.1 < 288 then .vector ⟨e.1 - 256, by omega⟩ e.2
  else if h : 512 ≤ e.1 ∧ e.1 < 520 then .pred ⟨e.1 - 512, by omega⟩ (e.2.getLsbD 0)
  else if h : 1024 ≤ e.1 ∧ e.1 < 1033 then .loopReg ⟨e.1 - 1024, by omega⟩ (e.2.setWidth 32) false
  else .flagsOnly

/-- A system register that an emulated instruction writes. -/
def emulatedSysWr (e : Nat × BitVec 64) : Wr := match e.1 with
  | 0 => .sys .trapv e.2
  | 1 => .sys .fpflags e.2
  | 2 => .sys .discsel e.2
  | _ => .flagsOnly

/-- A byte that an emulated instruction stores: in the slice's frame, in the frame of a member tile, or in HBM; one that the slice may not
write is not written. -/
def State.emulStore (s : State) (a : Word) (x : Byte) : State :=
  let sl := s.sl
  match parseAddr a with
  | .local' off => if off < sl.fsize then s.setBytes (s.frameKey off) [x] else s
  | .peer lidx fid off => match s.memberAt sl.terr lidx with
    | some t => match s.findPeer t sl.terr lidx (if fid = 255 then sl.fid.getD 255 else fid) off 1 (s.shapeVer sl.terr) a with
      | .at' k => s.setBytes k [x]
      | .refused _ => s
    | none => s
  | .hbm va => match s.findHbm sl.terr va true with
    | .at' k => (s.setBytes k [x]).markDirty sl.terr va
    | .refused _ => s
  | _ => s

/-- The effects of an instruction that the emulation handler emulates: results at latency 1, stores, and a transfer, which replaces the
next bundle. In a delay bundle, where no transfer may stand (08 R178), and on an attached follower, it transfers to nowhere. -/
def State.emulate (s : State) (n : Nat) (ws : List (Nat × BitVec 1024)) : State :=
  let s1 := (ws.map emulatedWr ++ (Config.emulatedSys n).map emulatedSysWr).foldl (fun s w => s.landAt w 1 0) s
  let s2 := (Config.emulatedStores n).foldl (fun s e => s.emulStore e.1 e.2) s1
  match Config.emulatedTarget n with
  | some t => if s.ctl.delay.isSome || !s.ownsControl then s2 else s2.transfer .skip t
  | none => s2

/-- A word of an unassigned extension major traps to firmware, which takes one of two outcomes (08 R168, 16 R308): it emulates the bundle,
whose results land at latency 1, or it declines, and the program sees illegal instruction. Which, and the effects, are free values
(log 37). -/
def execEmulation (w1 : Bool) (s : State) : Out :=
  let s1 := { s with stepNo := s.stepNo + 1 }
  match Config.emulated s.stepNo with
  | some ws => finish s (.ok (s1.emulate s.stepNo ws))
  | none => finish s1 (.trap (cause 0x01 s.pcNow (if w1 then 1 else 0)))

end Sys2Proof.Machine
end

