-- ==== Sys2Proof/Machine/Messages.lean ====
section
/-! DEFINITION. Tag-matched messages and forwarding chains (11 R248 to R256): MSEND, MRECV, MPROBE, MRES, MCAST, and the steps in
which a message is matched and a chain is reserved, answered, forwarded and freed. -/

namespace Sys2Proof.Machine

/-! ### Headers, specifications and records (11 R248, R250) -/

/-- A length of 8 to 256 bytes, a multiple of 8. -/
def goodLen (n : Nat) : Bool := decide (8 ≤ n) && decide (n ≤ 256) && decide (n % 8 = 0)

/-- Does a header follow R248? -/
def headerOk (x : Word) : Bool :=
  wbits x 63 57 == 0 && goodLen (wbits x 56 48) && wbits x 31 24 == 0 && wbits x 15 10 == 0

/-- Does a match specification follow R250, its CAP apart? -/
def specOk (x : Word) : Bool := wbits x 63 57 == 0 && wbits x 31 12 == 0

/-- The source and the tag a specification asks for; none matches every one. -/
def specSrc (x : Word) : Option Nat := if wbits x 10 10 = 1 then none else some (wbits x 9 0)

def specTag (x : Word) : Option (BitVec 16) :=
  if wbits x 11 11 = 1 then none else some (BitVec.ofNat 16 (wbits x 47 32))

/-- A receive record. -/
def msgRecord (len : Nat) (tag : BitVec 16) (fid src : Nat) : Word :=
  BitVec.ofNat 64 (len * 2 ^ 48 + tag.toNat * 2 ^ 32 + fid % 256 * 2 ^ 16 + src % 1024)

/-- Does a message from `src` with `tag` match? -/
def matchMsg (wsrc : Option Nat) (wtag : Option (BitVec 16)) (src : Nat) (tag : BitVec 16) : Bool :=
  (wsrc.all (· == src)) && (wtag.all (· == tag))

/-- The oldest message of a frame in the overflow queue that matches and has at most `cap` bytes. -/
def Tile.queued (t : Tile) (fid : Nat) (wsrc : Option Nat) (wtag : Option (BitVec 16)) (cap : Nat) : Option QMsg :=
  t.overflow.find? (fun q => q.fid == fid && matchMsg wsrc wtag q.src q.tag && decide (q.bytes.length ≤ cap))

/-! ### MSEND, MRECV, MPROBE -/

/-- Sends a message to a logical index, which is resolved now; a hole is a stale peer (03 R71). -/
def State.sendMsg (s : State) (lidx fid : Nat) (tag : BitVec 16) (bs : List Byte) : State :=
  let id := s.dev.nextReq
  let terr := s.sl.terr
  match s.memberAt terr lidx with
  | some t => (s.send s.tile t.val 1 (some s.me) terr (.tagged t lidx fid (s.tiles[s.tile]).lidx tag bs)).addOut s.me id
  | none =>
    ({ s.bump s.tile 2 with dev := { s.dev with nextReq := id + 1 } }).refuseNow s.me id (stalePeer lidx (s.shapeVer terr)) false

/-- MSEND reads the whole payload at issue (11 R249). -/
def execMsend (m : Bool) (a b : Reg) (s : State) : Out :=
  cWord m [.scalar a, .scalar b] [] (fun s =>
    let h := s.rs b
    let ad := s.rs a
    let n := wbits h 56 48
    if !headerOk h then .trap (cause 0x06 h 0)
    else match s.checkMem .near ad n 8 false with
      | some t => .trap t
      | none =>
        let fid := if wbits h 23 16 = 255 then s.sl.fid.getD 255 else wbits h 23 16
        .ok ((s.sendMsg (wbits h 9 0) fid (BitVec.ofNat 16 (wbits h 47 32)) (s.frameBytes ad.toNat n)).noReplay)) s

/-- A receive takes a message: its payload is to be written to the buffer, and then its record delivered. -/
def State.startFill (s : State) (t : TileId) (f : Fill) : State := s.modTile t (fun y => { y with fills := y.fills ++ [f] })

/-- Those of some words that are read or written in this step: one of them, and whichever others (free choices: every mix is allowed, 11 R250,
13 R283, 15 R291). -/
def pickWords (stepNo : Nat) : List Nat → List Nat
  | [] => []
  | i :: r => let l := i :: r
    let one := l.getD (Config.choice stepNo % l.length) i
    l.filter (fun k => k == one || Config.picks stepNo k)

/-- Writes words of a fill to the buffer at key `k`. -/
def State.writeFill (s : State) (k : Nat) (f : Fill) (is : List Nat) : State :=
  is.foldl (fun s i => s.setBytes (k + 8 * i) ((f.bytes.drop (8 * i)).take 8)) s

/-- A fill goes on; with its last word the record is delivered. One whose slice is gone is dropped. -/
def State.fillStep (s : State) (t : TileId) (id : Nat) : State := match (s.tiles[t]).fills.find? (fun f => f.id == id) with
  | none => s
  | some f =>
    let drop (s : State) : State := s.modTile t (fun y => { y with fills := y.fills.filter (fun g => g.id != id) })
    match s.findSlice f.who.1 with
    | none => drop s
    | some x =>
      let is := pickWords s.stepNo f.todo
      let s1 := { s with stepNo := s.stepNo + 1 }.writeFill (scratchKey t (x.fbase + f.off)) f is
      let rest := f.todo.filter (fun i => !is.contains i)
      if rest.isEmpty then (drop s1).modOwn f.who (fun c => c.deliver id f.wr 0)
      else s1.modTile t (fun y => { y with fills := y.fills.map (fun g => if g.id = id then { g with todo := rest } else g) })

/-- The fill of a message that a receive takes. -/
def Posted.fill (q : Posted) (bs : List Byte) (record : Word) : Fill :=
  { who := q.who, id := q.id, off := q.off, bytes := bs, todo := List.range (bs.length / 8),
    wr := if q.d = 0 then .flagsOnly else .scalar q.d record }

/-- The receive posts, or takes a message that waits; with 256 posted it answers 2^63 + 1 at once (11 R250). -/
def State.postRecv (s : State) (d : Reg) (off cap : Nat) (sp : Word) : State :=
  let fid := s.sl.fid.getD 255
  let t := s.tiles[s.tile]
  let id := s.dev.nextReq
  let q : Posted := { id := id, who := s.me, fid := fid, src := specSrc sp, tag := specTag sp, cap := cap, off := off, d := d }
  let s1 := ({ s with dev := { s.dev with nextReq := id + 1 } }).pendOn id (dstS d)
  match t.queued fid (specSrc sp) (specTag sp) cap with
  | some m =>
    (s1.modTile s.tile (fun x => { x with overflow := x.overflow.erase m })).startFill s.tile
      (q.fill m.bytes (msgRecord m.bytes.length m.tag m.fid m.src))
  | none =>
    if t.posted.length < 256 then s1.modTile s.tile (fun x => { x with posted := x.posted ++ [q] })
    else s.pendNow (dstS d) (.scalar d 0x8000000000000001#64)

def execMrecv (m : Bool) (d a b : Reg) (s : State) : Out :=
  cWord m [.scalar a, .scalar b] (wS d none) (fun s =>
    let sp := s.rs b
    let ad := s.rs a
    let cap := wbits sp 56 48
    if !(specOk sp && goodLen cap) then .trap (cause 0x06 sp 0)
    else match s.checkMem .near ad cap 8 true with
      | some t => .trap t
      | none => .ok (s.postRecv d ad.toNat cap sp)) s

/-- MPROBE returns the record of the oldest message that matches, of any length, or 0 (11 R252). -/
def execMprobe (m : Bool) (d b : Reg) (s : State) : Out :=
  cWord m [.scalar b] (wS d none) (fun s =>
    let sp := s.rs b
    if !(specOk sp && wbits sp 56 48 == 0) then .trap (cause 0x06 sp 0)
    else
      let r := match (s.tiles[s.tile]).queued (s.sl.fid.getD 256) (specSrc sp) (specTag sp) 256 with
        | some q => msgRecord q.bytes.length q.tag q.fid q.src
        | none => 0
      .ok (s.pendNow (dstS d) (.scalar d r))) s

/-! ### A message arrives (11 R251) -/

/-- An asynchronous cause for the leader of a slice. -/
def State.causeLeader (s : State) (uid : Nat) (t : TrapRec) : State :=
  s.modOwn (uid, 0) (fun c => { c with causes := c.causes ++ [t] })

/-- Overflow queue full (02 R43). -/
def overflowFull (src : Nat) (tag : BitVec 16) : TrapRec :=
  { code := 0x0D, i0 := BitVec.ofNat 64 src, i1 := tag.setWidth 64, async := true }

/-- The key of a byte of a slice's frame. -/
def Slice.key (x : Slice) (t : TileId) (off : Nat) : Nat := scratchKey t (x.fbase + off)

/-- A message for a live frame: the oldest posted receive that matches takes it; otherwise it is queued, or dropped when the
queue is full. -/
def State.matchArrival (s : State) (t : TileId) (x : Slice) (src : Nat) (tag : BitVec 16) (bs : List Byte) : State :=
  let fid := x.fid.getD 255
  match (s.tiles[t]).posted.find? (fun q => q.fid == fid && matchMsg q.src q.tag src tag && decide (bs.length ≤ q.cap)) with
  | some q =>
    (s.modTile t (fun y => { y with posted := y.posted.filter (fun r => r.id != q.id) })).startFill t (q.fill bs (msgRecord bs.length tag fid src))
  | none =>
    if (s.tiles[t]).overflow.length < 64 then
      s.modTile t (fun y => { y with overflow := y.overflow ++ [{ fid := fid, src := src, tag := tag, bytes := bs }] })
    else (s.bump t 7).causeLeader x.uid (overflowFull src tag)

/-- A message reaches a tile. For a stale frame the spec names 'the address', which a message does not have: a free value. -/
def execMessageArrival (k : Nat) (s : State) : Out :=
  match s.firstPacket k with
  | none => .next s
  | some p => match p.body with
    | .tagged t lidx fid src tag bs => .next (s.arrive p (fun s =>
        if !s.isHere t p.terr lidx p.ver then (s.bump t 2).answer p (.refuse p.id (stalePeer lidx p.ver) false)
        else match s.liveFrame t p.terr fid with
          | none =>
            ({ s.bump t 3 with stepNo := s.stepNo + 1 }).answer p (.refuse p.id (cause 0x09 (Config.freeWord s.stepNo) 0) false)
          | some x => (s.matchArrival t x src tag bs).sendAck p))
    | _ => .next s

/-! ### Forwarding chains (11 R253 to R256) -/

/-- Schedule, for an instruction that needs a chain open or closed (11 R254, R255). -/
def chainState : TrapRec := cause 0x0B 0xFF 0xFFFFFFFF#64

/-- A chain descriptor as R253 lays it out. -/
structure ChainDesc where
  hops : List Nat
  len : Nat
  fid : Nat
  off : Nat

/-- The descriptor, unless it breaks R253. -/
def parseChain (bs : List Byte) : Option ChainDesc :=
  let n := leNat (bs.take 2)
  let status := leNat ((bs.drop 2).take 2)
  let len := leNat ((bs.drop 4).take 2)
  let fid := leNat ((bs.drop 6).take 1)
  let zeros := leNat ((bs.drop 7).take 1)
  let off := leNat ((bs.drop 8).take 4)
  let hops := (List.range 10).map (fun i => leNat ((bs.drop (12 + 2 * i)).take 2))
  if 1 ≤ n ∧ n ≤ 10 ∧ status = 0 ∧ len % 128 = 0 ∧ 128 ≤ len ∧ len ≤ 2048 ∧ zeros = 0 ∧ off % 128 = 0 ∧
      (hops.drop n).all (· == 0) = true then
    some { hops := hops.take n, len := len, fid := fid, off := off }
  else none

/-- Resolves every hop; a hole answers its index. -/
def State.resolveHops (s : State) (terr : Nat) : List Nat → Except Nat (List (TileId × Nat))
  | [] => .ok []
  | i :: r => match s.memberAt terr i with
    | none => .error i
    | some t => match s.resolveHops terr r with
      | .error j => .error j
      | .ok l => .ok ((t, i) :: l)

/-- The tile of a hop. -/
def Chain.hop (c : Chain) (i : Nat) : Option (TileId × Nat) := c.hops[i]?

/-- MRES asks for a buffer at every hop and parks for the answer. Of a bad descriptor and a chain already open, the address fault comes first
(DESIGN CHOICE, log 58: 11 R254 gives no order). -/
def execMres (m : Bool) (a : Reg) (s : State) : Out :=
  cWord m [.scalar a] [] (fun s =>
    let ad := s.rs a
    match s.checkMem .near ad 32 32 false with
    | some t => .trap t
    | none => match parseChain (s.frameBytes ad.toNat 32) with
      | none => .trap (cause 0x06 ad 0)
      | some de =>
        if s.c.chain.isSome || s.c.ask.isSome then .trap chainState
        else
          let terr := s.sl.terr
          let cid := s.dev.nextReq
          let s1 := { s with dev := { s.dev with nextReq := cid + 1 } }
          match s.resolveHops terr de.hops with
          | .error i =>
            .ok (((s1.bump s.tile 2).parkOn .chain).refuseNow s.me cid (stalePeer i (s.shapeVer terr)) false)
          | .ok hops =>
            let c : Chain := { cid := cid, hops := hops, len := de.len, off := de.off, ver := s.shapeVer terr,
                               fid := if de.fid = 255 then s.sl.fid.getD 255 else de.fid }
            let s2 := (s1.modCur (fun k => { k with ask := some { chain := c, statusOff := some (ad.toNat + 2), refused := false } })).addOut s.me cid
            .ok (match c.hop 0 with
              | some (t, _) => (s2.send s.tile t.val 2 (some s.me) terr (.reserve c 0)).parkOn .chain
              | none => s2)) s

/-- Frees the buffers taken for a chain at some hops, by control messages of class 5. -/
def State.freeHops (s : State) (src : Nat) (terr : Nat) (cid : Nat) (hops : List (TileId × Nat)) : State :=
  hops.foldl (fun s h => s.send src h.1.val 5 none terr (.chainFree cid)) s

/-- The node where a requester's core stands. -/
def State.nodeOf (s : State) (w : Who) : Nat := match s.findSlice w.1 with
  | some x => (x.tile.map (·.val)).getD 0
  | none => 0

/-- A reservation reaches a hop: it takes a free chain buffer and is forwarded, or answered (11 R254). -/
def execChainReservation (k : Nat) (s : State) : Out :=
  match s.firstPacket k with
  | none => .next s
  | some p => match p.body, p.who with
    | .reserve c i, some w => match c.hop i with
      | none => .next s
      | some (t, lidx) => .next (s.arrive p (fun s =>
          let s1 := s.sendAck p
          let back (s : State) (ok : Bool) (hole : Option TrapRec) : State :=
            s.send t.val (s.nodeOf w) 3 (some w) p.terr (.chainAns c.cid ok hole)
          if !s.isHere t p.terr lidx c.ver then
            back ((s1.bump t 2).freeHops t.val p.terr c.cid (c.hops.take i)) false (some (stalePeer lidx c.ver))
          else if 8 ≤ (s.tiles[t]).chainBufs.length then
            back (s1.freeHops t.val p.terr c.cid (c.hops.take i)) false none
          else
            let s2 := s1.modTile t (fun x => { x with chainBufs := x.chainBufs ++ [c.cid] })
            match c.hop (i + 1) with
            | some (u, _) => s2.send t.val u.val 2 (some w) p.terr (.reserve c (i + 1))
            | none => back s2 true none))
    | _, _ => .next s

/-- Asks again for the buffers of a chain, under a new number (16 R312). -/
def State.reserveAgain (s : State) (w : Who) (c : Chain) : State :=
  let cid := s.dev.nextReq
  let d : Chain := { c with cid := cid, ver := s.shapeVer (s.slice! w.1).terr }
  let s1 := ({ s with dev := { s.dev with nextReq := cid + 1 } }).modOwn w (fun k =>
    { k with chain := none, ask := some { chain := d, statusOff := none, refused := false }, outst := k.outst ++ [cid] })
  match d.hop 0 with
  | some (t, _) => s1.send (s1.nodeOf w) t.val 2 (some w) (s.slice! w.1).terr (.reserve d 0)
  | none => s1

/-- A reservation that was refused when it was made again is made once more, by the core (11 R246: not by the answer's arrival). -/
def State.askAgain (s : State) (core : CoreId) : State := match (s.cores[core]).ask with
  | some q => s.reserveAgain ((s.cores[core]).sl.getD 0, (s.cores[core]).pos) q.chain
  | none => s

/-- The answer reaches the core: STATUS is written as a local store, checked under R98; a grant opens the chain. A reservation made
again after a pre-emption leaves STATUS unchanged, and asks until it has its buffers (DEDUCED, log 18). -/
def State.chainDone (s : State) (w : Who) (x : Slice) (t : TileId) (q : ChainAsk) (ok : Bool) : State :=
  let s1 := s.modOwn w (fun c => { c with ask := none, chain := if ok then some q.chain else c.chain })
  match q.statusOff with
  | none => if ok then s1 else s.modOwn w (fun c => { c with ask := some { q with refused := true } })
  | some off => match (s.tiles[t]).lockHit (x.fbase + off) 2 true with
    | some e => s1.refuseNow w q.chain.cid (cause 0x08 (BitVec.ofNat 64 off) (BitVec.ofNat 64 e)) false
    | none => s1.setBytes (x.key t off) (leBytes 2 (if ok then 1 else 2))

def execChainAnswer (k : Nat) (s : State) : Out :=
  match s.firstPacket k with
  | none => .next s
  | some p => match p.body, p.who, nodeTile p.dst with
    | .chainAns cid ok hole, some w, some t => .next (s.arrive p (fun s =>
        let s1 := s.sendAck p
        match s.own w, s.findSlice w.1 with
        | some c, some x => match c.ask with
          | some q =>
            if q.chain.cid ≠ cid then s1
            else
              let s2 := match hole with
                | some tr => s1.modOwn w (fun c => { c.refuse cid tr false with ask := none })
                | none => s1.chainDone w x t q ok
              s2.doneOut w cid
          | none => s1
        | _, _ => s1))
    | _, _, _ => .next s

/-- MCAST sends the payload along the open chain, which it closes; its source range is registered as R97 says. -/
def execMcast (m : Bool) (a : Reg) (s : State) : Out :=
  cWord m [.scalar a] [] (fun s =>
    match s.c.chain with
    | none => .trap chainState
    | some c =>
      let ad := s.rs a
      match s.checkMem .near ad c.len 128 false with
      | some t => .trap t
      | none =>
        if (s.tiles[s.tile]).freeLocks < 1 then .freeze (.locks 1)
        else
          let s1 := s.modCur (fun k => { k with chain := none })
          let s2 := s1.modTile s.tile (fun x => x.register [(s.sl.fbase + ad.toNat, c.len, false)] c.cid)
          let s3 := (s2.addOut s.me c.cid).noReplay
          .ok (match c.hop 0 with
            | some (t, _) => s3.send s.tile t.val 2 (some s.me) s.sl.terr
                (.payload c 0 (s.frameBytes ad.toNat c.len) (s.shapeVer s.sl.terr))
            | none => s3)) s

/-- A hop's write: the payload, then 1 added to the word after it. Both are made in one step: no agent sees a part of the payload, or the payload
without the count (DESIGN CHOICE, log 16: 11 R255 orders the count after the payload and leaves the rest open). -/
def State.chainWrite (s : State) (key : Nat) (bs : List Byte) : State :=
  let s1 := s.setBytes key bs
  s1.setBytes (key + bs.length) (leBytes 4 ((s1.num (key + bs.length) 4 + 1) % 4294967296))

/-- A payload reaches a hop (11 R255, R256). A tile that has been cleared since it was reserved is no hop of the chain any more, though its
territory has it again under its index (03 R61). -/
def State.payloadAt (s : State) (p : Packet) (w : Who) (c : Chain) (i : Nat) (t : TileId) (lidx : Nat) (bs : List Byte)
    (ver : BitVec 32) : State :=
  let s0 := s.modTile t (fun x => { x with chainBufs := x.chainBufs.erase c.cid })
  let back (s : State) (cls : Nat) (b : Msg) : State := s.send t.val (s.nodeOf w) cls (some w) p.terr b
  if !(s.isHere t p.terr lidx ver && (s.tiles[t]).chainBufs.contains c.cid) then
    back ((s0.bump t 2).freeHops t.val p.terr c.cid (c.hops.drop (i + 1))) 3 (.refuse c.cid (stalePeer lidx ver) false)
  else
    let adr := BitVec.ofNat 64 (lidx * 4194304 + c.off)
    let s1 := match s.liveFrame t p.terr c.fid with
      | none => back (s0.bump t 3) 3 (.chainFault c.cid (cause 0x09 adr 0))
      | some x =>
        if x.fsize < c.off + bs.length + 4 then back (s0.bump t 3) 3 (.chainFault c.cid (cause 0x06 adr 0))
        else s0.chainWrite (x.key t c.off) bs
    match c.hop (i + 1) with
    | some (u, _) => s1.send t.val u.val 2 (some w) p.terr (.payload c (i + 1) bs ver)
    | none => back s1 4 (.ack c.cid)

/-- A payload reaches a hop. At the first hop its last byte has left the source tile, whose range entry frees. -/
def execChainPayload (k : Nat) (s : State) : Out :=
  match s.firstPacket k with
  | none => .next s
  | some p => match p.body, p.who with
    | .payload c i bs ver, some w => match c.hop i with
      | none => .next s
      | some (t, lidx) => .next (s.arrive p (fun s =>
          let s1 := s.sendAck p
          let s2 := match i, nodeTile p.src with
            | 0, some u => s1.modTile u (fun x => x.release c.cid)
            | _, _ => s1
          s2.payloadAt p w c i t lidx bs ver))
    | _, _ => .next s

/-- A control message frees a chain buffer. -/
def execChainRelease (k : Nat) (s : State) : Out :=
  match s.firstPacket k with
  | none => .next s
  | some p => match p.body, nodeTile p.dst with
    | .chainFree cid, some t => .next (s.arrive p (fun s =>
        (s.modTile t (fun x => { x with chainBufs := x.chainBufs.erase cid })).sendAck p))
    | _, _ => .next s

end Sys2Proof.Machine
end

