-- ==== Sys2Proof/Machine/Sync.lean ====
section
/-! DEFINITION. Barriers and votes (04 R99 to R101, 11 R240 to R243, 14 R285, 03 R72): BARCFG, BAR, BARQ, VOTE, and the steps in
which arrivals, releases and contributions travel. -/

namespace Sys2Proof.Machine

/-! ### The combining tree of a barrier (04 R100) -/

def tileX (t : TileId) : Nat := t.val % 32
def tileY (t : TileId) : Nat := t.val / 32

/-- The tile at a column and row, if the mesh has it. -/
def tileXY (x y : Nat) : Option TileId := if h : x < 32 ∧ y < 12 then some ⟨x + 32 * y, by omega⟩ else none

def BarCfg.contains (b : BarCfg) (t : TileId) : Bool :=
  decide (b.x0 ≤ tileX t) && decide (tileX t ≤ b.x1) && decide (b.y0 ≤ tileY t) && decide (tileY t ≤ b.y1)

/-- Where a tile's arrival goes: along its row toward x0, then along column x0 toward (x0, y0); none for that corner. -/
def BarCfg.parent (b : BarCfg) (t : TileId) : Option TileId :=
  if b.x0 < tileX t then tileXY (tileX t - 1) (tileY t)
  else if b.y0 < tileY t then tileXY (tileX t) (tileY t - 1)
  else none

/-- The tiles whose arrivals a tile combines. -/
def BarCfg.children (b : BarCfg) (t : TileId) : List TileId :=
  (if tileX t < b.x1 then (tileXY (tileX t + 1) (tileY t)).toList else []) ++
  (if tileX t = b.x0 ∧ tileY t < b.y1 then (tileXY (tileX t) (tileY t + 1)).toList else [])

/-- The tiles of the rectangle; a place off the mesh names no member. -/
def BarCfg.tiles (b : BarCfg) : List (Option TileId) :=
  (List.range (b.x1 + 1 - b.x0)).flatMap (fun i => (List.range (b.y1 + 1 - b.y0)).map (fun j => tileXY (b.x0 + i) (b.y0 + j)))

/-! ### Parks in a barrier -/

/-- Is a park a BAR's on this id? -/
def barPark (id : Bar) : Option Park → Bool
  | some p => match p.why with
    | .barFence i => i == id
    | .barWait i _ => i == id
    | _ => false
  | none => false

/-- Is a park one of a BAR already counted? Only such a core waits in the barrier; a BAR still at its fence faults when it is
counted. -/
def barWaiting (id : Bar) : Option Park → Bool
  | some p => match p.why with
    | .barWait i _ => i == id
    | _ => false
  | none => false

/-- Is a core parked in a BAR on this id, now or in its interrupted stream? -/
def Core.inBar (c : Core) (id : Bar) : Bool := barPark id c.park || (match c.replay with
  | some r => barPark id r.park
  | none => false)

/-- The four cores of a tile. -/
def coresOf (t : TileId) : List CoreId := (List.finRange 4).map (coreOf t)

def State.modCores (s : State) (cs : List CoreId) (f : Core → Core) : State := cs.foldl (fun s c => s.modCore c f) s

/-- Barrier configuration (02 R43). -/
def barFault (id : Nat) : TrapRec := cause 0x12 (BitVec.ofNat 64 id) 0

/-- A cause for the park a core holds, in the stream that parked. -/
def Core.failPark (c : Core) (is : Option Park → Bool) (t : TrapRec) : Core :=
  if is c.park then { c with refused := c.refused ++ [(0, t, false)] }
  else match c.replay with
    | some r => if is r.park then { c with replay := some { r with refused := r.refused ++ [(0, t, false)] } } else c
    | none => c

/-- One flip nearer for a BAR that waits. -/
def flipPark (id : Bar) (p : Park) : Park := match p.why with
  | .barWait i n => if i = id then { p with why := .barWait i (n - 1) } else p
  | _ => p

/-- A release flips the phase for every BAR that waits on the tile. -/
def Core.flip (c : Core) (id : Bar) : Core :=
  { c with park := c.park.map (flipPark id), replay := c.replay.map (fun r => { r with park := r.park.map (flipPark id) }) }

/-- Changes one barrier of a tile. -/
def State.modBar (s : State) (t : TileId) (i : Bar) (f : Barrier → Barrier) : State :=
  s.modTile t (fun x => { x with bars := vmod x.bars i f })

/-! ### Arrivals, releases and mismatches -/

/-- Sends a tile's barrier message of class 5. -/
def State.sendCtl (s : State) (src dst : TileId) (terr : Nat) (b : Msg) : State := s.send src.val dst.val 5 none terr b

/-- A release at a tile: the phase flips, the waiting cores are released, and it passes on to the children. -/
def State.barFree (s : State) (t : TileId) (terr : Nat) (id : Bar) : State :=
  match ((s.tiles[t]).bars[id]).cfg with
  | none => s
  | some c =>
    let s1 := s.modBar t id (fun b => { b with phase := !b.phase, arr := b.arr - c.count, kids := 0, sent := false, from' := [] })
    let s2 := s1.modCores (coresOf t) (fun k => k.flip id)
    (c.children t).foldl (fun s d => s.sendCtl t d terr (.barRelease id c false)) s2

/-- Have two configurations the same rectangle, and so the same tree? -/
def BarCfg.sameTree (a b : BarCfg) : Bool := a.x0 == b.x0 && a.y0 == b.y0 && a.x1 == b.x1 && a.y1 == b.y1

/-- The neighbours of a tile in the tree. -/
def BarCfg.near (b : BarCfg) (t : TileId) : List TileId := (b.parent t).toList ++ b.children t

/-- The trees that a mismatch at a configured barrier passes through: that along which it came, that of the tile's own configuration, and those
of the arrivals combined there. -/
def Barrier.trees (b : Barrier) (via : Option BarCfg) : List BarCfg :=
  (via.toList ++ b.cfg.toList ++ b.from').foldl (fun l c => if l.any c.sameTree then l else l ++ [c]) []

/-- Passes a mismatch on through some trees, away from the tile it came from. -/
def State.passFail (s : State) (t : TileId) (terr : Nat) (id : Bar) (via : Option (BarCfg × TileId)) (cs : List BarCfg) : State :=
  cs.foldl (fun s c =>
    ((c.near t).filter (fun d => !via.any (fun v => v.2 == d && v.1.sameTree c))).foldl (fun s d =>
      s.sendCtl t d terr (.barRelease id c true)) s) s

/-- A mismatch at a tile, found there or brought to it (04 R99, 14 R285). Its waiting cores take barrier configuration, and it passes on through
every tree that was combined, so that it reaches every core that waits; it stays at each tile until a BARCFG there (DESIGN CHOICE, log 79).
A tile on which the id is not configured holds the news, as it holds arrivals, and passes it on. -/
def State.barFail (s : State) (t : TileId) (terr : Nat) (id : Bar) (via : Option (BarCfg × TileId)) : State :=
  let b := (s.tiles[t]).bars[id]
  if b.cfg.isSome && b.valid then
    if b.bad then s
    else
      let waits := (coresOf t).any (fun k => barWaiting id (s.cores[k]).park || (s.cores[k]).replay.any (fun r => barWaiting id r.park))
      let s1 := s.modBar t id (fun b => { b with arr := 0, kids := 0, sent := false, bad := true, told := waits, from' := [] })
      let s2 := s1.modCores (coresOf t) (fun k => k.failPark (barWaiting id) (barFault id.val))
      s2.passFail t terr id via (b.trees (via.map (·.1)))
  else match via with
    | some (c, _) =>
      if b.held.any (fun h => h.count == 0 && h.sameTree c) then s
      else (s.modBar t id (fun b => { b with held := b.held ++ [{ c with count := 0 }] })).passFail t terr id via [c]
    | none => s

/-- When a tile's own executions and its children's arrivals are complete, its arrival goes up; at the corner the release starts
(04 R100). Executions beyond the count may complete the next phase too: at most four cores wait, so four rounds suffice. A barrier that has met
a mismatch sends nothing. -/
def State.barUpN : Nat → State → TileId → Nat → Bar → State
  | 0, s, _, _, _ => s
  | n + 1, s, t, terr, id =>
    let b := (s.tiles[t]).bars[id]
    match b.cfg with
    | none => s
    | some c =>
      if !b.valid || b.bad || b.sent || decide (b.arr < c.count) || decide (b.kids < (c.children t).length) then s
      else
        let s1 := s.modBar t id (fun b => { b with sent := true })
        match c.parent t with
        | some p => s1.sendCtl t p terr (.barArrive id c)
        | none => State.barUpN n (s1.barFree t terr id) t terr id

def State.barUp (s : State) (t : TileId) (terr : Nat) (id : Bar) : State := s.barUpN 4 t terr id

/-- A BAR whose fence is complete is counted (04 R100): it waits for one flip, or for more when it is beyond the count. On a barrier
that has become invalid, or that has met a mismatch, it takes barrier configuration (03 R72, log 79). -/
def State.barCount (s : State) (core : CoreId) (id : Bar) (marks : Bool) : State :=
  let t := tileOf core
  let b := (s.tiles[t]).bars[id]
  match b.cfg with
  | some c =>
    if b.valid && b.bad then
      (s.modBar t id (fun b => { b with told := true })).modCore core (fun k => k.failPark (barPark id) (barFault id.val))
    else if b.valid then
      let flips := b.arr / c.count + 1
      let s1 := s.modCore core (fun k => { k with park := some { why := .barWait id flips, marks := marks } })
      let s2 := s1.modBar t id (fun b => { b with arr := b.arr + 1 })
      s2.barUp t ((s.tiles[t]).owner.getD 0) id
    else s.modCore core (fun k => k.failPark (barPark id) (barFault id.val))
  | none => s.modCore core (fun k => k.failPark (barPark id) (barFault id.val))

/-- An arrival from tile `u` reaches a tile: held while the id is not configured there (14 R285), combined otherwise. One with a different
configuration is a mismatch (04 R99), and one that comes after a mismatch is answered with it. -/
def State.barReach (s : State) (t : TileId) (terr : Nat) (id : Bar) (cfg : BarCfg) (u : TileId) : State :=
  let b := (s.tiles[t]).bars[id]
  if b.cfg.isNone || !b.valid then s.modBar t id (fun b => { b with held := b.held ++ [cfg] })
  else if b.bad then s.sendCtl t u terr (.barRelease id cfg true)
  else
    let s1 := s.modBar t id (fun b => { b with kids := b.kids + 1, from' := b.from' ++ [cfg] })
    if b.cfg = some cfg then s1.barUp t terr id else s1.barFail t terr id none

/-! ### Instructions -/

/-- A barrier newly configured: the arrivals held combine with the configuration (14 R285), and those already combined on the tile with the one
before combine anew, so that the BARCFGs of a gang's cores count as one (DESIGN CHOICE, log 79). -/
def Barrier.configure (old : Barrier) (b : BarCfg) : Barrier :=
  { cfg := some b, valid := true, phase := false, arr := 0, kids := (old.from' ++ old.held).length, sent := false,
    bad := false, told := false, from' := old.from' ++ old.held, held := [] }

/-- Has it a mismatch then: an arrival of another configuration, or one found before that no core of the tile has taken (DESIGN CHOICE, log 79)? -/
def Barrier.mismatch (old : Barrier) (b : BarCfg) : Bool := (old.from' ++ old.held).any (· != b) || (old.bad && !old.told)

/-- BARCFG (04 R99, 11 R240). -/
def execBarcfg (m : Bool) (id : Fin 4) (x0 : BitVec 5) (y0 : BitVec 4) (x1 : BitVec 5) (y1 : BitVec 4) (cnt : BitVec 2)
    (s : State) : Out :=
  cWord m [] [] (fun s =>
    let b : BarCfg := { x0 := x0.toNat, y0 := y0.toNat, x1 := x1.toNat, y1 := y1.toNat, count := cnt.toNat + 1 }
    let terr := s.sl.terr
    let bad := !b.contains s.tile || decide (b.x1 < b.x0) || decide (b.y1 < b.y0) ||
      b.tiles.any (fun t => match t with
        | some t => !(s.tiles[t]).isMember terr
        | none => true) ||
      (coresOf s.tile).any (fun c => (s.cores[c]).inBar id)
    if bad then .trap (barFault id.val)
    else
      let s1 := s.modBar s.tile id (fun old => old.configure b)
      .ok (if ((s.tiles[s.tile]).bars[id]).mismatch b then s1.barFail s.tile terr id none else s1)) s

/-- BAR first acts as FENCE.y; BARRIER_ARRIVAL then counts it (04 R100, 11 R241). -/
def execBar (m : Bool) (id : Bar) (s : State) : Out :=
  cWord m [] [] (fun s =>
    let b := (s.tiles[s.tile]).bars[id]
    if b.cfg.isNone || !b.valid then .trap (barFault id.val) else .ok (s.parkOn (.barFence id))) s

/-- BARQ (11 R242). -/
def barqVal (b : Barrier) : Word :=
  let cfg := b.cfg.isSome && b.valid
  let arr := match b.cfg with
    | some c => min b.arr c.count
    | none => 0
  BitVec.ofNat 64 ((if cfg then 16 else 0) + arr * 2 + (if b.phase then 1 else 0))

def execBarq (m : Bool) (d : Reg) (id : Bar) (s : State) : Out :=
  cResult m [] (wS d (some 1)) (fun s => .scalar d (barqVal ((s.tiles[s.tile]).bars[id]))) 1 s

/-- VOTE (04 R101, 11 R243): the k-th VOTE of a tile belongs to vote k. With 4 votes in flight the core freezes. -/
def execVote (m : Bool) (d a : Reg) (op : VoteOp) (s : State) : Out :=
  cWord m [.scalar a] (wS d none) (fun s =>
    let t := s.tiles[s.tile]
    if 4 ≤ t.votes.length then .freeze (.votes 1)
    else
      let terr := s.sl.terr
      let no := t.voteNo
      let req := s.dev.nextReq
      let s1 := s.modTile s.tile (fun x => { x with votes := x.votes ++ [(no, req, s.me)], voteNo := no + 1 })
      let s2 := s1.modTerr terr (fun y =>
        if y.nextVote ≤ no then
          { y with nextVote := no + 1, votes := y.votes ++ [{ no := no, op := none, x := if op = .and then BitVec.allOnes 64 else 0,
                                                              todo := s.members terr, voters := [], bad := false }] }
        else y)
      let s3 := (s2.pendOn req (dstS d)).noReplay
      .ok (s3.send s.tile (s.terr! terr).handler.val 5 (some s.me) terr (.vote no op (s.rs a) d))) s

/-! ### The messages -/

def execBarrierArrival (k : Nat) (s : State) : Out :=
  match s.firstPacket k with
  | none => .next s
  | some p => match nodeTile p.src, nodeTile p.dst, p.body with
    | some u, some t, .barArrive id cfg => .next (s.arrive p (fun s =>
        let s1 := s.sendAck p
        if (s.tiles[t]).isMember p.terr then s1.barReach t p.terr id cfg u else s1))
    | _, some _, .void => .next (s.arrive p (fun s => s.sendAck p))
    | _, _, _ => .next s

def execBarrierRelease (k : Nat) (s : State) : Out :=
  match s.firstPacket k with
  | none => .next s
  | some p => match nodeTile p.src, nodeTile p.dst, p.body with
    | some u, some t, .barRelease id cfg bad => .next (s.arrive p (fun s =>
        let s1 := s.sendAck p
        if !(s.tiles[t]).isMember p.terr then s1
        else if bad then s1.barFail t p.terr id (some (cfg, u))
        else if ((s.tiles[t]).bars[id]).valid && !((s.tiles[t]).bars[id]).bad then (s1.barFree t p.terr id).barUp t p.terr id else s1))
    | _, _, _ => .next s

/-- A tile leaves a territory: every barrier of the territory whose rectangle contains it becomes invalid, its waiting cores take
barrier configuration, and its messages in flight count for nothing (03 R72). -/
def State.barInvalidate (s : State) (terr : Nat) (g : TileId) : State :=
  let hit (b : BarCfg) : Bool := b.contains g
  let void (p : Packet) : Packet := if p.terr = terr then
      match p.body with
      | .barArrive _ c => if hit c then { p with body := .void } else p
      | .barRelease _ c _ => if hit c then { p with body := .void } else p
      | _ => p
    else p
  let s1 := { s with net := s.net.map void, kept := s.kept.map void }
  (allTiles.filter (fun t => (s.tiles[t]).owner == some terr)).foldl (fun s t =>
    (List.finRange 4).foldl (fun s (id : Bar) =>
      let b := (s.tiles[t]).bars[id]
      let s := s.modBar t id (fun b => { b with held := b.held.filter (fun h => !hit h) })
      match b.cfg with
      | some c => if b.valid && hit c then
          (s.modBar t id (fun b =>
            { b with valid := false, arr := 0, kids := 0, sent := false, bad := false, told := false, from' := [] })).modCores
              (coresOf t) (fun k => k.failPark (barWaiting id) (barFault id.val))
        else s
      | none => s) s) s1

/-! ### Votes -/

/-- Combines one contribution (04 R101). -/
def voteOp (op : VoteOp) (x y : Word) : Word := match op with
  | .and => x &&& y
  | .or => x ||| y
  | .max => if x.ult y then y else x

/-- May a tile that has left still execute its VOTE of this vote (03 R72)? -/
def State.voteLag (s : State) (terr no : Nat) : Bool :=
  allTiles.any (fun t => (s.tiles[t]).owner == some terr && (s.tiles[t]).ceding.isSome && decide ((s.tiles[t]).voteNo ≤ no))

/-- A vote all of whose tiles have contributed is answered to every VOTE of it, in class 5 (11 R246). Its value is kept while a tile that
has left may still ask for it. -/
def State.voteDone (s : State) (terr no : Nat) : State :=
  match (s.terr! terr).votes.find? (fun v => v.no == no) with
  | none => s
  | some v =>
    if v.todo.isEmpty then
      let h := (s.terr! terr).handler
      let rest (vs : List Vote) : List Vote :=
        if s.voteLag terr no then vs.map (fun v => if v.no = no then { v with voters := [] } else v)
        else vs.filter (fun v => v.no != no)
      let s1 := s.modTerr terr (fun y => { y with votes := rest y.votes })
      v.voters.foldl (fun s e =>
        let (t, w, req, d) := e
        s.send h.val t.val 5 (some w) terr
          (if v.bad then .refuse req (barFault 4) false else .reply req (if d = 0 then .flagsOnly else .scalar d v.x) 0)) s1
    else s

/-- A VOTE of tile `t` counts: its value is combined while the tile has yet to contribute; a tile that has left contributes nothing, and
only waits for the value (03 R72). -/
def Vote.count (v : Vote) (t : TileId) (op : VoteOp) (x : Word) (voter : TileId × Who × Nat × Reg) : Vote :=
  if v.todo.contains t then
    { v with op := some (v.op.getD op), x := if v.op.isNone then x else voteOp (v.op.getD op) v.x x, todo := v.todo.filter (· != t),
             voters := v.voters ++ [voter], bad := v.bad || v.op.any (· != op) }
  else { v with voters := v.voters ++ [voter] }

def execVoteContribution (k : Nat) (s : State) : Out :=
  match s.firstPacket k with
  | none => .next s
  | some p => match p.body, p.who, nodeTile p.src with
    | .vote no op x d, some w, some t => .next (s.arrive p (fun s =>
        let s1 := s.modTerr p.terr (fun y => { y with votes := y.votes.map (fun v =>
          if v.no = no then v.count t op x (t, w, p.id, d) else v) })
        s1.voteDone p.terr no))
    | _, _, _ => .next s

/-- A tile leaves: a vote it has not voted in takes its contribution as the identity value (03 R72). -/
def State.voteLeave (s : State) (terr : Nat) (g : TileId) : State :=
  let inFlight := (s.tiles[g]).votes.map (·.1)
  let s1 := s.modTerr terr (fun y => { y with votes := y.votes.map (fun v =>
    if inFlight.contains v.no then v else { v with todo := v.todo.filter (· != g) }) })
  ((s.terr! terr).votes.map (·.no)).foldl (fun s no => s.voteDone terr no) s1

end Sys2Proof.Machine
end

