-- ==== Sys2Proof/Machine/Rings.lean ====
section
/-! DEFINITION. Rings and their stream subscriptions (06 R133 to R140, 11 R244, R245): RSUB, RGET, RPUT, RREL, RWAIT, and the steps
in which a stream controller takes up an item, pushes, pulls, reads a loop-count block, and an RWAIT times out. -/

namespace Sys2Proof.Machine

/-! ### A ring's counts and tags -/

/-- The items of a subscription. -/
def Sub.items (b : Sub) : Nat := b.c0 * b.c1 * b.c2

/-- C: HEAD for a load ring, TAIL for a store ring (06 R135). -/
def RingSt.count (r : RingSt) : Nat := if r.dir = some true then r.tail else r.head

def RingSt.tagOf (r : RingSt) (item : Nat) : BitVec 16 := r.tags[item % r.slots]?.getD 0

/-- Is item `j` in its slot: its tag equals j mod 2^16? -/
def RingSt.has (r : RingSt) (j : Nat) : Bool := r.tagOf j == BitVec.ofNat 16 j

/-- The frame offset of item `j`'s slot. -/
def RingSt.slotOff (r : RingSt) (j : Nat) : Nat := r.base + j % r.slots * r.bytes

def RingSt.setTag (r : RingSt) (j : Nat) (x : BitVec 16) : RingSt := { r with tags := r.tags.set (j % r.slots) x }

/-- A live subscription (11 R245). One that still waits for its loop-count block is live. -/
def RingSt.live (r : RingSt) : Bool := match r.sub with
  | none => false
  | some b => !b.stopped && (b.waitsLcb || (b.items != 0 && r.head != b.items))

def State.modRing (s : State) (uid ring : Nat) (f : RingSt → RingSt) : State :=
  s.modSlice uid (fun x => { x with rings := x.rings.modify ring f })

/-- Schedule, refused because of the ring's state (06 R136). -/
def ringState (ring : Nat) : TrapRec := cause 0x0B (BitVec.ofNat 64 ring) 0xFFFFFFFF#64

/-- The ring a ring instruction names: declared (06 R136), and covered by the granted frame (16 R304). -/
def State.ringNamed (s : State) (ring : Nat) : Except TrapRec RingSt :=
  match s.sl.rings[ring]? with
  | none => .error (ringState ring)
  | some r => if s.sl.fsize < r.base + r.slots * r.bytes then .error (cause 0x06 (BitVec.ofNat 64 r.base) 0) else .ok r

/-- A ring that has been subscribed since dispatch (06 R136). -/
def State.ringReady (s : State) (ring : Nat) : Except TrapRec RingSt :=
  match s.ringNamed ring with
  | .error t => .error t
  | .ok r => if r.dir.isNone then .error (ringState ring) else .ok r

/-- The current slice's number. -/
def State.uid (s : State) : Nat := s.c.sl.getD 0

/-! ### RGET, RPUT, RREL (06 R135) -/

def execRget (m : Bool) (d : Reg) (ring : Ring) (s : State) : Out :=
  cWord m [] (wS d (some 1)) (fun s =>
    match s.ringReady ring.val with
    | .error t => .trap t
    | .ok r =>
      if r.user.isSome || r.got = r.slots then .trap (ringState ring.val)
      else
        let j := r.count + r.got
        if r.has j then
          .ok ((s.modRing s.uid ring.val (fun r => { r with got := r.got + 1 })).landAt
            (.scalar d (BitVec.ofNat 64 (r.slotOff j))) 1 0)
        else match r.fault with
          | some t => .trap t
          | none => .trap (cause 0x0B (BitVec.ofNat 64 ring.val)
              (BitVec.ofNat 64 (j % 65536 * 65536 + (r.tagOf j).toNat)))) s

/-- The oldest slot held is freed, in cycle `at'` of the core that frees it: a controller pushes into it in a later cycle only (13 R282). -/
def RingSt.freeSlot (r : RingSt) (at' : Nat) : RingSt :=
  { r with head := r.head + 1, freed := r.freed.filter (fun e => e.1 != r.head % r.slots) ++ [(r.head % r.slots, at')] }

/-- Was the slot of item `j` freed before cycle `now`? -/
def RingSt.freeBefore (r : RingSt) (j now : Nat) : Bool := r.freed.all (fun e => e.1 != j % r.slots || decide (e.2 < now))

/-- RREL frees the oldest slot held; on a store ring it is illegal. -/
def execRrel (m : Bool) (ring : Ring) (s : State) : Out :=
  cWord m [] [] (fun s =>
    match s.ringReady ring.val with
    | .error t => .trap t
    | .ok r =>
      if r.dir = some true then .trap (cause 0x01 s.pcNow 0)
      else if r.user.isSome || r.got = 0 then .trap (ringState ring.val)
      else .ok (s.modRing s.uid ring.val (fun r => { r.freeSlot s.issueCycle with got := r.got - 1 }))) s

/-- Would RPUT hand over an item beyond the subscription (11 R245)? Counts not yet read set no limit (DESIGN CHOICE, log 66). -/
def RingSt.pastEnd (r : RingSt) : Bool := match r.sub with
  | some b => !b.waitsLcb && decide (b.items ≤ r.tail)
  | none => true

/-- RPUT hands the oldest slot held to the controller; on a load ring it is illegal. -/
def execRput (m : Bool) (ring : Ring) (s : State) : Out :=
  cWord m [] [] (fun s =>
    match s.ringReady ring.val with
    | .error t => .trap t
    | .ok r =>
      if r.dir = some false then .trap (cause 0x01 s.pcNow 0)
      else if r.user.isSome || r.got = 0 || r.pastEnd then .trap (ringState ring.val)
      else .ok (s.modRing s.uid ring.val (fun r => { r with tail := r.tail + 1, got := r.got - 1 }))) s

/-! ### RWAIT (06 R137) -/

/-- RWAIT's condition. -/
def RingSt.waitDone (r : RingSt) (n : Nat) : Bool :=
  if n = 0 then (if r.dir = some true then r.head == r.tail else true)
  else decide (n ≤ r.slots) && r.has (r.count + r.got + n - 1) && decide (n ≤ r.slots - r.got)

/-- Ring timeout (02 R43). -/
def ringTimeout (ring : Nat) (r : RingSt) : TrapRec :=
  cause 0x0C (BitVec.ofNat 64 ring) (BitVec.ofNat 64 (r.head % 4294967296 * 4294967296 + r.tail % 4294967296))

/-- The control state of a bundle of the current core's unit, before it issues. -/
def State.backNow (s : State) : Back :=
  { pc := s.ctl.pc, delay := s.ctl.delay, lreg := s.ctl.lreg, leff := s.ctl.leff }

/-- RWAIT parks with the effect of a switch marker until its condition holds. A fault record is raised at issue (06 R140); with a
limit of 0 the condition is checked once, now (11 R244). -/
def execRwait (_m : Bool) (ring : Fin 16) (n : BitVec 9) (limit : BitVec 32) (s : State) : Out :=
  cWord true [] [] (fun s =>
    match s.ringReady ring.val with
    | .error t => .trap t
    | .ok r => match r.fault with
      | some t => .trap t
      | none =>
        if r.waitDone n.toNat then .ok s
        else if limit = 0 then .trap (ringTimeout ring.val r)
        else .ok (s.parkOn (.rwait ring n.toNat (s.now + limit.toNat) s.backNow))) s

/-- A cause taken at an RWAIT that has parked: TPC is the RWAIT's bundle, with the control state it issued in. The bundle counts for results in
flight all the same: distances counted and results landed at its issue stay so (DESIGN CHOICE, log 69: 02 R38 and R43 leave it open). -/
def State.trapBack (s : State) (core : CoreId) (b : Back) (t : TrapRec) : State :=
  let u := ({ s with cur := core }).ctlId
  let s1 := s.modCore core (fun k => { k with park := none })
  let s2 := s1.modCore u (fun k => { k with pc := b.pc, delay := b.delay, lreg := b.lreg, leff := b.leff })
  s2.trapGang (s2.gang u) [(core, t)] b.pc

/-- The limit of an RWAIT expires (06 R137). Its park ends only once what the core has sent to its own tile is performed (04 R90; DESIGN CHOICE,
log 67). -/
def execRwaitTimeout (core : CoreId) (s : State) : Out :=
  match (s.cores[core]).park with
  | some { why := .rwait ring n dl b, marks := _ } =>
    let r := ((s.slice! ((s.cores[core]).sl.getD 0)).rings[ring.val]?).getD default
    if dl ≤ s.now && !r.waitDone n && !s.selfPending core then .next (s.trapBack core b (ringTimeout ring.val r)) else .next s
  | _ => .next s

/-! ### RSUB (06 R138, R139, 11 R245) -/

/-- A little-endian field of a list of bytes. -/
def fieldAt (bs : List Byte) (off n : Nat) : Nat := leNat ((bs.drop off).take n)

/-- The descriptor, if its fields are in range for a slot of `bytes` bytes (06 R138): the direction and the subscription. -/
def parseSub (bs : List Byte) (bytes : Nat) : Option (Bool × Sub) :=
  let va := fieldAt bs 0 8
  let rowb := fieldAt bs 8 4
  let nrow := fieldAt bs 12 4
  let ctl := fieldAt bs 36 4
  let lcbva := fieldAt bs 64 8
  let lcb := decide (ctl / 2 % 2 = 1)
  if va < 2 ^ 48 ∧ rowb % 8 = 0 ∧ 8 ≤ rowb ∧ rowb ≤ 65536 ∧ 1 ≤ nrow ∧ nrow * rowb ≤ bytes ∧ ctl < 4 ∧ lcbva % 16 = 0 ∧
      (lcb ∨ lcbva = 0) ∧ fieldAt bs 76 4 = 0 then
    some (decide (ctl % 2 = 1),
      { va := va, rowb := rowb, nrow := nrow, rstr := sext (fieldAt bs 16 8) 64, c0 := fieldAt bs 24 4, c1 := fieldAt bs 28 4,
        c2 := fieldAt bs 32 4, s0 := sext (fieldAt bs 40 8) 64, s1 := sext (fieldAt bs 48 8) 64, s2 := sext (fieldAt bs 56 8) 64,
        lcb := if lcb then some lcbva else none, flagv := BitVec.ofNat 32 (fieldAt bs 72 4), waitsLcb := lcb, seen := false, next := 0,
        sent := 0, segs := [], bad := none, stopped := false })
  else none

/-- A ring at the start of a subscription (06 R134): a load ring's slot i has tag i − slots, a store ring's tag i. -/
def RingSt.subscribe (r : RingSt) (store : Bool) (b : Sub) : RingSt :=
  { r with dir := some store, head := 0, tail := 0, got := 0, fault := none, sub := some b, pulled := [],
           tags := (List.range r.slots).map (fun (i : Nat) =>
             if store then BitVec.ofNat 16 i else BitVec.ofInt 16 ((i : Int) - r.slots)) }

/-- RSUB. With a live subscription on the ring and a bad descriptor too, schedule comes first (DESIGN CHOICE, log 58: the manual gives the
two refusals no order). -/
def execRsub (m : Bool) (a : Reg) (ring : Ring) (s : State) : Out :=
  cWord m [.scalar a] [] (fun s =>
    let ad := s.rs a
    match s.checkMem .near ad 80 16 false with
    | some t => .trap t
    | none => match s.ringNamed ring.val with
      | .error t => .trap t
      | .ok r =>
        if r.live || r.user.isSome then .trap (ringState ring.val)
        else match parseSub (s.frameBytes ad.toNat 80) r.bytes with
          | none => .trap (cause 0x06 ad 0)
          | some (store, b) => .ok (s.modRing s.uid ring.val (fun r => r.subscribe store b))) s

/-! ### What the controller does -/

/-- The address of row r of item j (06 R138). -/
def Sub.rowAddr (b : Sub) (j r : Nat) : Int :=
  (b.va : Int) + ((j % b.c0 : Nat) : Int) * b.s0 + ((j / b.c0 % b.c1 : Nat) : Int) * b.s1 +
    ((j / (b.c0 * b.c1) : Nat) : Int) * b.s2 + (r : Int) * b.rstr

/-- The keys of a run of HBM bytes, a 2 MiB piece at a time: (key, bytes) for each piece, or the refusal. -/
def State.hbmRuns (s : State) (terr : Nat) (write : Bool) : Nat → Nat → Nat → Except TrapRec (List (Nat × Nat))
  | 0, _, _ => .ok []
  | fuel + 1, va, n =>
    if n = 0 then .ok []
    else match s.translate terr va write with
      | .error i1 => .error (transFault va i1)
      | .ok pa =>
        let k := min n (2097152 - va % 2097152)
        match s.hbmRuns terr write fuel (va + k) (n - k) with
        | .error t => .error t
        | .ok rs => .ok ((hbmKey pa, k) :: rs)

/-- Reads HBM bytes through a territory's translations. -/
def State.readHbm (s : State) (terr va n : Nat) : Except TrapRec (List Byte) :=
  match s.hbmRuns terr false (n / 2097152 + 2) va n with
  | .error t => .error t
  | .ok rs => .ok (rs.flatMap (fun r => s.bytes r.1 r.2))

/-- The 64 KiB granules that a run touches become dirty (04 R88). -/
def State.markRun (s : State) (terr va n : Nat) : State :=
  (List.range ((va + n - 1) / 65536 + 1 - va / 65536)).foldl (fun s i => s.markDirty terr (va + 65536 * i)) s

/-- Writes HBM bytes through a territory's translations, all or none. -/
def State.writeHbm (s : State) (terr va : Nat) (bs : List Byte) : Except TrapRec State :=
  match s.hbmRuns terr true (bs.length / 2097152 + 2) va bs.length with
  | .error t => .error t
  | .ok rs =>
    let w := rs.foldl (fun (acc : State × List Byte) r => (acc.1.setBytes r.1 (acc.2.take r.2), acc.2.drop r.2)) (s, bs)
    .ok (w.1.markRun terr va bs.length)

/-- An address of a tile row; one outside the 48 bits is mapped by no page. -/
def rowVa (x : Int) : Except TrapRec Nat :=
  if 0 ≤ x ∧ x < 2 ^ 48 then .ok x.toNat else .error (cause 0x07 (BitVec.ofInt 64 x) 0)

/-- The pieces of `n` bytes from `va` on, one for each 256-byte block they touch. -/
def cutBlocks (j : Nat) : Nat → Nat → Nat → Nat → List Seg
  | 0, _, _, _ => []
  | fuel + 1, off, va, n =>
    let k := min n (256 - va % 256)
    if n = 0 then [] else { item := j, off := off, va := va, len := k, store := false, req := none, bytes := none } :: cutBlocks j fuel (off + k) (va + k) (n - k)

/-- The pieces of the first `n` rows of item j, in the order of the slot's bytes; none where a row lies outside the address space. -/
def Sub.pieces (b : Sub) (j : Nat) : Nat → Except TrapRec (List Seg)
  | 0 => .ok []
  | r + 1 => match b.pieces j r with
    | .error t => .error t
    | .ok l => match rowVa (b.rowAddr j r) with
      | .error t => .error t
      | .ok va => .ok (l ++ cutBlocks j (b.rowb / 256 + 2) (r * b.rowb) va b.rowb)

/-- A translation fault stops the subscription and sets the fault record (06 R140). -/
def RingSt.stop (r : RingSt) (t : TrapRec) : RingSt :=
  { r with fault := some t, sub := r.sub.map (fun b => { b with stopped := true }) }

/-- A slice whose engines and subscriptions may move: it is not halted by pre-emption (16 R310). -/
def State.terrMoves (s : State) (x : Slice) : Bool := !(s.terr! x.terr).halted && x.fid.isSome && !x.fresh

/-- May the controller take up the next item of a load ring: is there a slot free for it, freed before this cycle (06 R134, 13 R282)? -/
def RingSt.canPush (r : RingSt) (now : Nat) : Bool := r.dir == some false && (match r.sub with
  | some b => !b.stopped && !b.waitsLcb && b.bad.isNone && decide (b.next < b.items) && decide (b.next - r.head < r.slots) &&
      r.freeBefore b.next now
  | none => false)

/-- May it ask for the next item that RPUT handed over? Pulls follow one another: no item is read from its slot before the one before it has
been written and acknowledged, for a fault there would stop it (DESIGN CHOICE, log 67: so 06 R140 holds of every item). -/
def RingSt.canPull (r : RingSt) : Bool := r.dir == some true && (match r.sub with
  | some b => !b.stopped && !b.waitsLcb && b.segs.isEmpty && decide (b.next < b.items) && decide (b.next < r.tail) && b.next == r.head
  | none => false)

/-- The key of a frame byte of a slice that has a tile. -/
def sliceKey (x : Slice) (off : Nat) : Nat := scratchKey ((x.tile.map (·.val)).getD 0) (x.fbase + off)

/-- The slice a core is held by. -/
def State.sliceOn (s : State) (core : CoreId) : Slice := s.slice! ((s.cores[core]).sl.getD 0)

/-- A slice's ring with its subscription. -/
def State.subOf (s : State) (sl ring : Nat) : Option (Slice × RingSt × Sub) := match s.findSlice sl with
  | none => none
  | some x => match x.rings[ring]? with
    | none => none
    | some r => r.sub.map (fun b => (x, r, b))

/-- The addresses of an item's rows all translate for a write; or the refusal of the first that does not. -/
def State.rowsOk (s : State) (terr : Nat) (b : Sub) (j : Nat) : Nat → Option TrapRec
  | 0 => none
  | r + 1 => (s.rowsOk terr b j r).orElse fun _ => match rowVa (b.rowAddr j r) with
    | .error t => some t
    | .ok va => match s.hbmRuns terr true (b.rowb / 2097152 + 2) va b.rowb with
      | .error t => some t
      | .ok _ => none

/-- Sends a message of class 0 from a subscription's controller. Its number is `dev.nextReq`. -/
def State.ctlSend (s : State) (x : Slice) (b : Sub) (dst : Nat) (m : Msg) : State := s.send (hbmNode b.va) dst 0 (some (x.uid, 0)) x.terr m

def State.modSub (s : State) (sl ring : Nat) (f : Sub → Sub) : State := s.modRing sl ring (fun r => { r with sub := r.sub.map f })

/-- The request for a piece: a write of the bytes it has, else a read. -/
def Seg.request (g : Seg) (sl ring : Nat) : Msg := match g.bytes with
  | some bs => .rowWrite sl ring g.va bs
  | none => .rowRead sl ring g.va g.len

/-- Sends the requests for pieces to the homes of their addresses (06 R139, 11 R246), and keeps the pieces with the requests' numbers. -/
def State.sendSegs (s : State) (x : Slice) (ring : Nat) (b : Sub) (gs : List Seg) : State :=
  let s1 := gs.foldl (fun s g => s.ctlSend x b (hbmNode g.va) (g.request x.uid ring)) s
  s1.modSub x.uid ring (fun b => { b with segs := b.segs ++ gs.zipIdx.map (fun e => { e.1 with req := some (s.dev.nextReq + e.2) }) })

/-- The lower of two refusals, in the order of items and of their bytes. -/
def lowerBad (a : Option (Nat × Nat × TrapRec)) (x : Nat × Nat × TrapRec) : Option (Nat × Nat × TrapRec) := match a with
  | some y => if y.1 < x.1 || (y.1 == x.1 && decide (y.2.1 ≤ x.2.1)) then some y else some x
  | none => some x

/-- A refusal of a piece is noted. -/
def Sub.refuse (b : Sub) (j off : Nat) (t : TrapRec) : Sub := { b with bad := lowerBad b.bad (j, off, t) }

/-- Has every piece of item j come in? -/
def Sub.allIn (b : Sub) (j : Nat) : Bool := (b.segs.filter (fun g => g.item == j)).all (fun g => g.bytes.isSome)

/-- The bytes of item j, from its pieces. -/
def Sub.itemBytes (b : Sub) (j : Nat) : List Byte := (b.segs.filter (fun g => g.item == j)).flatMap (fun g => g.bytes.getD [])

/-- What a load ring's controller does next: it stops at the lowest item with a refusal once the items before it are pushed (06 R140); sends
the item next in order, all of whose pieces are in, to the tile; or takes up an item and asks for its pieces. Pushes into free slots stop at
EXIT. -/
def State.loadStep (s : State) (x : Slice) (ring : Nat) (r : RingSt) (b : Sub) (t : TileId) : Option State :=
  if b.bad.any (fun e => e.1 == r.tail) && b.allIn r.tail then
    b.bad.map (fun e => s.modRing x.uid ring (fun r => r.stop e.2.2))
  else if x.st == .exiting then none
  else if b.sent < b.next && b.allIn b.sent && b.bad.all (fun e => b.sent < e.1) then
    some ((s.ctlSend x b t.val (.push x.uid ring b.sent (b.itemBytes b.sent))).modSub x.uid ring (fun b =>
      { b with sent := b.sent + 1, segs := b.segs.filter (fun g => g.item != b.sent) }))
  else if r.canPush s.now then
    let s1 := s.modSub x.uid ring (fun b => { b with next := b.next + 1 })
    match b.pieces b.next b.nrow with
    | .ok gs => some (s1.sendSegs x ring b gs)
    | .error tr => some (s1.modSub x.uid ring (fun c => c.refuse b.next 0 tr))
  else none

/-- The pieces that hold bytes not yet sent. -/
def Sub.toWrite (b : Sub) : List Seg := b.segs.filter (fun g => g.req.isNone)

/-- What a store ring's controller does next: it stops at an item with a refusal once every request for it has been answered (06 R140);
sends the writes of the slot it has read to their homes; or takes up an item, when its rows translate, and asks the tile for the slot. -/
def State.storeStep (s : State) (x : Slice) (ring : Nat) (r : RingSt) (b : Sub) (t : TileId) : Option State :=
  if b.bad.isSome && b.segs.isEmpty then b.bad.map (fun e => s.modRing x.uid ring (fun r => r.stop e.2.2))
  else if !b.toWrite.isEmpty then
    some ((s.modSub x.uid ring (fun b => { b with segs := b.segs.filter (fun g => g.req.isSome) })).sendSegs x ring b b.toWrite)
  else if r.canPull then
    match s.rowsOk x.terr b b.next b.nrow with
    | some tr => some (s.modRing x.uid ring (fun r => r.stop tr))
    | none => some ((s.ctlSend x b t.val (.fetch x.uid ring b.next)).modSub x.uid ring (fun b => { b with next := b.next + 1 }))
  else none

/-- A read of the loop-count block. -/
def blockSeg (off va len : Nat) : Seg := { item := 0, off := off, va := va, len := len, store := false, req := none, bytes := none }

/-- What the controller of a subscription that waits for its loop-count block does next (06 R139): it reads the flag word until that equals
FLAGV, then the counts. A page of the block that does not translate stops the subscription (DESIGN CHOICE, log 66). -/
def State.lcbStep (s : State) (x : Slice) (ring : Nat) (b : Sub) (va : Nat) : Option State := match b.bad, b.segs with
  | some e, _ => some (s.modRing x.uid ring (fun r => r.stop e.2.2))
  | none, [] => some (s.sendSegs x ring b [if b.seen then blockSeg 0 va 12 else blockSeg 12 (va + 12) 4])
  | none, g :: _ => if b.seen then none else g.bytes.map (fun bs =>
      s.modSub x.uid ring (fun b => { b with segs := [], seen := decide (leNat bs = b.flagv.toNat) }))

/-- Has the controller of a store ring fetched a slot, or asked for it, that is not yet pulled? Such a pull completes in quiescence and counts
(18 R339). -/
def RingSt.pulling (r : RingSt) : Bool := r.dir == some true && r.sub.any (fun b => !b.stopped && !b.waitsLcb && decide (r.head < b.next))

/-- May a controller move: its context is not halted, or it has a pull to complete? -/
def State.ringMoves? (s : State) (x : Slice) (r : RingSt) : Bool := s.terrMoves x || ((s.terr! x.terr).halted && x.fid.isSome && !x.fresh && r.pulling)

/-- What the controller of a subscription does next (06 R138 to R140, 11 R246). -/
def State.controller (s : State) (sl ring : Nat) : Option State := match s.subOf sl ring with
  | none => none
  | some (x, r, b) => match x.tile with
    | none => none
    | some t =>
      if !s.ringMoves? x r || b.stopped then none
      else if b.waitsLcb then s.lcbStep x ring b (b.lcb.getD 0)
      else if r.dir = some true then s.storeStep x ring r b t
      else s.loadStep x ring r b t

/-- A message between a ring and its controller. -/
def ringMsg (sl ring : Nat) : Msg → Bool
  | .push u k _ _ => u == sl && k == ring
  | .fetch u k _ => u == sl && k == ring
  | _ => false

/-- The next message of a ring's controller that may arrive. -/
def State.ringPacket (s : State) (sl ring : Nat) : Option Packet :=
  s.net.find? (fun p => ringMsg sl ring p.body && (s.firstPacket p.id).any (fun q => q.id == p.id))

/-- Items that have been taken up and not pushed or pulled are taken up again: a message of theirs found its slice elsewhere, or the ring
elsewhere in its order, or the slice has come out of an image. -/
def RingSt.again (r : RingSt) : RingSt :=
  let n := if r.dir = some true then r.head else r.tail
  { r with pulled := [], sub := r.sub.map (fun b => if b.stopped then b else { b with next := n, sent := n, segs := [], bad := none }) }

/-- A push of item j: the slot's data, then its tag j (06 R134). Pushes into free slots stop at EXIT (06 R140). -/
def execStreamPush (sl ring : Nat) (s : State) : Out :=
  match s.ringPacket sl ring, s.subOf sl ring with
  | some p, some (x, r, _) => match p.body with
    | .push _ _ j bs => .next (s.arrive p (fun s =>
        let s1 := s.sendAck p
        if x.tile.map (·.val) = some p.dst ∧ j = r.tail ∧ x.st ≠ .exiting ∧ x.fid.isSome = true ∧ x.fresh = false ∧ r.dir = some false then
          (s1.setBytes (sliceKey x (r.slotOff j)) bs).modRing sl ring (fun r =>
            { (r.setTag j (BitVec.ofNat 16 j)) with tail := r.tail + 1 })
        else s1.modRing sl ring RingSt.again))
    | _ => .next s
  | some p, none => .next (s.arrive p (fun s => s.sendAck p))
  | none, _ => .next s

/-! ### Words read at different moments (13 R283, 15 R291) -/

/-- The words of the first `n` that have not been read. -/
def wordsLeft (n : Nat) (got : List (Nat × BitVec 64)) : List Nat := (List.range n).filter (fun i => !got.any (·.1 == i))

/-- The bytes of `n` words. -/
def wordBytes (n : Nat) (got : List (Nat × BitVec 64)) : List Byte :=
  (List.range n).flatMap (fun i => leBytes 8 (((got.find? (·.1 == i)).map (·.2.toNat)).getD 0))

/-- The words of a slot that a pull reads in this step. -/
def State.pullWords (s : State) (key : Nat) (is : List Nat) : List (Nat × BitVec 64) :=
  is.map (fun i => (i, BitVec.ofNat 64 (s.num (key + 8 * i) 8)))

/-- A pull of item j reads its slot's words, in one step or in several; with the last, the bytes go to the controller (13 R283). -/
def execStreamPull (sl ring : Nat) (s : State) : Out :=
  match s.ringPacket sl ring, s.subOf sl ring with
  | some p, some (x, r, b) => match p.body with
    | .fetch _ _ j =>
      let n := b.nrow * b.rowb / 8
      let got := r.pulled ++ s.pullWords (sliceKey x (r.slotOff j)) (pickWords s.stepNo (wordsLeft n r.pulled))
      if !(x.tile.map (·.val) = some p.dst ∧ j = r.head ∧ x.fid.isSome = true ∧ x.fresh = false ∧ r.dir = some true) then
        .next (s.arrive p (fun s => (s.sendAck p).modRing sl ring RingSt.again))
      else if !(wordsLeft n got).isEmpty then .next ({ s with stepNo := s.stepNo + 1 }.modRing sl ring (fun r => { r with pulled := got }))
      else .next ({ s with stepNo := s.stepNo + 1 }.arrive p (fun s =>
        ((s.sendAck p).send p.dst p.src 3 p.who p.terr (.fetched sl ring j (wordBytes n got))).modRing sl ring (fun r =>
          { r with pulled := [] })))
    | _ => .next s
  | some p, none => .next (s.arrive p (fun s => s.sendAck p))
  | none, _ => .next s

/-- The bytes of a pulled slot are at the controller, as pieces to be written. A slot read for an item taken up anew counts for nothing. -/
def State.slotBack (s : State) (sl ring j : Nat) (bs : List Byte) : State := match s.subOf sl ring with
  | none => s
  | some (_, r, b) =>
    if b.stopped || j != r.head || b.next != j + 1 || !b.segs.isEmpty then s
    else match b.pieces j b.nrow with
      | .ok gs => s.modSub sl ring (fun b => { b with segs := gs.map (fun g => { g with store := true, bytes := some ((bs.drop g.off).take g.len) }) })
      | .error t => s.modSub sl ring (fun b => b.refuse j 0 t)

/-- The piece of a request has its bytes. -/
def Sub.fill (b : Sub) (req : Nat) (bs : List Byte) : Sub := { b with segs := fillSegs b.segs req bs }

/-- The request of a piece is refused: the piece goes, and the lowest refusal is kept. -/
def Sub.drop (b : Sub) (req : Nat) (t : TrapRec) : Sub := match b.segs.find? (fun g => g.req == some req) with
  | some g => { b.refuse g.item g.off t with segs := b.segs.filter (fun g => g.req != some req) }
  | none => b

/-- A write of a store ring's item is acknowledged. With the last of them, and none refused, the item counts as pulled: its tag becomes
j + slots and HEAD increases (06 R134, R137). The tag too changes only then, not when the slot has been read (DESIGN CHOICE, log 67). -/
def RingSt.written (r : RingSt) (req : Nat) : RingSt := match r.sub with
  | some b =>
    if b.segs.any (fun g => g.req == some req) then
      let rest := b.segs.filter (fun g => g.req != some req)
      let r1 : RingSt := { r with sub := some { b with segs := rest } }
      if rest.isEmpty && b.bad.isNone then { (r1.setTag r.head (BitVec.ofNat 16 (r.head + r.slots))) with head := r.head + 1 } else r1
    else r
  | none => r

/-- A request of a controller is performed at the home of its address or refused (04 R86 to R88): a read is answered with its bytes, a write
acknowledged. -/
def State.performRow (s : State) (p : Packet) : State := match p.body with
  | .rowRead sl ring va n => match s.findHbm p.terr va false with
    | .at' key => s.answer p (.rowData sl ring p.id (s.bytes key n))
    | .refused t => s.answer p (.rowBad sl ring p.id t)
  | .rowWrite sl ring va bs => match s.findHbm p.terr va true with
    | .at' key => ((s.setBytes key bs).markDirty p.terr va).sendAck p
    | .refused t => s.answer p (.rowBad sl ring p.id t)
  | _ => s

/-- A copy has what it has asked for. -/
def fillCopies (cs : List Copy) (req : Nat) (bs : List Byte) : List Copy := cs.map (fun c => { c with reads := fillSegs c.reads req bs })

/-- The data of a read is back at the engine that asked for it: a copy's beat, or an MLW (11 R246). -/
def State.dataBack (s : State) (p : Packet) (req : Nat) (bs : List Byte) : State :=
  let s1 := (s.sendAck p).forget req
  let s2 := match nodeTile p.dst with
    | some t => s1.modTile t (fun x => { x with copyQ := fillCopies x.copyQ req bs })
    | none => s1
  match p.who with
  | some w => s2.modOwn w (fun c => c.modLoads (fun segs bad => (fillSegs segs req bs, bad)))
  | none => s2

/-- A pre-emption message reaches a tile of a context that is still to be halted (16 R310, R311). -/
def State.preemptAt (s : State) (p : Packet) : State := match nodeTile p.dst with
  | some t => if (s.terr! p.terr).halted && (s.tiles[t]).owner == some p.terr then (s.sendAck p).modTile t (fun x => { x with preempt := true })
    else s.sendAck p
  | none => s.sendAck p

/-- The arrival of a message for which the opcode table has no row of its own: read data, a pre-emption. -/
def State.takeMessage (s : State) (k : Nat) : State := match s.firstPacket k with
  | none => s
  | some p => match p.body with
    | .data req bs => s.arrive p (fun s => s.dataBack p req bs)
    | .preempt => s.arrive p (fun s => s.preemptAt p)
    | _ => s

/-- A request reaches its stream controller, is translated and performed there (04 R86 to R89); or what a controller has asked for comes
back to it: a slot's bytes, a piece, a refusal. -/
def execHbmAccess (k : Nat) (s : State) : Out :=
  match s.firstPacket k with
  | none => .next s
  | some p => match p.body with
    | .fetched sl ring j bs => .next (s.arrive p (fun s => (s.sendAck p).slotBack sl ring j bs))
    | .rowData sl ring req bs => .next (s.arrive p (fun s => ((s.sendAck p).forget req).modSub sl ring (fun b => b.fill req bs)))
    | .rowBad sl ring req t => .next (s.arrive p (fun s => ((s.sendAck p).forget req).modSub sl ring (fun b => b.drop req t)))
    | .rowRead _ _ _ _ => .next (s.arrive p (fun s => s.performRow p))
    | .rowWrite _ _ _ _ => .next (s.arrive p (fun s => s.performRow p))
    | b => match requestOf b with
      | some (.hbm va, _, _, w) =>
        .next (s.arrive p (fun s => s.perform p (s.findHbm p.terr va w) (fun s => s.markDirty p.terr va)))
      | _ => .next s

/-! ### Acknowledgements -/

/-- One of a copy's beats is acknowledged. -/
def ackCopies (cs : List Copy) (id : Nat) : List Copy := cs.map (fun c => { c with outIds := c.outIds.filter (·.1 != id) })

/-- An end-to-end acknowledgement reaches the source (11 R247): a core's request is no longer outstanding, a beat of a copy or a write of a
store ring's item is done. -/
def execAckArrival (k : Nat) (s : State) : Out :=
  match s.firstPacket k with
  | none => .next s
  | some p => match p.body with
    | .ack req =>
      let s1 := (s.takePacket k).forget req
      let s2 := match p.who with
        | some w => s1.doneOut w req
        | none => s1
      match nodeTile p.dst, p.who with
      | some t, _ => .next (s2.modTile t (fun x => { x with copyQ := ackCopies x.copyQ req }))
      | none, some w => .next (s2.modSlice w.1 (fun x => { x with rings := x.rings.map (fun r => r.written req) }))
      | none, none => .next s2
    | _ => .next s

/-! ### Loop-count blocks -/

/-- The counts of the loop-count block, once the controller has seen the flag and they have come back. -/
def Sub.counts (b : Sub) : Option (List Byte) := match b.segs with
  | [g] => if b.waitsLcb && b.seen && !b.stopped && g.off == 0 then g.bytes else none
  | _ => none

/-- The controller has seen the awaited flag and has read the counts, all 12 bytes in one access (DESIGN CHOICE, log 16), which stand in place of the
descriptor's (06 R139). A block that does not translate stops the subscription instead (DESIGN CHOICE, log 66). -/
def execLoopCountBlockReady (sl ring : Nat) (s : State) : Out :=
  match s.subOf sl ring with
  | none => .next s
  | some (x, _, b) => match b.counts with
    | none => .next s
    | some bs =>
      if !s.terrMoves x then .next s
      else .next (s.modSub sl ring (fun b => { b with
        c0 := fieldAt bs 0 4, c1 := fieldAt bs 4 4, c2 := fieldAt bs 8 4, waitsLcb := false, segs := [] }))

end Sys2Proof.Machine
end

