-- ==== Sys2Proof/Machine/Engines.lean ====
section
/-! DEFINITION. The copy engine (12 R260 to R265, 19 R340, R341): COPY, CWAIT, CQUERY, and the steps in which a beat is performed
and a copy completes or fails. COPYM stands with the matrix unit. -/

namespace Sys2Proof.Machine

/-! ### Issue -/

/-- Is the copy engine able to reach this address: spaces 0x0, 0x2 and 0x4 (12 R260)? -/
def State.copySpace (s : State) (a : Word) : Option TrapRec := match parseAddr a with
  | .bad => some (cause 0x06 a 0)
  | .reserved _ => some s.privileged
  | _ => none

/-- Checks 4 and 5 of 04 R81 on a copy's range. -/
def State.copyRange (s : State) (a : Word) (n : Nat) : Option TrapRec := match parseAddr a with
  | .local' off => if s.sl.fid.isNone || decide (s.sl.fsize < off + n) then some (cause 0x06 a 0) else none
  | .peer _ fid _ => if fid = 255 && s.sl.fid.isNone then some (cause 0x06 a 0) else none
  | _ => none

/-- Do both addresses name the frame, with ranges that overlap? -/
def copyOverlap (d a : Word) (n : Nat) : Bool := match parseAddr d, parseAddr a with
  | .local' x, .local' y => overlaps x n y n
  | _, _ => false

/-- The checks of R260, in their order. `lenWord` is what TINFO0 holds for a bad length. -/
def State.checkCopy (s : State) (d a : Word) (n : Nat) (lenWord : Word) : Option TrapRec :=
  (s.copySpace d).orElse fun _ => (s.copySpace a).orElse fun _ =>
  (if n % 8 ≠ 0 ∨ n < 8 ∨ 2 ^ 30 < n then some (cause 0x06 lenWord 0) else none).orElse fun _ =>
  (if d.toNat % 8 ≠ 0 then some (cause 0x05 d 8) else none).orElse fun _ =>
  (if a.toNat % 8 ≠ 0 then some (cause 0x05 a 8) else none).orElse fun _ =>
  (s.copyRange d n).orElse fun _ => (s.copyRange a n).orElse fun _ =>
  if copyOverlap d a n then some (cause 0x06 d 0) else none

/-- What an address names, resolved at issue (03 R71). -/
def State.copyLoc (s : State) (a : Word) : CLoc := match parseAddr a with
  | .local' off => .local' (s.sl.fbase + off)
  | .peer lidx fid off => match s.memberAt s.sl.terr lidx with
    | some t => .peer t lidx (if fid = 255 then s.sl.fid.getD 255 else fid) off
    | none => .hole lidx
  | .hbm va => .hbm va
  | _ => .hole 0

/-- The offset in the issuing tile's own scratchpad of what a copy reads or writes, whichever space names it. -/
def State.ownOffset (s : State) : CLoc → Option Nat
  | .local' p => some p
  | .peer t _ fid off => if t = s.tile then (s.liveFrame t s.sl.terr fid).map (fun x => x.fbase + off) else none
  | _ => none

/-- The ranges a copy registers in the tile's own scratchpad (04 R97). -/
def State.copyLocks (s : State) (src dst : CLoc) (n : Nat) : List (Nat × Nat × Bool) :=
  ((s.ownOffset src).map (fun p => (p, n, false))).toList ++ ((s.ownOffset dst).map (fun p => (p, n, true))).toList

/-- Why a copy with this tag and so many ranges freezes its core, if it does (12 R258, R262). -/
def State.copyStall (s : State) (tag : Fin 16) (need : Nat) : Option Freeze :=
  let t := s.tiles[s.tile]
  if s.c.tags[tag] = .running then some (.tag tag)
  else if 32 ≤ t.copyQ.length then some (.copyQueue 1)
  else if t.freeLocks < need then some (.locks need)
  else none

/-- A failure that a tag held is discarded and counted (12 R262). -/
def State.reuseTag (s : State) (tag : Fin 16) : State :=
  let s1 := match s.c.tags[tag] with
    | .failed _ => s.bump s.tile 9
    | _ => s
  s1.modCur (fun c => { c with tags := vset c.tags tag .running })

/-- The engine accepts a copy: its number is `dev.nextReq`. -/
def State.acceptCopy (s : State) (d a : Word) (n : Nat) (tag : Fin 16) (follow : Option Nat) : State :=
  let cid := s.dev.nextReq
  let src := s.copyLoc a
  let dst := s.copyLoc d
  let q : Copy := { cid := cid, who := s.me, terr := s.sl.terr, tag := tag, src := src, dst := dst, srcA := a, dstA := d, len := n,
                    next := 0, reads := [], outIds := [], failed := none, follow := follow, ver := s.shapeVer s.sl.terr, stopped := false }
  let s1 := ({ s with dev := { s.dev with nextReq := cid + 1 } }).reuseTag tag
  s1.modTile s.tile (fun x => { x.register (s.copyLocks src dst n) cid with copyQ := x.copyQ ++ [q] })

/-- COPY (12 R260). -/
def execCopy (m : Bool) (a b c : Reg) (tag : Fin 16) (s : State) : Out :=
  cWord m [.scalar a, .scalar b, .scalar c] [] (fun s =>
    let d := s.rs a
    let src := s.rs b
    let n := (s.rs c).toNat % 2 ^ 32
    match s.checkCopy d src n (s.rs c) with
    | some t => .trap t
    | none => match s.copyStall tag (s.copyLocks (s.copyLoc src) (s.copyLoc d) n).length with
      | some f => .freeze f
      | none => .ok (s.acceptCopy d src n tag none)) s

/-- CWAIT parks until no tag of the mask runs (12 R264). -/
def execCwait (m : Bool) (mask : BitVec 16) (s : State) : Out :=
  cWord m [] [] (fun s => .ok (s.parkOn (.cwait mask))) s

/-- Two bits for a tag (12 R265). -/
def tagCode : Tag → Nat
  | .idle => 0
  | .running => 1
  | .complete => 2
  | .failed _ => 3

def State.cqueryVal (s : State) : Word :=
  BitVec.ofNat 64 ((32 - (s.tiles[s.tile]).copyQ.length) * 2 ^ 32 +
    ((List.finRange 16).map (fun (k : Fin 16) => tagCode s.c.tags[k] * 4 ^ k.val)).sum)

def execCquery (m : Bool) (c : Reg) (s : State) : Out :=
  cResult m [] (wS c (some 2)) (fun s => .scalar c s.cqueryVal) 2 s

/-! ### The end of a CWAIT (12 R264) -/

/-- Is no tag of the mask running? -/
def Core.cwaitDone (c : Core) (mask : BitVec 16) : Bool :=
  (List.finRange 16).all (fun (k : Fin 16) => !mask.getLsbD k.val || c.tags[k] != .running)

/-- The failure of a tag. -/
def tagFault : Tag → Option TrapRec
  | .failed t => some t
  | _ => none

/-- The lowest failed tag of the mask. -/
def Core.cwaitFault (c : Core) (mask : BitVec 16) : Option (Fin 16 × TrapRec) :=
  (List.finRange 16).findSome? (fun (k : Fin 16) =>
    if mask.getLsbD k.val then (tagFault c.tags[k]).map (fun t => (k, t)) else none)

/-- Named complete tags and the reported failed tag become idle; the cause to take, if any. -/
def Core.cwaitEnd (c : Core) (mask : BitVec 16) : Core × Option TrapRec :=
  let tags := Vector.ofFn (fun (k : Fin 16) => if mask.getLsbD k.val && c.tags[k] == .complete then Tag.idle else c.tags[k])
  match c.cwaitFault mask with
  | some (k, t) => ({ c with tags := vset tags k .idle }, some t)
  | none => ({ c with tags := tags }, none)

/-! ### Beats (12 R261)

A beat issues when it is read: from this tile's scratchpad at once, from a peer frame or HBM by requests of class 0 (11 R246). It is written
when its bytes are there: into this tile's scratchpad at once, elsewhere by a request of class 0. -/

/-- The bytes of the beat at `o`: up to the next 128-byte boundary of the destination. -/
def Copy.lenAt (q : Copy) (o : Nat) : Nat := min (q.len - o) (128 - (q.dstA.toNat + o) % 128)

def Copy.atByte (a : Word) (n : Nat) : Word := a + BitVec.ofNat 64 n

/-- Is a tile still a member under its index, and has it been since before the copy issued? A beat issued after the tile has begun to leave is
dropped (03 R64). -/
def State.stillMember (s : State) (u : TileId) (q : Copy) (lidx : Nat) : Bool :=
  (s.tiles[u]).isMember q.terr && (s.tiles[u]).lidx == lidx && !beforeVer q.ver (s.tiles[u]).joinVer

/-- The refusal that a beat meets as it issues: its place is a hole, or a tile that has begun to leave; with the tile that counts it. -/
def State.beatStale (s : State) (t : TileId) (q : Copy) : CLoc → Option (TileId × TrapRec)
  | .hole lidx => some (t, stalePeer lidx q.ver)
  | .peer u lidx _ _ => if s.stillMember u q lidx then none else some (u, stalePeer lidx q.ver)
  | _ => none

def State.modCopy (s : State) (t : TileId) (cid : Nat) (f : Copy → Copy) : State :=
  s.modTile t (fun x => { x with copyQ := x.copyQ.map (fun q => if q.cid = cid then f q else q) })

/-- A beat is refused: the lowest-addressed refusal is the copy's failure. -/
def Copy.fail (q : Copy) (byte : Nat) (t : TrapRec) : Copy := match q.failed with
  | some (b, _) => if byte < b then { q with failed := some (byte, t) } else q
  | none => { q with failed := some (byte, t) }

/-- The pieces in which the next beat is read by messages: one from a peer frame, one for each 256-byte block of HBM. -/
def Copy.pieces (q : Copy) : List Seg := match q.src with
  | .hbm va => cutBlocks q.next 2 0 (va + q.next) (q.lenAt q.next)
  | .peer _ _ _ off => [{ item := q.next, off := 0, va := off + q.next, len := q.lenAt q.next, store := false, req := none, bytes := none }]
  | _ => []

/-- The request for a piece, and the node it goes to. -/
def Copy.readOf (q : Copy) (g : Seg) : Nat × Msg :=
  let a := Copy.atByte q.srcA (g.item + g.off)
  match q.src with
  | .peer u lidx fid _ => (u.val, .read (.peer u lidx fid g.va) a g.len q.ver false)
  | _ => (hbmNode g.va, .read (.hbm g.va) a g.len q.ver false)

/-- The next beat issues, and its read is asked for. -/
def State.beatAsk (s : State) (t : TileId) (q : Copy) : State :=
  let s1 := q.pieces.foldl (fun s g => s.send t.val (q.readOf g).1 0 (some q.who) q.terr (q.readOf g).2) s
  s1.modCopy t q.cid (fun y => { y with
    next := q.next + q.lenAt q.next,
    reads := y.reads ++ q.pieces.zipIdx.map (fun e => { e.1 with req := some (s.dev.nextReq + e.2) }) })

/-- The write of the beat at `o`: at once in this tile's scratchpad, by a request of class 0 elsewhere. -/
def State.beatWrite (s : State) (t : TileId) (q : Copy) (o : Nat) (bs : List Byte) : State :=
  let id := s.dev.nextReq
  let ask (dst : Nat) (p : Place) : State :=
    (s.send t.val dst 0 (some q.who) q.terr (.copyWr p (Copy.atByte q.dstA o) bs q.cid q.ver)).modCopy t q.cid (fun y =>
      { y with outIds := y.outIds ++ [(id, o)] })
  match q.dst with
  | .local' p => s.setBytes (scratchKey t (p + o)) bs
  | .peer u lidx fid off => ask u.val (.peer u lidx fid (off + o))
  | .hbm va => ask (hbmNode (va + o)) (.hbm (va + o))
  | .hole _ => s

/-- The pieces of the lowest beat that is issued and not written. -/
def Copy.front (q : Copy) : List Seg := match q.reads with
  | [] => []
  | g :: _ => q.reads.filter (fun h => h.item == g.item)

/-- Has each of them been answered? One that is refused has no bytes. -/
def Copy.frontIn (q : Copy) : Bool := !q.front.isEmpty && q.front.all (fun g => g.bytes.isSome)

/-- A source range frees after its last read, a destination range after its last byte has landed (04 R97). -/
def State.freeSource (s : State) (t : TileId) (cid : Nat) : State :=
  if (s.tiles[t]).copyQ.any (fun q => q.cid == cid && decide (q.len ≤ q.next) && q.reads.isEmpty) then
    s.modTile t (fun x => { x with locks := x.locks.filter (fun l => l.op != cid || l.dst) })
  else s

/-- The lowest beat that is issued and not written is written, unless its read was refused. -/
def State.frontOut (s : State) (t : TileId) (q : Copy) : State :=
  let gs := q.front
  let o := (gs.head?.map (·.item)).getD 0
  let s1 := s.modCopy t q.cid (fun y => { y with reads := y.reads.filter (fun g => g.item != o) })
  if gs.all (fun g => (g.bytes.getD []).length == g.len) then s1.beatWrite t q o (gs.flatMap (fun g => g.bytes.getD [])) else s1

/-- May the copy issue its next beat? At most one beat of a tile's copies issues per cycle (19 R340); pre-emption, when it has reached the tile,
stops a copy at a beat boundary (12 R261). -/
def State.canIssueBeat (s : State) (t : TileId) (q : Copy) : Bool :=
  decide (q.next < q.len) && q.failed.isNone && !q.stopped && (s.tiles[t]).lastBeat != some s.now && !(s.tiles[t]).preempt

/-- Has the engine a beat of the copy to write or to issue? -/
def State.canBeat (s : State) (t : TileId) (q : Copy) : Bool := q.frontIn || s.canIssueBeat t q

/-- The next beat issues: it is refused, or read here and written, or asked for. Of two refusals of one beat as it issues, the source's comes
first (DESIGN CHOICE, log 58). -/
def State.issueBeat (s : State) (t : TileId) (q : Copy) : State :=
  let s0 := s.modTile t (fun x => { x with lastBeat := some s.now })
  match (s0.beatStale t q q.src).or (s0.beatStale t q q.dst), q.src with
  | some (u, tr), _ => (s0.bump u (refusalCounter tr)).modCopy t q.cid (fun y => y.fail q.next tr)
  | none, .local' p => ((s0.modCopy t q.cid (fun y => { y with next := q.next + q.lenAt q.next })).beatWrite t q q.next
      (s0.bytes (scratchKey t (p + q.next)) (q.lenAt q.next))).freeSource t q.cid
  | none, _ => s0.beatAsk t q

/-- One beat of copy `k` of a tile: the lowest one whose bytes are there is written, else the next one issues. -/
def execCopyBeat (tile : TileId) (k : Nat) (s : State) : Out :=
  match (s.tiles[tile]).copyQ.find? (fun q => q.cid == k) with
  | none => .next s
  | some q =>
    if q.frontIn then .next ((s.frontOut tile q).freeSource tile q.cid)
    else if s.canIssueBeat tile q then .next (s.issueBeat tile q)
    else .next s

/-! ### Completion and failure -/

/-- Makes a copy's follow-on ready, or voids it (06 R131). -/
def readyFollow (es : List MEntry) (mid : Nat) (ok : Bool) : List MEntry :=
  es.map (fun e => if e.mid = mid then { e with waitsCopy := false, voided := e.voided || !ok } else e)

/-- A copy that has ended leaves the engine: its ranges free, its tag takes its state, its follow-on becomes ready or void. -/
def State.endCopy (s : State) (t : TileId) (q : Copy) (tag : Tag) : State :=
  let s1 := s.modTile t (fun x => { x.release q.cid with copyQ := x.copyQ.filter (fun y => y.cid != q.cid) })
  if q.stopped then s1
  else s1.modOwn q.who (fun c => { c with
    tags := vset c.tags q.tag tag,
    mq := match q.follow with
      | some mid => readyFollow c.mq mid (tag == .complete)
      | none => c.mq })

/-- Have all the beats of a copy that were issued been written and answered, and will no other be issued? -/
def Copy.settled (q : Copy) : Bool := q.outIds.isEmpty && q.reads.isEmpty && (decide (q.len ≤ q.next) || q.failed.isSome || q.stopped)

/-- Ends a copy that has settled. -/
def State.settleCopy (s : State) (t : TileId) (q : Copy) : State :=
  if q.settled then s.endCopy t q (match q.failed with
    | some (_, tr) => .failed tr
    | none => .complete)
  else s

/-- Every beat issued is performed and acknowledged, or answered: the copy completes (12 R261). -/
def execCopyComplete (tile : TileId) (k : Nat) (s : State) : Out :=
  match (s.tiles[tile]).copyQ.find? (fun q => q.cid == k) with
  | none => .next s
  | some q => .next (s.settleCopy tile q)

/-- The byte of a copy that a request of it is about. -/
def Copy.byteOf (q : Copy) (req : Nat) : Option Nat :=
  ((q.outIds.find? (fun e => e.1 == req)).map (fun e => e.2)).or ((q.reads.find? (fun g => g.req == some req)).map (fun g => g.item + g.off))

/-- A beat's refusal comes back: the copy fails at the lowest beat refused (12 R261). -/
def execCopyFailure (k : Nat) (s : State) : Out :=
  match s.firstPacket k with
  | none => .next s
  | some p => match p.body, nodeTile p.dst with
    | .refuse req tr _, some t =>
      if !isCopyReq (s.keptReq req) then .next s
      else .next (s.arrive p (fun s =>
        let s1 := (s.sendAck p).forget req
        match (s.tiles[t]).copyQ.findSome? (fun q => (q.byteOf req).map (fun b => (q, b))) with
        | none => s1
        | some (q, byte) =>
          let q' := { q.fail byte tr with outIds := q.outIds.filter (·.1 != req), reads := fillSegs q.reads req [] }
          (s1.modCopy t q.cid (fun _ => q')).settleCopy t q'))
    | _, _ => .next s

end Sys2Proof.Machine
end

