-- ==== Sys2Proof/Machine/Matrix.lean ====
section
/-! DEFINITION. The matrix unit of a core (06 R120 to R132; 12 R263, R266 to R270; 15 R287 to R289): MLW, MFMT, MMUL, MOUT, MDRAIN,
MVER, MZERO, MWAIT, COPYM, and the steps in which the array and the drain port start and complete a command. -/

namespace Sys2Proof.Machine

/-! ### Formats (06 R120, R123) -/

/-- Columns N of a weight format. -/
def wCols : WFmt → Nat
  | .int8 => 256
  | .int4 => 512
  | .ternary => 1024
  | .mxint8 => 256

/-- Source bytes of a weight format. -/
def wBytes : WFmt → Nat
  | .mxint8 => 33792
  | _ => 32768

/-- Row bytes of an activation format. -/
def aBytes : AFmt → Nat
  | .int8 => 128
  | .int4 => 64
  | .int16 => 256
  | .mxint8 => 132
  | .split => 512

/-- Does a multiply take the unscaled path (06 R125)? -/
def unscaled (w : WFmt) (a : AFmt) (f32 : Bool) : Bool :=
  decide (w ≠ .mxint8) && decide (a ≠ .mxint8) && decide (a ≠ .split) && !f32

/-! ### Issue checks -/

/-- Matrix format (02 R43, 06 R121). -/
def matrixFormat (i0 i1 : Nat) : TrapRec := cause 0x11 (BitVec.ofNat 64 i0) (BitVec.ofNat 64 i1)

/-- What TINFO1 holds for a bank that may not be used (06 R121). -/
def badBank : BankOk → Option Nat
  | .valid => none
  | .never => some 0xFFFFFFFF
  | .badCode off => some off
  | .badMap => some 0xFFFFFFFE

/-- The outlier check of an MMUL (06 R126). -/
def outlierFault (outl : List Outlier) (plain : Bool) (n : Nat) : Option TrapRec :=
  if outl.isEmpty then none
  else if plain then some (matrixFormat 2 0xFFFFFFFF)
  else (outl.zipIdx.find? (fun e => n ≤ e.1.n)).map (fun e => matrixFormat 2 e.2)

/-- The bytes from the first to the end of the last row. -/
def rowSpan (f : AFmt) (rows : Nat) (stride : Word) : Nat := (rows - 1) * stride.toNat + aBytes f

/-- The issue checks of R266, in their order. -/
def State.checkMmul (s : State) (a : Word) (bank : Fin 2) (f : AFmt) (f32 : Bool) (rows : Nat) (stride : Word) :
    Option TrapRec :=
  let b := s.c.banks[bank]
  let n := wCols b.fmt
  let space : Option TrapRec := match parseAddr a with
    | .local' _ => none
    | .reserved _ => some s.privileged
    | _ => some (cause 0x06 a 0)
  space.orElse fun _ =>
  (if a.toNat % 8 ≠ 0 then some (cause 0x05 a 8) else none).orElse fun _ =>
  (if 1 < rows ∧ stride.toNat % 8 ≠ 0 then some (cause 0x05 (a + stride) 8) else none).orElse fun _ =>
  (if 1 < rows ∧ stride.toNat < aBytes f then some (cause 0x06 a 0) else none).orElse fun _ =>
  (if s.sl.fid.isNone || decide (s.sl.fsize < a.toNat + rowSpan f rows stride) then some (cause 0x06 a 0) else none).orElse fun _ =>
  (if 1024 / n < rows then some (cause 0x06 a 0) else none).orElse fun _ =>
  (if b.loading = 0 then (badBank b.ok).map (fun i => matrixFormat bank.val i) else none).orElse fun _ =>
  outlierFault s.c.outl (unscaled b.fmt f f32) n

/-- Why a command that needs a queue entry and so many range entries freezes its core, if it does (12 R258). A command that the array or the drain
port has taken counts among the 16 until it completes (DESIGN CHOICE, log 77: 06 R128 leaves it open). -/
def State.matrixStall (s : State) (need : Nat) : Option Freeze :=
  if 16 ≤ s.c.mq.length then some .matrixQueue
  else if (s.tiles[s.tile]).freeLocks < need then some (.locks need)
  else none

/-- One more version issued on an accumulator (06 R130). -/
def Core.issueVersion (c : Core) (acc : Fin 8) : Core :=
  { c with accs := vmod c.accs acc (fun x => { x with issued := x.issued + 1 }) }

/-- Queues an entry for the current core and registers its range; its number is `dev.nextReq`. -/
def State.queueEntry (s : State) (kind : MKind) (acc : Fin 8) (ver : BitVec 16) (waitsCopy takesVer : Bool)
    (lock : Option (Nat × Nat × Bool)) : State :=
  let mid := s.dev.nextReq
  let e : MEntry := { mid := mid, kind := kind, acc := acc, ver := ver, waitsCopy := waitsCopy, voided := false, running := false }
  let s1 := { s with dev := { s.dev with nextReq := mid + 1 } }
  let s2 := s1.modTile s.tile (fun t => t.register lock.toList mid)
  s2.modCur (fun c => let c1 := { c with mq := c.mq ++ [e] }; if takesVer then c1.issueVersion acc else c1)

/-- Queues a multiply, which takes the bound outlier list (06 R126, 15 R287). -/
def State.queueMmul (s : State) (a : Word) (acc : Fin 8) (ver : BitVec 16) (bank : Fin 2) (f : AFmt) (f32 : Bool) (rows : Nat)
    (stride : Word) (waitsCopy : Bool) : State :=
  let kind : MKind := .mul bank f f32 a.toNat stride.toNat rows s.c.outl (decide (0 < (s.c.banks[bank]).loading)) [] none
  (s.queueEntry kind acc ver waitsCopy true (some (s.sl.fbase + a.toNat, rowSpan f rows stride, false))).modCur
    (fun c => { c with outl := [] })

/-! ### Instructions -/

/-- MMUL (12 R266). -/
def execMmul (m : Bool) (a b c : Reg) (acc : Fin 8) (bank : Fin 2) (stream : Fin 4) (f32 : Bool) (m1 : BitVec 2)
    (s : State) : Out :=
  cWord m [.scalar a, .scalar b, .scalar c] [] (fun s =>
    let f := s.c.streams[stream]
    let rows := m1.toNat + 1
    match s.checkMmul (s.rs a) bank f f32 rows (s.rs c) with
    | some t => .trap t
    | none => match s.matrixStall 1 with
      | some f => .freeze f
      | none => .ok (s.queueMmul (s.rs a) acc ((s.rs b).setWidth 16) bank f f32 rows (s.rs c) false)) s

/-- The checks of MLW's source (12 R267): the frame or HBM, aligned to 128. -/
def State.checkMlw (s : State) (a : Word) (n : Nat) : Option TrapRec := match parseAddr a with
  | .reserved _ => some s.privileged
  | .local' off =>
    if a.toNat % 128 ≠ 0 then some (cause 0x05 a 128)
    else if s.sl.fid.isNone || decide (s.sl.fsize < off + n) then some (cause 0x06 a 0) else none
  | .hbm _ => if a.toNat % 128 ≠ 0 then some (cause 0x05 a 128) else none
  | _ => some (cause 0x06 a 0)

/-- The range of a local MLW source. -/
def State.mlwLock (s : State) (a : Word) (n : Nat) : Option (Nat × Nat × Bool) := match parseAddr a with
  | .local' off => some (s.sl.fbase + off, n, false)
  | _ => none

/-- MLW queues a bank load; the bank takes its format now (12 R267). A format code from 4 on is illegal, after the checks of the address
(12 R257, R258), which then take 32,768 bytes (DEDUCED, log 59). -/
def execMlw (m : Bool) (a : Reg) (bank : Fin 2) (fmt : BitVec 3) (s : State) : Out :=
  cWord m [.scalar a] [] (fun s =>
    let ad := s.rs a
    match s.checkMlw ad ((WFmt.ofCode fmt.toNat).elim 32768 wBytes) with
    | some t => .trap t
    | none => match WFmt.ofCode fmt.toNat with
      | none => .trap s.illegal
      | some f =>
        let lock := s.mlwLock ad (wBytes f)
        match s.matrixStall lock.toList.length with
        | some f => .freeze f
        | none =>
          .ok ((s.queueEntry (.load bank f ad [] none) 0 0 false false lock).modCur (fun c =>
            { c with banks := vmod c.banks bank (fun b => { b with fmt := f, loading := b.loading + 1 }) }))) s

/-- MFMT (12 R268); a code from 5 on is illegal (12 R257). -/
def execMfmt (m : Bool) (stream : Fin 4) (fmt : BitVec 3) (s : State) : Out :=
  cWord m [] [] (fun s => match AFmt.ofCode fmt.toNat with
    | none => .trap s.illegal
    | some f => .ok (s.modCur (fun c => { c with streams := vset c.streams stream f }))) s

/-- The entries of an outlier list (06 R126). -/
def parseOutl : List Byte → Nat → List Outlier
  | _, 0 => []
  | bs, n + 1 =>
    { k := leNat (bs.take 2), n := leNat ((bs.drop 2).take 2), delta := BitVec.ofNat 32 (leNat ((bs.drop 4).take 4)) } ::
      parseOutl (bs.drop 8) n

/-- MOUT reads and binds a list (06 R126, 12 R269); the refusals of its entries come before the range-lock check (12 R258). -/
def execMout (m : Bool) (a : Reg) (cnt : BitVec 6) (s : State) : Out :=
  cWord m [.scalar a] [] (fun s =>
    let ad := s.rs a
    let n := cnt.toNat + 1
    match s.checkAccess .near ad (8 * n) 8 with
    | some t => .trap t
    | none =>
      let outl := parseOutl (s.frameBytes ad.toNat (8 * n)) n
      match outl.zipIdx.find? (fun e => decide (128 ≤ e.1.k) || decide (1024 ≤ e.1.n)) with
      | some e => .trap (matrixFormat 2 e.2)
      | none => match s.checkLocks ad (8 * n) false with
        | some t => .trap t
        | none => .ok (s.modCur (fun c => { c with outl := outl }))) s

/-- MDRAIN queues a drain and parks until it completes (06 R129, 12 R269). -/
def execMdrain (m : Bool) (a b : Reg) (acc : Fin 8) (cnt : BitVec 10) (s : State) : Out :=
  cWord m [.scalar a, .scalar b] [] (fun s =>
    let ad := s.rs a
    let n := cnt.toNat + 1
    let ver : BitVec 16 := (s.rs b).setWidth 16
    match s.checkAccess .near ad (4 * n) 8 with
    | some t => .trap t
    | none => match s.matrixStall 1 with
      | some f => .freeze f
      | none =>
        .ok ((s.queueEntry (.drain ad.toNat n) acc ver false true (some (s.sl.fbase + ad.toNat, 4 * n, true))).parkOn
          (.drain acc ver s.dev.nextReq))) s

/-- MVER (06 R130). -/
def mverVal (x : Acc) : Word := BitVec.ofNat 64 ((if x.ovfSeen then 65536 else 0) + x.issued.toNat)

def execMver (m : Bool) (c : Reg) (acc : Fin 8) (s : State) : Out :=
  cResult m [] (wS c (some 1)) (fun s => .scalar c (mverVal s.c.accs[acc])) 1 s

/-- MZERO queues a clear (06 R128). -/
def execMzero (m : Bool) (b : Reg) (acc : Fin 8) (s : State) : Out :=
  cWord m [.scalar b] [] (fun s =>
    match s.matrixStall 0 with
    | some f => .freeze f
    | none => .ok (s.queueEntry .zero acc ((s.rs b).setWidth 16) false true none)) s

/-- Is version `c` covered at version `v`: (v − c) mod 2^16 < 2^15? -/
def covers (v c : BitVec 16) : Bool := decide ((v - c).toNat < 32768)

/-- OVF as it stood when the counter reached a version that it has covered. -/
def Acc.ovfAt (x : Acc) (ver : BitVec 16) : Bool := x.ovfLog.getD (x.ver - ver).toNat false

/-- MWAIT parks; it takes no queue entry (06 R129). -/
def execMwait (m : Bool) (b : Reg) (acc : Fin 8) (s : State) : Out :=
  cWord m [.scalar b] [] (fun s =>
    .ok (s.parkOn (.mwait acc ((s.rs b).setWidth 16)))) s

/-! ### The ends of MDRAIN and MWAIT -/

/-- The end of the park of an MDRAIN or MWAIT on an accumulator at a version: the flags of covered commands go into FPFLAGS, and the fault
record, if any, is taken (06 R129, 12 R270). MVER's bit 16 becomes OVF as it stood at that version, whatever has run since, for MVER does not
depend on timing (06 R130). All of it waits for that end also where the command completed while a handler ran (DESIGN CHOICE, log 74). -/
def Core.matrixEnd (c : Core) (acc : Fin 8) (ver : BitVec 16) : Core × Option TrapRec :=
  let x := c.accs[acc]
  let fl := (x.flags.filter (fun e => covers ver e.1)).foldl (fun a e => a ||| e.2) c.fpflags
  let x1 : Acc := { x with flags := x.flags.filter (fun e => !covers ver e.1), ovfSeen := x.ovfAt ver }
  ({ c with accs := vset c.accs acc x1, fpflags := fl, mfault := none }, c.mfault)

/-! ### COPYM (12 R263) -/

/-- A COPYM record. -/
structure CopymRec where
  dst : Word
  src : Word
  len : Nat
  ver : BitVec 16
  rows : Nat
  stride : Word
  acc : Fin 8
  bank : Fin 2
  stream : Fin 4
  f32 : Bool

/-- The record, unless a field lies outside its range. -/
def parseCopym (bs : List Byte) : Option CopymRec :=
  let rows := fieldAt bs 22 2
  let cmd := fieldAt bs 28 1
  if 1 ≤ rows ∧ rows ≤ 4 ∧ cmd < 128 ∧ fieldAt bs 29 3 = 0 then
    some { dst := BitVec.ofNat 64 (fieldAt bs 0 8), src := BitVec.ofNat 64 (fieldAt bs 8 8), len := fieldAt bs 16 4,
           ver := BitVec.ofNat 16 (fieldAt bs 20 2), rows := rows, stride := BitVec.ofNat 64 (fieldAt bs 24 4),
           acc := Fin.ofNat 8 cmd, bank := Fin.ofNat 2 (cmd / 8), stream := Fin.ofNat 4 (cmd / 16), f32 := decide (64 ≤ cmd) }
  else none

/-- Starts the copy of a record with its follow-on. -/
def State.startCopym (s : State) (r : CopymRec) (tag : Fin 16) : State :=
  let mid := s.dev.nextReq
  (s.queueMmul r.dst r.acc r.ver r.bank s.c.streams[r.stream] r.f32 r.rows r.stride true).acceptCopy r.dst r.src r.len tag (some mid)

/-- What freezes a COPYM: its tag, its queues, its two or three range entries. -/
def State.copymStall (s : State) (r : CopymRec) (tag : Fin 16) : Option Freeze :=
  let need := (s.copyLocks (s.copyLoc r.src) (s.copyLoc r.dst) r.len).length + 1
  (s.copyStall tag need).orElse fun _ => s.matrixStall need

/-- COPYM (12 R263): the checks of its record's address, then the refusals of R260 and R266, then the record's range locks (12 R258). -/
def execCopym (m : Bool) (a : Reg) (tag : Fin 16) (s : State) : Out :=
  cWord m [.scalar a] [] (fun s =>
    let ad := s.rs a
    match s.checkAccess .near ad 32 32 with
    | some t => .trap t
    | none => match parseCopym (s.frameBytes ad.toNat 32) with
      | none => .trap (cause 0x06 ad 0)
      | some r =>
        if (match parseAddr r.dst with
          | .local' _ => false
          | _ => true) then .trap (cause 0x06 ad 0)
        else match s.checkCopy r.dst r.src r.len ad with
          | some t => .trap t
          | none => match s.checkMmul r.dst r.bank s.c.streams[r.stream] r.f32 r.rows r.stride with
            | some t => .trap t
            | none => match s.checkLocks ad 32 false with
              | some t => .trap t
              | none => match s.copymStall r tag with
                | some f => .freeze f
                | none => .ok (s.startCopym r tag)) s

/-! ### Which entry may start (06 R122, R128) -/

def MKind.bank? : MKind → Option (Fin 2)
  | .mul b _ _ _ _ _ _ _ _ _ => some b
  | .load b _ _ _ _ => some b
  | _ => none

def MKind.isLoad : MKind → Bool
  | .load _ _ _ _ _ => true
  | _ => false

/-- Has a multiply finished its reads? -/
def MEntry.readsDone (e : MEntry) : Bool := match e.kind with
  | .mul _ _ _ _ _ rows _ _ data _ => e.running && (e.voided || decide (rows ≤ data.length))
  | _ => false

/-- Does an earlier entry `x` hold back `e`: commands on one bank act in issue order? -/
def heldBack (x e : MEntry) : Bool := match x.kind.bank?, e.kind.bank? with
  | some i, some j => i == j && (if e.kind.isLoad then x.kind.isLoad || !x.readsDone else x.kind.isLoad)
  | _, _ => false

/-- Has the version that the entry names been taken by a command that still runs (06 R131)? -/
def Core.verTaken (c : Core) (e : MEntry) : Bool :=
  c.mq.any (fun x => x.running && !x.kind.isLoad && x.acc == e.acc && x.ver == e.ver && x.mid != e.mid)

/-- Is the entry ready? -/
def Core.entryReady (c : Core) (e : MEntry) : Bool :=
  !e.running && !e.waitsCopy && (e.kind.isLoad || ((c.accs[e.acc]).ver == e.ver && !c.verTaken e)) &&
    !((c.mq.takeWhile (fun x => x.mid != e.mid)).any (fun x => heldBack x e))

/-- The unit an entry occupies: 0 the array, 1 the drain port, 2 the load of a bank. -/
def MKind.unit : MKind → Nat
  | .mul _ _ _ _ _ _ _ _ _ _ => 0
  | .load _ _ _ _ _ => 2
  | _ => 1

/-- Is the unit free? The array takes the next command once the rows of the one before are read (06 R124); loads of different banks
do not wait for one another. -/
def Core.unitFree (c : Core) (u : Nat) : Bool :=
  u == 2 || !(c.mq.any (fun e => e.running && e.kind.unit == u && !e.readsDone))

/-- The oldest ready entry of a unit that is free starts. -/
def Core.mayStart (c : Core) (e : MEntry) : Bool :=
  c.entryReady e && c.unitFree e.kind.unit &&
    !((c.mq.takeWhile (fun x => x.mid != e.mid)).any (fun x => c.entryReady x && x.kind.unit == e.kind.unit && x.kind.unit != 2))

/-- Changes an entry of a core. -/
def Core.modEntry (c : Core) (mid : Nat) (f : MEntry → MEntry) : Core :=
  { c with mq := c.mq.map (fun e => if e.mid = mid then f e else e) }

def Core.findEntry (c : Core) (mid : Nat) : Option MEntry := c.mq.find? (fun e => e.mid == mid)

/-- Has a pre-emption reached the core's tile (11 R246)? A core waits for it at its next bundle boundary (16 R310). -/
def State.preempted (s : State) (core : CoreId) : Bool := (s.tiles[tileOf core]).preempt

/-- The core's matrix unit works until a pre-emption reaches its tile (06 R132). -/
def State.matrixMoves (s : State) (core : CoreId) : Bool := (s.cores[core]).sl.isSome && !s.preempted core

/-- A row of a multiply, read once (06 R132). -/
def State.readRow (s : State) (core : CoreId) (f : AFmt) (addr stride i : Nat) : List Byte :=
  s.bytes (sliceKey (s.sliceOn core) (addr + i * stride)) (aBytes f)

/-- The array reads the next row of a running multiply, whose bank is the one that stood when it started (06 R122); after the last row the
range entry frees (04 R97). -/
def State.readNext (s : State) (core : CoreId) (e : MEntry) : State := match e.kind with
  | .mul bank f f32 addr stride rows outl dfr data w =>
    let data' := data ++ [s.readRow core f addr stride data.length]
    let s1 := s.modCore core (fun c => c.modEntry e.mid (fun e =>
      { e with running := true, kind := .mul bank f f32 addr stride rows outl dfr data' (w.or (some (s.cores[core]).banks[bank])) }))
    if rows ≤ data'.length then s1.modTile (tileOf core) (fun t => t.release e.mid) else s1
  | _ => s

/-- The matrix fault record holds the first failure (12 R270). -/
def Core.recordFault (c : Core) (t : TrapRec) : Core := { c with mfault := c.mfault.orElse fun _ => some t }

/-- The pieces in which a bank load from HBM is read, one for each 256-byte block; a local source is read whole as the load completes. -/
def loadPieces (src : Word) (fmt : WFmt) : List Seg := match parseAddr src with
  | .hbm va => cutBlocks 0 (wBytes fmt / 256 + 2) 0 va (wBytes fmt)
  | _ => []

/-- The piece of a running bank load that is to be asked for next. -/
def MEntry.toAsk (e : MEntry) : Option Seg := match e.kind with
  | .load _ _ _ segs _ => if e.running then segs.find? (fun g => g.req.isNone) else none
  | _ => none

/-- A piece of a bank load is asked for, by a request of class 0 to the home of its address (11 R246). -/
def State.askPiece (s : State) (core : CoreId) (e : MEntry) (g : Seg) : State :=
  let terr := (s.sliceOn core).terr
  (s.send (tileOf core).val (hbmNode g.va) 0 (some ((s.cores[core]).sl.getD 0, (s.cores[core]).pos)) terr
    (.read (.hbm g.va) (BitVec.ofNat 64 (0x4000000000000000 + g.va)) g.len (s.shapeVer terr) true)).modCore core (fun c => c.modEntry e.mid (fun e =>
      match e.kind with
      | .load b f a segs bad => { e with kind := .load b f a (segs.map (fun h => if h.off = g.off then { h with req := some s.dev.nextReq } else h)) bad }
      | _ => e))

/-- A unit takes an entry: a multiply reads its first row, unless it is void or its bank turns out invalid; a load is cut into its pieces. -/
def State.startEntry (s : State) (core : CoreId) (e : MEntry) : State := match e.kind with
  | .mul bank _ _ _ _ _ _ _ _ _ =>
    let c := s.cores[core]
    let void (s : State) : State := (s.modCore core (fun c => c.modEntry e.mid (fun e =>
      { e with running := true, voided := true }))).modTile (tileOf core) (fun t => t.release e.mid)
    if e.voided then void s
    else match badBank (c.banks[bank]).ok with
      | some i => void (s.modCore core (fun c => c.recordFault (matrixFormat bank.val i)))
      | none => s.readNext core e
  | .load bank fmt src _ _ => s.modCore core (fun c => c.modEntry e.mid (fun e =>
      { e with running := true, kind := .load bank fmt src (loadPieces src fmt) none }))
  | _ => s.modCore core (fun c => c.modEntry e.mid (fun e => { e with running := true }))

/-- Is a running entry not yet done with what it reads: a row of a multiply, a piece of a load? -/
def MEntry.goesOn (e : MEntry) : Bool := e.running && (e.toAsk.isSome || (e.kind.unit == 0 && !e.readsDone))

/-- A running entry's next read. -/
def State.goOn (s : State) (core : CoreId) (e : MEntry) : State := match e.toAsk with
  | some g => s.askPiece core e g
  | none => s.readNext core e

/-- A unit takes the oldest ready entry, or the array reads the next row of the multiply it runs, or a bank load its next piece. While a debugger halts the core the
queue takes no new command (16 R309). -/
def execMatrixStart (core : CoreId) (k : Nat) (s : State) : Out :=
  let c := s.cores[core]
  match c.findEntry k with
  | none => .next s
  | some e =>
    if !s.matrixMoves core then .next s
    else if e.goesOn then .next (s.goOn core e)
    else if c.mayStart e && !c.dbgHalt then .next (s.startEntry core e)
    else .next s

/-! ### What a multiply computes (06 R125) -/

/-- Weight W(k, n), from the bytes of a bank. -/
def weightAt (f : WFmt) (b : Nat → Byte) (k n : Nat) : Int :=
  let e := 128 * n + k
  match f with
  | .int4 => sext ((b (e / 2)).toNat / 16 ^ (e % 2)) 4
  | .ternary => let code := (b (e / 4)).toNat / 4 ^ (e % 4) % 4
                if code = 1 then 1 else if code = 3 then -1 else 0
  | _ => sext (b e).toNat 8

/-- An activation row as the array reads it (06 R123): the elements, the block exponents, the bad blocks, and flags. -/
structure ActRow where
  vals : List Int
  ea : List Int
  bad : List Bool
  fl : BitVec 6

/-- Consecutive little-endian elements of `n` bytes. -/
def leElems (n : Nat) : Nat → List Byte → List Nat
  | 0, _ => []
  | k + 1, bs => leNat (bs.take n) :: leElems n k (bs.drop n)

def plainRow (vals : List Int) : ActRow :=
  { vals := vals, ea := List.replicate 4 0, bad := List.replicate 4 false, fl := 0 }

def actRow (f : AFmt) (bs : List Byte) : ActRow := match f with
  | .int8 => plainRow (bs.map (fun b => sext b.toNat 8))
  | .int4 => plainRow (bs.flatMap (fun b => [sext b.toNat 4, sext (b.toNat / 16) 4]))
  | .int16 => plainRow ((leElems 2 128 bs).map (fun x => sext x 16))
  | .mxint8 =>
    let sc := (bs.drop 128).map (·.toNat)
    { vals := (bs.take 128).map (fun b => sext b.toNat 8), ea := sc.map (fun (x : Nat) => (x : Int) - 133),
      bad := sc.map (· == 255), fl := 0 }
  | .split =>
    let xs := (leElems 4 128 bs).map fF32.decode
    let blocks := (List.range 4).map (fun b => splitBlock ((xs.drop (32 * b)).take 32))
    { vals := blocks.flatMap (·.1), ea := blocks.map (fun b => (b.2.1 : Int) - 127), bad := blocks.map (fun b => b.2.1 == 255),
      fl := blocks.foldl (fun a b => a ||| b.2.2) 0 }

/-- An accumulator's entries, OVF and flags while a multiply runs. -/
structure MulAcc where
  ents : Array (BitVec 32)
  ovf : Bool
  fl : BitVec 6

/-- The exact sum of K-block b. -/
def blockSum (w : Nat → Int) (a : Array Int) (b : Nat) : Int :=
  (List.range 32).foldl (fun acc i => acc + w (32 * b + i) * a.getD (32 * b + i) 0) 0

/-- ± n × 2^e rounded to FP32. -/
def roundInt (n e : Int) : FRes := fF32.round .rne false (decide (n < 0)) n.natAbs e false

/-- Adds one K-block to an entry. -/
def addBlock (plain : Bool) (eW : Int) (wBad : Bool) (r : ActRow) (S : Int) (b : Nat) (x : BitVec 32 × Bool × BitVec 6) :
    BitVec 32 × Bool × BitVec 6 :=
  if plain then
    let t := x.1.toInt + S
    (BitVec.ofInt 32 t, x.2.1 || decide (t < -2147483648) || decide (2147483647 < t), x.2.2)
  else if wBad || r.bad.getD b false then (BitVec.ofNat 32 fF32.canonNaN, x.2.1, x.2.2 ||| flagNV)
  else
    let v := roundInt S (eW + r.ea.getD b 0)
    let y := fF32.add x.1.toNat v.1
    (BitVec.ofNat 32 y.1, x.2.1, x.2.2 ||| v.2 ||| y.2)

/-- The dense part of row m: columns in ascending order, K-blocks ascending within each. -/
def mulRow (plain : Bool) (wf : WFmt) (b : Nat → Byte) (m : Nat) (r : ActRow) (acc : MulAcc) : MulAcc :=
  let n := wCols wf
  let vals := r.vals.toArray
  (List.range n).foldl (fun acc col =>
    let i := m * n + col
    let x := (List.range 4).foldl (fun x blk =>
      let sc := (b (32768 + 4 * col + blk)).toNat
      addBlock plain (if wf = .mxint8 then (sc : Int) - 133 else 0) (decide (wf = .mxint8) && sc == 255) r
        (blockSum (fun k => weightAt wf b k col) vals blk) blk x) (acc.ents.getD i 0, acc.ovf, acc.fl)
    { ents := acc.ents.setIfInBounds i x.1, ovf := x.2.1, fl := x.2.2 }) { acc with fl := acc.fl ||| r.fl }

/-- RoundNE(d × a × 2^e, f32). -/
def outlierTerm (d : BitVec 32) (a e : Int) : FRes := match fF32.decode d.toNat with
  | .nan sig => (fF32.canonNaN, (Fp.nan sig).sigFlag)
  | .inf n => if a = 0 then (fF32.canonNaN, flagNV) else (fF32.infinity (n != decide (a < 0)), 0)
  | .fin n m q => fF32.round .rne false (n != decide (a < 0)) (m * a.natAbs) (q + e) false

/-- The outlier part of row m, in list order, with the activations the array read (15 R288). -/
def outlierRow (n m : Nat) (r : ActRow) (outl : List Outlier) (acc : MulAcc) : MulAcc :=
  outl.foldl (fun acc o =>
    let i := m * n + o.n
    if r.bad.getD (o.k / 32) false then { acc with ents := acc.ents.setIfInBounds i (BitVec.ofNat 32 fF32.canonNaN) }
    else
      let v := outlierTerm o.delta (r.vals.getD o.k 0) (r.ea.getD (o.k / 32) 0)
      let y := fF32.add (acc.ents.getD i 0).toNat v.1
      { acc with ents := acc.ents.setIfInBounds i (BitVec.ofNat 32 y.1), fl := acc.fl ||| v.2 ||| y.2 }) acc

/-- A sparse list as an array. -/
def denseOf {α : Type} (dflt : α) (n : Nat) (l : List (Nat × α)) : Array α :=
  l.foldl (fun a p => a.setIfInBounds p.1 p.2) (Array.replicate n dflt)

/-- A list as a sparse list: the entries that differ from the default, in order. -/
def sparseOf {α : Type} [DecidableEq α] (dflt : α) (l : List α) : List (Nat × α) :=
  (l.zipIdx.filter (fun p => p.1 ≠ dflt)).map (fun p => (p.2, p.1))

/-- A multiply on an accumulator: the entries, OVF and the flags raised. -/
def multiply (bank : Bank) (f : AFmt) (f32 : Bool) (data : List (List Byte)) (outl : List Outlier) (x : Acc) : Acc × BitVec 6 :=
  let wf := bank.held
  let plain := unscaled wf f f32
  let arr := denseOf (0 : Byte) 33792 bank.bytes
  let rows := (data.map (actRow f)).zipIdx
  let a0 : MulAcc := { ents := denseOf 0 1024 x.ents, ovf := x.ovf, fl := 0 }
  let a1 := rows.foldl (fun a r => mulRow plain wf (fun i => arr.getD i 0) r.2 r.1 a) a0
  let a2 := rows.foldl (fun a r => outlierRow (wCols wf) r.2 r.1 outl a) a1
  ({ x with ents := sparseOf 0 a2.ents.toList, ovf := a2.ovf }, a2.fl)

/-! ### Completion (06 R124, R128 to R130) -/

/-- The lowest byte that holds ternary code 10 (06 R121). -/
def badTernary (bs : List Byte) : Option Nat :=
  bs.findIdx? (fun b => (List.range 4).any (fun i => b.toNat / 4 ^ i % 4 == 2))

/-- A bank after a load of these bytes. -/
def Bank.loaded (b : Bank) (fmt : WFmt) (bs : List Byte) : Bank :=
  { b with held := fmt, bytes := sparseOf 0 bs, loading := b.loading - 1,
           ok := match (if fmt = .ternary then badTernary bs else none) with
             | some off => .badCode off
             | none => .valid }

/-- A load completes: from the frame, or with the pieces read from HBM, where a translation failure leaves the bank invalid (12 R267, R270). -/
def State.loadBank (s : State) (core : CoreId) (bank : Fin 2) (fmt : WFmt) (src : Word) (segs : List Seg) (bad : Option (Nat × TrapRec)) : State :=
  let put (f : Bank → Bank) : State := s.modCore core (fun c => { c with banks := vmod c.banks bank f })
  match parseAddr src, bad with
  | .hbm _, some e => (put (fun b => { b with ok := .badMap, loading := b.loading - 1 })).modCore core (fun c => c.recordFault e.2)
  | .hbm _, none => put (fun b => b.loaded fmt (segs.flatMap (fun g => g.bytes.getD [])))
  | _, _ => put (fun b => b.loaded fmt (s.bytes (sliceKey (s.sliceOn core) src.toNat) (wBytes fmt)))

/-- The version counter advances (06 R128). -/
def Acc.advance (x : Acc) : Acc := { x with ver := x.ver + 1, ovfLog := (x.ovf :: x.ovfLog).take 32768 }

/-- A command completes: its effect on the accumulator, and the version (06 R128). -/
def Core.advanceAcc (c : Core) (acc : Fin 8) (f : Acc → Acc) : Core := { c with accs := vmod c.accs acc (fun x => (f x).advance) }

/-- What a completed command leaves. -/
def State.completeEntry (s : State) (core : CoreId) (e : MEntry) : State :=
  let advance (s : State) (f : Acc → Acc) : State := s.modCore core (fun c => c.advanceAcc e.acc f)
  match e.kind with
  | .load bank fmt src segs bad => s.loadBank core bank fmt src segs bad
  | .zero => advance s (fun x => { x with ents := [], ovf := false })
  | .drain addr n =>
    let x := (s.cores[core]).accs[e.acc]
    let bs := (List.range n).flatMap (fun i => leBytes 4 (sget 0 x.ents i).toNat)
    advance (s.setBytes (sliceKey (s.sliceOn core) addr) bs) id
  | .mul bank f f32 _ _ _ outl _ data w =>
    if e.voided then advance s id
    else advance s (fun x =>
      let r := multiply (w.getD (s.cores[core]).banks[bank]) f f32 data outl x
      { r.1 with flags := if r.2 = 0 then r.1.flags else r.1.flags ++ [(r.1.ver + 1, r.2)] })

/-- Has everything the entry waits for been read? -/
def MEntry.finished (e : MEntry) : Bool := e.running && (match e.kind with
  | .load _ _ _ segs _ => segs.all (fun g => g.bytes.isSome)
  | _ => e.kind.unit != 0 || e.readsDone)

def execMatrixComplete (core : CoreId) (k : Nat) (s : State) : Out :=
  match (s.cores[core]).findEntry k with
  | none => .next s
  | some e =>
    if !s.matrixMoves core || !e.finished then .next s
    else .next (((s.completeEntry core e).modCore core (fun c =>
      { c with mq := c.mq.filter (fun x => x.mid != k) })).modTile (tileOf core) (fun t => t.release k))

/-- Can no entry of the queue ever become ready (06 R128)? -/
def Core.matrixStuck (c : Core) : Bool :=
  c.mq.all (fun e => !e.running && !e.waitsCopy && !c.entryReady e)

end Sys2Proof.Machine
end

