-- ==== Sys2Proof/Machine/Orrery.lean ====
section
/-! DEFINITION. The Orrery of a core (07 R141 to R154; 12 R271 to R274; 18 R335 to R338): its instructions, one tick, and the end of
an ORUN count. An action that takes effect at the next tick boundary is applied when its bundle issues: the tick of a cycle
comes before the bundle of that cycle, so the next tick is the first to see it. -/

namespace Sys2Proof.Machine

/-! ### Patch entries (07 R143, R144) -/

/-- The domain of a cell. -/
def domOf (cell : Nat) : Nat := cell / 128

/-- A source code allowed as dx for a cell. -/
def dxOk (cell code : Nat) : Bool :=
  if code < 512 then domOf code == domOf cell
  else if code < 516 then code == 512 + domOf cell
  else (decide (528 ≤ code) && decide (code < 544)) || code == 1023

/-- A dy term that is allowed: a cell or a port with any sign and shift, or an unused term with none. -/
def dyOk (term : BitVec 16) : Bool :=
  let code := term.toNat % 1024
  if code = 1023 then term == 0x3FF#16 else decide (code < 512) || (decide (528 ≤ code) && decide (code < 544))

/-- An entry as memory holds it. -/
structure PatchEntry where
  cell : Nat
  dx : BitVec 10
  dy : List (BitVec 16)
  zero : Bool

def entryOfWords (w0 w1 : Nat) : PatchEntry :=
  { cell := w0 / 1024 % 512, dx := BitVec.ofNat 10 w0, zero := decide (w0 < 2 ^ 19),
    dy := (List.range 4).map (fun j => BitVec.ofNat 16 (w1 / 65536 ^ j)) }

def entryOfBytes (bs : List Byte) : PatchEntry := entryOfWords (fieldAt bs 0 8) (fieldAt bs 8 8)

def PatchEntry.valid (e : PatchEntry) : Bool := e.zero && dxOk e.cell e.dx.toNat && e.dy.all dyOk

/-- The ports an entry reads. -/
def portsOf (dx : BitVec 10) (dy : List (BitVec 16)) : List Nat :=
  ((dx.toNat :: dy.map (fun t => t.toNat % 1024)).filter (fun c => decide (528 ≤ c) && decide (c < 544))).map (· - 528)

/-- A cell takes an entry. -/
def patchCell (cells : List (Nat × Cell)) (e : PatchEntry) : List (Nat × Cell) :=
  sset Cell.empty cells e.cell { sget Cell.empty cells e.cell with dx := e.dx, dy := e.dy }

/-- The ports that more than one domain reads (07 R144). -/
def sharedPorts (cells : List (Nat × Cell)) : List Nat :=
  (List.range 16).filter (fun p =>
    decide (1 < ((List.range 4).filter (fun d => cells.any (fun c => domOf c.1 == d && (portsOf c.2.dx c.2.dy).contains p))).length))

/-- Does an entry break a rule, where these ports would be read by more than one domain? -/
def PatchEntry.bad (shared : List Nat) (e : PatchEntry) : Bool := !e.valid || (portsOf e.dx e.dy).any (fun p => shared.contains p)

/-- The index of the first of these entries that breaks a rule, in the patch `cells` that they would make. -/
def badEntry (es : List PatchEntry) (cells : List (Nat × Cell)) : Option Nat := es.findIdx? (PatchEntry.bad (sharedPorts cells))

/-- The entry that a `.patch` directive gave the code object (07 R142). -/
def Orrery.patched (o : Orrery) (ps : List (Word × Word)) : Orrery :=
  { o with cells := ps.foldl (fun cs p => let e := entryOfWords p.1.toNat p.2.toNat
                              if e.valid then patchCell cs e else cs) o.cells }

/-! ### Small updates -/

def State.modOrr (s : State) (core : CoreId) (f : Orrery → Orrery) : State := s.modCore core (fun c => { c with orr := f c.orr })

def Orrery.cell (o : Orrery) (c : Nat) : Cell := sget Cell.empty o.cells c

def Orrery.setCell (o : Orrery) (c : Nat) (f : Cell → Cell) : Orrery := { o with cells := sset Cell.empty o.cells c (f (o.cell c)) }

def Orrery.modDom (o : Orrery) (d : Fin 4) (f : Dom → Dom) : Orrery := { o with doms := vmod o.doms d f }

def Orrery.modPort (o : Orrery) (k : Fin 16) (f : Port → Port) : Orrery := { o with ports := vmod o.ports k f }

def Orrery.modTap (o : Orrery) (k : Fin 16) (f : Tap → Tap) : Orrery := { o with taps := vmod o.taps k f }

/-- The domains of a mask. -/
def maskDoms (mask : BitVec 4) : List (Fin 4) := (List.finRange 4).filter (fun (d : Fin 4) => mask.getLsbD d.val)

/-! ### Changes to running domains (07 R152) -/

/-- Does the domain of a cell run? -/
def Orrery.cellRuns (o : Orrery) (cell : Nat) : Bool := (List.finRange 4).any (fun d => d.val == domOf cell && (o.doms[d]).run)

/-- A change reaches its cell. -/
def Orrery.apply (o : Orrery) : OrrWrite → Orrery
  | .y c x => o.setCell c (fun k => { k with y := x })
  | .res c x => o.setCell c (fun k => { k with res := x })
  | .patch c dx dy => o.setCell c (fun k => { k with dx := dx, dy := dy })

/-- Every change on its way reaches its cell, in order. -/
def Orrery.flushLate (o : Orrery) : Orrery := o.late.foldl (fun o w => o.apply w.2) { o with late := [] }

/-- A change is made: at once in a halted domain; on its way, for at most two ticks, in a running one (DESIGN CHOICE, log 60: when a change
to a running domain completes). -/
def Orrery.write (o : Orrery) (cell : Nat) (w : OrrWrite) : Orrery :=
  if o.cellRuns cell then { o with late := o.late ++ [(2, w)] } else o.apply w

/-- The changes that have waited their two ticks reach their cells, with those before them; the others too if the free choice says so. -/
def Orrery.tickLate (o : Orrery) (all : Bool) : Orrery :=
  let q := o.late.map (fun w => (w.1 - 1, w.2))
  let n := if all then q.length else (q.takeWhile (fun w => w.1 = 0)).length
  { (q.take n).foldl (fun o w => o.apply w.2) o with late := q.drop n }

/-- After an OSET or OPATCH: a free choice whether what is on its way reaches its cells at once. -/
def State.chooseLate (s : State) (core : CoreId) : State :=
  if (s.cores[core]).orr.late.isEmpty then s
  else
    let s1 := { s with stepNo := s.stepNo + 1 }
    if Config.picks s.stepNo 0 then s1.modOrr core Orrery.flushLate else s1

/-! ### Taps hand over (07 R150) -/

/-- A ring of the slice on a core. -/
def State.ringOn (s : State) (core : CoreId) (r : Nat) : Option RingSt := (s.sliceOn core).rings[r]?

/-- The frame offset of the slot a tap holds: the last one taken. -/
def tapSlot (r : RingSt) : Nat := r.slotOff (r.tail + r.got - 1)

/-- Hands over the slot a tap holds, as RPUT does. -/
def State.tapHand (s : State) (core : CoreId) (k : Fin 16) : State :=
  let t := (s.cores[core]).orr.taps[k]
  (s.modRing ((s.cores[core]).sl.getD 0) t.ring.val (fun r => { r with tail := r.tail + 1, got := r.got - 1 })).modOrr core
    (fun o => o.modTap k (fun t => { t with holds := false, samples := 0 }))

/-- Hands over a partly filled slot with its remaining bytes zeroed. The count of steps toward the tap's next sample goes on over halts and starts
anew only with the tap (DESIGN CHOICE, log 78: 07 R150 leaves it open). -/
def State.tapFlush (s : State) (core : CoreId) (k : Fin 16) : State :=
  let t := (s.cores[core]).orr.taps[k]
  if t.mode = 2 && t.holds then
    match s.ringOn core t.ring.val with
    | some r =>
      let off := 4 * t.w * t.samples
      (s.setBytes (sliceKey (s.sliceOn core) (tapSlot r + off)) (List.replicate (r.bytes - off) 0)).tapHand core k
    | none => s
  else s

/-- A running domain halts: its sample taps hand over (07 R150). An OHALT of a halted domain, and an overrun in a step that an OSTEP makes, hand
over no slot, for no domain halts then (DESIGN CHOICE, log 78). -/
def State.haltDom (s : State) (core : CoreId) (d : Fin 4) : State :=
  let o := (s.cores[core]).orr
  if (o.doms[d]).run then
    let s1 := s.modOrr core (fun o => o.flushLate.modDom d (fun x => { x with run := false }))
    (List.finRange 16).foldl (fun s k => if domOf (o.taps[k]).cell = d.val then s.tapFlush core k else s) s1
  else s

/-- Every domain stops at a step boundary that is no halt of R150: a tap keeps its slot (18 R338). -/
def State.stopDoms (s : State) (core : CoreId) : State :=
  s.modOrr core (fun o => { o.flushLate with doms := o.doms.map (fun x => { x with run := false }) })

def State.haltDoms (s : State) (core : CoreId) (ds : List (Fin 4)) : State := ds.foldl (fun s d => s.haltDom core d) s

/-! ### Instructions (12 R271 to R274) -/

/-- OPATCH reads and checks its entries at issue. -/
def execOpatch (m : Bool) (a : Reg) (cnt : BitVec 9) (s : State) : Out :=
  cWord m [.scalar a] [] (fun s =>
    let ad := s.rs a
    let n := cnt.toNat + 1
    match s.checkAccess .near ad (16 * n) 16 with
    | some t => .trap t
    | none =>
      let es := (List.range n).map (fun i => entryOfBytes (s.frameBytes (ad.toNat + 16 * i) 16))
      match badEntry es (es.foldl patchCell s.c.orr.flushLate.cells) with
      | some i => .trap (cause 0x06 (ad + BitVec.ofNat 64 (16 * i)) 0)
      | none => match s.checkLocks ad (16 * n) false with
        | some t => .trap t
        | none => .ok ((s.modOrr s.cur (fun o => es.foldl (fun o e => o.write e.cell (.patch e.cell e.dx e.dy)) o)).chooseLate s.cur)) s

/-- OCLK sets a period; on a running domain it is illegal. -/
def execOclk (m : Bool) (dom : Fin 4) (n : BitVec 13) (s : State) : Out :=
  cWord m [] [] (fun s =>
    if 4096 < n.toNat ∨ (s.c.orr.doms[dom]).run then .trap s.illegal
    else .ok (s.modOrr s.cur (fun o => o.modDom dom (fun x => { x with period := n.toNat })))) s

/-- OSET of a cell; an index from 512 on is illegal (12 R257, R272). -/
def State.osetCell (s : State) (cell : Nat) (w : OrrWrite) : Res :=
  if 512 ≤ cell then .trap s.illegal else .ok ((s.modOrr s.cur (fun o => o.write cell w)).chooseLate s.cur)

def execOsetY (m : Bool) (a : Reg) (cell : BitVec 10) (s : State) : Out :=
  cWord m [.scalar a] [] (fun s => s.osetCell cell.toNat (.y cell.toNat ((s.rs a).setWidth 32))) s

def execOsetRes (m : Bool) (a : Reg) (cell : BitVec 10) (s : State) : Out :=
  cWord m [.scalar a] [] (fun s => s.osetCell cell.toNat (.res cell.toNat ((s.rs a).setWidth 32))) s

/-- The port or tap that an index names. -/
def index16 (x : BitVec 10) : Option (Fin 16) := if h : x.toNat < 16 then some ⟨x.toNat, h⟩ else none

/-- The sign of an integer as an increment. -/
def incOf (x : Int) : Int := if x < 0 then -1 else if x = 0 then 0 else 1

/-- OSET in its port form appends 32 lane signs. -/
def execOsetPort (m : Bool) (a : Reg) (port : BitVec 10) (s : State) : Out :=
  cWord m [.vector a] [] (fun s => match index16 port with
    | none => .trap s.illegal
    | some k =>
      if 32 < ((s.c.orr.ports[k]).queue).length then .trap s.illegal
      else
        let incs := (List.range 32).map (fun i => incOf (lane (s.rv a) i).toInt)
        .ok (s.modOrr s.cur (fun o => o.modPort k (fun p => { p with queue := p.queue ++ incs })))) s

/-- A port is bound to a ring, or unbound from its ring. Unbound in the middle of a slot it does not release the slot, whose bytes a later binding
reads again from the first (DESIGN CHOICE, log 75). -/
def State.bindPort (s : State) (k : Fin 16) (ring : Fin 16) (unb : Bool) : Res :=
  let p := s.c.orr.ports[k]
  if unb then
    match p.ring with
    | none => .trap (ringState k.val)
    | some r => .ok ((s.modRing s.uid r.val (fun x => { x with user := none, taken := 0 })).modOrr s.cur
        (fun o => o.modPort k (fun p => { p with ring := none })))
  else match s.ringNamed ring.val with
    | .error t => .trap t
    | .ok r =>
      if p.ring.isSome || !(r.live && r.dir == some false) || r.got != 0 || r.user.isSome then .trap (ringState ring.val)
      else .ok ((s.modRing s.uid ring.val (fun x => { x with user := some (s.c.pos, .port k), taken := 0 })).modOrr s.cur
        (fun o => o.modPort k (fun p => { p with ring := some ring })))

/-- OSET in its binding form. -/
def execOsetBind (m : Bool) (port : BitVec 10) (ring : Fin 16) (unb : Bool) (s : State) : Out :=
  cWord m [] [] (fun s => match index16 port with
    | none => .trap s.illegal
    | some k => s.bindPort k ring unb) s

/-- The status word of a domain (07 R153). -/
def Orrery.status (o : Orrery) (d : Fin 4) : Word :=
  let x := o.doms[d]
  BitVec.ofNat 64 (x.steps.toNat * 2 ^ 32 + x.period % 8192 * 64 + bit64 x.ovr 2 + bit64 o.hold 1 + bit64 x.run 0)

/-- What an OGET reads, as it stands (07 R152, R153). -/
def Orrery.value (o : Orrery) : OrrRead → Word
  | .y c => (o.cell c).y.signExtend 64
  | .res c => (o.cell c).res.setWidth 64
  | .tap k => (o.taps[k]).count
  | .dom d => o.status d

/-- Does the domain that a read belongs to run? -/
def Orrery.readRuns (o : Orrery) : OrrRead → Bool
  | .y c => o.cellRuns c
  | .res c => o.cellRuns c
  | .tap k => (o.taps[k]).mode != 0 && o.cellRuns (o.taps[k]).cell
  | .dom d => (o.doms[d]).run

/-- OGET at latency 2: the value at issue, which later step boundaries of a running domain may replace until it lands (07 R152). -/
def State.oget (s : State) (c : Reg) (r : OrrRead) : Res :=
  let o := s.c.orr
  .ok (s.modCur (fun k => { k with flight := k.flight ++
    [{ dist := 2, wr := .scalar c (o.value r), flags := 0, src := if o.readRuns r then some r else none }] }))

def execOgetY (m : Bool) (c : Reg) (cell : BitVec 10) (s : State) : Out :=
  cWord m [] (wS c (some 2)) (fun s => if 512 ≤ cell.toNat then .trap s.illegal else s.oget c (.y cell.toNat)) s

def execOgetRes (m : Bool) (c : Reg) (cell : BitVec 10) (s : State) : Out :=
  cWord m [] (wS c (some 2)) (fun s => if 512 ≤ cell.toNat then .trap s.illegal else s.oget c (.res cell.toNat)) s

def execOgetTap (m : Bool) (c : Reg) (tap : BitVec 10) (s : State) : Out :=
  cWord m [] (wS c (some 2)) (fun s => match index16 tap with
    | none => .trap s.illegal
    | some k => s.oget c (.tap k)) s

def execOgetDom (m : Bool) (c : Reg) (dom : BitVec 10) (s : State) : Out :=
  cWord m [] (wS c (some 2)) (fun s => if h : dom.toNat < 4 then s.oget c (.dom ⟨dom.toNat, h⟩) else .trap s.illegal) s

/-- A halted domain that OSTEP names takes one step more; STEPS counts anew in every domain it names (07 R153). -/
def Dom.ask (x : Dom) : Dom := if x.run then { x with steps := 0 } else { x with once := x.once + 1, steps := 0, ovr := false }

/-- The tick of the cycle in which an ORUN or OSTEP issues is past: the first that sees it is the next (07 R146, 18 R336). -/
def Orrery.started (o : Orrery) (now : Nat) : Orrery := { o with lastTick := some now }

def execOstep (m : Bool) (mask : BitVec 4) (s : State) : Out :=
  cWord m [] [] (fun s =>
    .ok (s.modOrr s.cur (fun o => ((maskDoms mask).foldl (fun o d => o.modDom d Dom.ask) o).started s.now))) s

/-- A domain that ORUN starts. -/
def Dom.start (n : BitVec 32) (x : Dom) : Dom :=
  { x with run := true, count := n, left := if n = 0 then none else some n.toNat, steps := 0, ovr := false, phase := 0 }

def execOrun (m : Bool) (a : Reg) (mask : BitVec 4) (s : State) : Out :=
  cWord m [.scalar a] [] (fun s =>
    let ds := maskDoms mask
    if mask = 0 ∨ ds.any (fun d => (s.c.orr.doms[d]).run || (s.c.orr.doms[d]).period == 0) = true then .trap s.illegal
    else .ok (s.modOrr s.cur (fun o => (ds.foldl (fun o d => o.modDom d (Dom.start ((s.rs a).setWidth 32))) o).started s.now))) s

def execOhalt (m : Bool) (mask : BitVec 4) (s : State) : Out :=
  cWord m [] [] (fun s => .ok (s.haltDoms s.cur (maskDoms mask))) s

/-- Does a tap descriptor follow R274? -/
def tapOk (x : Word) : Bool :=
  let mode := wbits x 1 0
  let w := wbits x 3 2
  let cell := wbits x 16 8
  wbits x 63 33 == 0 && mode != 3 && w != 3 &&
    (if mode = 0 then x == 0
     else if mode = 1 then wbits x 32 17 == 0 && w == 0 && wbits x 7 4 == 0
     else domOf (cell + 2 ^ w - 1) == domOf cell)

/-- The tap a descriptor asks for. -/
def tapOf (x : Word) : Tap :=
  { mode := wbits x 1 0, cell := wbits x 16 8, w := 2 ^ wbits x 3 2, p := wbits x 32 17 + 1, ring := Fin.ofNat 16 (wbits x 7 4),
    count := 0, samples := 0, since := 0, holds := false }

/-- Is a tap in use and its domain running? -/
def Orrery.tapRuns (o : Orrery) (t : Tap) : Bool :=
  t.mode != 0 && (List.finRange 4).any (fun d => d.val == domOf t.cell && (o.doms[d]).run)

/-- Sets a tap: the old one hands over and frees its ring, the new one becomes its ring's only producer. -/
def State.setTap (s : State) (k : Fin 16) (t : Tap) : State :=
  let old := s.c.orr.taps[k]
  let s1 := if old.mode = 2 then (s.tapFlush s.cur k).modRing s.uid old.ring.val (fun r => { r with user := none }) else s
  let s2 := if t.mode = 2 then s1.modRing s.uid t.ring.val (fun r => { r with user := some (s.c.pos, .tap k) }) else s1
  s2.modOrr s.cur (fun o => { o with taps := vset o.taps k t })

/-- OTAP (12 R273, R274). Of several refusals, a bad descriptor comes first, then a running domain, then the ring (DESIGN CHOICE, log 58: 12 R273
gives them no order). -/
def execOtap (m : Bool) (a : Reg) (tap : Fin 16) (s : State) : Out :=
  cWord m [.scalar a] [] (fun s =>
    let x := s.rs a
    let t := tapOf x
    let o := s.c.orr
    if !tapOk x then .trap (cause 0x06 x 0)
    else if o.tapRuns o.taps[tap] || o.tapRuns t then .trap s.illegal
    else if t.mode = 2 then
      match s.ringNamed t.ring.val with
      | .error e => .trap e
      | .ok r =>
        let mine := r.user == some (s.c.pos, .tap tap)
        if !(r.live && r.dir == some true) || (r.user.isSome && !mine) then .trap (ringState t.ring.val)
        else .ok (s.setTap tap t)
    else .ok (s.setTap tap t)) s

/-! ### One tick (07 R145 to R151) -/

/-- Is this cycle of the time base a core cycle of the tile's island? The island clock is a number of sixteenths of nominal
(21 R361). -/
def State.coreTick (s : State) (t : TileId) : Bool :=
  let clk := s.clkOf (islandOf t)
  decide (s.now * clk / 16 < (s.now + 1) * clk / 16)

/-- Is a core of the gang it issues with frozen? -/
def State.frozenUnit (s : State) (core : CoreId) : Bool :=
  let u := ({ s with cur := core }).ctlId
  (s.gang u).any (fun d => (s.cores[d]).freeze.isSome)

/-- Does the Orrery have anything to do at a tick? -/
def Orrery.active (o : Orrery) : Bool := o.hold || (List.finRange 4).any (fun d => (o.doms[d]).run || (o.doms[d]).once != 0)

/-- A tick is due: the core stands in no freeze and no halt, and this core cycle has had none (07 R146, 18 R338). -/
def State.tickDue (s : State) (core : CoreId) : Bool :=
  let c := s.cores[core]
  c.sl.isSome && c.orr.active && c.orr.lastTick != some s.now && !c.halted && !c.dbgHalt && s.coreTick (tileOf core) &&
    !s.frozenUnit core

/-- Does a domain step in this tick? -/
def Dom.steps? (x : Dom) : Bool := x.once != 0 || (x.run && x.phase == 0 && x.left != some 0)

/-- The ports a domain reads. -/
def Orrery.domPorts (o : Orrery) (d : Fin 4) : List (Fin 16) :=
  (List.finRange 16).filter (fun p => o.cells.any (fun c => domOf c.1 == d.val && (portsOf c.2.dx c.2.dy).contains p.val))

/-- The next increment of a port: the oldest queued one, or the sign of the next byte of its ring's slot, which is read no sooner than a step needs
it (DESIGN CHOICE, log 75: 07 R149 gives neither the moment nor the order of the two). -/
def State.portNext (s : State) (core : CoreId) (k : Fin 16) : Option Int :=
  let p := (s.cores[core]).orr.ports[k]
  match p.queue with
  | x :: _ => some x
  | [] => match p.ring with
    | none => none
    | some r => match s.ringOn core r.val with
      | none => none
      | some x => if x.has x.head then
          some (incOf (s.byte (sliceKey (s.sliceOn core) (x.slotOff x.head + x.taken))).toInt) else none

/-- A port gives up its next increment; after a slot's last byte the slot is released as by RREL (07 R149). -/
def State.portTake (s : State) (core : CoreId) (k : Fin 16) : State :=
  let p := (s.cores[core]).orr.ports[k]
  match p.queue with
  | _ :: q => s.modOrr core (fun o => o.modPort k (fun p => { p with queue := q, head := (p.head + 1) % 64 }))
  | [] => match p.ring with
    | none => s
    | some r => s.modRing ((s.cores[core]).sl.getD 0) r.val (fun x =>
        if x.taken + 1 < x.bytes then { x with taken := x.taken + 1 } else { x.freeSlot s.now with taken := 0 })

/-- A sample tap that must write in this tick and has no slot and can take none (07 R146, 18 R337). -/
def State.tapStuck (s : State) (core : CoreId) (go : List (Fin 4)) (t : Tap) : Bool :=
  t.mode == 2 && go.any (fun d => d.val == domOf t.cell) && !t.holds && t.since + 1 == t.p &&
    (match s.ringOn core t.ring.val with
      | some r =>
        let j := r.tail + r.got
        !(decide (r.got < r.slots) && r.has j && (match r.sub with
          | some b => !b.waitsLcb && decide (j < b.items)
          | none => false))
      | none => true)

/-- The index of FIFO (a, b) (07 R154). -/
def fifoIdx (a b : Fin 4) : Fin 12 := ⟨(3 * a.val + (if a.val < b.val then b.val - 1 else b.val)) % 12, by omega⟩

/-- What the stepping domains take in a tick: increments of ports, and the oldest entries of the FIFOs that feed them. -/
structure TickIn where
  go : List (Fin 4)
  incs : List (Nat × Int)
  took : List (Nat × List (Nat × Int))

/-- The increment of a source other than a cell of the stepping domain. -/
def TickIn.port (t : TickIn) (code : Nat) : Int := ((t.incs.find? (fun x => x.1 == code - 528)).map (·.2)).getD 0

def TickIn.foreign (t : TickIn) (a b : Fin 4) (cell : Nat) : Int :=
  match t.took.find? (fun x => x.1 == (fifoIdx a b).val) with
  | some (_, e) => sget 0 e cell
  | none => 0

/-- dx of a cell (07 R144). -/
def dxVal (o : Orrery) (t : TickIn) (c : Cell) : Int :=
  let x := c.dx.toNat
  if x < 512 then (o.cell x).dz else if x < 516 then 1 else if x = 1023 then 0 else t.port x

/-- Phase 1 of a step: dz and the new residue of a cell (07 R145). -/
def phase1 (o : Orrery) (t : TickIn) (c : Cell) : Int × BitVec 32 :=
  let x : Int := c.res.toNat + dxVal o t c * c.y.toInt
  (x / 4294967296, BitVec.ofInt 32 (x % 4294967296))

/-- The cells of the stepping domains, with what phase 1 gives them. -/
def phase1All (o : Orrery) (t : TickIn) : List (Nat × Cell × Int × BitVec 32) :=
  (o.cells.filter (fun c => t.go.any (fun d => d.val == domOf c.1))).map (fun c => (c.1, c.2, phase1 o t c.2))

/-- This step's dz by cell. -/
def dzMap (p1 : List (Nat × Cell × Int × BitVec 32)) (c : Nat) : Int := ((p1.find? (fun x => x.1 == c)).map (·.2.2.1)).getD 0

/-- The domain of a cell as one of the four. -/
def domFin (cell : Nat) : Fin 4 := Fin.ofNat 4 (domOf cell)

/-- The increment of a dy term of a cell of domain d. -/
def termInc (t : TickIn) (dz : Nat → Int) (d : Fin 4) (code : Nat) : Int :=
  if 528 ≤ code then t.port code
  else if domFin code = d then dz code
  else t.foreign (domFin code) d code

/-- The new integrand, exactly (07 R145). -/
def newY (t : TickIn) (dz : Nat → Int) (d : Fin 4) (c : Cell) : Int :=
  c.y.toInt + (c.dy.map (fun (term : BitVec 16) =>
    let code := term.toNat % 1024
    if code = 1023 then 0
    else (if term.getLsbD 15 then -1 else 1) * termInc t dz d code * 2 ^ (term.toNat / 1024 % 32))).sum

/-- The cells of domain a that a dy term of domain b names, in ascending order (07 R148). -/
def Orrery.named (o : Orrery) (a b : Fin 4) : List Nat :=
  (List.range 128).map (· + 128 * a.val) |>.filter (fun c =>
    o.cells.any (fun x => domFin x.1 == b && x.2.dy.any (fun (t : BitVec 16) => t.toNat % 1024 == c)))

/-- The entry a step of domain a pushes to FIFO (a, b): the dz that are not zero. -/
def pushOf (o : Orrery) (dz : Nat → Int) (a b : Fin 4) : List (Nat × Int) :=
  ((o.named a b).map (fun c => (c, dz c))).filter (fun x => x.2 != 0)

/-- The pairs of a stepping domain and another. -/
def pushPairs (go : List (Fin 4)) : List (Fin 4 × Fin 4) :=
  go.flatMap (fun a => ((List.finRange 4).filter (· != a)).map (fun b => (a, b)))

/-- An overrun's place: domain, sub-cause, cell (07 R151). -/
abbrev Over := Nat × Nat × Nat

def overLess (x y : Over) : Bool :=
  decide (x.1 < y.1) || (x.1 == y.1 && (decide (x.2.1 < y.2.1) || (x.2.1 == y.2.1 && decide (x.2.2 < y.2.2))))

/-- The overruns of a tick. -/
def overruns (o : Orrery) (t : TickIn) (p1 : List (Nat × Cell × Int × BitVec 32)) : List Over :=
  let dz := dzMap p1
  (p1.filterMap (fun x =>
    let y := newY t dz (domFin x.1) x.2.1
    if y < -2147483648 ∨ 2147483647 < y then some (domOf x.1, 0, x.1) else none)) ++
  ((pushPairs t.go).filterMap (fun ab =>
    let q := o.fifos[fifoIdx ab.1 ab.2]
    let took := if t.took.any (fun x => x.1 == (fifoIdx ab.1 ab.2).val) then 1 else 0
    match pushOf o dz ab.1 ab.2 with
    | [] => none
    | (c, _) :: _ => if 15 ≤ q.length - took then some (ab.1.val, 1, c) else none))

/-- The cells after a tick. -/
def commitCells (o : Orrery) (t : TickIn) (p1 : List (Nat × Cell × Int × BitVec 32)) : List (Nat × Cell) :=
  let dz := dzMap p1
  (o.cells.map (fun c => match p1.find? (fun x => x.1 == c.1) with
    | some (_, _, z, r) => (c.1, { c.2 with y := BitVec.ofInt 32 (newY t dz (domFin c.1) c.2), res := r, dz := z })
    | none => c)).filter (fun c => c.2 != Cell.empty)

/-- The FIFOs after a tick: entries taken, then entries pushed. -/
def commitFifos (o : Orrery) (t : TickIn) (dz : Nat → Int) : Vector (List (List (Nat × Int))) 12 :=
  let f1 := t.took.foldl (fun f x => vmod f (Fin.ofNat 12 x.1) List.tail) o.fifos
  (pushPairs t.go).foldl (fun f ab => match pushOf o dz ab.1 ab.2 with
    | [] => f
    | e => vmod f (fifoIdx ab.1 ab.2) (fun q => q ++ [e])) f1

/-- A domain after a tick: one that stepped for OSTEP, one that stepped for ORUN, or one whose period runs on. An OSTEP's step that a held Orrery
has kept waiting stays pending at an OHALT or OSAVE and goes at an ORST; where an ORUN comes meanwhile, that step is taken first and is none of the
run's (DESIGN CHOICE, log 78: 07 R146 leaves it open). -/
def Dom.after (x : Dom) (stepped : Bool) : Dom :=
  if stepped then
    if x.once != 0 then { x with once := x.once - 1, steps := if x.run then x.steps else x.steps + 1 }
    else { x with steps := x.steps + 1, phase := x.period - 1, left := x.left.map (· - 1) }
  else if x.run then { x with phase := x.phase - 1 } else x

/-- A count tap adds dz; a sample tap takes a slot when it needs one and writes Y (07 R150, 18 R337). -/
def State.tapAct (s : State) (core : CoreId) (k : Fin 16) (dz : Nat → Int) : State :=
  let t := (s.cores[core]).orr.taps[k]
  if t.mode = 1 then s.modOrr core (fun o => o.modTap k (fun t => { t with count := t.count + BitVec.ofInt 64 (dz t.cell) }))
  else if t.mode = 2 then
    if t.since + 1 < t.p then s.modOrr core (fun o => o.modTap k (fun t => { t with since := t.since + 1 }))
    else
      let s1 := if t.holds then s else
        s.modRing ((s.cores[core]).sl.getD 0) t.ring.val (fun r => { r with got := r.got + 1 })
      match s1.ringOn core t.ring.val with
      | none => s1
      | some r =>
        let o := (s.cores[core]).orr
        let bs := (List.range t.w).flatMap (fun i => leBytes 4 (o.cell (t.cell + i)).y.toNat)
        let s2 := (s1.setBytes (sliceKey (s.sliceOn core) (tapSlot r + 4 * t.w * t.samples)) bs).modOrr core
          (fun o => o.modTap k (fun t => { t with since := 0, samples := t.samples + 1, holds := true }))
        if t.samples + 1 = r.bytes / (4 * t.w) then s2.tapHand core k else s2
  else s

/-- An asynchronous cause for a core. -/
def State.causeFor (s : State) (core : CoreId) (t : TrapRec) : State :=
  s.modCore core (fun c => { c with causes := c.causes ++ [t] })

/-- An increment overrun: nothing of the tick happens, every domain halts with OVR, and the core takes 0x10 (07 R151). -/
def State.overrun (s : State) (core : CoreId) (x : Over) : State :=
  let s1 := s.haltDoms core (List.finRange 4)
  (s1.modOrr core (fun o => { o with doms := o.doms.map (fun d => { d with ovr := true, once := 0 }) })).causeFor core
    { code := 0x10, i0 := BitVec.ofNat 64 x.2.2, i1 := BitVec.ofNat 64 (x.1 * 2 + x.2.1), async := true }

/-- The least overrun. -/
def leastOver : List Over → Option Over
  | [] => none
  | x :: r => match leastOver r with
    | none => some x
    | some y => if overLess y x then some y else some x

/-- The domains `go` step in one tick (07 R147). -/
def State.orrStep (s : State) (core : CoreId) (go : List (Fin 4)) : State :=
  let o := (s.cores[core]).orr
  let ports := ((go.flatMap o.domPorts).eraseDups)
  let t : TickIn :=
    { go := go, incs := ports.map (fun p => (p.val, (s.portNext core p).getD 0)),
      took := go.flatMap (fun b => ((List.finRange 4).filter (· != b)).filterMap (fun a =>
        ((o.fifos[fifoIdx a b]).head?).map (fun e => ((fifoIdx a b).val, e)))) }
  let p1 := phase1All o t
  match leastOver (overruns o t p1) with
  | some x => s.overrun core x
  | none =>
    let dz := dzMap p1
    let s1 := ports.foldl (fun s p => s.portTake core p) s
    let s2 := s1.modOrr core (fun o' => { o' with cells := commitCells o t p1, fifos := commitFifos o t dz })
    let s3 := (List.finRange 16).foldl (fun s k =>
      if go.any (fun d => d.val == domOf (o.taps[k]).cell) then s.tapAct core k dz else s) s2
    s3.modOrr core (fun o' => { o' with doms := Vector.ofFn (fun d => (o'.doms[d]).after (go.contains d)) })

/-- The results of OGETs of running domains that are on their way may take the value of the step boundary just reached (07 R152). -/
def reread (stepNo : Nat) (o : Orrery) (fs : List Flight) : List Flight := fs.zipIdx.map (fun f => match f.1.src, f.1.wr with
  | some r, .scalar d _ => if Config.picks stepNo (f.2 + 1) then { f.1 with wr := .scalar d (o.value r) } else f.1
  | _, _ => f.1)

/-- Is the end of a domain's ORUN count due? -/
def Core.countDone (k : Core) (d : Fin 4) : Bool := (k.orr.doms[d]).run && (k.orr.doms[d]).left == some 0

/-- After a tick: the free choices about changes to running domains and reads of them that are under way. -/
def State.afterTick (s : State) (core : CoreId) : State :=
  let k := s.cores[core]
  let reads (fs : List Flight) : Bool := fs.any (·.src.isSome)
  if k.orr.late.isEmpty && !reads k.flight && !(k.replay.any (fun r => reads r.flight)) then s
  else
    let n := s.stepNo
    ({ s with stepNo := n + 1 }).modCore core (fun k =>
      let o := k.orr.tickLate (Config.picks n 0)
      { k with orr := o, flight := reread n o k.flight, replay := k.replay.map (fun (r : Replay) => ({ r with flight := reread n o r.flight } : Replay)) })

/-- The step boundary is reached once the domains whose counts are done have halted (07 R146, R152). -/
def State.settleTick (s : State) (core : CoreId) : State :=
  if (List.finRange 4).any (s.cores[core]).countDone then s else s.afterTick core

/-- A tick: the Orrery holds, or its domains step (07 R146). -/
def State.orrTick (s : State) (core : CoreId) : State :=
  let o := (s.cores[core]).orr
  let go := (List.finRange 4).filter (fun d => (o.doms[d]).steps?)
  let held := go.any (fun d => (o.domPorts d).any (fun p => (s.portNext core p).isNone)) || o.taps.toList.any (s.tapStuck core go)
  let s1 := s.modOrr core (fun o => { o with lastTick := some s.now, hold := held })
  if held then s1 else (s1.orrStep core go).settleTick core

def execOrreryTick (core : CoreId) (s : State) : Out :=
  if s.tickDue core then .next (s.orrTick core) else .next s

/-- A domain whose count is done halts (07 R146). -/
def execOrreryCountEnd (core : CoreId) (dom : Fin 4) (s : State) : Out :=
  if (s.cores[core]).countDone dom then .next ((s.haltDom core dom).settleTick core) else .next s

/-! ### The image of OSAVE and ORST (07 R154). Where R154 gives a record's contents and not its places, the places are the model's. -/

/-- An increment in ternary code (05 R106). -/
def triCode (x : Int) : Nat := if x = 0 then 0 else if 0 < x then 1 else 3

def triVal (x : Nat) : Int := if x % 4 = 1 then 1 else if x % 4 = 3 then -1 else 0

/-- Four codes a byte. -/
def packTri : List Int → List Byte
  | a :: b :: c :: d :: r => BitVec.ofNat 8 (triCode a + 4 * triCode b + 16 * triCode c + 64 * triCode d) :: packTri r
  | _ => []

def unpackTri (bs : List Byte) : List Int := bs.flatMap (fun b => (List.range 4).map (fun i => triVal (b.toNat / 4 ^ i)))

def Cell.entryBytes (i : Nat) (c : Cell) : List Byte := leBytes 8 (i * 1024 + c.dx.toNat) ++ c.dy.flatMap (fun t => leBytes 2 t.toNat)

/-- 32 bytes: the status word, the period, the count of the last ORUN and the steps left, the ticks until the next step. -/
def Orrery.domBytes (o : Orrery) (d : Fin 4) : List Byte :=
  let x := o.doms[d]
  leBytes 8 (o.status d).toNat ++ leBytes 8 x.period ++ leBytes 4 x.count.toNat ++ leBytes 4 (x.left.getD 0) ++ leBytes 8 x.phase

/-- 32 bytes: mode, cell, w, P, ring, steps since the last sample with bit 31 for a slot held, and the counter or the samples. -/
def Tap.bytes (t : Tap) : List Byte :=
  leBytes 4 t.mode ++ leBytes 4 t.cell ++ leBytes 4 t.w ++ leBytes 4 t.p ++ leBytes 4 t.ring.val ++
    leBytes 4 (t.since + (if t.holds then 2147483648 else 0)) ++ leBytes 8 (if t.mode = 2 then t.samples else t.count.toNat)

/-- 20 bytes: the queue in ternary codes, its head, its count, the binding (0 none, else the ring plus 1). -/
def Port.bytes (p : Port) : List Byte :=
  let q := p.queue
  packTri ((List.range 64).map (fun i => q.getD ((i + 64 - p.head % 64) % 64) 0)) ++ leBytes 1 p.head ++ leBytes 1 q.length ++
    leBytes 2 ((p.ring.map (fun r => r.val + 1)).getD 0)

/-- 512 bytes: a 32-byte count, then 15 entries, each the dz of the 128 cells of the pushing domain in ternary codes. -/
def fifoBytes (i : Nat) (q : List (List (Nat × Int))) : List Byte :=
  leBytes 32 q.length ++ (List.range 15).flatMap (fun j =>
    packTri ((List.range 128).map (fun c => sget 0 (q.getD j []) (i / 3 * 128 + c))))

def Orrery.image (o : Orrery) : List Byte :=
  let cells := (List.range 512).map o.cell
  cells.flatMap (fun c => leBytes 4 c.y.toNat) ++ cells.flatMap (fun c => leBytes 4 c.res.toNat) ++
    cells.zipIdx.flatMap (fun c => c.1.entryBytes c.2) ++ packTri (cells.map (·.dz)) ++
    (List.finRange 4).flatMap o.domBytes ++ o.taps.toList.flatMap Tap.bytes ++ o.ports.toList.flatMap Port.bytes ++
    o.fifos.toList.zipIdx.flatMap (fun q => fifoBytes q.2 q.1) ++ List.replicate 960 0

def domOfBytes (bs : List Byte) : Dom :=
  let st := BitVec.ofNat 64 (fieldAt bs 0 8)
  let n := BitVec.ofNat 32 (fieldAt bs 16 4)
  { run := false, period := fieldAt bs 8 8, count := n, left := if n = 0 then none else some (fieldAt bs 20 4),
    steps := BitVec.ofNat 32 (wbits st 63 32), ovr := st.getLsbD 2, phase := fieldAt bs 24 8, once := 0 }

def tapOfBytes (bs : List Byte) : Tap :=
  let mode := fieldAt bs 0 4
  let since := fieldAt bs 20 4
  { mode := mode, cell := fieldAt bs 4 4, w := fieldAt bs 8 4, p := fieldAt bs 12 4, ring := Fin.ofNat 16 (fieldAt bs 16 4),
    count := if mode = 2 then 0 else BitVec.ofNat 64 (fieldAt bs 24 8), samples := if mode = 2 then fieldAt bs 24 8 else 0,
    since := since % 2147483648, holds := decide (2147483648 ≤ since) }

def portOfBytes (bs : List Byte) : Port :=
  let q := unpackTri (bs.take 16)
  let head := fieldAt bs 16 1
  let b := fieldAt bs 18 2
  { queue := (List.range (fieldAt bs 17 1)).map (fun i => q.getD ((head + i) % 64) 0), head := head,
    ring := if b = 0 then none else some (Fin.ofNat 16 (b - 1)) }

def fifoOfBytes (i : Nat) (bs : List Byte) : List (List (Nat × Int)) :=
  (List.range (fieldAt bs 0 32)).map (fun j =>
    ((unpackTri ((bs.drop (32 + 32 * j)).take 32)).zipIdx.filter (fun x => x.1 != 0)).map (fun x => (i / 3 * 128 + x.2, x.1)))

/-- The entries of an image. -/
def imageEntries (bs : List Byte) : List PatchEntry :=
  (List.range 512).map (fun i => entryOfBytes ((bs.drop (4096 + 16 * i)).take 16))

/-- The cells of an image. -/
def imageCells (bs : List Byte) : List (Nat × Cell) :=
  let dz := unpackTri ((bs.drop 12288).take 128)
  ((imageEntries bs).zipIdx.map (fun e =>
    (e.2, ({ y := BitVec.ofNat 32 (fieldAt bs (4 * e.2) 4), res := BitVec.ofNat 32 (fieldAt bs (2048 + 4 * e.2) 4),
             dz := dz.getD e.2 0, dx := e.1.dx, dy := e.1.dy } : Cell)))).filter (fun c => c.2 != Cell.empty)

/-- The Orrery of an image, every domain halted. -/
def Orrery.ofImage (o : Orrery) (bs : List Byte) : Orrery :=
  { cells := imageCells bs,
    doms := Vector.ofFn (fun d => domOfBytes ((bs.drop (12416 + 32 * d.val)).take 32)),
    hold := (BitVec.ofNat 64 (fieldAt bs 12416 8)).getLsbD 1,
    fifos := Vector.ofFn (fun i => fifoOfBytes i.val ((bs.drop (13376 + 512 * i.val)).take 512)),
    ports := Vector.ofFn (fun k => portOfBytes ((bs.drop (13056 + 20 * k.val)).take 20)),
    taps := Vector.ofFn (fun k => tapOfBytes ((bs.drop (12544 + 32 * k.val)).take 32)),
    lastTick := o.lastTick, late := [] }

/-- The parts of an image that ORST checks, by offset: the entries (an entry's place names its cell), the periods and the steps left of the
domains, the samples of the taps in their slots (`slot` gives a ring's slot bytes), the counts of the ports and of the FIFOs. -/
def imageChecks (bs : List Byte) (slot : Nat → Nat) : List (Nat × Bool) :=
  let es := imageEntries bs
  let shared := sharedPorts (imageCells bs)
  es.zipIdx.map (fun e => (4096 + 16 * e.2, e.1.cell != e.2 || e.1.bad shared)) ++
  (List.range 4).flatMap (fun d =>
    let b := 12416 + 32 * d
    [(b + 8, decide (4096 < fieldAt bs (b + 8) 8)), (b + 20, decide (fieldAt bs (b + 16) 4 < fieldAt bs (b + 20) 4))]) ++
  (List.range 16).map (fun k =>
    let b := 12544 + 32 * k
    (b + 24, decide (fieldAt bs b 4 = 2 ∧ slot (fieldAt bs (b + 16) 4) / (4 * fieldAt bs (b + 8) 4) ≤ fieldAt bs (b + 24) 8))) ++
  (List.range 16).map (fun k => (13073 + 20 * k, decide (64 < fieldAt bs (13073 + 20 * k) 1))) ++
  (List.range 12).map (fun i => (13376 + 512 * i, decide (15 < fieldAt bs (13376 + 512 * i) 32)))

/-- The offset in an image of the lowest part that ORST refuses (07 R144, R154). -/
def badImage (bs : List Byte) (slot : Nat → Nat) : Option Nat := ((imageChecks bs slot).find? (·.2)).map (·.1)

/-- Cycles of an OSAVE or ORST (07 R154). -/
def orrImageCycles : Nat := 320

/-- Registers the image's range and parks. -/
def State.orrPark (s : State) (off : Nat) (dst : Bool) : State :=
  let op := s.dev.nextReq
  let s1 := { s with dev := { s.dev with nextReq := op + 1 } }
  (s1.modTile s.tile (fun t => t.register [(s.sl.fbase + off, 20480, dst)] op)).parkOn (.orrery (s.now + orrImageCycles) op)

/-- OSAVE halts every domain and writes the image. -/
def execOsave (m : Bool) (a : Reg) (s : State) : Out :=
  cWord m [.scalar a] [] (fun s =>
    let ad := s.rs a
    match s.checkAccess .near ad 20480 128 with
    | some t => .trap t
    | none =>
      if (s.tiles[s.tile]).freeLocks < 1 then .freeze (.locks 1)
      else
        let s1 := s.haltDoms s.cur (List.finRange 4)
        .ok ((s1.setFrame ad.toNat s1.c.orr.image).orrPark ad.toNat true)) s

/-- The rings of the slice that this core's ports and taps work, after ORST. -/
def reuser (pos : Nat) (o : Orrery) (i : Nat) (r : RingSt) : RingSt :=
  let other := match r.user with
    | some (q, _) => q != pos
    | none => false
  if other then r
  else
    let port := (List.finRange 16).find? (fun k => (o.ports[k]).ring.any (fun x => x.val == i))
    let tap := (List.finRange 16).find? (fun k => (o.taps[k]).mode == 2 && (o.taps[k]).ring.val == i)
    { r with user := match port, tap with
        | some k, _ => some (pos, .port k)
        | none, some k => some (pos, .tap k)
        | none, none => none }

def execOrst (m : Bool) (a : Reg) (s : State) : Out :=
  cWord m [.scalar a] [] (fun s =>
    let ad := s.rs a
    match s.checkAccess .near ad 20480 128 with
    | some t => .trap t
    | none =>
      let bs := s.frameBytes ad.toNat 20480
      match badImage bs (fun r => ((s.sl.rings[r]?).map (·.bytes)).getD 0) with
      | some off => .trap (cause 0x06 (ad + BitVec.ofNat 64 off) 0)
      | none =>
        if (s.tiles[s.tile]).freeLocks < 1 then .freeze (.locks 1)
        else
          let o := s.c.orr.ofImage bs
          let s1 := s.modSlice s.uid (fun x => { x with rings := x.rings.zipIdx.map (fun r => reuser s.c.pos o r.2 r.1) })
          .ok ((s1.modOrr s.cur (fun _ => o)).orrPark ad.toNat false)) s

end Sys2Proof.Machine
end

