-- ==== Sys2Proof/Machine/Slices.lean ====
section
/-! DEFINITION. Slices (02 R23 to R33, R42 to R46, 03 R61 to R66, 04 R83, R102, 09 R189 to R192, 16 R303 to R306, R310 to R312,
R317): where a slice is placed, its frame, dispatch, spawning, ending, completion, budgets, upcalls, and pre-emption of a core. -/

namespace Sys2Proof.Machine

/-! ### Frames and frame ids (02 R24, 04 R82, R83) -/

/-- The frames that stand in a tile's scratchpad: base and size. -/
def State.frames (s : State) (t : TileId) : List (Nat × Nat) :=
  (s.slices.filter (fun x => x.tile == some t && x.fid.isSome)).map (fun x => (x.fbase, x.fsize))

/-- Is the run of `n` bytes at `b` free? -/
def runFree (fs : List (Nat × Nat)) (b n : Nat) : Bool := decide (b + n ≤ reservedBase) && fs.all (fun f => !overlaps b n f.1 f.2)

/-- The least element of a list that satisfies a test. -/
def leastWhere (ok : Nat → Bool) (l : List Nat) : Option Nat :=
  l.foldl (fun a x => if ok x && a.all (fun y => decide (x < y)) then some x else a) none

/-- The lowest base at which a single free run holds `n` bytes: 0, or the end of a frame. -/
def frameBase (fs : List (Nat × Nat)) (n : Nat) : Option Nat := leastWhere (fun b => runFree fs b n) (0 :: fs.map (fun f => f.1 + f.2))

/-- A frame request rounded up to 4 KiB. -/
def roundFrame (n : Nat) : Nat := (n + 4095) / 4096 * 4096

/-- Is the tile the one that a held slice of a cooperative launch waits for? Its frame id is kept for it there (14 R284). -/
def State.waitsFor (s : State) (x : Slice) (t : TileId) : Bool :=
  x.coop && x.st == .held && x.tile.isNone && x.home.isNone && (s.tiles[t]).isMember x.terr && x.target == some (s.tiles[t]).lidx

/-- Is a frame id held on a tile by a slice other than `uid`? -/
def State.idHeld (s : State) (uid : Nat) (t : TileId) (f : Nat) : Bool :=
  s.slices.any (fun x => x.uid != uid && x.fid == some f && (x.tile == some t || s.waitsFor x t))

/-- The lowest free id above the last one given, wrapping past 254. -/
def nextId (last : Option Nat) (held : Nat → Bool) : Option Nat :=
  ((List.range 255).map (fun i => (last.elim 0 (· + 1) + i) % 255)).find? (fun f => !held f)

/-- The frame id a slice would be given on a tile: none where no id is free (DEDUCED, log 29: then its frame does not fit). A cooperative
slice has its id already. -/
def State.idOn (s : State) (x : Slice) (t : TileId) : Option Nat :=
  if x.coop then x.fid.bind (fun f => if s.idHeld x.uid t f then none else some f)
  else nextId (s.tiles[t]).lastFid (s.idHeld x.uid t)

/-- Does the slice's frame fit on a tile, with an id? -/
def State.frameFits (s : State) (x : Slice) (t : TileId) : Bool :=
  x.frameReq == 0 || ((frameBase (s.frames t) x.frameReq).isSome && (s.idOn x t).isSome)

/-- A SLICEID that no slice of the tile has: the given one if it is free, else the next (02 R27). -/
def State.sidOn (s : State) (t : TileId) (uid first : Nat) : Nat :=
  let used := (s.slices.filter (fun x => x.tile == some t && x.uid != uid)).map (·.sid)
  (((List.range (used.length + 1)).map (fun i => (first + i) % 65536)).find? (fun i => !used.contains i)).getD first

/-! ### Queues (02 R25) -/

def State.queueLen (s : State) (t : TileId) : Nat := (s.slices.filter (fun x => x.tile == some t && x.st == .queued)).length

def State.queueRoom (s : State) (t : TileId) : Bool := decide (s.queueLen t < 32)

/-- A new arrival sequence. -/
def State.newArrival (s : State) (uid : Nat) : State :=
  ({ s with dev := { s.dev with nextArr := s.dev.nextArr + 1 } }).modSlice uid (fun x => { x with arrival := s.dev.nextArr })

/-- The slice takes its frame on the tile, which has room for it. The id of a cooperative slice was given to it when its launch was
accepted. -/
def State.giveFrame (s : State) (uid : Nat) (t : TileId) : State :=
  let x := s.slice! uid
  if x.frameReq = 0 then s.modSlice uid (fun x => { x with fid := none, fbase := 0, fsize := 0 })
  else
    let id := s.idOn x t
    let b := (frameBase (s.frames t) x.frameReq).getD 0
    let s1 := s.modSlice uid (fun x => { x with fid := id, fbase := b, fsize := x.frameReq })
    if x.coop then s1 else s1.modTile t (fun y => { y with lastFid := id })

/-- Queues a slice on a tile that has room for it. A slice that its launch held takes its arrival sequence now, as one that is queued at once does
(DESIGN CHOICE, log 70: 02 R25 does not say when). -/
def State.place (s : State) (uid : Nat) (t : TileId) : State :=
  let x := s.slice! uid
  let sid := s.sidOn t uid (s.tiles[t]).nextSid
  let s1 := (s.giveFrame uid t).newArrival uid
  (s1.modTile t (fun y => { y with nextSid := (sid + 1) % 65536 })).modSlice uid (fun y =>
    { y with tile := some t, st := .queued, sid := sid, home := none, fresh := x.fresh || !x.saved.isEmpty })

/-- The better of two tiles by a measure, ties to the lower logical index. -/
def State.better (s : State) (m : TileId → Nat) (a : Option TileId) (t : TileId) : Option TileId := match a with
  | none => some t
  | some u => if m t < m u || (m t == m u && decide ((s.tiles[t]).lidx < (s.tiles[u]).lidx)) then some t else some u

/-- "Any": the member with the fewest queued slices (02 R25). -/
def State.fewest (s : State) (terr : Nat) : Option TileId := (s.members terr).foldl (s.better s.queueLen) none

/-- The tile a slice is to be queued on: its target's, or the emptiest member. A target that has become a hole is taken as "any"
(DESIGN CHOICE, log 28). -/
def State.targetTile (s : State) (x : Slice) : Option TileId := match x.target with
  | none => s.fewest x.terr
  | some i => (s.memberAt x.terr i).orElse fun _ => s.fewest x.terr

/-- Mesh hops between two tiles. -/
def hops (a b : TileId) : Nat := ((tileX a : Int) - tileX b).natAbs + ((tileY a : Int) - tileY b).natAbs

/-- The nearest member with room in its queue, by this test, and for the frame (03 R61). -/
def State.nearest (s : State) (room : TileId → Bool) (x : Slice) (g : TileId) : Option TileId :=
  ((s.members x.terr).filter (fun t => room t && s.frameFits x t)).foldl (s.better (hops g)) none

/-- Where a held slice may be queued now (02 R25, R31, 03 R61). -/
def State.heldTile (s : State) (x : Slice) : Option TileId := match x.home with
  | some g => s.nearest s.queueRoom x g
  | none => match x.tile with
    | some t => if s.queueRoom t then some t else none
    | none => (s.targetTile x).filter (fun t => s.queueRoom t && s.frameFits x t)

/-- Is there room in a tile's queue for slice `uid`, which arrives now, behind the held slices that go there first (02 R25)? -/
def State.roomFor (s : State) (uid : Nat) (t : TileId) : Bool :=
  decide (s.queueLen t + (s.slices.filter (fun y => y.uid != uid && y.st == .held && s.heldTile y == some t)).length < 32)

/-- Held slices are queued in arrival order: no earlier one could take this one's place. -/
def State.heldFirst (s : State) (x : Slice) (t : TileId) : Bool :=
  s.slices.all (fun y => y.st != .held || decide (x.arrival ≤ y.arrival) || s.heldTile y != some t)

/-- The tile a held slice is queued on in this cycle. -/
def State.heldReady (s : State) (uid : Nat) : Option TileId := match s.findSlice uid with
  | none => none
  | some x => if x.st != .held || (s.terr! x.terr).dying.isSome then none else (s.heldTile x).filter (s.heldFirst x)

/-- HELD_SLICE_PLACEMENT: a queue entry has freed. A slice held on its tile, after YIELD or an abort for replay,
keeps its frame, its number and its arrival sequence. -/
def execHeldSlicePlacement (sl : Nat) (s : State) : Out :=
  match s.heldReady sl with
  | none => .next s
  | some t =>
    let x := s.slice! sl
    if x.home.isNone && x.tile.isSome then .next (s.modSlice sl (fun y => { y with st := .queued }))
    else .next (s.place sl t)

/-- A slice without a tile: a cooperative one keeps its frame id. -/
def Slice.homeless (x : Slice) (g : TileId) : Slice :=
  let f := if x.coop then x.fid else none
  { x with tile := none, st := .held, home := some g, fresh := x.fresh || !x.saved.isEmpty, fid := f, fbase := 0, fsize := 0,
           cores := [], table := none, evacuated := false }

/-- A slice leaves a ceding tile's queue for the nearest member with room, or is held (03 R61, R62). -/
def State.rehome (s : State) (uid : Nat) (g : TileId) : State :=
  let s1 := s.modSlice uid (fun x => x.homeless g)
  match s1.nearest (s1.roomFor uid) (s1.slice! uid) g with
  | some t => s1.place uid t
  | none => s1.newArrival uid

/-! ### Upcalls (03 R65) -/

/-- The slice that takes a territory's causes: running on the handler tile, its leader on the lowest core. -/
def State.upcallSlice (s : State) (h : TileId) : Option Slice :=
  (coresOf h).findSome? (fun c => match (s.cores[c]).sl with
    | some u => (s.findSlice u).filter (fun x => x.st == .running && x.cores.head? == some c)
    | none => none)

/-- An asynchronous cause for every core of a slice. -/
def State.causeAll (s : State) (x : Slice) (t : TrapRec) : State :=
  s.modCores x.cores (fun c => { c with causes := c.causes ++ [t] })

/-- A record reaches the handler tile: a running slice takes it, else it is queued, else it is dropped and counted. -/
def State.upcallAt (s : State) (h : TileId) (t : TrapRec) : State := match s.upcallSlice h with
  | some x => s.causeAll x t
  | none =>
    if (s.tiles[h]).upcalls.length < 16 then s.modTile h (fun y => { y with upcalls := y.upcalls ++ [t] }) else s.bump h 5

/-- Sends a record to a territory's handler tile, on the control class. -/
def State.sendUpcall (s : State) (src : TileId) (terr : Nat) (t : TrapRec) : State :=
  s.sendCtl src (s.terr! terr).handler terr (.upcall terr t)

def execUpcallArrival (k : Nat) (s : State) : Out :=
  match s.firstPacket k with
  | none => .next s
  | some p => match p.body, nodeTile p.dst with
    | .upcall terr t, some h => .next (s.arrive p (fun s =>
        let s1 := s.sendAck p
        if (s.terrs.any (fun y => y.id == terr && y.handler == h)) && (s.tiles[h]).owner == some terr then s1.upcallAt h t else s1))
    | _, _ => .next s

/-- Data loss (02 R43): 0 uncorrectable, 1 evacuation expired; the logical tile. -/
def dataLoss (kind lidx : Nat) : TrapRec := { code := 0x31, i0 := BitVec.ofNat 64 kind, i1 := BitVec.ofNat 64 lidx, async := true }

/-! ### Dispatch (02 R26, R29, 16 R300, R306) -/

/-- The head of a tile's queue: the earliest deadline, then the lowest arrival sequence. -/
def State.queueHead (s : State) (t : TileId) : Option Slice :=
  (s.slices.filter (fun x => x.tile == some t && x.st == .queued)).foldl (fun a x => match a with
    | none => some x
    | some y => if x.deadline.toNat < y.deadline.toNat || (x.deadline == y.deadline && decide (x.arrival < y.arrival)) then some x
      else some y) none

/-- The cores a slice of `n` cores takes on a tile (02 R29). -/
def State.freeCores (s : State) (t : TileId) (n : Nat) : Option (List CoreId) :=
  let free (k : Fin 4) : Bool := (s.cores[coreOf t k]).sl.isNone
  if n = 1 then ((List.finRange 4).find? free).map (fun k => [coreOf t k])
  else if n = 2 then
    if free 0 && free 1 then some [coreOf t 0, coreOf t 1]
    else if free 2 && free 3 then some [coreOf t 2, coreOf t 3] else none
  else if free 0 && free 1 && free 2 && free 3 then some (coresOf t) else none

/-- The lowest free ring descriptor table of a tile. -/
def State.freeTable (s : State) (t : TileId) : Option Nat :=
  (List.range 8).find? (fun k => !(s.slices.any (fun x => x.tile == some t && x.table == some k)))

/-- The size of a registered code object. -/
def State.codeBytesOf (s : State) (h : Nat) : Nat := match s.findCode h with
  | some o => CodeBody.size o.body
  | none => 0

/-- The objects of the tile's instruction cache after `h` is made resident: an object that a queued or running slice of the tile uses
is never evicted; none when there is no room. -/
def State.makeResident (s : State) (t : TileId) (h : Nat) : Option (List Nat) :=
  let res := (s.tiles[t]).resident
  if res.contains h then some res
  else
    let used (o : Nat) : Bool := s.slices.any (fun x => x.tile == some t && x.code == o && x.st != .held && x.st != .ended)
    let size (l : List Nat) : Nat := (l.map s.codeBytesOf).sum
    if size (h :: res) ≤ 131072 then some (h :: res)
    else if size (h :: res.filter used) ≤ 131072 then some (h :: res.filter used) else none

/-- A slice's cores at its first bundle (02 R26, R27, 09 R196, 16 R303, R306). -/
def State.firstCore (s : State) (x : Slice) (table : Nat) (c : CoreId) (pos : Nat) : Core :=
  { Core.reset with
    sreg := (Vector.replicate 32 0).set 1 x.args, trapv := x.handler, rsp := BitVec.ofNat 64 (spillBase c),
    ringbase := BitVec.ofNat 64 ((0x40 + 4 * table) * 128), pc := x.entry, sl := some x.uid, pos := pos,
    gsize := if x.ncores = 1 then 0 else if x.ncores = 2 then 1 else 2,
    orr := Orrery.empty.patched (s.codeOf x).patches }

/-- The core of a slice that YIELD saved, on the core it resumes on, which issues later than its last bundle did (09 R198). The newest entries stay in the store, the spilled ones go back to the spill
area of the new core (02 R31, R47). A resume after YIELD is no new dispatch for the banks, the matrix queue and the subscriptions, which it keeps
(DESIGN CHOICE, log 73: 06 R121 and R136 leave it open). -/
def resumedCore (k : Core) (table : Nat) (c : CoreId) (uid pos : Nat) : Core :=
  { k with ras := k.ras.take (k.ras.length - k.spilled), rsp := BitVec.ofNat 64 (spillBase c + 8 * k.spilled),
           ringbase := BitVec.ofNat 64 ((0x40 + 4 * table) * 128), sl := some uid, pos := pos,
           halted := false, dbgHalt := false, dbgSteps := 0, dbgHeld := none }

/-- The spilled entries of a saved core, oldest first. -/
def spilledOf (k : Core) : List Word := (k.ras.drop (k.ras.length - k.spilled)).reverse

/-- Starts or resumes a slice on cores. -/
def State.startOn (s : State) (x : Slice) (table : Nat) (t : TileId) (cs : List CoreId) : State :=
  cs.zipIdx.foldl (fun s e =>
    let (c, pos) := e
    match x.saved[pos]? with
    | none => s.modCore c (fun _ => s.firstCore x table c pos)
    | some k =>
      (s.setBytes (scratchKey t.val (reservedBase + spillBase c)) ((spilledOf k).flatMap (fun w => leBytes 8 w.toNat))).modCore c
        (fun _ => resumedCore k table c x.uid pos)) s

/-- What dispatch takes on a tile, if its head can be dispatched now. -/
def State.dispatchOn (s : State) (t : TileId) : Option (Slice × List CoreId × Nat × List Nat) :=
  match s.queueHead t with
  | none => none
  | some x =>
    if (s.terr! x.terr).halted || (s.terr! x.terr).dying.isSome then none
    else match s.freeCores t x.ncores, s.freeTable t, s.makeResident t x.code with
      | some cs, some k, some res => some (x, cs, k, res)
      | _, _, _ => none

/-- Queued upcall records go to the slice just dispatched on the handler tile (03 R65). -/
def State.giveUpcalls (s : State) (t : TileId) (uid : Nat) : State :=
  let recs := (s.tiles[t]).upcalls
  let x := s.slice! uid
  (recs.foldl (fun s r => s.causeAll x r) s).modTile t (fun y => { y with upcalls := [] })

/-- DISPATCH. -/
def execDispatch (tile : TileId) (s : State) : Out :=
  match s.dispatchOn tile with
  | none => .next s
  | some (x, cs, k, res) =>
    let s1 := s.modTile tile (fun y => { y with resident := res })
    let s2 := if x.fresh then s1.clear (scratchKey tile x.fbase) x.fsize else s1
    let s3 := s2.startOn x k tile cs
    let s4 := s3.modSlice x.uid (fun y => { y with
      st := .running, cores := cs, saved := [], table := some k, fresh := false, recCharged := y.charged, noReplay := false })
    .next (s4.giveUpcalls tile x.uid)

/-! ### Making slices (02 R23, 09 R191, R192, 16 R303, R304) -/

/-- The rings of a slice of a code object: unsubscribed, from frame offset 0 on (06 R133, 01 R19). -/
def ringsAt : Nat → List (Nat × Nat) → List RingSt
  | _, [] => []
  | b, (n, sz) :: r =>
    { slots := n, bytes := sz, base := b, dir := none, head := 0, tail := 0, got := 0, tags := List.replicate n 0, sub := none,
      fault := none, user := none, taken := 0, freed := [], pulled := [] } :: ringsAt (b + n * sz) r

/-- A slice that has just been made: held, on no tile. -/
def newSlice (uid launch terr code : Nat) (entry handler deadline args : Word) (budget frame cores : Nat) (target : Option Nat)
    (coop : Bool) (fid : Option Nat) (rings : List RingSt) : Slice :=
  { uid := uid, launch := launch, terr := terr, tile := none, sid := 0, code := code, entry := entry, handler := handler,
    deadline := deadline, declared := budget, left := budget, charged := 0, recCharged := 0, frameReq := roundFrame frame, fid := fid,
    fbase := 0, fsize := 0, ncores := cores, args := args, target := target, coop := coop, st := .held, arrival := 0,
    cores := [], saved := [], late := false, grace := none, rings := rings, table := none, how := .exit, replays := 0,
    noReplay := false, evacuated := false, claimed := false, fresh := false, home := none, seals := [], read := [] }

def State.modLaunch (s : State) (id : Nat) (f : Launch → Launch) : State :=
  { s with launches := s.launches.map (fun l => if l.id = id then f l else l) }

/-- Adds a slice, which its launch counts; its number is `dev.nextUid`. -/
def State.addSlice (s : State) (x : Slice) : State :=
  ({ s with slices := s.slices ++ [x], dev := { s.dev with nextUid := s.dev.nextUid + 1 } }).modLaunch x.launch
    (fun l => { l with open' := l.open' + 1 })

/-- SPAWN_PLACEMENT reads the descriptor and places the slice; the answer is SPAWN's result (09 R192). -/
def State.spawnSlice (s : State) (x : Slice) (bs : List Byte) : State × Word :=
  let bad (n : Nat) : Word := BitVec.ofNat 64 (2 ^ 63 + n)
  let entry := fieldAt bs 16 4
  let budget := fieldAt bs 20 4
  let frame := fieldAt bs 24 4
  let target := fieldAt bs 28 2
  let cores := fieldAt bs 30 1
  if entry % 8 ≠ 0 ∨ s.codeBytesOf x.code ≤ entry ∨ budget = 0 ∨ 3080192 < frame ∨ (1023 < target ∧ target ≠ 0xFFFF) ∨
      ¬(cores = 1 ∨ cores = 2 ∨ cores = 4) ∨ fieldAt bs 31 1 ≠ 0 then (s, bad 1)
  else match (if target = 0xFFFF then s.fewest x.terr else s.memberAt x.terr target) with
    | none => (s, bad 2)
    | some t =>
      let y := newSlice s.dev.nextUid x.launch x.terr x.code (BitVec.ofNat 64 entry) x.handler (BitVec.ofNat 64 (fieldAt bs 0 8))
        (BitVec.ofNat 64 (fieldAt bs 8 8)) budget frame cores (if target = 0xFFFF then none else some target) false none
        (ringsAt 0 (s.codeOf x).rings)
      if !s.roomFor y.uid t then (s, bad 3)
      else if !s.frameFits y t then (s, bad 4)
      else
        let s1 := (s.addSlice y).place y.uid t
        (s1, BitVec.ofNat 64 ((s.tiles[t]).lidx * 65536 + (s1.slice! y.uid).sid))

/-- The SPAWN a core parks in. -/
def Core.spawnPark (c : Core) : Option (Reg × Word × Nat) := match c.park with
  | some p => match p.why with
    | .spawn d a req => some (d, a, req)
    | _ => none
  | none => none

/-- Is the FENCE.y of the SPAWN complete on every core that issued it? -/
def State.spawnReady (s : State) (core : CoreId) : Bool :=
  (s.gang core).all (fun c => s.fenced c .y && (s.cores[c]).takable.isNone)

def execSpawnPlacement (core : CoreId) (s : State) : Out :=
  match (s.cores[core]).spawnPark, (s.cores[core]).sl with
  | some (d, a, req), some u =>
    if !s.spawnReady core then .next s
    else
      let x := s.slice! u
      let r := s.spawnSlice x (s.bytes (sliceKey x a.toNat) 32)
      let w : Wr := if d = 0 then .flagsOnly else .scalar d r.2
      .next ((r.1.modCores (s.gang core) (fun c => c.deliver req w 0)).modCore core Core.endPark)
  | _, _ => .next s

/-! ### Ending a slice (04 R102, 09 R189, 12 R280, 16 R305) -/

/-- The code a launch reports (16 R305). -/
def endCode : EndHow → Nat
  | .exit => 0
  | .budget => 1
  | .evacuated => 2
  | .nested _ => 3
  | .dataLoss => 4
  | .dissolved => 5
  | .ifError => 6
  | .expired => 7
  | .replay => 0

/-- The logical index a slice ended at. One that never had a tile has none of its own: its target's, or a free value. -/
def State.endIndex (s : State) (x : Slice) : Nat := match x.tile with
  | some t => (s.tiles[t]).lidx
  | none => x.target.getD ((Config.freeWord s.stepNo).toNat % 65536)

/-- The launch takes note of a slice's end, when it ends: FIRST follows the order of the ends (16 R305). -/
def Launch.note (l : Launch) (x : Slice) (idx : Nat) : Launch :=
  let code := endCode x.how
  let rank (c : Nat) : Nat := if l.forced == some c then 8 else c
  let new := l.nslice == 0 || decide (rank l.status < rank code)
  { l with
    nslice := l.nslice + 1, late := l.late + (if x.late then 1 else 0),
    status := if new then code else l.status, first := if new then idx else l.first,
    cause := if new then (match x.how with
      | .nested c => c
      | _ => 0) else l.cause }

/-- A slice ends: its launch takes note. -/
def State.noteEnd (s : State) (x : Slice) : State :=
  let idx := s.endIndex x
  ({ s with stepNo := s.stepNo + 1 }).modLaunch x.launch (fun l => l.note x idx)

/-- A slice whose end its launch has noted leaves the device; the launch has one open slice less. -/
def State.dropSlice (s : State) (x : Slice) : State :=
  ({ s with slices := s.slices.filter (fun y => y.uid != x.uid) }).modLaunch x.launch (fun l => { l with open' := l.open' - 1 })

/-- The messages queued for a frame are discarded and counted, its posted receives freed (11 R251). -/
def State.dropMessages (s : State) (x : Slice) (t : TileId) : State :=
  let mine := (s.tiles[t]).overflow.filter (fun q => some q.fid == x.fid)
  let s1 := s.modTile t (fun y => { y with overflow := y.overflow.filter (fun q => some q.fid != x.fid), fills := y.fills.filter (fun f => f.who.1 != x.uid),
                                            posted := y.posted.filter (fun q => q.who.1 != x.uid) })
  mine.foldl (fun s _ => s.bump t 8) s1

/-- The buffers of its open chains are freed (DESIGN CHOICE, log 18). -/
def State.dropChains (s : State) (x : Slice) (t : TileId) : State :=
  x.cores.foldl (fun s c => match (s.cores[c]).chain with
    | some ch => s.freeHops t.val x.terr ch.cid ch.hops
    | none => s) s

/-- The slice's cores, ring table and number are free again; its frame is released, and matrix commands that never became ready are
discarded with their range-lock entries (06 R128). -/
def State.release (s : State) (x : Slice) (t : TileId) : State :=
  let seals := x.cores.flatMap (fun c => (s.cores[c]).seals)
  let s1 := ((s.dropMessages x t).dropChains x t).freeMatrixLocks t x.cores
  (s1.modCores x.cores (fun _ => Core.reset)).modSlice x.uid (fun y =>
    { y with st := .ended, fid := none, fbase := 0, fsize := 0, cores := [], saved := [], table := none, rings := [], seals := seals })

/-- Does the core stand in the exit wait, in its own stream? -/
def Core.inExitWait (c : Core) : Bool := c.replay.isNone && (match c.park with
  | some p => p.why == .exitWait
  | none => false)

/-- Does a copy write this slice's frame? -/
def Copy.into (q : Copy) (t : TileId) (x : Slice) : Bool := match q.dst with
  | .peer u _ fid _ => u == t && some fid == x.fid && q.terr == x.terr
  | .local' p => x.fid.isSome && overlaps p q.len x.fbase x.fsize && q.who.1 == x.uid
  | _ => false

/-- Are the copies of a slice and the copies into its frame done? -/
def State.copiesDone (s : State) (x : Slice) (t : TileId) : Bool :=
  allTiles.all (fun u => (s.tiles[u]).copyQ.all (fun q => q.who.1 != x.uid && !q.into t x))

/-- Has every slot handed over been pulled, or stopped by a fault (06 R140)? -/
def RingSt.drained (r : RingSt) : Bool := r.dir != some true || r.head == r.tail || (match r.sub with
  | some b => b.stopped
  | none => true)

/-- Is a pulled slot of the slice still on its way to HBM? -/
def State.pullsOut (s : State) (uid : Nat) : Bool := s.kept.any (fun p => match p.body with
  | .fetch u _ _ => u == uid
  | .fetched u _ _ _ => u == uid
  | _ => false)

/-- Every condition of 04 R102. A refusal that arrived is taken first, for a slice that its own program ends. -/
def State.sliceDone (s : State) (x : Slice) (t : TileId) : Bool :=
  x.st == .exiting && s.copiesDone x t && x.rings.all RingSt.drained && !s.pullsOut x.uid &&
    x.cores.all (fun c => let k := s.cores[c]
      !k.halted && k.acc.isEmpty && k.inExitWait && k.outst.isEmpty && k.matrixStuck &&
        (k.refused.isEmpty || !(x.how == .exit || x.how == .evacuated)))

/-- The slice is queued again from its record: its frame is released and given afresh, to be zeroed; its charged cycles and arrival sequence
are the recorded ones, and it has its whole budget (16 R317). On a ceding tile it is re-homed. -/
def State.requeue (s : State) (x : Slice) (t : TileId) : State :=
  let s1 := (((s.dropMessages x t).dropChains x t).freeMatrixLocks t x.cores).modCores x.cores (fun _ => Core.reset)
  let s2 := s1.modSlice x.uid (fun y => { y with
    st := if s1.roomFor x.uid t then .queued else .held, how := .exit, cores := [], saved := [], table := none, left := y.declared,
    charged := y.recCharged, grace := none, rings := ringsAt 0 (s.codeOf y).rings, noReplay := false, fresh := true, seals := [],
    fid := if y.coop then y.fid else none, fbase := 0, fsize := 0 })
  if (s.tiles[t]).ceding.isSome then s2.rehome x.uid t else s2.giveFrame x.uid t

/-! ### Grants that go back (03 R60) -/

/-- A tile returns a grant to a handler tile. -/
def State.returnGrant (s : State) (g : TileId) (a : Nat) (loss : Bool) (start : Nat) : State := match s.findTerr a with
  | some y => s.sendCtl g y.handler a (.sizeReturn a loss start)
  | none => s

/-- The grants a claim holds go back. -/
def State.returnGrants (s : State) (g : TileId) (c : Claim) : State :=
  let s1 := match c.lose with
    | some a => if c.lossOk then s.returnGrant g a true c.start else s
    | none => s
  if c.gainOk then s1.returnGrant g c.gain false c.start else s1

/-- A claim on a tile is abandoned: its grants go back, and those that still come will. -/
def State.abandon (s : State) (g : TileId) : State := match (s.tiles[g]).claim with
  | some c => if c.dead then s else (s.returnGrants g c).modTile g (fun x => { x with claim := some { c with dead := true } })
  | none => s

/-! ### The end of a territory (16 R299, 17 R332, R333) -/

/-- Clears a tile as step 5 of 03 R61 does; a claim on it is abandoned. Its anchors go with its territory. -/
def State.clearTile (s : State) (t : TileId) : State :=
  (((s.abandon t).clear (scratchKey t.val 0) 3145728).modCores (coresOf t) (fun _ => Core.reset)).modTile t (fun x =>
    { x with bias := 0, raw := 0, press := 0, bars := Vector.replicate 4 Barrier.empty, votes := [], locks := [], copyQ := [],
             posted := [], overflow := [], fills := [], upcalls := [], chainBufs := [], claim := none, resident := [], quiet := false, preempt := false })

/-- The tile belongs to nobody. -/
def State.freeTile (s : State) (t : TileId) : State :=
  s.modTile t (fun x => { x with owner := none, lidx := 0, ceding := none, joining := none, anchT := false, anchF := false })

/-- Is a message of the territory still on its way, or not yet acknowledged? -/
def State.terrTraffic (s : State) (terr : Nat) : Bool := s.net.any (fun p => p.terr == terr) || s.kept.any (fun p => p.terr == terr)

/-- Zeroes the physical pieces of pages, which become free. -/
def State.zeroPages (s : State) (ps : List Page) : State := ps.foldl (fun s p => s.clear (hbmKey (p.ppn * 2097152)) 2097152) s

/-- Unmaps every page of a territory. -/
def State.unmapAll (s : State) (terr : Nat) : State :=
  (s.zeroPages (s.terr! terr).pages).modTerr terr (fun y => { y with pages := [], dirty := [] })

/-- The launches of a territory report this status from now on. -/
def State.forceLaunches (s : State) (terr : Nat) (code : Nat) : State :=
  { s with launches := s.launches.map (fun l => if l.terr = terr then { l with forced := some code } else l) }

/-- The bytes of a response's body. Those of an EVLOG event are type, sequence number and hash, in the widths of 17 R324 (DEDUCED, log 61). -/
def Body.size : Body → Nat
  | .empty => 0
  | .words ws => 8 * ws.length
  | .bytes bs => bs.length
  | .events es => 57 * es.length
  | .debug _ _ n => n

/-- A response to a command: the header of 16 R293 with the command's SEQ, TERR and TAG, and the body. -/
def State.respond (s : State) (h : Hdr) (code status : Nat) (b : Body) : State :=
  { s with outbox := s.outbox ++ [.response h.sess (headerBytes code status b.size h.seq h.terr h.tag) b] }

def State.idle (s : State) (sess : Nat) : State := s.modSession sess (fun x => { x with busy := false })

/-- No tile of a territory is pre-empted any more. -/
def State.calmTiles (s : State) (terr : Nat) : State :=
  allTiles.foldl (fun s t => if (s.tiles[t]).owner == some terr then s.modTile t (fun x => { x with preempt := false }) else s) s

/-- A PREEMPT or SAVE that waits when its territory ends is answered with status 4 (DESIGN CHOICE, log 24). -/
def State.giveUp (s : State) (terr : Nat) : State :=
  let y := s.terr! terr
  let s1 := (s.calmTiles terr).modTerr terr (fun y => { y with halted := false, haltReply := none, saving := none })
  let s2 := match y.haltReply with
    | some h => (s1.respond h 0x0030 4 .empty).idle h.sess
    | none => s1
  match y.saving with
  | some v => (s2.respond v.h (if v.ckpt.isSome then 0x0035 else 0x0031) 4 .empty).idle v.h.sess
  | none => s2

/-- A slice that holds no core ends: its copies issue no further beat, its launch takes note, and it leaves the device. -/
def State.endIdle (s : State) (x : Slice) (how : EndHow) : State :=
  let y : Slice := { x with how := how }
  ((s.cutCopies x.uid).noteEnd y).dropSlice y

/-- Ends every slice of a territory: those that run stop, the queued and held ones are dropped. A slice that has already ended by its EXIT
still has its buffers read (09 R199). -/
def State.endSlices (s : State) (terr : Nat) (how : EndHow) : State :=
  let s1 := s.giveUp terr
  (s1.slices.filter (fun x => x.terr == terr)).foldl (fun s x =>
    if x.st == .ended then s
    else if x.cores.isEmpty then s.endIdle x how
    else (s.modCores x.cores (fun c => { c with halted := false, dbgHalt := false })).stopSlice x.uid how) s1

/-- Zeroes the mapped bytes of the window that WBASE and WLIMIT describe (17 R332, R333). -/
def State.zeroWindow (s : State) (terr : Nat) : State :=
  let y := s.terr! terr
  let lo := (y.iface.regs[5]).toNat / 65536 % 4294967296 * 65536
  let hi := ((y.iface.regs[6]).toNat / 65536 % 4294967296 + 1) * 65536
  y.pages.foldl (fun s p =>
    let a := max lo (p.vpn * 2097152)
    let b := min hi ((p.vpn + 1) * 2097152)
    if a < b then s.clear (hbmKey (p.ppn * 2097152 + (a - p.vpn * 2097152))) (b - a) else s) s

/-- STOP_INTERFACE_REQUEST is answered. -/
def State.stopped (s : State) : Option Nat → State
  | some sess => { s with outbox := s.outbox ++ [.tdisp sess 0x87 true []] }
  | none => s

/-- Is the tile ceding or joining to a territory? -/
def Tile.joinsTo (t : Tile) (terr : Nat) : Bool := t.ceding.any (fun c => c.gain == some terr) || t.joining.any (fun j => j.1 == terr)

/-- The territory a tile was moving to is no more: it goes to the free pool at step 6 (03 R61, 16 R299). -/
def Tile.orphan (t : Tile) : Tile := { t with ceding := t.ceding.map (fun c => { c with gain := none }), joining := none }

/-- A claim that names a territory is abandoned: a territory made later under its number has granted nothing (03 R60, R76). -/
def State.abandonFor (s : State) (terr : Nat) (t : TileId) : State :=
  if (s.tiles[t]).claim.any (fun c => c.gain == terr || c.lose == some terr) then s.abandon t else s

/-- A territory's tiles are cleared and freed, its pages unmapped, its code objects dropped, and the claims that name it are abandoned. An
interface in ERROR outlives it. -/
def State.dissolved (s : State) (y : Terr) (d : Dying) : State :=
  let ms := s.members y.id
  let s0 := (allTiles.filter (fun t => (s.tiles[t]).joinsTo y.id)).foldl (fun s t => s.modTile t Tile.orphan) s
  let s1 := ms.foldl (fun s t => (s.clearTile t).freeTile t) s0
  let s2 := s1.unmapAll y.id
  let s3 := { s2 with
    terrs := s2.terrs.filter (fun z => z.id != y.id), codes := s2.codes.filter (fun o => o.terr != y.id),
    ghosts := if y.iface.st = IfState.error ∧ d.stop = none then s2.ghosts ++ [({ terr := y.id, sess := y.sess, iface := y.iface } : Ghost)]
      else s2.ghosts }
  let s4 := allTiles.foldl (fun s t => s.abandonFor y.id t) s3
  (match d.reply with
    | some h => (s4.respond h 0x0011 0 .empty).idle h.sess
    | none => s4).stopped d.stop

/-- The tiles are cleared and stay members, the window is zeroed, the registers unfrozen (17 R332). -/
def State.unlocked (s : State) (y : Terr) (d : Dying) : State :=
  let s1 := (s.members y.id).foldl (fun s t => (s.clearTile t).modTile t (fun x => { x with voteNo := 0 })) s
  ((s1.zeroWindow y.id).modTerr y.id (fun z => { z with dying := none, votes := [], nextVote := 0, iface := { z.iface with st := .unlocked } })).stopped
    d.stop

/-- Has the last slice of a territory ended, is the last cession from it over, and has its traffic drained? -/
def State.mayDissolve (s : State) (terr : Nat) : Bool :=
  !(s.slices.any (fun x => x.terr == terr) || s.terrTraffic terr ||
    allTiles.any (fun t => (s.tiles[t]).owner == some terr && (s.tiles[t]).ceding.isSome))

/-- Then a territory whose slices are being ended is dissolved, or unlocked. -/
def State.tryDissolve (s : State) (terr : Nat) : State := match s.findTerr terr with
  | none => s
  | some y => match y.dying with
    | none => s
    | some d => if !s.mayDissolve terr then s else if d.stays then s.unlocked y d else s.dissolved y d

/-! ### Completion -/

/-- SLICE_COMPLETION: the completion signal; the frame is released. -/
def execSliceCompletion (sl : Nat) (s : State) : Out :=
  match s.findSlice sl with
  | none => .next s
  | some x => match x.tile with
    | none => .next s
    | some t =>
      if !s.sliceDone x t then .next s
      else if x.how = .replay then .next (s.requeue x t)
      else
        let s1 := (s.release x t).noteEnd x
        let y := s1.slice! sl
        if x.how = .exit && !y.seals.isEmpty then .next s1 else .next ((s1.dropSlice y).tryDissolve x.terr)

/-- The aligned 8-byte words of a buffer. -/
def sealWords (va n : Nat) : Nat := (va + n - 1) / 8 - va / 8 + 1

/-- Reads words of a buffer, by their places; none where one does not translate. -/
def State.sealRead (s : State) (terr va : Nat) : List Nat → Option (List (Nat × BitVec 64))
  | [] => some []
  | i :: r => match s.translate terr (8 * (va / 8 + i)) false, s.sealRead terr va r with
    | .ok pa, some l => some ((i, BitVec.ofNat 64 (s.num (hbmKey pa) 8)) :: l)
    | _, _ => none

/-- The first buffer has been read, or does not translate: its event, and the next buffer. -/
def State.sealDone (s : State) (x : Slice) (r : Except TrapRec (List Byte)) : State :=
  let s1 := (s.evResult (s.terr! x.terr).sess r).modSlice x.uid (fun y => { y with seals := y.seals.tail, read := [] })
  if x.seals.tail.isEmpty then (s1.dropSlice x).tryDissolve x.terr else s1

/-- RESULT_READ: the buffers as they then stand, in ascending gang position and issue order, one after another. The words of a buffer are
read in one step or in several, so every mix of old and new words may be hashed (09 R199, 15 R291, 17 R326). No event is recorded once
the interface is in ERROR (17 R333). -/
def execResultRead (sl : Nat) (s : State) : Out :=
  match s.findSlice sl with
  | none => .next s
  | some x =>
    if x.st != .ended then .next s
    else if (s.terr! x.terr).iface.st == .error then .next ((s.dropSlice x).tryDissolve x.terr)
    else match x.seals with
      | [] => .next ((s.dropSlice x).tryDissolve x.terr)
      | b :: _ =>
        let va := b.1.toNat % 281474976710656
        let n := sealWords va b.2
        let s1 := { s with stepNo := s.stepNo + 1 }
        match s.sealRead x.terr va (pickWords s.stepNo (wordsLeft n x.read)) with
        | none => .next (s1.sealDone x (.error (transFault va 0)))
        | some got =>
          let all := x.read ++ got
          if (wordsLeft n all).isEmpty then .next (s1.sealDone x (.ok (((wordBytes n all).drop (va % 8)).take b.2)))
          else .next (s1.modSlice sl (fun y => { y with read := all }))

/-- LAUNCH_COMPLETION: the message of 16 R305, once every slice has ended. Where the status is the territory's and no slice ended
with it, FIRST is a free value. -/
def execLaunchCompletion (la : Nat) (s : State) : Out :=
  match s.launches.find? (fun l => l.id == la) with
  | none => .next s
  | some l =>
    if l.open' ≠ 0 then .next s
    else
      let status := l.forced.getD l.status
      let first := if status = l.status then l.first else (Config.freeWord s.stepNo).toNat % 65536
      .next { s with stepNo := s.stepNo + 1, launches := s.launches.filter (fun l => l.id != la),
                     outbox := s.outbox ++ [.completion l.sess l.seq status l.nslice l.late l.replays first
                       (if status = 3 then l.cause else 0)] }

/-! ### Budgets and deadlines (02 R32, R33) -/

/-- The budget trap's cause. The cycles charged are those up to the cycle in which BUDGET reached zero, also where INH holds the trap off
(DESIGN CHOICE, log 50). -/
def budgetTrap (x : Slice) : TrapRec :=
  { code := 0x0E, i0 := BitVec.ofNat 64 x.declared, i1 := BitVec.ofNat 64 x.charged, async := true }

/-- Has a core issued one of these transfers, in its stream or in the interrupted one, that has not taken its effect? -/
def Core.leaves (c : Core) (ks : XferKind → Bool) : Bool :=
  (c.delay.toList ++ c.owed.toList ++ (c.replay.bind (·.delay)).toList ++ (c.replay.bind (·.owed)).toList).any (fun d => ks d.kind)

/-- EXIT, or TEVAC, which ends a slice as EXIT does (12 R280). -/
def XferKind.ends : XferKind → Bool
  | .exit => true
  | .evac => true
  | _ => false

/-- Has the slice issued EXIT or TEVAC? -/
def State.hasExited (s : State) (x : Slice) : Bool :=
  x.st == .exiting || x.cores.head?.any (fun c => (s.cores[c]).leaves XferKind.ends)

/-- BUDGET has reached zero: the trap waits at the leader, whose attached followers see code 0; detached followers take none (DESIGN CHOICE,
log 49: 'the slice takes' it). The grace of 8,192 charged cycles starts. A slice that others end takes no trap (16 R299). -/
def execBudgetExhausted (sl : Nat) (s : State) : Out :=
  match s.findSlice sl with
  | none => .next s
  | some x =>
    if x.left = 0 && x.grace.isNone && !x.cores.isEmpty &&
        (x.st == .running || (x.st == .exiting && (x.how == .exit || x.how == .evacuated))) then
      .next ((s.causeLeader sl (budgetTrap x)).modSlice sl (fun y => { y with grace := some 8192 }))
    else .next s

/-- The grace has run out and the slice has not issued EXIT: the scheduler ends it. -/
def execBudgetGraceExpiry (sl : Nat) (s : State) : Out :=
  match s.findSlice sl with
  | none => .next s
  | some x => if x.grace = some 0 && x.st == .running && !s.hasExited x then .next (s.stopSlice sl .budget) else .next s

/-- Is the slice to be marked late now? One in its exit wait still counts as running here (DESIGN CHOICE, log 51: R33 does not say). -/
def State.isLate (s : State) (x : Slice) : Bool :=
  !x.late && decide (x.deadline.toNat < s.now) && (x.st == .queued || x.st == .running || x.st == .exiting)

def execSliceLate (sl : Nat) (s : State) : Out :=
  match s.findSlice sl with
  | none => .next s
  | some x => match x.tile with
    | none => .next s
    | some t => if s.isLate x then .next ((s.modSlice sl (fun y => { y with late := true })).bump t 6) else .next s

/-! ### Freezes and asynchronous traps (02 R41, R44) -/

/-- Is the cause of a core's freeze over, with what the lower positions of its gang need first? The bundle is tried again when it is. -/
def State.freezeCauseOver (s : State) (core : CoreId) : Freeze → Bool
  | .copyQueue need => decide ((s.tiles[tileOf core]).copyQ.length + need ≤ 32)
  | .matrixQueue => decide ((s.cores[core]).mq.length < 16)
  | .locks need => decide (need ≤ (s.tiles[tileOf core]).freeLocks)
  | .votes need => decide ((s.tiles[tileOf core]).votes.length + need ≤ 4)
  | .tag t => (s.cores[core]).tags[t] != .running
  | .until' n => decide (n ≤ s.now)

/-- Does a freeze of the core end in this cycle? It ends in a cycle of its island, in which the bundle is tried again (02 R41). -/
def State.freezeOver (s : State) (core : CoreId) (f : Freeze) : Bool := s.coreTick (tileOf core) && s.freezeCauseOver core f

/-- Is the freeze one in which a bundle waits to be tried again? Pre-emption abandons it (16 R310). -/
def Freeze.abandoned : Freeze → Bool
  | .until' _ => false
  | _ => true

/-- The bundle that froze is tried again in this cycle, which has no further tick of the Orreries that stopped with it: the tick before the
bundle came in the cycle in which it was first tried (07 R146, 02 R41). -/
def Core.retry (c : Core) (now : Nat) : Core := { c with orr := { c.orr with lastTick := some now } }

/-- FREEZE_RELEASE: the cause of the freeze is over. -/
def execFreezeRelease (core : CoreId) (s : State) : Out :=
  match (s.cores[core]).freeze with
  | none => .next s
  | some f =>
    if s.freezeOver core f then
      let s1 := s.modCore core (fun c => { c with freeze := none })
      .next (if f.abandoned then s1.modCores (s.gang ({ s with cur := core }).ctlId) (fun c => c.retry s.now) else s1)
    else .next s

/-- Has something other than the slice's own EXIT or TEVAC ended it? It issues no more, and takes no trap (log 43). -/
def Slice.stopped (x : Slice) : Bool := x.st == .exiting && !(x.how == .exit || x.how == .evacuated)

/-- Can the unit of this core take an asynchronous trap now: at a bundle boundary, no freeze in progress, INH clear, not halted? -/
def State.asyncReady (s : State) (core : CoreId) : Bool :=
  let g := s.gang core
  (s.cores[core]).sl.isSome && !(s.sliceOn core).stopped && ((s.cores[core]).pos == 0 || (s.cores[core]).det) && (s.cores[core]).rendez.isNone &&
    g.any (fun c => !(s.cores[c]).causes.isEmpty) &&
    g.all (fun c => let k := s.cores[c]
      k.freeze.isNone && !k.inh && !k.halted && !k.dbgHalt && k.dbgHeld.isNone &&
        (k.acc.isEmpty || k.issuedAt.all (fun n => decide (n < s.now))))

/-- The oldest cause of each core of a gang that has one, all taken in one trap (DESIGN CHOICE, log 48: the manual orders them nowhere). -/
def State.firstCauses (s : State) (g : List CoreId) : List (CoreId × TrapRec) :=
  g.filterMap (fun c => ((s.cores[c]).causes.head?).map (fun t => (c, t)))

def execAsyncTrapEntry (core : CoreId) (s : State) : Out :=
  if s.asyncReady core then
    let g := s.gang core
    let ts := s.firstCauses g
    .next (((s.performAccs g).modCores g (fun c => { c with causes := c.causes.tail })).trapGang g ts (s.cores[core]).pc)
  else .next s

/-! ### Pre-emption of a core, quiescence, replay (16 R310 to R312, R317) -/

/-- Every core of the territory's running slices has halted. -/
def State.allHalted (s : State) (terr : Nat) : Bool :=
  (s.slices.filter (fun x => x.terr == terr)).all (fun x => x.cores.all (fun c => (s.cores[c]).halted))

/-- The PREEMPT is answered once every core has halted. -/
def State.tryHalted (s : State) (terr : Nat) : State := match (s.terr! terr).haltReply with
  | some h =>
    if s.allHalted terr then
      ((s.modTerr terr (fun y => { y with haltReply := none })).respond h 0x0030 0 .empty).idle h.sess
    else s
  | none => s

/-- May a core halt: its local access has reached the bank, or waits for a freeze that is abandoned, and no other freeze is in progress? -/
def Core.mayHalt (k : Core) : Bool := !k.halted && (match k.freeze with
  | some f => f.abandoned
  | none => k.acc.isEmpty)

/-- PREEMPTION_HALT: once the pre-emption has reached its tile, a core halts at its next bundle boundary, even while INH is set. A freeze that is abandoned lets the local accesses
that it delayed go on (02 R41). Results in flight, marks, a park and the delay
bundle owed stay as they are for the resumed stream, which is what replay state does (02 R44). -/
def execPreemptionHalt (core : CoreId) (s : State) : Out :=
  let k := s.cores[core]
  match k.sl with
  | none => .next s
  | some u =>
    let terr := (s.slice! u).terr
    if !(s.terr! terr).halted || !s.preempted core || !k.mayHalt then .next s
    else
      let s1 := if k.freeze.isSome then s.performAccs (s.gang ({ s with cur := core }).ctlId) else s
      .next ((s1.modCore core (fun c => { c with halted := true, freeze := none })).tryHalted terr)

/-- A request whose answer waits for other tiles: a vote, a freeze. It stays as it is while the context is halted (DEDUCED, log 29). -/
def Msg.waitsOthers : Msg → Bool
  | .vote _ _ _ _ => true
  | .freezeReq => true
  | _ => false

/-- Does a core stand in a SPAWN that may still be placed? One whose access was refused is not: it takes the refusal once it goes on. -/
def State.spawnWaits (s : State) (core : CoreId) : Bool :=
  (s.cores[core]).spawnPark.isSome && (s.gang core).all (fun c => (s.cores[c]).takable.isNone)

/-- Does a controller of the tile's slices wait for an answer, or for a pull that had begun to complete (18 R339)? -/
def State.ringsBusy (s : State) (t : TileId) : Bool := s.slices.any (fun x => x.tile == some t &&
  x.rings.any (fun r => r.pulling || r.sub.any (fun b => b.segs.any Seg.asked)))

/-- What a tile still waits for after the halt: answers to its requests, beats issued, a SPAWN not yet placed. -/
def State.tileBusy (s : State) (t : TileId) : Bool :=
  s.kept.any (fun p => p.src == t.val && p.who.isSome && !p.body.waitsOthers) || s.net.any (fun p => p.dst == t.val && p.who.isSome) ||
    (s.tiles[t]).copyQ.any (fun q => !q.outIds.isEmpty || !q.reads.isEmpty) ||
    (s.tiles[t]).fills.any (fun f => (s.own f.who).isSome) || s.ringsBusy t ||
    (coresOf t).any (fun c => s.spawnWaits c || (s.cores[c]).ask.any (fun q => !q.refused))

/-- An open reservation is released and recorded (16 R312). -/
def State.parkChain (s : State) (t : TileId) (c : CoreId) : State := match (s.cores[c]).chain, (s.cores[c]).sl with
  | some ch, some u => s.freeHops t.val (s.slice! u).terr ch.cid ch.hops
  | _, _ => s

/-- Everything of the tile that a halt leaves in progress is complete. -/
def State.canQuiesce (s : State) (t : TileId) : Bool := match (s.tiles[t]).owner with
  | some a => (s.terr! a).halted && (s.tiles[t]).preempt && !(s.tiles[t]).quiet && !s.tileBusy t &&
      (coresOf t).all (fun c => (s.cores[c]).sl.isNone || (s.cores[c]).halted)
  | none => false

/-- Has every tile of the territory quiesced? -/
def State.quiescent (s : State) (terr : Nat) : Bool :=
  (s.terr! terr).halted && allTiles.all (fun t => (s.tiles[t]).owner != some terr || (s.tiles[t]).quiet)

/-- Aborts a slice for replay (16 R317): it stops, and is queued again once what it issued has drained. One that others have ended already stays
so (16 R299: it is being dropped). -/
def execReplayAbort (sl : Nat) (s : State) : Out :=
  match s.findSlice sl with
  | none => .next s
  | some x => match x.tile with
    | none => .next s
    | some t =>
      if !(x.st == .running || x.st == .exiting) then .next s
      else
        let s1 := s.bump t 11
        if x.stopped then .next s1
        else if x.noReplay || 3 ≤ x.replays then
          .next ((s1.stopSlice sl .dataLoss).sendUpcall t x.terr (dataLoss 0 (s.tiles[t]).lidx))
        else
          let s2 := (s1.stopSlice sl .replay).bump t 15
          let s3 := s2.modSlice sl (fun y => { y with replays := y.replays + 1 })
          .next ((s3.modLaunch x.launch (fun l => { l with replays := l.replays + 1 })).modSession (s.terr! x.terr).sess (fun y => { y with replays := y.replays + 1 }))

end Sys2Proof.Machine
end

