-- ==== Sys2Proof/Machine/Territory.lean ====
section
/-! DEFINITION. Territories (ch. 03, 12 R275 to R280, 19 R342, R343): the border rule and its phases, grants, the cession sequence,
anchors, freezing, snapshots of the shape, and the instructions TSHAPE, TMAP, TPRESS, TANCHOR, TFREEZE, TTHAW and TEVAC. -/

namespace Sys2Proof.Machine

/-! ### Neighbours and counts -/

/-- The 4-neighbours of a tile (00 R4). -/
def nbrs (t : TileId) : List TileId :=
  let x := tileX t
  let y := tileY t
  (if 0 < x then (tileXY (x - 1) y).toList else []) ++ (tileXY (x + 1) y).toList ++
  (if 0 < y then (tileXY x (y - 1)).toList else []) ++ (tileXY x (y + 1)).toList

/-- |A| (03 R51). -/
def State.size (s : State) (terr : Nat) : Nat := (s.members terr).length

/-- The figure compared with a maximum: |B| and the tiles ceding or joining to B (03 R51). -/
def State.maxFigure (s : State) (terr : Nat) : Nat :=
  s.size terr + (allTiles.filter (fun t => (s.tiles[t]).joinsTo terr)).length

/-- A free tile: usable, and nobody's. -/
def Tile.isFree (t : Tile) : Bool := !t.fenced && t.owner.isNone && t.joining.isNone

/-- The phase a tile may commit in (03 R55). -/
def phaseOf (t : TileId) : Nat := tileX t % 3 + 3 * (tileY t % 3)

/-! ### Pressure (03 R53, R54) -/

/-- The remaining budgets of the slices of a tile that fall due in the window. -/
def State.demand (s : State) (t : TileId) : Nat :=
  ((s.slices.filter (fun x => x.tile == some t && decide (x.deadline.toNat ≤ s.now + s.dev.w))).map (fun x => match x.st with
    | .queued => x.declared - x.charged
    | .running => x.left
    | .exiting => x.left
    | _ => 0)).sum

/-- The raw pressure of a member at the start of an epoch. -/
def State.rawPressure (s : State) (t : TileId) : Nat := min 255 ((s.tiles[t]).bias + 64 * s.demand t / (4 * s.dev.w))

/-- The smoothed pressure at the end of an epoch, from the old ones. -/
def State.smoothed (s : State) (t : TileId) (terr : Nat) : Nat :=
  let ns := (nbrs t).filter (fun n => (s.tiles[n]).isMember terr)
  ((s.tiles[t]).raw + (ns.map (fun n => (s.tiles[n]).press)).sum) / (1 + ns.length)

/-- EPOCH_END: every member's smoothed pressure is replaced in the one cycle, and its raw pressure for the epoch that starts is
computed. -/
def execEpochEnd (s : State) : Out :=
  .next { s with tiles := Vector.ofFn (fun (t : TileId) =>
    let x := s.tiles[t]
    match x.owner with
    | some a => if x.isMember a then { x with press := s.smoothed t a, raw := s.rawPressure t } else x
    | none => x) }

/-! ### Claims (03 R56 to R60) -/

/-- The members of a territory beside a tile. -/
def State.beside (s : State) (t : TileId) (terr : Nat) : List TileId := (nbrs t).filter (fun n => (s.tiles[n]).isMember terr)

/-- The window of 3 × 3 tiles around a tile. -/
def window (t : TileId) : List TileId := allTiles.filter (fun u =>
  decide (tileX u ≤ tileX t + 1) && decide (tileX t ≤ tileX u + 1) && decide (tileY u ≤ tileY t + 1) && decide (tileY t ≤ tileY u + 1))

/-- The tiles of `zone` that chains of 4-adjacent tiles reach from `from'` in at most so many rounds. -/
def reach (zone : List TileId) : Nat → List TileId → List TileId
  | 0, l => l
  | n + 1, l => reach zone n (zone.filter (fun t => l.contains t || l.any (fun u => (nbrs u).contains t)))

/-- The connectivity test on `t` for its territory (03 R58). -/
def State.connected (s : State) (t : TileId) (terr : Nat) : Bool :=
  match s.beside t terr with
  | [] => true
  | a :: r =>
    let zone := (window t).filter (fun u => u != t && (s.tiles[u]).isMember terr)
    let got := Machine.reach zone 8 [a]
    r.all (fun b => got.contains b)

/-- Is a tile in cooldown? -/
def State.cooling (s : State) (t : TileId) : Bool := (s.tiles[t]).moved.any (fun c => decide (s.now < c + s.dev.cool))

/-- May a territory claim, be claimed from and be granted moves now: unfrozen, and its slices are not being ended by DISSOLVE, STOP or an
interface error (DESIGN CHOICE, log 54: the manual does not speak of claims of such a territory)? -/
def Terr.open' (y : Terr) : Bool := !y.mark && !y.frz && y.dying.isNone

/-- B's claim difference on a tile (03 R56 condition 1), if it reaches H. -/
def State.claimDiff (s : State) (t : TileId) (b : Nat) : Option Nat :=
  match s.beside t b with
  | [] => none
  | l =>
    let top := l.foldl (fun a u => max a (s.tiles[u]).press) 0
    let own := if (s.tiles[t]).owner.isSome then (s.tiles[t]).press else 0
    if own ≤ top && decide (s.dev.h ≤ top - own) then some (top - own) else none

/-- Conditions 1 and 2 for the gaining territory. -/
def State.gains (s : State) (t : TileId) (y : Terr) : Bool :=
  y.open' && (s.claimDiff t y.id).isSome && decide (s.maxFigure y.id < y.maxB)

/-- Conditions 2 to 4 for the tile and the territory that would lose it. -/
def State.mayLose (s : State) (t : TileId) : Bool := !s.cooling t && (match (s.tiles[t]).owner with
  | none => (s.tiles[t]).isFree
  | some a => (s.tiles[t]).isMember a && (s.terr! a).open' && decide ((s.terr! a).minA < s.size a) && !s.anchored t)

/-- The better of two claimants (03 R57). -/
def State.claimBetter (s : State) (t : TileId) (a : Option Nat) (b : Nat) : Option Nat := match a with
  | none => some b
  | some c =>
    let db := (s.claimDiff t b).getD 0
    let dc := (s.claimDiff t c).getD 0
    let nb := (s.beside t b).length
    let nc := (s.beside t c).length
    if dc < db || (dc == db && (decide (nc < nb) || (nc == nb && decide (b < c)))) then some b else some c

/-- The territory that claims a tile by conditions 1 to 4. -/
def State.claimant (s : State) (t : TileId) : Option Nat :=
  if s.mayLose t then
    ((s.terrs.filter (fun y => some y.id != (s.tiles[t]).owner && s.gains t y)).map (·.id)).foldl (s.claimBetter t) none
  else none

/-- Sends the size requests of a claim (03 R60). -/
def State.askSizes (s : State) (t : TileId) (c : Claim) : State :=
  let s1 := match c.lose with
    | some a => s.sendCtl t (s.terr! a).handler a (.sizeReq a true t c.start)
    | none => s
  s1.sendCtl t (s.terr! c.gain).handler c.gain (.sizeReq c.gain false t c.start)

/-- PHASE_START: at the first cycle of its phase a tile tests its claims. -/
def execPhaseStart (tile : TileId) (s : State) : Out :=
  match s.claimant tile with
  | none => .next s
  | some b =>
    let lose := (s.tiles[tile]).owner
    if lose.any (fun a => !s.connected tile a) then .next (s.bump tile 1)
    else
      let c : Claim := { start := s.now, gain := b, lose := lose, lossOk := lose.isNone, gainOk := false, dead := false }
      .next ((s.modTile tile (fun x => { x with claim := some c })).askSizes tile c)

/-- A handler tile grants a size request while condition 2 holds after every grant already made, and the territory is not marked
frozen (03 R60, R74). -/
def State.maySize (s : State) (y : Terr) (loss : Bool) : Bool := y.open' &&
  (if loss then decide (y.minA + y.lossGrants.length < s.size y.id)
   else decide (s.maxFigure y.id + y.gainGrants.length < y.maxB))

def Terr.grant (y : Terr) (loss : Bool) (g : TileId) (start : Nat) : Terr :=
  let z : Terr := { y with order := y.order ++ [g] }
  if loss then { z with lossGrants := y.lossGrants ++ [(g, start)] } else { z with gainGrants := y.gainGrants ++ [(g, start)] }

/-- A grant is used or given back. -/
def Terr.ungrant (y : Terr) (loss : Bool) (g : TileId) (start : Nat) : Terr :=
  if loss then { y with lossGrants := y.lossGrants.erase (g, start) } else { y with gainGrants := y.gainGrants.erase (g, start) }

/-- The tile's place in the order of grants is no longer needed. -/
def Terr.unorder (y : Terr) (g : TileId) : Terr := { y with order := y.order.erase g }

def execSizeRequest (k : Nat) (s : State) : Out :=
  match s.firstPacket k with
  | none => .next s
  | some p => match p.body, nodeTile p.dst with
    | .sizeReq a loss g c, some h => .next (s.arrive p (fun s =>
        let s1 := s.sendAck p
        let ok := match s.findTerr a with
          | some y => y.handler == h && s.maySize y loss
          | none => false
        let s2 := if ok then s1.modTerr a (fun y => y.grant loss g c) else s1
        s2.sendCtl h g a (.sizeGrant a loss ok g c)))
    | _, _ => .next s

/-- Is this answer, to a request of the claim made at `start`, one the claim waits for? -/
def Claim.wants (c : Claim) (a : Nat) (loss : Bool) (start : Nat) : Bool :=
  c.start == start && (if loss then c.lose == some a else c.gain == a)

/-- SIZE_GRANT: an answer is back at the tile. A grant that no live claim waits for goes back, as one does that comes after its own claim is
over; a refusal abandons the claim. -/
def State.grantBack (s : State) (g : TileId) (a : Nat) (loss ok : Bool) (start : Nat) : State := match (s.tiles[g]).claim with
  | some c =>
    if !c.wants a loss start then (if ok then s.returnGrant g a loss start else s)
    else if c.dead then (if ok then s.returnGrant g a loss start else s)
    else if ok then s.modTile g (fun x => { x with claim := some (if loss then { c with lossOk := true } else { c with gainOk := true }) })
    else s.abandon g
  | none => if ok then s.returnGrant g a loss start else s

def execSizeGrant (k : Nat) (s : State) : Out :=
  match s.firstPacket k with
  | none => .next s
  | some p => match p.body with
    | .sizeGrant a loss ok g c => .next (s.arrive p (fun s => (s.sendAck p).grantBack g a loss ok c))
    | _ => .next s

/-- SIZE_GRANT_RETURN: a grant for a move that did not commit is back at the handler tile. -/
def execSizeGrantReturn (k : Nat) (s : State) : Out :=
  match s.firstPacket k with
  | none => .next s
  | some p => match p.body, nodeTile p.src with
    | .sizeReturn a loss c, some g => .next (s.arrive p (fun s => (s.sendAck p).modTerr a (fun y => (y.ungrant loss g c).unorder g)))
    | _, _ => .next s

/-! ### Commit and cession (03 R60, R61, R63) -/

/-- TLOSS (03 R63): the last cycle of the evacuation budget; the gaining territory and A's shape version after the loss. -/
def tloss (gain : Option Nat) (last : Nat) (ver : BitVec 32) : TrapRec :=
  { code := 0x20, i0 := BitVec.ofNat 64 last, i1 := BitVec.ofNat 64 (gain.getD 0xFF * 2 ^ 32 + ver.toNat), async := true }

/-- TGAIN. -/
def tgain (lidx : Nat) (t : TileId) (ver : BitVec 32) : TrapRec :=
  { code := 0x21, i0 := BitVec.ofNat 64 lidx, i1 := BitVec.ofNat 64 (t.val * 2 ^ 32 + ver.toNat), async := true }

/-- The slices waiting on a tile, oldest arrival first. -/
def State.waitingOn (s : State) (g : TileId) : List Nat :=
  ((s.slices.filter (fun x => x.tile == some g && (x.st == .queued || x.st == .held))).mergeSort
    (fun a b => decide (a.arrival ≤ b.arrival))).map (·.uid)

/-- A tile begins to leave A for B, in a move committed at cycle `at'`: it is ceding, its index a hole, its queued slices re-homed, its
running slices take TLOSS, barriers and votes let go of it. -/
def State.leave (s : State) (g : TileId) (a : Nat) (gain : Option Nat) (at' : Nat) : State :=
  let y := s.terr! a
  let last := at' + y.evac
  let s1 := s.modTerr a (fun y => { y with ver := y.ver + 1 })
  let s2 := s1.modTile g (fun x => { x with ceding := some { gain := gain, lastCycle := last, expired := false, cleared := false, ver := y.ver + 1 } })
  let s3 := (s2.waitingOn g).foldl (fun s u => s.rehome u g) s2
  let s4 := (s3.slices.filter (fun x => x.tile == some g && x.st == .running)).foldl
    (fun s x => s.causeAll x (tloss gain last (y.ver + 1))) s3
  (s4.barInvalidate a g).voteLeave a g

/-- May the claim commit: both grants are back and both territories still stand? -/
def State.commits (s : State) (c : Claim) : Bool :=
  !c.dead && c.lossOk && c.gainOk && (s.findTerr c.gain).any (fun y => y.dying.isNone) &&
    c.lose.all (fun a => (s.findTerr a).any (fun y => y.dying.isNone))

/-- MOVE_COMMIT, at cycle 1,700 of the phase, which is the cycle before this one: what issues in the cycle of the commit is resolved before it,
and one cycle later it meets a hole (03 R71). -/
def execMoveCommit (tile : TileId) (s : State) : Out :=
  match (s.tiles[tile]).claim with
  | none => .next s
  | some c =>
    let s1 := s.modTile tile (fun x => { x with claim := none })
    if s.commits c then
      let s2 := (s1.bump tile 0).modTerr c.gain (fun y => y.ungrant false tile c.start)
      match c.lose with
      | some a => .next ((s2.modTerr a (fun y => (y.ungrant true tile c.start).unorder tile)).leave tile a (some c.gain) (s.now - 1))
      | none => .next (s2.modTile tile (fun x => { x with joining := some (c.gain, s.now) }))
    else .next (if c.dead then s1 else s1.returnGrants tile c)

/-- The slice is in an image alone. -/
def State.delSlice (s : State) (uid : Nat) : State := { s with slices := s.slices.filter (fun y => y.uid != uid) }

/-- Step 2 of a cession ends without data loss: the image that has been written holds the slices on the tile, with their copies, and they
are on this device no more (03 R66). -/
def State.imageKeeps (s : State) (tile : TileId) (c : Cession) : State :=
  let s1 := s.modTile tile (fun x => { x with ceding := some { c with expired := true } })
  (s1.slices.filter (fun x => x.tile == some tile && !x.cores.isEmpty)).foldl (fun s x =>
    (((s.release x tile).modTile tile (fun y => { y with copyQ := y.copyQ.filter (fun q => q.who.1 != x.uid) })).modLaunch x.launch
      (fun l => { l with open' := l.open' - 1 })).delSlice x.uid) s1

/-- EVACUATION_EXPIRY: the cycle after the last one of the evacuation budget; slices still running, that have issued no EXIT, TEVAC or
YIELD, are stopped, and the handler tile receives data loss. While the context is halted no slice is stopped; those whose state an image
holds end without data loss (03 R66). -/
def execEvacuationExpiry (tile : TileId) (s : State) : Out :=
  match (s.tiles[tile]).ceding, (s.tiles[tile]).owner with
  | some c, some a =>
    if c.expired || decide (s.now ≤ c.lastCycle) || ((s.terr! a).halted && !(s.terr! a).imaged) then .next s
    else if (s.terr! a).halted then .next (s.imageKeeps tile c)
    else
      let s1 := s.modTile tile (fun x => { x with ceding := some { c with expired := true } })
      let left := s1.slices.filter (fun x => x.tile == some tile && x.st == .running && !x.evacuated && !s1.hasExited x)
      .next (left.foldl (fun s x =>
        ((s.stopSlice x.uid .expired).bump tile 4).sendUpcall tile a (dataLoss 1 (s.tiles[tile]).lidx)) s1)
  | _, _ => .next s

/-- Does a place of a copy lie on a peer tile? -/
def CLoc.on (g : TileId) : CLoc → Bool
  | .peer u _ _ _ => u == g
  | _ => false

/-- Is a message on its way along a chain that has the tile among its later hops? -/
def Msg.headsFor (g : TileId) : Msg → Bool
  | .reserve c i => (c.hops.drop i).any (fun h => h.1 == g)
  | .payload c i _ _ => (c.hops.drop i).any (fun h => h.1 == g)
  | _ => false

/-- Is nothing addressed to a ceding tile or issued by it outstanding (03 R61 step 4), and no slice left on it? A copy's beat that is issued and
not yet written, and a chain that has not come to the tile, are outstanding too. -/
def State.tileDrained (s : State) (g : TileId) : Bool :=
  !s.slices.any (fun x => x.tile == some g) && (s.tiles[g]).copyQ.isEmpty &&
    !(s.net ++ s.kept).any (fun p => p.src == g.val || p.dst == g.val || p.body.headsFor g) &&
    !allTiles.any (fun u => (s.tiles[u]).copyQ.any (fun q => !q.reads.isEmpty && (q.src.on g || q.dst.on g)))

/-- CESSION_CLEARING: once evacuation and draining are over. -/
def execCessionClearing (tile : TileId) (s : State) : Out :=
  match (s.tiles[tile]).ceding with
  | some c =>
    if c.cleared || !s.tileDrained tile then .next s
    else .next ((s.clearTile tile).modTile tile (fun x => { x with ceding := some { c with cleared := true } }))
  | none => .next s

/-- The lowest logical index not in use in a territory. -/
def State.lowestIndex (s : State) (terr : Nat) : Nat :=
  let used := (s.members terr).map (fun t => (s.tiles[t]).lidx)
  ((List.range 1024).find? (fun i => !used.contains i)).getD 0

/-- A tile becomes a member: its index, cooldown, the shape version, TGAIN. Its raw pressure is 0 until the next epoch starts
(DESIGN CHOICE, log 53: the manual computes raw pressures at the start of an epoch only). -/
def State.join (s : State) (g : TileId) (b : Nat) : State :=
  let i := s.lowestIndex b
  let y := s.terr! b
  let s1 := s.modTile g (fun x => { x with
    owner := some b, lidx := i, ceding := none, joining := none, moved := some (s.now - 1), bias := 0, raw := 0, press := 0,
    anchT := false, anchF := false, voteNo := y.nextVote, joinVer := y.ver + 1, preempt := y.halted })
  (s1.modTerr b (fun y => { y.unorder g with ver := y.ver + 1 })).sendUpcall g b (tgain i g (y.ver + 1))

/-- CESSION_JOINING: at the end of the cycle of step 6, which is the cycle before this one. A tile whose gaining territory has been
dissolved goes to the free pool. -/
def execCessionJoining (tile : TileId) (s : State) : Out :=
  let x := s.tiles[tile]
  let stands (b : Nat) : Bool := (s.findTerr b).any (fun y => y.dying.all (·.stays))
  match x.ceding, x.owner, x.joining with
  | some c, some a, _ =>
    if !c.cleared then .next s
    else
      let s1 := (s.freeTile tile).modTile tile (fun x => { x with moved := some (s.now - 1) })
      match c.gain with
      | some b => .next ((if stands b then s1.join tile b else s1).tryDissolve a)
      | none => .next (s1.tryDissolve a)
  | _, _, some (b, cyc) =>
    if s.now ≤ cyc then .next s
    else if stands b then .next (s.join tile b)
    else .next (s.modTile tile (fun x => { x with joining := none }))
  | _, _, _ => .next s

/-! ### Freezing (03 R74, 12 R279) -/

/-- The handler tile answers a parked core. -/
def State.answerTo (s : State) (h : TileId) (terr : Nat) (w : Who × Nat × TileId) (k : AnswerKind) : State :=
  s.send h.val w.2.2.val 5 (some w.1) terr (.answer w.2.1 k)

/-- The park that waits for this answer waits for nothing more, in the stream that holds it: it ends in this cycle, once what the core has sent to
its own tile is performed (04 R90). -/
def answered (id : Nat) (p : Option Park) : Option Park := match p with
  | some q => if q.why = .answer id then some { q with why := .fence .c } else p
  | none => none

def Core.answered (c : Core) (id : Nat) : Core :=
  { c with park := Machine.answered id c.park, replay := c.replay.map (fun r => { r with park := Machine.answered id r.park }) }

/-- A claim on which a mark falls lives on only if both its grants were given before. -/
def State.markClaim (s : State) (t : TileId) (terr : Nat) : State := match (s.tiles[t]).claim with
  | some c =>
    let given := c.lose.all (fun a => (s.terr! a).lossGrants.contains (t, c.start)) && (s.terr! c.gain).gainGrants.contains (t, c.start)
    if (c.gain == terr || c.lose == some terr) && !given then s.abandon t else s
  | none => s

/-- FREEZE_MARK: TFREEZE's request reaches the handler tile. -/
def execFreezeMark (k : Nat) (s : State) : Out :=
  match s.firstPacket k with
  | none => .next s
  | some p => match p.body, p.who, nodeTile p.dst, nodeTile p.src with
    | .freezeReq, some w, some h, some t => .next (s.arrive p (fun s =>
        let s1 := s.sendAck p
        if (s.terr! p.terr).frz then s1.answerTo h p.terr (w, p.id, t) .done
        else allTiles.foldl (fun s u => s.markClaim u p.terr)
          (s1.modTerr p.terr (fun y => { y with mark := true, waiting := y.waiting ++ [(w, p.id, t)] }))))
    | _, _, _, _ => .next s

/-- Is no tile moving from or to a territory, and no claim left that may still commit (DESIGN CHOICE, log 55: the manual names only tiles that
cede or join, and lets such a claim commit)? -/
def State.still (s : State) (terr : Nat) : Bool := allTiles.all (fun t =>
  let x := s.tiles[t]
  !x.joinsTo terr && !(x.owner == some terr && x.ceding.isSome) &&
    !(x.claim.any (fun c => !c.dead && (c.gain == terr || c.lose == some terr))))

/-- The parks of the waiting TFREEZEs end, all in the same cycle (12 R279). -/
def State.endFreezes (s : State) (ws : List (Who × Nat × TileId)) : State := ws.foldl (fun s w => s.modOwn w.1 (fun c => c.answered w.2.1)) s

/-- FREEZE_TAKES_HOLD, in the cycle in which no tile moves any more: FRZ becomes 1, EV_SHAPE is recorded, and the waiting TFREEZEs end. -/
def execFreezeTakesHold (terr : Nat) (s : State) : Out :=
  match s.findTerr terr with
  | none => .next s
  | some y =>
    if !y.mark || y.frz || !s.still terr then .next s
    else
      .next (((s.modTerr terr (fun y => { y with frz := true, waiting := [] })).evShape terr).endFreezes y.waiting)

/-- THAW_REQUEST: the mark and FRZ are cleared; waiting TFREEZEs end at once, and the TTHAW is answered. -/
def execThawRequest (k : Nat) (s : State) : Out :=
  match s.firstPacket k with
  | none => .next s
  | some p => match p.body, p.who, nodeTile p.dst, nodeTile p.src with
    | .thawReq, some w, some h, some t => .next (s.arrive p (fun s =>
        let s1 := (s.sendAck p).modTerr p.terr (fun y => { y with mark := false, frz := false, waiting := [] })
        (s1.endFreezes (s.terr! p.terr).waiting).answerTo h p.terr (w, p.id, t) .done))
    | _, _, _, _ => .next s

/-! ### Anchors (03 R73, 12 R278) -/

/-- What the firmware anchor of a tile will be from the next phase on (03 R78). -/
def Terr.anchorDue (y : Terr) (t : TileId) : Option Bool := ((y.pendAnch.filter (fun e => e.1 == t)).getLast?).map (·.2)

/-- Is a tile anchored, or will it be from the next phase on? -/
def State.heldAnchor (s : State) (terr : Nat) (t : TileId) : Bool := s.anchored t || (s.terr! terr).anchorDue t == some true

/-- The tiles a territory's anchors count. -/
def State.anchors (s : State) (terr : Nat) : Nat := ((s.members terr).filter (s.heldAnchor terr)).length

/-- ANCHOR_REQUEST: TANCHOR's request reaches the handler tile, which counts it and forwards it. A request whose target is not yet anchored
counts until its answer, even beside another one for the same tile (DESIGN CHOICE, log 56: the manual does not say how requests that are in
flight together count). -/
def execAnchorRequest (k : Nat) (s : State) : Out :=
  match s.firstPacket k with
  | none => .next s
  | some p => match p.body, p.who, nodeTile p.dst, nodeTile p.src with
    | .anchorReq lidx on, some w, some h, some home => .next (s.arrive p (fun s =>
        let s1 := s.sendAck p
        match s.memberAt p.terr lidx with
        | none => s1.answerTo h p.terr (w, p.id, home) (.fault (stalePeer lidx p.ver))
        | some t =>
          let counted := on && !s.heldAnchor p.terr t
          if counted && decide (16 ≤ s.anchors p.terr + (s.terr! p.terr).anchPending) then
            s1.answerTo h p.terr (w, p.id, home) (.fault (cause 0x0B 0xFE 0xFFFFFFFF#64))
          else
            let s2 := if counted then s1.modTerr p.terr (fun y => { y with anchPending := y.anchPending + 1 }) else s1
            s2.send h.val t.val 5 (some w) p.terr (.anchorFwd home.val p.id p.ver on counted)))
    | _, _, _, _ => .next s

/-- An anchor that is applied abandons a claim in progress. -/
def State.anchorOn (s : State) (t : TileId) : State := (s.modTile t (fun x => { x with anchT := true })).abandon t

/-- Does a tile leave in this very cycle, the commit cycle, from which an anchor finds it ceding (12 R278)? -/
def State.leaving (s : State) (t : TileId) : Bool :=
  s.now % 3400 == 1700 && (s.tiles[t]).claim.any (fun c => c.lose.isSome && s.commits c)

/-- ANCHOR_APPLY: the target applies the request in one cycle, and the answer goes back. A target that cedes drops the request and counts it
(03 R64), and answers stale peer, with the shape version that the issuer's tile held at issue (03 R71). -/
def execAnchorApply (k : Nat) (s : State) : Out :=
  match s.firstPacket k with
  | none => .next s
  | some p => match p.body, p.who, nodeTile p.dst with
    | .anchorFwd home req ver on counted, some w, some t => .next (s.arrive p (fun s =>
        let s1 := (s.sendAck p).modTerr p.terr (fun y => { y with anchPending := y.anchPending - (if counted then 1 else 0) })
        let back (s : State) (k : AnswerKind) : State := s.send t.val home 5 (some w) p.terr (.answer req k)
        if !(s.tiles[t]).isMember p.terr || s.leaving t then back (s1.bump t 2) (.fault (stalePeer (s.tiles[t]).lidx ver))
        else back (if on then s1.anchorOn t else s1.modTile t (fun x => { x with anchT := false })) .done))
    | _, _, _ => .next s

/-! ### Snapshots (12 R275, R276) -/

/-- Bytes 0 to 7 of a shape record. -/
def State.shapeWord (s : State) (terr : Nat) : Word :=
  let y := s.terr! terr
  BitVec.ofNat 64 (s.size terr * 2 ^ 43 + bit64 y.frz 42 + s.maxIndex terr * 2 ^ 32 + y.ver.toNat)

/-- The 136 bytes of a shape record. -/
def State.shapeRecord (s : State) (terr : Nat) : List Byte :=
  let maxl := s.maxIndex terr
  let used := (s.members terr).map (fun t => (s.tiles[t]).lidx)
  let hole (i : Nat) : Bool := decide (i ≤ maxl) && !used.contains i
  leBytes 8 (s.shapeWord terr).toNat ++ (List.range 128).map (fun b =>
    BitVec.ofNat 8 ((List.range 8).map (fun i => bit64 (hole (8 * b + i)) i)).sum)

/-- What TMAP returns. -/
def State.mapWord (s : State) (terr idx : Nat) : Word := BitVec.ofNat 64 ((match s.memberAt terr idx with
  | some t => t.val * 2 ^ 32
  | none => 2 ^ 63) + (s.terr! terr).ver.toNat)

/-- The register result of a snapshot. -/
def snapWr (d : Reg) (x : Word) : Wr := if d = 0 then .flagsOnly else .scalar d x

/-- SHAPE_SNAPSHOT: the request reaches the handler tile, which takes one snapshot. -/
def execShapeSnapshot (k : Nat) (s : State) : Out :=
  match s.firstPacket k with
  | none => .next s
  | some p => match p.body with
    | .snapReq d (.shape off) => .next (s.arrive p (fun s => (s.sendAck p).send p.dst p.src 5 p.who p.terr
        (.snapAns p.id (snapWr d (s.shapeWord p.terr)) (s.shapeRecord p.terr) off)))
    | .snapReq d (.map idx) => .next (s.arrive p (fun s => (s.sendAck p).send p.dst p.src 5 p.who p.terr
        (.snapAns p.id (snapWr d (s.mapWord p.terr idx)) [] 0)))
    | _ => .next s

/-- Does the core still wait for the result of this request? -/
def Core.awaits (c : Core) (id : Nat) : Bool := (c.pend ++ (c.replay.map (·.pend)).getD []).any (fun p => p.id == id)

/-- A snapshot is back: the record is written, then the result arrives. The range stays locked until the result lands; with no result
to land it is free now. -/
def State.snapBack (s : State) (t : TileId) (w : Who) (req : Nat) (wr : Wr) (rec : List Byte) (off : Nat) : State :=
  let s1 := match s.findSlice w.1 with
    | some x => if rec.isEmpty then s else s.setBytes (x.key t off) rec
    | none => s
  let s2 := (s1.modOwn w (fun c => c.deliver req wr 0)).doneOut w req
  if (s2.own w).any (fun c => c.awaits req) then s2 else s2.modTile t (fun x => x.release req)

/-- HANDLER_TILE_ANSWER: the answer to TANCHOR, TFREEZE, TTHAW, TSHAPE or TMAP reaches the core. -/
def execHandlerTileAnswer (k : Nat) (s : State) : Out :=
  match s.firstPacket k with
  | none => .next s
  | some p => match p.body, p.who, nodeTile p.dst with
    | .answer req .done, some w, some _ => .next (s.arrive p (fun s => (s.sendAck p).modOwn w (fun c => c.answered req)))
    | .answer req (.fault t), some w, some _ => .next (s.arrive p (fun s => (s.sendAck p).modOwn w (fun c => c.refuse req t false)))
    | .snapAns req wr rec off, some w, some t => .next (s.arrive p (fun s => (s.sendAck p).snapBack t w req wr rec off))
    | _, _, _ => .next s

/-! ### Instructions -/

/-- Sends a request of class 5 to the handler tile. Its number is `dev.nextReq`. -/
def State.askHandler (s : State) (b : Msg) : State :=
  s.send s.tile (s.terr! s.sl.terr).handler.val 5 (some s.me) s.sl.terr b

/-- TSHAPE (12 R275). -/
def execTshape (m : Bool) (c a : Reg) (s : State) : Out :=
  cWord m [.scalar a] (wS c none) (fun s =>
    let ad := s.rs a
    match s.checkMem .near ad 136 8 true with
    | some t => .trap t
    | none =>
      if (s.tiles[s.tile]).freeLocks < 1 then .freeze (.locks 1)
      else
        let id := s.dev.nextReq
        let s1 := ((s.pendOn id (dstS c)).askHandler (.snapReq c (.shape ad.toNat))).addOut s.me id
        .ok (s1.modTile s.tile (fun x => x.register [(s.sl.fbase + ad.toNat, 136, true)] id))) s

/-- TMAP (12 R276). -/
def execTmap (m : Bool) (c a : Reg) (s : State) : Out :=
  cWord m [.scalar a] (wS c none) (fun s =>
    let id := s.dev.nextReq
    .ok (((s.pendOn id (dstS c)).askHandler (.snapReq c (.map (wbits (s.rs a) 9 0)))).addOut s.me id)) s

/-- TPRESS (12 R277). -/
def execTpress (m : Bool) (a : Reg) (s : State) : Out :=
  cWord m [.scalar a] [] (fun s =>
    .ok (s.modTile s.tile (fun x => { x with bias := (max 0 (min 255 (s.rs a).toInt)).toNat }))) s

/-- TANCHOR (12 R278). -/
def execTanchor (m : Bool) (a : Reg) (on : Bool) (s : State) : Out :=
  cWord m [.scalar a] [] (fun s =>
    .ok (((s.askHandler (.anchorReq (wbits (s.rs a) 9 0) on)).parkOn (.answer s.dev.nextReq)).noReplay)) s

/-- TFREEZE (12 R279). -/
def execTfreeze (m : Bool) (s : State) : Out :=
  cWord m [] [] (fun s => .ok (((s.askHandler .freezeReq).parkOn (.answer s.dev.nextReq)).noReplay)) s

/-- TTHAW (12 R279). -/
def execTthaw (m : Bool) (s : State) : Out :=
  cWord m [] [] (fun s => .ok (((s.askHandler .thawReq).parkOn (.answer s.dev.nextReq)).noReplay)) s

/-- Schedule, for TEVAC on a tile that is not ceding. -/
def notCeding : TrapRec := cause 0x0B 0xFD 0xFFFFFFFF#64

/-- TEVAC (12 R280): ends the slice as EXIT does, with no delay bundle. -/
def execTevac (m : Bool) (s : State) : Out :=
  cWordNoDelay m [] [] (fun s =>
    if s.c.det then .trap (cause 0x01 s.pcNow 2)
    else s.ctlOnly (fun s =>
      if (s.tiles[s.tile]).ceding.isNone then .trap notCeding else .ok (s.evacuate.transfer .evac 0))) s

end Sys2Proof.Machine
end

