-- ==== Sys2Proof/Machine/Command.lean ====
section
/-! DEFINITION. The command processor (16 R292 to R305, R309, R310; 20 R352; 21 R359): the order in which a command is checked, and
CREATE, CREATE_INDEXED, DISSOLVE, POLICY, MAP, UNMAP, PROTECT, LOAD_CODE, LAUNCH, PREEMPT, RESUME and DEBUG. -/

namespace Sys2Proof.Machine

/-! ### The checks of R295 -/

/-- What checks 6 and 7 and the command's effect answer: a status, the state with a body, or a state whose response comes later, with
what follows the acceptance. -/
inductive CmdRes
  | bad (status : Nat)
  | done (s : State) (b : Body)
  | later (s : State) (next : State → State)

/-- The last command of a session that was accepted is this one. -/
def State.accept (s : State) (h : Hdr) (busy : Bool) : State :=
  s.modSession h.sess (fun x => { x with nextSeq := h.seq + 1, busy := busy })

/-- Must the session's commands travel inside the secure session, and do they (17 R331)? -/
def State.secureOk (s : State) (h : Hdr) : Bool :=
  let inside := h.secure && s.dev.spdm.contains h.sess
  s.terrs.all (fun y => !y.iface.attested || inside || (y.sess != h.sess && y.id != h.terr))
    && s.terrs.all (fun y => !y.iface.attested || y.id != h.terr || y.sess == h.sess)

/-- Does a territory exist for commands and RMA? One that a STOP_INTERFACE_REQUEST empties does: it stays a territory (17 R332). -/
def Terr.lives (y : Terr) : Bool := y.dying.all (·.stays)

/-- A territory of the session. -/
def State.ownTerr (s : State) (h : Hdr) : Option Terr := (s.findTerr h.terr).filter (fun y => y.sess == h.sess && y.lives)

/-- Does the interface of the named territory allow a command of these states (17 R332)? An unattested one allows every command. While a STOP
ends its slices, only a command is allowed that CONFIG_UNLOCKED allows too (log 65). -/
def State.ifAllows (s : State) (h : Hdr) (sts : List IfState) : Bool := match s.findTerr h.terr with
  | some y => !y.iface.attested || y.sess != h.sess || (sts.contains y.iface.st && (y.dying.isNone || sts.contains .unlocked))
  | none => true

/-- Runs a command: R295 in order. A session that is not open has no accepted SEQ to check against, and its state allows no command but
OPEN (log 30). In boot failure no command is executed (17 R320); while an earlier command of the session has not taken its effect, the next
is not taken (16 R296). -/
def State.runCmd (s : State) (h : Hdr) (code : Nat) (state : State → Bool) (needTerr : Bool) (k : State → CmdRes) : Out :=
  match s.findSession h.sess with
  | none => .next (if s.dev.bootFail then s else s.respond h code (if h.formed then 4 else 1) .empty)
  | some x =>
    if x.busy || s.dev.bootFail then .next s
    else if !h.formed then .next (s.respond h code 1 .empty)
    else if h.seq ≠ x.nextSeq then .next (s.respond h code 2 .empty)
    else if !(s.secureOk h && state s) then .next (s.respond h code 4 .empty)
    else if needTerr && (s.ownTerr h).isNone then .next (s.respond h code 5 .empty)
    else match k s with
      | .bad st => .next (s.respond h code st .empty)
      | .done s' b => .next ((s'.accept h false).respond h code 0 b)
      | .later s' f => .next (f (s'.accept h true))

/-- Check 3: an unassigned CODE. Its SEQ is checked first. -/
def execUnknownCommand (h : Hdr) (code : Nat) (s : State) : Out :=
  match s.findSession h.sess with
  | none => .next (if s.dev.bootFail then s else s.respond h code (if h.formed then 3 else 1) .empty)
  | some x =>
    if x.busy || s.dev.bootFail then .next s
    else .next (s.respond h code (if !h.formed then 1 else if h.seq ≠ x.nextSeq then 2 else 3) .empty)

/-- Any state of the interface. -/
def anyState (_ : State) : Bool := true

/-! ### Territories (16 R298, R299, 20 R352) -/

/-- Are the tiles 4-connected? -/
def tilesConnected : List TileId → Bool
  | [] => true
  | a :: r => let got := reach (a :: r) (r.length) [a]
    r.all (fun t => got.contains t)

/-- No element twice. -/
def distinct {α : Type} [BEq α] : List α → Bool
  | [] => true
  | a :: r => !r.contains a && distinct r

/-- The interface registers at creation (17 R330). -/
def Iface.fresh (fwver : Word) : Iface :=
  let none4 := BitVec.allOnes 64
  { st := .unlocked, attested := false, nonce := [],
    regs := #v[BitVec.ofNat 64 (384 * 2 ^ 33 + 2 ^ 24), none4, none4, none4, none4, 0, 0xFFFF, 0, fwver] }

/-- FWVER: security version and build of the running firmware. -/
def State.fwver (s : State) : Word :=
  let img := s.dev.running
  BitVec.ofNat 64 (Config.imageSvn img % 2 ^ 32 * 2 ^ 32 + (Config.imageBuild img).toNat)

/-- A new territory. -/
def newTerr (id born sess : Nat) (handler : TileId) (ver : BitVec 32) (minA maxB : Nat) (fwver : Word) : Terr :=
  { id := id, born := born, sess := sess, handler := handler, ver := ver, mark := false, frz := false, waiting := [], lossGrants := [],
    gainGrants := [], order := [], minA := minA, maxB := maxB, evac := 85000, pendPol := [], pendAnch := [], anchPending := 0, pages := [], dirty := [],
    dirtyRead := false, wroteAt := 0, wrote := [], dirtySince := false, lastCoop := none, votes := [], nextVote := 0, halted := false, haltReply := none,
    imaged := false, saving := none, dying := none, iface := Iface.fresh fwver }

/-- The checks of CREATE and CREATE_INDEXED, then the territory with its members. -/
def State.createWith (s : State) (h : Hdr) (ver : Nat) (tiles : List (Nat × Nat × Nat)) (minA maxB : Nat) : CmdRes :=
  let ts := tiles.map (fun e => (e.1, tileXY e.2.1 e.2.2))
  let places := ts.filterMap (·.2)
  let idxs := tiles.map (·.1)
  let listOk := !tiles.isEmpty && decide (tiles.length ≤ 384) && places.length == tiles.length && distinct places && distinct idxs &&
    idxs.contains 0 && idxs.all (fun i => decide (i ≤ 1023)) && tilesConnected places
  let sizeOk := decide (1 ≤ minA) && decide (minA ≤ tiles.length) && decide (tiles.length ≤ maxB) && decide (maxB ≤ 384)
  if 63 < h.terr || (s.findTerr h.terr).isSome || !listOk || !sizeOk || decide (4294967296 ≤ ver) then .bad 6
  else if decide (64 ≤ s.terrs.length) || places.any (fun t => !(s.tiles[t]).isFree) then .bad 7
  else
    let hd := ((ts.find? (fun e => e.1 == 0)).bind (·.2)).getD 0
    let y := newTerr h.terr s.dev.nextTerr h.sess hd (BitVec.ofNat 32 ver) minA maxB s.fwver
    let s1 := ts.foldl (fun s e => match e.2 with
      | some t => (s.abandon t).modTile t (fun x => { x with owner := some h.terr, lidx := e.1, voteNo := 0, bias := 0, raw := 0, press := 0, claim := none,
                                                                joinVer := BitVec.ofNat 32 ver, preempt := false })
      | none => s) s
    .done { s1 with dev := { s1.dev with nextTerr := s1.dev.nextTerr + 1 }, terrs := s1.terrs ++ [y], ghosts := s1.ghosts.filter (fun g => g.terr != h.terr) } .empty

/-- A session owns at most one territory (17 R322). -/
def State.ownsNone (s : State) (h : Hdr) : Bool := !s.terrs.any (fun y => y.sess == h.sess)

/-- CREATE: the tiles listed take the indices 0, 1, … in order. -/
def execCreate (h : Hdr) (tiles : List (Nat × Nat)) (minA maxB : Nat) (s : State) : Out :=
  s.runCmd h 0x0010 (fun s => s.ownsNone h) false (fun s => s.createWith h 0 (tiles.zipIdx.map (fun e => (e.2, e.1.1, e.1.2))) minA maxB)

/-- CREATE_INDEXED (20 R352). -/
def execCreateIndexed (h : Hdr) (version : Nat) (tiles : List (Nat × Nat × Nat)) (minA maxB : Nat) (s : State) : Out :=
  s.runCmd h 0x0013 (fun s => s.ownsNone h) false (fun s => s.createWith h version tiles minA maxB)

/-- DISSOLVE (16 R299): answered once every slice has ended and the tiles are free. -/
def execDissolve (h : Hdr) (s : State) : Out :=
  s.runCmd h 0x0011 (fun s => s.ifAllows h [.unlocked]) true (fun s =>
    let s1 := (s.modTerr h.terr (fun y => { y with dying := some { how := .dissolved, reply := some h, stop := none, stays := false } })).forceLaunches h.terr 5
    .later (s1.endSlices h.terr .dissolved) (fun s => s.tryDissolve h.terr))

/-! ### Policy (03 R78, 21 R359) -/

/-- The value of a setting once every accepted change is in force. -/
def dueValue (pend : List (Nat × Nat)) (id cur : Nat) : Nat := (pend.foldl (fun a e => if e.1 = id then some e.2 else a) none).getD cur

def State.devPol (s : State) (id v : Nat) : CmdRes := .done { s with dev := { s.dev with pendPol := s.dev.pendPol ++ [(id, v)] } } .empty

def State.terrPol (s : State) (terr id v : Nat) : CmdRes :=
  .done (s.modTerr terr (fun y => { y with pendPol := y.pendPol ++ [(id, v)] })) .empty

/-- Is the session one that OPS admits (21 R358, R359)? -/
def State.opsAdmits (s : State) (sess : Nat) : Bool := match (s.session! sess).eps.find? (fun e => e.1 == 0) with
  | some e => s.dev.ops.contains e.2.fa
  | none => false

/-- Is the setting a device's? -/
def devSetting (id : Nat) : Bool := decide (id ≤ 2) || (decide (8 ≤ id) && decide (id ≤ 13))

/-- Check 4 for a setting: POLICY is accepted in CONFIG_UNLOCKED (17 R332); device settings need TERR = 0xFFFF of a session that OPS admits,
but for the first admission; STORE needs that no territory exists; a territory's values are fixed while it is frozen, from the mark of
TFREEZE on (DESIGN CHOICE, log 71), or its interface locked. -/
def State.policyState (s : State) (h : Hdr) (id value : Nat) : Bool :=
  s.ifAllows h [.unlocked] && if devSetting id then
    (h.terr != 0xFFFF || s.opsAdmits h.sess || (s.dev.ops.isEmpty && id == 10 && value == 0)) && (id != 8 || s.terrs.isEmpty)
  else s.terrs.all (fun y => y.id != h.terr || y.sess != h.sess || (!y.mark && !y.frz))

/-- Admits or removes the fabric address of an entry of the session's endpoint table. -/
def State.enlist (s : State) (h : Hdr) (value : Nat) (l : List (BitVec 128)) : Option (List (BitVec 128)) :=
  if 4095 < value % 2 ^ 63 ∨ 2 ^ 64 ≤ value then none
  else match (s.session! h.sess).eps.find? (fun e => e.1 == value % 2 ^ 63) with
    | none => none
    | some e =>
      if value < 2 ^ 63 then some (if l.contains e.2.fa then l else l ++ [e.2.fa]) else some (l.filter (· != e.2.fa))

/-- Settings 6 and 7: a firmware anchor, within R73's limit, from the next phase on (03 R78). -/
def State.fwAnchor (s : State) (terr idx : Nat) (on : Bool) : CmdRes := match s.memberAt terr idx with
  | none => .bad 6
  | some t =>
    if on && !s.heldAnchor terr t && decide (16 ≤ s.anchors terr + (s.terr! terr).anchPending) then .bad 6
    else .done (s.modTerr terr (fun y => { y with pendAnch := y.pendAnch ++ [(t, on)] })) .empty

/-- Checks 6 of a setting, and its effect. -/
def State.policySet (s : State) (h : Hdr) (id v : Nat) : CmdRes :=
  if h.pad ≠ 0 ∨ (devSetting id && h.terr != 0xFFFF) = true then .bad 6
  else
    let y := s.terr! h.terr
    let range (lo hi : Nat) : Bool := decide (lo ≤ v) && decide (v ≤ hi)
    match id with
    | 0 => if range 4 255 then s.devPol 0 v else .bad 6
    | 1 => if range 17000 17000000 then s.devPol 1 v else .bad 6
    | 2 => if range 30600 170000000 then s.devPol 2 v else .bad 6
    | 3 => if range 8500 1700000 then s.terrPol h.terr 3 v else .bad 6
    | 4 => if range 1 384 then s.terrPol h.terr 4 v else .bad 6
    | 5 => if range (dueValue y.pendPol 4 y.minA) 384 then s.terrPol h.terr 5 v else .bad 6
    | 6 => s.fwAnchor h.terr v true
    | 7 => s.fwAnchor h.terr v false
    | 8 => if range 0 256 then .done { s with dev := { s.dev with store := v } } .empty else .bad 6
    | 9 => match s.enlist h v s.dev.pxpeers with
      | some l => .done { s with dev := { s.dev with pxpeers := l } } .empty
      | none => .bad 6
    | 10 => match s.enlist h v s.dev.ops with
      | some l => .done { s with dev := { s.dev with ops := l } } .empty
      | none => .bad 6
    | 11 =>
      let isl := v / 2 ^ 32
      let w := v % 65536
      if h : isl < 32 ∧ v / 65536 % 65536 = 0 ∧ 20 ≤ w ∧ w ≤ 80 then
        .done { s with dev := { s.dev with islandcap := vset s.dev.islandcap ⟨isl, h.1⟩ w } } .empty
      else .bad 6
    | 12 => if range 600 1800 then .done { s with dev := { s.dev with modcap := v } } .empty else .bad 6
    | 13 => if v = 0 || range 60000 86400000 then .done { s with dev := { s.dev with scrub := v } } .empty else .bad 6
    | _ => .bad 6

/-- POLICY. -/
def State.runPolicy (s : State) (h : Hdr) (id v : Nat) : Out :=
  s.runCmd h 0x0012 (fun s => s.policyState h id v) (decide (3 ≤ id) && decide (id ≤ 7)) (fun s => s.policySet h id v)

def execPolicy (h : Hdr) (id value : Nat) (s : State) : Out := s.runPolicy h id value

/-- POLICY setting 6: a firmware anchor on a logical index. -/
def execPolicySetAnchor (h : Hdr) (value : Nat) (s : State) : Out := s.runPolicy h 6 value

/-- POLICY setting 7: clears it. -/
def execPolicyClearAnchor (h : Hdr) (value : Nat) (s : State) : Out := s.runPolicy h 7 value

/-- POLICY setting 9. -/
def execPxpeers (h : Hdr) (value : Nat) (s : State) : Out := s.runPolicy h 9 value

/-- POLICY setting 10. -/
def execOps (h : Hdr) (value : Nat) (s : State) : Out := s.runPolicy h 10 value

/-! ### Pages (16 R301, R302) -/

/-- The physical pieces of a stack that are given out: piece `stack + 8 i`. The firmware's 512 and the store's share of each stack, which
is even (DESIGN CHOICE, log 39), are never given out. -/
def State.firstPiece (s : State) : Nat := 512 + 64 * s.dev.store

/-- The pieces of a stack that are taken. -/
def State.takenPieces (s : State) : List Nat := s.terrs.flatMap (fun y => y.pages.map (·.ppn))

/-- A range of MAP, UNMAP or PROTECT in 2 MiB pieces. -/
def pieces (va len : Nat) : List Nat := (List.range (len / 2097152)).map (fun i => va / 2097152 + i)

/-- Gives each piece the lowest free piece of its home stack; `none` when a stack lacks one. -/
def givePieces (first : Nat) (taken : List Nat) (rw big : Bool) : List Nat → Option (List Page)
  | [] => some []
  | v :: r =>
    match ((List.range (32768 - first)).map (fun i => v % 8 + 8 * (first + i))).find? (fun p => !taken.contains p) with
    | none => none
    | some p => (givePieces first (p :: taken) rw big r).map (fun l => { vpn := v, rw := rw, ppn := p, big := big, dirty := false } :: l)

/-- The bytes of a piece as a range of checkpoint-store offsets: piece 4,096 is the first of the store (DESIGN CHOICE, log 39). -/
def pieceInStore (ppn : Nat) : Option Nat := if 4096 ≤ ppn then some ((ppn - 4096) * 2097152) else none

/-- Images of which a part lies in a piece that MAP gives out, beyond the store as it now is, are written over. -/
def State.takePieces (s : State) (ps : List Page) : State := { s with store := s.store.filter (fun i => ps.all (fun p =>
  (pieceInStore p.ppn).all (fun lo => !(decide (i.off < lo + 2097152) && decide (lo < i.off + 4096 + i.len))))) }

def pageSize (psize : Nat) : Nat := if psize = 1 then 1073741824 else 2097152

/-- MAP. Bytes 18 to 23 of the body must be zero. -/
def execMapPages (h : Hdr) (va len psize perm : Nat) (s : State) : Out :=
  s.runCmd h 0x0014 (fun s => s.ifAllows h [.unlocked, .locked, .run]) true (fun s =>
    let y := s.terr! h.terr
    let n := pageSize psize
    if h.pad ≠ 0 ∨ 1 < psize ∨ 1 < perm ∨ va % n ≠ 0 ∨ len = 0 ∨ len % n ≠ 0 ∨ 2 ^ 48 < va + len ∨
        y.pages.any (fun p => decide (va ≤ p.vpn * 2097152) && decide (p.vpn * 2097152 < va + len)) = true then .bad 6
    else if 8 * (32768 - s.firstPiece) < len / 2097152 then .bad 7
    else match givePieces s.firstPiece s.takenPieces (perm == 1) (psize == 1) (pieces va len) with
      | none => .bad 7
      | some ps => .done (((s.takePieces ps).zeroPages ps).modTerr h.terr (fun y => { y with pages := y.pages ++ ps })) .empty)

/-- Is a piece within a range, and is its whole page? -/
def Page.inside (p : Page) (va len : Nat) : Bool := decide (va ≤ p.vpn * 2097152) && decide ((p.vpn + 1) * 2097152 ≤ va + len)

def Page.wholeIn (p : Page) (va len : Nat) : Bool :=
  let v := if p.big then p.vpn / 512 * 512 else p.vpn
  let n := if p.big then 512 else 1
  decide (va ≤ v * 2097152) && decide ((v + n) * 2097152 ≤ va + len)

/-- A piece of which a part lies in the range. -/
def Page.touches (p : Page) (va len : Nat) : Bool := decide (p.vpn * 2097152 < va + len) && decide (va < (p.vpn + 1) * 2097152)

/-- The check of UNMAP and PROTECT: limits, a page only partly inside, or a range that holds no page. -/
def rangeBad (ps : List Page) (va len : Nat) : Bool :=
  decide (va % 2097152 ≠ 0) || decide (len = 0) || decide (len % 2097152 ≠ 0) || decide (2 ^ 48 < va + len) ||
    ps.any (fun p => p.touches va len && !p.wholeIn va len) || !ps.any (fun p => p.touches va len)

/-- UNMAP, whose body is MAP's with PSIZE, PERM and bytes 18 to 23 zero: the pieces are zeroed and free, their dirty bits discarded. -/
def execUnmap (h : Hdr) (va len : Nat) (s : State) : Out :=
  s.runCmd h 0x0015 (fun s => s.ifAllows h [.unlocked, .locked, .run]) true (fun s =>
    let y := s.terr! h.terr
    if h.pad ≠ 0 ∨ rangeBad y.pages va len = true then .bad 6
    else .done ((s.zeroPages (y.pages.filter (fun p => p.inside va len))).modTerr h.terr (fun y => { y with
      pages := y.pages.filter (fun p => !p.inside va len),
      dirty := y.dirty.filter (fun g => decide (g * 65536 < va) || decide (va + len ≤ g * 65536)) })) .empty)

/-- PROTECT, whose body is MAP's with PSIZE and bytes 18 to 23 zero. -/
def execProtect (h : Hdr) (va len perm : Nat) (s : State) : Out :=
  s.runCmd h 0x0016 (fun s => s.ifAllows h [.unlocked, .locked, .run]) true (fun s =>
    let y := s.terr! h.terr
    if h.pad ≠ 0 ∨ 1 < perm ∨ rangeBad y.pages va len = true then .bad 6
    else .done (s.modTerr h.terr (fun y => { y with
      pages := y.pages.map (fun p => if p.inside va len then { p with rw := perm == 1 } else p) })) .empty)

/-! ### Code and launches (16 R300, R303, R304) -/

/-- LOAD_CODE: the response returns the handle. -/
def execLoadCode (h : Hdr) (body : CodeBody) (dimg : Nat) (s : State) : Out :=
  s.runCmd h 0x0020 (fun s => s.ifAllows h [.run]) true (fun s =>
    let n := CodeBody.size body
    if n < 8 ∨ 131072 < n ∨ 2 ^ 30 < body.data.length ∨ (body.data ≠ [] ∧ (dimg % 128 ≠ 0 ∨ 2 ^ 48 < dimg + body.data.length)) then .bad 6
    else
      let hd := s.dev.nextHandle
      let done (s : State) : CmdRes := .done { s with codes := s.codes ++ [{ handle := hd, terr := h.terr, body := body, dimg := dimg }],
                                                      dev := { s.dev with nextHandle := hd + 1 } } (.words [BitVec.ofNat 64 hd])
      let s1 := s.evCode h.sess body
      if body.data = [] then done s1
      else match s1.writeHbm h.terr dimg body.data with
        | .ok s2 => done s2
        | .error _ => .bad 6)

/-- A launch's needs after R304: cores, budget and frame; none for a mismatch. -/
def launchNeeds (c : CodeBody) (b : LaunchBody) : Option (Nat × Nat × Nat) :=
  let cores := if b.cores = 0 then (c.slice.map (·.1)).getD 0 else b.cores
  let budget := if b.budget = 0 then (c.slice.map (·.2)).getD 0 else b.budget
  if (c.slice.any (fun x => x.1 != cores)) || !(cores == 1 || cores == 2 || cores == 4) || budget = 0 || decide (2 ^ 32 ≤ budget) ||
      (b.frame == 0 && c.frame != 0) || (b.frame != 0 && decide (b.frame < c.frame)) || decide (3080192 < b.frame) then none
  else some (cores, budget, b.frame)

/-- Check 6 of LAUNCH: the code object, and the argument bytes. ARGS = 0, which space 0x4 does not hold, passes with ARGLEN 0, and no other ARGS
outside that space does (DESIGN CHOICE, log 80: 16 R303 says only what is not checked then). -/
def State.launchLimit (s : State) (terr : Nat) (b : LaunchBody) : Option (CodeObj × (Nat × Nat × Nat) × List Byte) :=
  match (s.findCode b.handle).filter (fun o => o.terr == terr) with
  | none => none
  | some o => match launchNeeds o.body b with
    | none => none
    | some n =>
      if b.entry % 8 ≠ 0 ∨ CodeBody.size o.body ≤ b.entry ∨ 2 ^ 32 ≤ b.handler ∨ 2 ^ 64 ≤ b.deadline ∨ 4096 < b.arglen ∨
          1 < b.coop ∨ (b.coop = 1 ∧ b.target ≠ 0) ∨
          (b.coop = 0 ∧ b.target ≠ 0xFFFF ∧ (s.memberAt terr b.target).isNone = true) ∨
          ((b.args ≠ 0 ∨ b.arglen ≠ 0) ∧ b.args.toNat / 2 ^ 48 ≠ 0x4000) then none
      else if b.arglen = 0 then some (o, n, [])
      else match s.readHbm terr (b.args.toNat % 2 ^ 48) b.arglen with
        | .ok bs => some (o, n, bs)
        | .error _ => none

/-- The tiles a launch makes slices for. -/
def State.launchTiles (s : State) (terr : Nat) (b : LaunchBody) : List TileId :=
  if b.coop = 1 then (List.range 1024).filterMap (fun i => s.memberAt terr i)
  else if b.target = 0xFFFF then (s.fewest terr).toList
  else (s.memberAt terr b.target).toList

/-- The frame id of a cooperative launch: the lowest free on every member (04 R83). -/
def State.coopId (s : State) (terr : Nat) : Option Nat :=
  let ms := s.members terr
  nextId (s.terr! terr).lastCoop (fun f => ms.any (fun t => s.idHeld s.dev.nextUid t f))

/-- Queues or holds a slice that has just been made. -/
def State.queueOrHold (s : State) (uid : Nat) (t : TileId) : State :=
  let x := s.slice! uid
  if s.roomFor uid t && s.frameFits x t then s.place uid t else s.newArrival uid

/-- Makes the slices of a launch. -/
def State.makeSlices (s : State) (h : Hdr) (b : LaunchBody) (o : CodeObj) (n : Nat × Nat × Nat) (fid : Option Nat) : State :=
  let la := s.dev.nextLaunch
  let s1 : State := { s with
    launches := s.launches ++ [{ id := la, sess := h.sess, terr := h.terr, seq := h.seq, open' := 0, nslice := 0, late := 0,
                                 replays := 0, status := 0, forced := none, first := 0, cause := 0 }],
    dev := { s.dev with nextLaunch := la + 1 } }
  (s.launchTiles h.terr b).foldl (fun s t =>
    let uid := s.dev.nextUid
    let target := if b.coop = 1 || b.target != 0xFFFF then some (s.tiles[t]).lidx else none
    let x := newSlice uid la h.terr o.handle (BitVec.ofNat 64 b.entry) (BitVec.ofNat 64 b.handler &&& 0x1FFF8#64)
      (BitVec.ofNat 64 (s.now + b.deadline)) b.args n.2.1 n.2.2 n.1 target (b.coop == 1) fid (ringsAt 0 o.body.rings)
    (s.addSlice x).queueOrHold uid t) s1

/-- LAUNCH: answered when the slices are queued or held. -/
def execLaunch (h : Hdr) (body : LaunchBody) (s : State) : Out :=
  s.runCmd h 0x0021 (fun s => s.ifAllows h [.run]) true (fun s => match s.launchLimit h.terr body with
    | none => .bad 6
    | some (o, n, args) =>
      let size := roundFrame n.2.2
      let ts := s.launchTiles h.terr body
      let fid := if body.coop == 1 && size != 0 then s.coopId h.terr else none
      let fits (t : TileId) : Bool := size == 0 || ((frameBase (s.frames t) size).isSome &&
        (body.coop == 1 || (nextId (s.tiles[t]).lastFid (s.idHeld s.dev.nextUid t)).isSome))
      if !ts.all fits || (body.coop == 1 && size != 0 && fid.isNone) then .bad 7
      else
        let s1 := s.evArgs h.sess args
        let s2 := if fid.isSome then
            ts.foldl (fun s t => s.modTile t (fun x => { x with lastFid := fid })) (s1.modTerr h.terr (fun y => { y with lastCoop := fid }))
          else s1
        .done (s2.makeSlices h body o n fid) .empty)

/-! ### PREEMPT and RESUME (16 R310, R312) -/

/-- Is the session's territory halted? -/
def State.isHalted (s : State) (h : Hdr) : Bool := (s.findTerr h.terr).any (fun y => y.halted)

def State.terrTiles (s : State) (terr : Nat) : List TileId := allTiles.filter (fun t => (s.tiles[t]).owner == some terr)

/-- The node the command processor sends from (DESIGN CHOICE, log 35: the manual gives it none). -/
def commandNode : Nat := 512

/-- The halt of a context begins: a control message of class 5 goes to each of its tiles (11 R246). -/
def State.haltTerr (s : State) (terr : Nat) : State :=
  let s1 := s.modTerr terr (fun y => { y with halted := true, imaged := false })
  (s1.terrTiles terr).foldl (fun s t =>
    (s.modTile t (fun x => { x with quiet := false, preempt := false })).send commandNode t.val 5 none terr .preempt) s1

/-- PREEMPT: answered once every core has halted. -/
def execPreempt (h : Hdr) (s : State) : Out :=
  s.runCmd h 0x0030 (fun s => s.ifAllows h [.run] && !s.isHalted h) true (fun s =>
    .later ((s.haltTerr h.terr).modTerr h.terr (fun y => { y with haltReply := some h })) (fun s => s.tryHalted h.terr))

/-- A core resumes; a chain reservation that was released is made again before it issues (16 R312). -/
def State.resumeCore (s : State) (quiet : Bool) (c : CoreId) : State :=
  let s1 := s.modCore c (fun k => { k with halted := false })
  match (s.cores[c]).chain, (s.cores[c]).sl with
  | some ch, some u => if quiet then s1.reserveAgain (u, (s.cores[c]).pos) ch else s1
  | _, _ => s1

/-- A tile that RESTORE joined as a ceding tile starts its evacuation budget, and its slices take TLOSS (16 R316). -/
def State.cedeFresh (s : State) (terr : Nat) (t : TileId) : State := match (s.tiles[t]).ceding with
  | some c =>
    if c.lastCycle ≠ 0 then s
    else
      let y := s.terr! terr
      let last := s.now + y.evac
      let s1 := s.modTile t (fun x => { x with ceding := some { c with lastCycle := last } })
      (s1.slices.filter (fun x => x.tile == some t && x.st == .running)).foldl (fun s x =>
        (s.modCores x.cores (fun k => { k with causes := k.causes.filter (fun r => r.code != 0x20) })).causeAll x (tloss c.gain last y.ver)) s1
  | none => s

/-- The context issues again. -/
def State.resumeTerr (s : State) (terr : Nat) : State :=
  let s0 := (s.terrTiles terr).foldl (fun s t => s.cedeFresh terr t) s
  let s1 := (s0.calmTiles terr).modTerr terr (fun y => { y with halted := false, imaged := false })
  (s1.terrTiles terr).foldl (fun s t =>
    let q := (s.tiles[t]).quiet
    ((coresOf t).foldl (fun s c => s.resumeCore q c) s).modTile t (fun x => { x with quiet := false })) s1

/-- RESUME. -/
def execResume (h : Hdr) (s : State) : Out :=
  s.runCmd h 0x0033 (fun s => s.ifAllows h [.run] && s.isHalted h) true (fun s => .done (s.resumeTerr h.terr) .empty)

/-! ### DEBUG (16 R309) -/

/-- The slice a DEBUG command names, when it is the territory's. -/
def State.dbgSlice (s : State) (h : Hdr) (sl : Nat) : Option Slice := (s.findSlice sl).filter (fun x => x.terr == h.terr)

/-- A DEBUG sub-command on a slice, in CONFIG_UNLOCKED; `ok` is what check 4 asks of the slice besides (DEDUCED, log 34). -/
def State.runDebug (s : State) (h : Hdr) (sl : Nat) (ok : State → Slice → Bool) (k : State → Slice → CmdRes) : Out :=
  s.runCmd h 0x0040 (fun s => s.ifAllows h [.unlocked] && (s.dbgSlice h sl).all (ok s)) true (fun s => match s.dbgSlice h sl with
    | none => .bad 6
    | some x => k s x)

/-- Does a debugger halt the slice, with no step under way? A follower that waits at its rendezvous has no bundle to step until its leader comes
there (02 R36). -/
def State.dbgHalted (s : State) (x : Slice) : Bool :=
  !x.cores.isEmpty && x.cores.all (fun c => let k := s.cores[c]
    k.dbgHalt && (k.dbgSteps == 0 || k.rendez.isSome) && k.dbgHeld.isNone)

/-- CLAIM. -/
def execDebugClaim (h : Hdr) (sl : Nat) (s : State) : Out :=
  s.runDebug h sl (fun _ _ => true) (fun s _ => .done (s.modSlice sl (fun x => { x with claimed := true })) .empty)

/-- Stops or lets go of every core of a slice. -/
def State.dbgSet (s : State) (x : Slice) (halt : Bool) (steps : Nat) : State :=
  s.modCores x.cores (fun c => { c with dbgHalt := halt, dbgSteps := steps })

/-- RELEASE also resumes a slice that HALT stopped (DESIGN CHOICE, log 34). -/
def execDebugRelease (h : Hdr) (sl : Nat) (s : State) : Out :=
  s.runDebug h sl (fun _ _ => true) (fun s x =>
    .done ((s.dbgSet x false 0).modSlice sl (fun x => { x with claimed := false })) .empty)

/-- HALT: INH is left unchanged; the copy engine runs on. -/
def execDebugHalt (h : Hdr) (sl : Nat) (s : State) : Out :=
  s.runDebug h sl (fun _ _ => true) (fun s x => .done (s.dbgSet x true 0) .empty)

/-- A bit for each register of a class that is pending. -/
def pendBits (n : Nat) (c : Core) (reg : Fin n → RegId) : BitVec n :=
  BitVec.ofNat n ((List.finRange n).map (fun i => bit64 (c.isPend (reg i)) i.val)).sum

def MKind.row : MKind → MRow
  | .mul _ _ _ _ _ _ _ _ _ _ => .mul
  | .drain _ _ => .drain
  | .zero => .zero
  | .load _ _ _ _ _ => .load

/-- A scalar, predicate or loop result in flight: id, distance, value. -/
def Flight.shown (f : Flight) : Option (Word × Nat × Wr) := match f.wr with
  | .scalar r _ => some ((RegId.scalar r).code 0, f.dist, f.wr)
  | .pred r _ => some ((RegId.pred r).code 0, f.dist, f.wr)
  | .loopReg r _ _ => some ((RegId.loopReg r).code 0, f.dist, f.wr)
  | _ => none

/-- What READ returns of a core (16 R309). Of a core halted in a handler, the results in flight and pending marks of the interrupted stream count
too: its vector results stand in the vector replay queue (10 R229), and WRITE refuses their registers. -/
def State.coreRead (s : State) (core : CoreId) : CoreRead :=
  let c := (s.cores[core]).unstep
  let below : List Flight := (c.replay.map (·.flight)).getD []
  let fs := c.flight ++ below
  let k : Core := { c with pend := c.pend ++ (c.replay.map (·.pend)).getD [] }
  { sreg := c.sreg, vreg := c.vreg, preg := c.preg, lreg := c.lreg, flight := fs.filterMap Flight.shown,
    vectors := (fs.filter (fun f => match f.wr with
      | .vector _ _ => true
      | _ => false)).length,
    pendS := pendBits 32 k RegId.scalar, pendV := pendBits 32 k RegId.vector, pendP := pendBits 8 k RegId.pred,
    pendL := pendBits 9 k RegId.loopReg, accs := c.accs.toList.map (fun a => (a.ents, a.ver, a.ovf)),
    mq := c.mq.map (fun e => (e.kind.row, e.acc, e.ver, c.entryReady e)), tags := ({ s with cur := core }).cqueryVal,
    cells := c.orr.cells.map (fun e => (e.1, e.2.y, e.2.res)), taps := c.orr.taps.toList.map (·.count),
    doms := (List.finRange 4).map c.orr.status }

/-- READ: the cores as they stand, and the barriers as BARQ reads them. The manual does not lay the response out: its LEN is a free
value. -/
def execDebugRead (h : Hdr) (sl : Nat) (s : State) : Out :=
  s.runDebug h sl (fun _ _ => true) (fun s x =>
    .done { s with stepNo := s.stepNo + 1 } (.debug (x.cores.map s.coreRead) (match x.tile with
      | some t => (s.tiles[t]).bars.toList.map barqVal
      | none => []) ((Config.freeWord s.stepNo).toNat % 65537)))

/-- Is a register pending, or has it a result in flight, in either stream of the core? -/
def Core.engaged (c : Core) (r : RegId) : Bool :=
  c.unstep.isPend r || c.unstep.flight.any (fun f => f.wr.reg == some r) || (match c.replay with
    | some p => p.pend.any (fun q => q.reg == some r) || p.flight.any (fun f => f.wr.reg == some r)
    | none => false)

/-- A loop register written by a debugger takes effect at once. -/
def Core.dbgWrite (c : Core) : DbgWrite → Core
  | .scalar r x => c.setS r x
  | .vector r x => c.setV r x
  | .predicate r x => c.setP r x
  | .loopReg r x => c.landLoop c.pc r x true
  | .frame _ _ => c

def dbgReg : DbgWrite → Option RegId
  | .scalar r _ => some (.scalar r)
  | .vector r _ => some (.vector r)
  | .predicate r _ => some (.pred r)
  | .loopReg r _ => some (.loopReg r)
  | .frame _ _ => none

/-- WRITE: a register of one core, or frame bytes. -/
def State.dbgStore (s : State) (x : Slice) (c : CoreId) (w : DbgWrite) : CmdRes := match w, x.tile with
  | .frame off bs, some t =>
    if x.fid.isNone || decide (x.fsize < off + bs.length) || ((s.tiles[t]).lockHit (x.fbase + off) bs.length true).isSome then .bad 6
    else .done (s.setBytes (x.key t off) bs) .empty
  | w, _ => if (dbgReg w).any (fun r => (s.cores[c]).engaged r) then .bad 6 else .done (s.modCore c (fun k => k.dbgWrite w)) .empty

def execDebugWrite (h : Hdr) (sl pos : Nat) (wr : DbgWrite) (s : State) : Out :=
  s.runDebug h sl (fun _ _ => true) (fun s x => match x.cores[pos]? with
    | none => .bad 6
    | some c => s.dbgStore x c wr)

/-- STEP: one bundle of the stream, then halted again. The bundle is a stream of its own: what the stopped one has in flight keeps its
distances meanwhile (02 R38). Of a slice that a debugger has halted. -/
def execDebugStep (h : Hdr) (sl : Nat) (s : State) : Out :=
  s.runDebug h sl (fun s x => s.dbgHalted x) (fun s x => .done (s.dbgSet x true 1) .empty)

/-- GO. -/
def execDebugGo (h : Hdr) (sl : Nat) (s : State) : Out :=
  s.runDebug h sl (fun _ _ => true) (fun s x => .done (s.dbgSet x false 0) .empty)

end Sys2Proof.Machine
end

