-- ==== Sys2Proof/Machine/Attest.lean ====
section
/-! DEFINITION. Identity, firmware, sessions, receipts and the attested interface (17 R318 to R334): OPEN, CLOSE, RECEIPT, EVLOG,
EPADD, EPDEL, IF_READ, IF_WRITE, the SPDM and TDISP requests, FWWRITE, FWACTIVATE, FWCOMMIT and the reset of the device. -/

namespace Sys2Proof.Machine

/-- FWMEAS (17 R320). -/
def State.fwmeas (s : State) : BitVec 384 := sha3 (Config.imagePayload s.dev.running)

/-! ### Sessions (17 R322 to R325) -/

/-- A session at OPEN. Entry 0 of its endpoint table is the endpoint OPEN arrived from. -/
def newSession (id : Nat) (fa : BitVec 128) (nonce : List Byte) : Session :=
  { id := id, nonce := nonce, chain := chainStart nonce, log := [], evBase := 0, eps := [(0, { fa := fa, job := 0, ports := 0xFF })], nextSeq := 1,
    counts := Vector.replicate 6 0, replays := 0, shape := 0, busy := false }

/-- OPEN, the first command of a session: the response returns DEVID and FWMEAS. A session that is open refuses another (DEDUCED, log 24). -/
def execOpenSession (h : Hdr) (fa : BitVec 128) (nonce : List Byte) (s : State) : Out :=
  if s.dev.bootFail then .next s
  else match s.findSession h.sess with
    | some _ => s.runCmd h 0x0001 (fun _ => false) false (fun _ => .bad 4)
    | none =>
      if !h.formed || nonce.length != 32 then .next (s.respond h 0x0001 1 .empty)
      else if h.seq ≠ 0 then .next (s.respond h 0x0001 2 .empty)
      else if !s.secureOk h then .next (s.respond h 0x0001 4 .empty)
      else .next (({ s with sessions := s.sessions ++ [newSession h.sess fa nonce] }).respond h 0x0001 0
        (.bytes (digestBytes devid ++ digestBytes s.fwmeas)))

/-- The signed body of a receipt, bytes 0 to 287 (17 R328). The shape version of a session with no territory is taken as 0
(DESIGN CHOICE, log 32). -/
def State.receiptBody (s : State) (x : Session) (final : Bool) : List Byte :=
  let y := s.terrs.find? (fun y => y.sess == x.id)
  let frz := y.any (fun y => y.frz)
  ascii "C9RC" ++ leBytes 2 1 ++ leBytes 2 (bit64 frz 0 + bit64 final 1) ++ digestBytes devid ++ x.nonce ++
    digestBytes x.chain ++ leBytes 8 (x.evBase + x.log.length) ++ leBytes 8 (s.dev.boots * 2 ^ 32 + s.dev.receipts) ++ digestBytes s.fwmeas ++
    leBytes 8 x.replays ++ x.counts.toList.flatMap (fun n => leBytes 4 n) ++ leBytes 4 ((y.map (fun y => y.ver.toNat)).getD 0) ++
    leBytes 4 0 ++ digestBytes x.shape

/-- The 3,661 bytes: the body and both signatures. -/
def State.receiptBytes (s : State) (x : Session) (final : Bool) : List Byte :=
  let b := s.receiptBody x final
  b ++ signEd25519 b ++ signMlDsa65 b (ascii "C9-RCPT")

/-- RSEQ's low half counts receipts since boot. -/
def State.countReceipt (s : State) : State := { s with dev := { s.dev with receipts := s.dev.receipts + 1 } }

/-- RECEIPT (17 R327). -/
def execReceipt (h : Hdr) (s : State) : Out :=
  s.runCmd h 0x0003 anyState false (fun s => .done s.countReceipt (.bytes (s.receiptBytes (s.session! h.sess) false)))

/-- CLOSE: a final receipt, and the end of the session; not while it owns a territory. -/
def execClose (h : Hdr) (s : State) : Out :=
  s.runCmd h 0x0002 (fun s => s.ownsNone h) false (fun s =>
    .done ({ s.countReceipt with sessions := s.sessions.filter (fun x => x.id != h.sess) })
      (.bytes (s.receiptBytes (s.session! h.sess) true)))

/-- EVLOG: the events of the range that exist. -/
def execEvlog (h : Hdr) (first count : Nat) (s : State) : Out :=
  s.runCmd h 0x0004 anyState false (fun s =>
    let x := s.session! h.sess
    .done s (.events ((x.log.zipIdx.map (fun e => (x.evBase + e.2, e.1))).filter (fun e => decide (first ≤ e.1) && decide (e.1 < first + count)))))

def Session.endpoint (x : Session) (idx : Nat) : Option Endpoint := (x.eps.find? (fun e => e.1 == idx)).map (·.2)

/-- EPADD fills an empty entry (17 R323). Its body has 9 bytes that must be zero. -/
def execEpadd (h : Hdr) (idx : Nat) (fa : BitVec 128) (job : Nat) (ports : BitVec 8) (s : State) : Out :=
  s.runCmd h 0x0005 anyState false (fun s =>
    if h.pad ≠ 0 ∨ idx = 0 ∨ 4095 < idx ∨ 2 ^ 24 ≤ job ∨ ((s.session! h.sess).endpoint idx).isSome = true then .bad 6
    else .done (s.modSession h.sess (fun x => { x with eps := x.eps ++ [(idx, { fa := fa, job := job, ports := ports })] })) .empty)

/-- UEP.FEP of an interface. -/
def Iface.fep (i : Iface) : Nat := (i.regs[7]).toNat / 2 ^ 32 % 4096

/-- Does a locked interface of the session, or a running Parallax stream, use the entry? -/
def State.epInUse (s : State) (sess idx : Nat) : Bool :=
  s.terrs.any (fun y => y.sess == sess && (y.iface.st == IfState.locked || y.iface.st == IfState.run) && y.iface.fep == idx) ||
    s.pxOut.any (fun p => p.sess == sess && p.buddy == idx)

/-- EPDEL empties an entry. -/
def execEpdel (h : Hdr) (idx : Nat) (s : State) : Out :=
  s.runCmd h 0x0006 (fun s => !s.epInUse h.sess idx) false (fun s =>
    if h.pad ≠ 0 ∨ idx = 0 ∨ 4095 < idx ∨ ((s.session! h.sess).endpoint idx).isNone = true then .bad 6
    else .done (s.modSession h.sess (fun x => { x with eps := x.eps.filter (fun e => e.1 != idx) })) .empty)

/-! ### Interface registers (17 R330) -/

/-- The read-only bits of a register, which a write must leave as they read (DEDUCED, log 24); FWVER is read-only throughout. -/
def roMask (reg : Fin 9) : Word := match reg with
  | 0 => 0xFFFFFC0000FFFFC0#64
  | 5 => 0xFFFF00000000FFFF#64
  | 6 => 0xFFFF00000000FFFF#64
  | 7 => 0xFFFFF00000000000#64
  | 8 => 0xFFFFFFFFFFFFFFFF#64
  | _ => 0

/-- IF_READ. -/
def execIfRead (h : Hdr) (reg : Nat) (s : State) : Out :=
  s.runCmd h 0x0050 anyState true (fun s =>
    if hr : reg < 9 then .done s (.words [(s.terr! h.terr).iface.regs[reg]]) else .bad 6)

/-- Entry to ERROR (17 R333): every slice of the territory ends, its launches report status 6, the keys of its session are gone, and the
territory is dissolved. -/
def State.ifError (s : State) (terr : Nat) : State :=
  let sess := (s.terr! terr).sess
  let s1 := (s.modTerr terr (fun y => { y with
    iface := { y.iface with st := .error }, dying := some { how := .ifError, reply := y.dying.bind (·.reply), stop := y.dying.bind (·.stop), stays := false } })).forceLaunches terr 6
  let s2 := s1.endSlices terr .ifError
  let s3 := { s2 with sessions := s2.sessions.filter (fun x => x.id != sess),
                      dev := { s2.dev with spdm := s2.dev.spdm.filter (· != sess) } }
  s3.tryDissolve terr

/-- Is the named territory the session's, with its interface in one of these states? -/
def State.ifIs (s : State) (sess terr : Nat) (sts : List IfState) : Bool :=
  (s.findTerr terr).any (fun y => y.sess == sess && sts.contains y.iface.st && y.dying.isNone)

/-- Is the interface of the session's territory locked, in LOCKED or RUN, also while a STOP ends its slices? -/
def State.ifFixed (s : State) (sess terr : Nat) : Bool :=
  (s.findTerr terr).any (fun y => y.sess == sess && (y.iface.st == .locked || y.iface.st == .run) && y.lives)

/-- Would a write leave the read-only bits as they read? -/
def State.ifWritable (s : State) (terr reg : Nat) (v : Word) : Bool :=
  if hr : reg < 9 then reg != 8 && (v &&& roMask ⟨reg, hr⟩) == ((s.terr! terr).iface.regs[reg] &&& roMask ⟨reg, hr⟩) else false

/-- IF_WRITE; in ERROR, also once the territory is gone, status 4. A write to a locked interface is not performed and sends it to ERROR; the response then is status 4 (DESIGN CHOICE, log 24). -/
def execIfWrite (h : Hdr) (reg : Nat) (value : BitVec 64) (s : State) : Out :=
  s.runCmd h 0x0051 (fun s => !(s.findTerr h.terr).any (fun y => y.iface.st == IfState.error) && !s.ghosts.any (fun g => g.terr == h.terr)) true (fun s =>
    if !s.ifWritable h.terr reg value then .bad 6
    else if s.ifFixed h.sess h.terr then .later s (fun s => (s.respond h 0x0051 4 .empty).ifError h.terr)
    else if hr : reg < 9 then
      .done (s.modTerr h.terr (fun y => { y with iface := { y.iface with regs := y.iface.regs.set reg value } })) .empty
    else .bad 6)

/-! ### The interface report and SPDM (17 R331, R334) -/

def ifCode : IfState → Nat
  | .unlocked => 0
  | .locked => 1
  | .run => 2
  | .error => 3

/-- The 184 bytes of an interface report. -/
def State.ifReport (s : State) (terr : Nat) (i : Iface) : List Byte :=
  let reg (k : Fin 9) : List Byte := leBytes 8 (i.regs[k]).toNat
  leBytes 2 1 ++ leBytes 1 (ifCode i.st) ++ leBytes 1 terr ++ leBytes 4 0 ++ reg 0 ++ reg 1 ++ reg 2 ++ reg 3 ++ reg 4 ++ reg 5 ++
    reg 6 ++ reg 7 ++ reg 8 ++ digestBytes s.fwmeas ++ digestBytes devid ++ leBytes 8 0

/-- The interface of a territory number: a territory's, or one that ERROR has left. -/
def State.ifaceOf (s : State) (terr : Nat) : Option (Nat × Iface) := match s.findTerr terr with
  | some y => some (y.sess, y.iface)
  | none => (s.ghosts.find? (fun g => g.terr == terr)).map (fun g => (g.sess, g.iface))

/-- A message to an SPDM requester: the tag of the request, then whether it succeeded. -/
def State.spdmSay (s : State) (sess kind : Nat) (bs : List Byte) : State := { s with outbox := s.outbox ++ [.spdm sess kind bs] }

/-- The tag of an ERROR response. -/
def spdmError : Nat := 0x7F

/-- Both signatures over the transcript of the exchange, a free value. -/
def State.spdmSigs (s : State) : List Byte :=
  signEd25519 (Config.transcript s.stepNo) ++ signMlDsa65 (Config.transcript s.stepNo) []

def State.tick (s : State) : State := { s with stepNo := s.stepNo + 1 }

/-- GET_CERTIFICATE: slot 0 or 1 (17 R319). In boot failure every SPDM request gets an ERROR response. -/
def execGetCertificate (sess slot : Nat) (s : State) : Out :=
  .next (if s.dev.bootFail || decide (1 < slot) then s.spdmSay sess spdmError [] else s.spdmSay sess 0x02 (Config.certificate slot))

/-- CHALLENGE. -/
def execChallenge (sess : Nat) (nonce : List Byte) (s : State) : Out :=
  .next (if s.dev.bootFail || nonce.length != 32 then s.spdmSay sess spdmError [] else (s.spdmSay sess 0x03 s.spdmSigs).tick)

/-- A measurement by its index. -/
def State.measurement (s : State) (index : Nat) : Option (List Byte) :=
  if index = 1 then some (digestBytes s.fwmeas)
  else if index = 2 then some (digestBytes devid)
  else if 0x10 ≤ index ∧ index < 0x50 then (s.ifaceOf (index - 0x10)).map (fun e => digestBytes (sha3 (s.ifReport (index - 0x10) e.2)))
  else none

/-- GET_MEASUREMENTS. -/
def execGetMeasurements (sess index : Nat) (s : State) : Out := match s.measurement index with
  | some m => .next (if s.dev.bootFail then s.spdmSay sess spdmError [] else (s.spdmSay sess 0x60 (m ++ s.spdmSigs)).tick)
  | none => .next (s.spdmSay sess spdmError [])

/-- What the C9 negotiates (17 R331). -/
def c9Algs : SpdmAlgs := { hash := .sha3_384, sig := .ed25519WithMlDsa65, dhe := .secp384r1, aead := .aes256Gcm }

/-- An SPDM secure session with the CP starts; a requester that does not offer what the C9 negotiates gets an ERROR response. -/
def execSpdmSessionStart (o : SpdmOffer) (s : State) : Out :=
  .next (if s.dev.bootFail || o.algs != c9Algs then s.spdmSay o.sess spdmError []
    else { s with dev := { s.dev with spdm := if s.dev.spdm.contains o.sess then s.dev.spdm else s.dev.spdm ++ [o.sess] } })

/-- It ends: a locked interface of the session goes to ERROR (17 R332). In boot failure the request gets an ERROR response (17 R320). -/
def execSpdmSessionEnd (sess : Nat) (s : State) : Out :=
  if s.dev.bootFail then .next (s.spdmSay sess spdmError []) else
  let s1 := { s with dev := { s.dev with spdm := s.dev.spdm.filter (· != sess) } }
  .next ((s.terrs.filter (fun y => y.sess == sess && (y.iface.st == IfState.locked || y.iface.st == IfState.run))).foldl
    (fun s y => s.ifError y.id) s1)

/-! ### TDISP requests (17 R332) -/

/-- A TDISP response: the request's tag, whether it was allowed, what it carries. -/
def State.tdispSay (s : State) (sess kind : Nat) (ok : Bool) (bs : List Byte) : State :=
  { s with outbox := s.outbox ++ [.tdisp sess kind ok bs] }

/-- A TDISP request travels inside the secure session; otherwise, and in boot failure, it gets an error response. -/
def State.tdispOpen (s : State) (sess : Nat) : Bool := s.dev.spdm.contains sess && !s.dev.bootFail

/-- GET_DEVICE_INTERFACE_REPORT, in any state. -/
def execGetDeviceInterfaceReport (sess terr : Nat) (s : State) : Out := match s.ifaceOf terr with
  | some (o, i) => .next (if s.tdispOpen sess && o == sess then s.tdispSay sess 0x84 true (s.ifReport terr i) else s.tdispSay sess 0x84 false [])
  | none => .next (s.tdispSay sess 0x84 false [])

/-- The logical indices of ANCH0 to ANCH3. -/
def Iface.anchors (i : Iface) : List Nat :=
  ([i.regs[1], i.regs[2], i.regs[3], i.regs[4]].flatMap (fun (r : Word) => (List.range 4).map (fun j => r.toNat / 65536 ^ j % 65536))).filter
    (· != 0xFFFF)

def Iface.minA (i : Iface) : Nat := (i.regs[0]).toNat / 2 ^ 24 % 512

def Iface.maxB (i : Iface) : Nat := (i.regs[0]).toNat / 2 ^ 33 % 512

/-- The condition of LOCK_INTERFACE_REQUEST. A frozen territory's values may not change (03 R78). -/
def State.mayLock (s : State) (y : Terr) : Bool :=
  let i := y.iface
  let n := s.size y.id
  let ts := i.anchors.map (fun k => s.memberAt y.id k)
  let after := (s.members y.id).filter (fun t => s.heldAnchor y.id t || ts.contains (some t))
  i.st == IfState.unlocked && y.dying.isNone && (i.regs[0]).toNat % 64 == y.id && decide (1 ≤ i.minA) && decide (i.minA ≤ n) &&
    decide (n ≤ i.maxB) && decide (i.maxB ≤ 384) && ts.all (·.isSome) && decide (after.length + y.anchPending ≤ 16) &&
    (!(y.frz || y.mark) || (dueValue y.pendPol 4 y.minA == i.minA && dueValue y.pendPol 5 y.maxB == i.maxB &&
      after.all (s.heldAnchor y.id)))

/-- LOCK: MINA, MAXB and the anchors apply, the registers are frozen, a start nonce is returned. -/
def State.lockIface (s : State) (y : Terr) : State :=
  let nonce := leBytes 32 (Config.startNonce s.stepNo).toNat
  ((s.modTerr y.id (fun z => { z with
    iface := { z.iface with st := .locked, attested := true, nonce := nonce },
    pendAnch := z.pendAnch ++ (y.iface.anchors.filterMap (fun k => s.memberAt y.id k)).map (fun t => (t, true)),
    pendPol := z.pendPol ++ [(4, z.iface.minA), (5, z.iface.maxB)] })).tdispSay y.sess 0x83 true nonce).tick

def execLockInterfaceRequest (sess terr : Nat) (s : State) : Out := match s.findTerr terr with
  | some y => .next (if s.tdispOpen sess && y.sess == sess && s.mayLock y then s.lockIface y else s.tdispSay sess 0x83 false [])
  | none => .next (s.tdispSay sess 0x83 false [])

/-- START: with the start nonce to RUN, with another one to ERROR. -/
def execStartInterfaceRequest (sess terr : Nat) (nonce : List Byte) (s : State) : Out :=
  if s.tdispOpen sess && s.ifIs sess terr [.locked] then
    if (s.terr! terr).iface.nonce = nonce then
      .next ((s.modTerr terr (fun y => { y with iface := { y.iface with st := .run } })).tdispSay sess 0x86 true [])
    else .next ((s.tdispSay sess 0x86 false []).ifError terr)
  else .next (s.tdispSay sess 0x86 false [])

/-- Is the interface of a territory number that belongs to the session in ERROR? -/
def State.inError (s : State) (sess terr : Nat) : Bool :=
  (s.findTerr terr).any (fun y => y.sess == sess && y.iface.st == IfState.error) || s.ghosts.any (fun g => g.terr == terr && g.sess == sess)

/-- STOP from LOCKED or RUN: every slice ends as DISSOLVE ends it, the tiles are cleared and stay members, the window is zeroed. From
ERROR, whose entry has ended the secure session (17 R333), it is answered once the zeroing is done. -/
def execStopInterfaceRequest (sess terr : Nat) (s : State) : Out :=
  if s.dev.bootFail then .next (s.tdispSay sess 0x87 false [])
  else if s.inError sess terr then
    if (s.findTerr terr).isSome then
      .next (s.modTerr terr (fun y => { y with dying := y.dying.map (fun d => { d with stop := some sess }) }))
    else .next (({ s with ghosts := s.ghosts.filter (fun g => g.terr != terr) }).tdispSay sess 0x87 true [])
  else if s.tdispOpen sess && s.ifIs sess terr [.locked, .run] then
    let s1 := (s.modTerr terr (fun y => { y with dying := some { how := .dissolved, reply := none, stop := some sess, stays := true } })).forceLaunches terr 5
    .next ((s1.endSlices terr .dissolved).tryDissolve terr)
  else .next (s.tdispSay sess 0x87 false [])

/-! ### Reset (17 R320, 21 R355, R359) -/

/-- The device after a reset: what stands in flash, fuses and the checkpoint store, and the MODEL's own counters, stay. A Parallax stream
whose writing had begun is lost. The boot count advances before anything else. -/
def State.rebooted (s : State) : State :=
  let d := s.dev
  let img := bootImage d.flash d.primary d.svnMin
  { State.reset with
    stepNo := s.stepNo, store := s.store, pxIn := s.pxIn.filter (fun p => p.stage == 0), inputs := s.inputs, errors := s.errors, outbox := s.outbox,
    dev := { Dev.reset with
      pxpeers := d.pxpeers, ops := d.ops, flash := d.flash, primary := d.primary, svnMin := d.svnMin, boots := d.boots + 1,
      bootFail := img.isNone, running := img.getD [], images := d.images, nextUid := d.nextUid, nextLaunch := d.nextLaunch,
      nextHandle := d.nextHandle, nextTerr := d.nextTerr, nextReq := d.nextReq, nextArr := d.nextArr } }

def execDeviceReset (s : State) : Out := .next s.rebooted

/-! ### Firmware update (17 R321) -/

/-- TERR = 0xFFFF, from a session that OPS admits. -/
def State.operator (s : State) (h : Hdr) : Bool := h.terr == 0xFFFF && s.opsAdmits h.sess

/-- Writes bytes of a flash bank; bytes of the bank that were never written are taken as 0xFF (DESIGN CHOICE, log 33). -/
def patchBank (b : List Byte) (off : Nat) (bs : List Byte) : List Byte :=
  (b ++ List.replicate (off - b.length) 0xFF).take off ++ bs ++ b.drop (off + bs.length)

/-- FWWRITE writes the secondary bank. -/
def execFwwrite (h : Hdr) (off : Nat) (bytes : List Byte) (s : State) : Out :=
  s.runCmd h 0x0070 (fun s => s.operator h) false (fun s =>
    if bytes = [] ∨ 65536 < bytes.length ∨ 33554432 < off + bytes.length then .bad 6
    else .done { s with dev := { s.dev with flash := vmod s.dev.flash (1 - s.dev.primary) (fun b => patchBank b off bytes) } } .empty)

/-- A territory's end for FWACTIVATE: a locked or running interface goes to ERROR, any other territory is dissolved as DISSOLVE does it. -/
def State.endForUpdate (s : State) (terr : Nat) : State := match s.findTerr terr with
  | none => s
  | some y =>
    if y.iface.st == .locked || y.iface.st == .run then s.ifError terr
    else if y.dying.isSome then s
    else
      let s1 := (s.modTerr terr (fun y => { y with dying := some { how := .dissolved, reply := none, stop := none, stays := false } })).forceLaunches terr 5
      (s1.endSlices terr .dissolved).tryDissolve terr

/-- Has every territory ended, and every launch been reported, that a FWACTIVATE waits for? -/
def State.updateReady (s : State) : Bool := s.dev.activating.isSome && s.terrs.isEmpty && s.launches.isEmpty

/-- Then every session ends, the response is sent, the banks change roles and the device resets. -/
def State.updated (s : State) : State := match s.dev.activating with
  | none => s
  | some h =>
    let s1 := ({ s with sessions := [] }).respond h 0x0071 0 .empty
    State.rebooted { s1 with dev := { s1.dev with primary := 1 - s1.dev.primary } }

/-- FWACTIVATE: the image is verified; territories end, then sessions, and the device resets (`updated`). The 7 bytes after FORCE
must be zero. -/
def execFwactivate (h : Hdr) (force : Bool) (s : State) : Out :=
  let img := s.dev.flash[1 - s.dev.primary]
  s.runCmd h 0x0071 (fun s => s.operator h) false (fun s =>
    if h.pad ≠ 0 ∨ bootOk s.dev.svnMin img = false then .bad 6 else if !s.terrs.isEmpty && !force then .bad 4
    else .later s (fun s =>
      ((s.terrs.map (·.id)).foldl State.endForUpdate { s with dev := { s.dev with activating := some h } })))

/-- FWCOMMIT raises SVNMIN to the running firmware's SVN. -/
def execFwcommit (h : Hdr) (s : State) : Out :=
  s.runCmd h 0x0072 (fun s => s.operator h) false (fun s =>
    let svn := Config.imageSvn s.dev.running
    if svn ≤ s.dev.svnMin then .done s .empty
    else if 64 < svn then .bad 7
    else .done { s with dev := { s.dev with svnMin := svn } } .empty)

end Sys2Proof.Machine
end

