-- ==== Sys2Proof/Machine/Images.lean ====
section
/-! DEFINITION. Context images (16 R312 to R316, 20 R344 to R353): quiescence, SAVE, RESTORE, the checkpoint store, CHECKPOINT,
Parallax streams, DIRTY and LOADPAGES. -/

namespace Sys2Proof.Machine

/-! ### The bytes of memory an image holds -/

/-- The listed bytes of a range, by their offset in it. -/
def State.cellsIn (s : State) (lo n : Nat) : List (Nat × Byte) :=
  (s.mem.filter (fun c => decide (lo ≤ c.1) && decide (c.1 < lo + n))).map (fun c => (c.1 - lo, c.2))

/-- Writes listed bytes from a base on. -/
def State.putCells (s : State) (base : Nat) (cs : List (Nat × Byte)) : State :=
  { s with mem := cs.foldl (fun m c => sset unlisted m (base + c.1) c.2) s.mem }

/-- The 64 KiB granules of a page. -/
def Page.granules (p : Page) : List Nat := (List.range 32).map (fun i => p.vpn * 32 + i)

/-- A granule with its bytes, if it is mapped. -/
def State.granule (s : State) (terr g : Nat) : Option (Nat × List (Nat × Byte)) := match s.translate terr (g * 65536) false with
  | .ok pa => some (g, s.cellsIn (hbmKey pa) 65536)
  | .error _ => none

/-- The page list: every mapped granule, or those whose dirty bits are set (16 R313). -/
def State.pageList (s : State) (terr : Nat) (full : Bool) : List (Nat × List (Nat × Byte)) :=
  let y := s.terr! terr
  (if full then y.pages.flatMap Page.granules else y.dirty).filterMap (s.granule terr)

/-! ### The reserved area of a tile (16 R306) -/

/-- What stands at a place of the reserved area. -/
inductive Reserved
  | spill (core : CoreId)
  | upcall (r : TrapRec)
  | rings (uid : Nat) (rs : List RingSt)
  | replay (core : CoreId) (r : Option Replay)
  | message (q : QMsg)
  | staging

/-- The reserved area: offset in space 0x1, bytes, and what stands there. The spilled return addresses are bytes of memory; the other records
are held as the fields of State named here, and their encoding is not the manual's to give. -/
def State.reservedArea (s : State) (t : TileId) : List (Nat × Nat × Reserved) :=
  (coresOf t).map (fun c => (spillBase c, 1920, .spill c)) ++
  (s.tiles[t]).upcalls.zipIdx.map (fun e => (0x1E00 + 32 * e.2, 32, .upcall e.1)) ++
  (s.slices.filter (fun x => x.tile == some t)).filterMap (fun x => x.table.map (fun k => (0x2000 + 512 * k, 512, .rings x.uid x.rings))) ++
  (coresOf t).map (fun c => (0x3000 + 6144 * (c.val % 4), 6144, .replay c (s.cores[c]).replay)) ++
  (s.tiles[t]).overflow.zipIdx.map (fun e => (0x9000 + 272 * e.2, 272, .message e.1)) ++
  [(0xD400, 11264, .staging)]

/-! ### The bytes of an image (16 R313, R314) -/

/-- Part `j` of item `n` of R314's list in section `k`: its contents are in `Section`, their widths are not the manual's to give. -/
def Image.part (i : Image) (k n j : Nat) : List Byte := Config.imagePart i.writer i.no k n j

/-- The contents of a live frame. -/
def Section.frameBytes (x : Section) (y : Slice) : List Byte :=
  (List.range y.fsize).map (fun o => ((x.cells.find? (fun c => c.1 == y.fbase + o)).map (·.2)).getD unlisted)

/-- A core record: registers and control state, the replay blob, the matrix unit, the Orrery image of 07 R154. -/
def Image.coreBytes (i : Image) (k j : Nat) (c : Core) : List Byte :=
  i.part k 4 (2 * j) ++ leBytes 6144 (Config.replayBlob i.writer i.no k j).toNat ++ i.part k 4 (2 * j + 1) ++ c.orr.image

/-- The bytes of a section, in the order of 16 R314: tile record, queued slices, live frames, core records, copy queue, ring tables, match unit,
and in the handler tile's section the upcall queue (log 64). -/
def Image.section (i : Image) (k : Nat) : List Byte := match i.sections[k]? with
  | none => []
  | some x =>
    i.part k 1 0 ++ i.part k 2 0 ++ (x.slices.filter (·.fid.isSome)).zipIdx.flatMap (fun e => i.part k 3 e.2 ++ x.frameBytes e.1) ++
      x.cores.zipIdx.flatMap (fun e => i.coreBytes k e.2 e.1) ++ i.part k 5 0 ++ i.part k 6 0 ++ i.part k 7 0 ++
      (if x.lidx = 0 then i.part k 8 0 else [])

/-- The offset in the image of section `k`; after the last one, that of the page list. -/
def Image.sectionAt (i : Image) (k : Nat) : Nat := 128 + 16 * i.sections.length + ((List.range k).map (fun j => (i.section j).length)).sum

def Image.pagesAt (i : Image) : Nat := i.sectionAt i.sections.length

/-- FLAGS: FRZ, FULL, ceding sections present. -/
def Image.flags (i : Image) : Nat := bit64 i.frz 0 + bit64 i.full 1 + bit64 (i.sections.any (·.isCeding)) 2

/-- The 128-byte header. -/
def Image.headerBytes (i : Image) : List Byte :=
  i.imagic ++ leBytes 2 i.major ++ leBytes 2 i.minor ++ leBytes 4 i.flags ++ leBytes 4 i.members ++ leBytes 4 i.sections.length ++
    leBytes 4 i.ver.toNat ++ leBytes 4 i.stepping.toNat ++ digestBytes i.chain ++ leBytes 8 i.evcnt ++ leBytes 8 i.replays ++
    leBytes 8 i.pages.length ++ leBytes 8 i.pagesAt ++ leBytes 16 0

/-- A directory entry. -/
def Image.entryBytes (i : Image) (k : Nat) (x : Section) : List Byte :=
  leBytes 2 x.lidx ++ leBytes 1 (bit64 x.isCeding 0) ++ leBytes 1 0 ++ leBytes 2 x.pos.val ++ leBytes 2 0 ++ leBytes 8 (i.sectionAt k)

/-- A page-list entry: the virtual address, then 64 KiB of data. -/
def pageBytes (g : Nat × List (Nat × Byte)) : List Byte :=
  leBytes 8 (g.1 * 65536) ++ (List.range 65536).map (fun o => ((g.2.find? (fun c => c.1 == o)).map (·.2)).getD 0)

/-- Every byte of an image: header, directory, sections, page list. -/
def Image.bytes (i : Image) : List Byte :=
  i.headerBytes ++ (i.sections.zipIdx.flatMap (fun e => i.entryBytes e.2 e.1)) ++
    ((List.range i.sections.length).flatMap i.section) ++ i.pages.flatMap pageBytes

/-- Its length. -/
def Image.size (i : Image) : Nat := i.pagesAt + 65544 * i.pages.length

def imageMagic : List Byte := ascii "C9CTXIMG"

def recordMagic : List Byte := ascii "C9CKCOMM"

/-- The commit record of an image is made: MAGIC, LEN and DIGEST. -/
def Image.sealed (i : Image) : Image := { i with magic := recordMagic, len := i.size, digest := sha3 i.bytes }

/-- Bytes with others written over them from an offset on. -/
def writtenOver (bs : List Byte) (w : Nat × List Byte) : List Byte :=
  bs.zipIdx.map (fun e => if w.1 ≤ e.2 then (w.2[e.2 - w.1]?).getD e.1 else e.1)

/-- The LEN bytes that stand where the image was written, with what has been written over them since. -/
def Image.stored (i : Image) : List Byte :=
  i.patched.foldl writtenOver ((i.bytes ++ (List.range (i.len - i.bytes.length)).map (Config.storeByte i.writer i.no)).take i.len)

/-- The test of 20 R346. -/
def Image.valid (i : Image) : Bool := i.magic == recordMagic && sha3 i.stored == i.digest

/-- The 128 bytes of a commit record. -/
def Image.recordBytes (i : Image) : List Byte :=
  i.magic ++ leBytes 8 i.gen ++ leBytes 8 (i.parent.getD 0xFFFFFFFFFFFFFFFF) ++ leBytes 8 i.len ++ digestBytes i.digest ++ digestBytes i.writer

/-! ### Writing an image (16 R313, R314, 20 R346, R347) -/

/-- A tile section. Scratchpad bytes outside the frames and the reserved area belong to nobody. -/
def State.tileSection (s : State) (t : TileId) : Section :=
  let x := s.tiles[t]
  let ss := s.slices.filter (fun y => y.tile == some t && y.st != .ended)
  { lidx := x.lidx, isCeding := x.ceding.isSome, pos := t, tile := x, cores := (coresOf t).map (fun c => s.cores[c]), slices := ss,
    cells := (s.cellsIn (scratchKey t.val 0) 3145728).filter (fun c =>
      decide (reservedBase ≤ c.1) || ss.any (fun y => y.fid.isSome && decide (y.fbase ≤ c.1) && decide (c.1 < y.fbase + y.fsize))) }

/-- The image of a quiescent context, as it is committed at a store offset. -/
def State.imageOf (s : State) (terr off : Nat) (parent : Option Nat) (full : Bool) : Image :=
  let y := s.terr! terr
  let x := s.session! y.sess
  ({ off := off, magic := [], gen := s.now, parent := parent, len := 0, digest := 0, writer := devid, no := s.dev.images,
     imagic := imageMagic, major := 1, minor := 0, terr := terr, born := y.born, frz := y.frz, full := full,
     members := s.size terr, ver := y.ver, stepping := Config.step, chain := x.chain, evcnt := x.evBase + x.log.length,
     replays := x.replays, savedAt := s.now, sections := (s.terrTiles terr).map s.tileSection, pages := s.pageList terr full,
     loose := s.slices.filter (fun z => z.terr == terr && z.st == .held && z.tile.isNone),
     codes := s.codes.filter (fun o => o.terr == terr), launches := s.launches.filter (fun l => l.terr == terr), votes := y.votes,
     nextVote := y.nextVote, mark := y.mark, waiting := y.waiting, nextReq := s.dev.nextReq,
     patched := [] } : Image).sealed

/-- Do the record and image at an offset share bytes with a range? -/
def Image.touches (i : Image) (lo n : Nat) : Bool := decide (i.off < lo + n) && decide (lo < i.off + 4096 + i.len)

/-- Is a byte of the image's record in a range? -/
def Image.recordHit (i : Image) (lo n : Nat) : Bool := decide (i.off < lo + n) && decide (lo < i.off + 128)

/-- Bytes are written to the store, from offset `lo` on: those that fall on the image stand over its own. -/
def Image.hit (i : Image) (lo : Nat) (bs : List Byte) : Image :=
  if i.off + 4096 < lo + bs.length ∧ lo < i.off + 4096 + i.len then { i with patched := i.patched ++ [(lo - (i.off + 4096), bs.drop (i.off + 4096 - lo))] } else i

/-- An image whose bytes a SAVE or CHECKPOINT has written, and whose record it has yet to write. -/
def Terr.hit (y : Terr) (lo : Nat) (bs : List Byte) : Terr :=
  { y with saving := y.saving.map (fun v => { v with image := v.image.map (fun i => i.hit lo bs) }) }

/-- Bytes of the store are written over. An image whose record they hit is there no longer; one whose own bytes they hit, committed or not
yet, holds them from then on (20 R346, R347). -/
def State.overwrite (s : State) (lo : Nat) (bs : List Byte) : State :=
  { s with store := (s.store.filter (fun i => !i.recordHit lo bs.length)).map (fun i => i.hit lo bs),
           terrs := s.terrs.map (fun y => y.hit lo bs),
           pxIn := s.pxIn.map (fun p => if p.stage = 2 then { p with images := p.images.map (fun i => i.hit lo bs) } else p) }

/-- The record at an offset is zeroed (20 R347 step 1). -/
def State.zeroRecord (s : State) (off : Nat) : State := s.overwrite off (List.replicate 128 0)

/-- The record is written, and GEN is the cycle of it (20 R346, R347 step 3). -/
def State.commitImage (s : State) (i : Image) : State :=
  let c : Image := { i with gen := s.now }
  let s1 := s.overwrite i.off c.recordBytes
  { s1 with store := s1.store ++ [c], dev := { s1.dev with images := s1.dev.images + 1 } }

/-- The store's size in bytes. -/
def State.storeBytes (s : State) : Nat := s.dev.store * 1073741824

/-- A store offset at which a record fits (20 R345). -/
def State.storeOffset (s : State) (off : Nat) : Bool := decide (off % 4096 = 0) && decide (off + 4096 ≤ s.storeBytes)

/-- The valid image whose record stands at an offset of the store, all of it in the store (20 R345, R346). -/
def State.findImage (s : State) (off : Nat) : Option Image :=
  (s.store.find? (fun i => i.off == off)).filter (fun i => s.storeOffset off && decide (off + 4096 + i.len ≤ s.storeBytes) && i.valid)

/-- The image at `off` and its ancestors as far as they are valid, at most `n` of them, youngest first. -/
def State.chainFrom (s : State) : Nat → Nat → List Image
  | 0, _ => []
  | n + 1, off => match s.findImage off with
    | none => []
    | some i => i :: (match i.parent with
      | some p => s.chainFrom n p
      | none => [])

/-- Starts the Parallax stream of a committed image. It copies the image and those ancestors that the buddy does not already hold at its BPOFF
chain, which this module does not know: with no BPOFF all of them, else a free number of the youngest (20 R350). -/
def State.startStream (s : State) (sess terr buddy off boff : Nat) (bpoff : Option Nat) : State :=
  let all := s.chainFrom s.store.length off
  let sent := match bpoff with
    | none => all
    | some _ => all.take (1 + Config.choice s.stepNo % max 1 all.length)
  { s with stepNo := s.stepNo + 1,
           pxOut := s.pxOut ++ [{ sess := sess, terr := terr, born := (s.terr! terr).born, buddy := buddy, off := off, boff := boff, bpoff := bpoff, images := sent.reverse }] }

/-- Granules of a territory are clean again, but for those written in this very cycle (20 R351); a page is clean when all its granules are. -/
def Terr.cleaned (y : Terr) (now : Nat) (clean : Nat → Bool) : Terr :=
  let d := y.dirty.filter (fun g => !clean g || (y.wroteAt == now && y.wrote.contains g))
  { y with dirty := d, pages := y.pages.map (fun p => { p with dirty := p.dirty && d.any (fun g => g / 32 == p.vpn) }) }

/-- The image that a SAVE or CHECKPOINT writes now. -/
def State.savingImage (s : State) (terr : Nat) (v : Saving) : Image :=
  s.imageOf terr v.off (v.ckpt.bind (fun b => if v.full then none else some b.poff)) v.full

/-- The bytes that the image may take. -/
def State.savingRoom (s : State) (v : Saving) : Nat := match v.ckpt with
  | some b => b.limit
  | none => s.storeBytes - (v.off + 4096)

/-- The cessions whose ceding sections the image holds end step 2 (03 R66). -/
def State.endImaged (s : State) (i : Image) : State :=
  (i.sections.filter (·.isCeding)).foldl (fun s x => match (s.tiles[x.pos]).ceding with
    | some c => if c.expired then s else s.imageKeeps x.pos c
    | none => s) s

/-- The record is written, and the command answered. An image that outgrows its room leaves no record: status 7 (20 R348; for a SAVE that
outgrows the store DESIGN CHOICE, log 25). -/
def State.finishSave (s : State) (terr : Nat) (v : Saving) (i : Image) : State :=
  let ok := decide (i.len ≤ s.savingRoom v)
  let s1 := if ok then (s.commitImage i).endImaged i else s
  let s2 := s1.modTerr terr (fun y => { y with saving := none, imaged := y.imaged || ok })
  let s3 := if ok then s2.modTerr terr (fun y => { y with dirtySince := y.dirtySince && v.ckpt.isNone }) else s2
  let s4 := if v.resume then s3.resumeTerr terr else s3
  let s5 := (s4.respond v.h (if v.ckpt.isSome then 0x0035 else 0x0031) (if ok then 0 else 7) .empty).idle v.h.sess
  match v.ckpt with
  | some b => if ok && b.buddy != 0 then s5.startStream v.h.sess terr b.buddy v.off b.boff b.bpoff else s5
  | none => s5

/-- The next step of writing the image of a quiescent context (20 R347): the record at the offset is zeroed; the image is written, and the
granules it lists become clean; the record is written. -/
def State.saveStep (s : State) (terr : Nat) : Option State := match (s.terr! terr).saving with
  | none => none
  | some v =>
    if !s.quiescent terr then none
    else if !v.zeroed then some ((s.zeroRecord v.off).modTerr terr (fun y => { y with saving := some { v with zeroed := true } }))
    else match v.image with
      | some i => some (s.finishSave terr v i)
      | none =>
        let i := s.savingImage terr v
        let s1 := s.overwrite (v.off + 4096) (i.bytes.take (s.savingRoom v))
        some (s1.modTerr terr (fun y => { (if v.ckpt.isSome || !v.full then y.cleaned s.now (fun g => i.pages.any (fun p => p.1 == g)) else y) with
          saving := some { v with image := some i } }))

/-- QUIESCENCE_COMPLETE: open reservations are released and recorded (16 R312). Once every tile has quiesced, a SAVE or CHECKPOINT that waits
is written (`saveStep`). -/
def execQuiescenceComplete (tile : TileId) (s : State) : Out :=
  if !s.canQuiesce tile then .next s
  else .next (((coresOf tile).foldl (fun s c => s.parkChain tile c) s).modTile tile (fun x => { x with quiet := true }))

/-- A SAVE or CHECKPOINT begins. -/
def State.beginSave (s : State) (v : Saving) : State := s.modTerr v.h.terr (fun y => { y with saving := some v })

/-- SAVE (16 R313): of a halted context. -/
def execSave (h : Hdr) (off : Nat) (full : Bool) (s : State) : Out :=
  s.runCmd h 0x0031 (fun s => s.ifAllows h [.run] && s.isHalted h) true (fun s =>
    if !s.storeOffset off then .bad 6
    else .later (s.beginSave { h := h, off := off, full := full, ckpt := none, resume := false, zeroed := false, image := none }) id)

/-! ### Chains of images (20 R346, R349) -/

/-- The images from the oldest ancestor to the one at `off`, at most `n` of them; none where one is invalid or there are more. -/
def State.ancestry (s : State) : Nat → Nat → Option (List Image)
  | 0, _ => none
  | n + 1, off => match s.findImage off with
    | none => none
    | some i => match i.parent with
      | none => some [i]
      | some p => (s.ancestry n p).map (fun l => l ++ [i])

/-- Later pages overwrite earlier ones. -/
def overlay (a b : List (Nat × List (Nat × Byte))) : List (Nat × List (Nat × Byte)) := a.filter (fun g => !b.any (fun k => k.1 == g.1)) ++ b

def chainPages (is : List Image) : List (Nat × List (Nat × Byte)) := is.foldl (fun a i => overlay a i.pages) []

/-- Writes granules at their virtual addresses; each sets its dirty bit. -/
def State.putPages (s : State) (terr : Nat) (ps : List (Nat × List (Nat × Byte))) : State :=
  ps.foldl (fun s g => match s.translate terr (g.1 * 65536) false with
    | .ok pa => ((s.clear (hbmKey pa) 65536).putCells (hbmKey pa) g.2).markDirty terr (g.1 * 65536)
    | .error _ => s) s

/-- Is a granule mapped, for a read or a write? -/
def State.mapped (s : State) (terr g : Nat) (write : Bool) : Bool := match s.translate terr (g * 65536) write with
  | .ok _ => true
  | .error _ => false

/-! ### RESTORE (16 R315, R316) -/

/-- How what an image names is found on the device it is restored to: tiles, slices, code objects, launches, and the cycles by which
its times move. -/
structure Moved where
  terr : Nat
  tiles : List (TileId × TileId)
  uids : List (Nat × Nat)
  codes : List (Nat × Nat)
  launches : List (Nat × Nat)
  later : Int
  arr : Nat
  /-- The translation between the shapes, if there is one. -/
  shift : Option (Int × Int)
  /-- The target's shape version, under which what was resolved is resolved again. -/
  ver : BitVec 32

/-- Numbers from `first` on for the elements of a list. -/
def renumber (first : Nat) (l : List Nat) : List (Nat × Nat) := l.zipIdx.map (fun e => (e.1, first + e.2))

def renamed (l : List (Nat × Nat)) (n : Nat) : Nat := ((l.find? (fun e => e.1 == n)).map (·.2)).getD n

def Moved.tileOf? (v : Moved) (t : TileId) : Option TileId := (v.tiles.find? (fun e => e.1 == t)).map (·.2)

def Moved.tile (v : Moved) (t : TileId) : TileId := (v.tileOf? t).getD t

def Moved.who (v : Moved) (w : Who) : Who := (renamed v.uids w.1, w.2)

/-- A cycle of the source's time base, as many cycles from now as it was then. -/
def Moved.cycle (v : Moved) (n : Nat) : Nat := ((n : Int) + v.later).toNat

def Moved.park (v : Moved) (p : Park) : Park := match p.why with
  | .rwait r n d b => { p with why := .rwait r n (v.cycle d) b }
  | .orrery u op => { p with why := .orrery (v.cycle u) op }
  | .returning u => { p with why := .returning (v.cycle u) }
  | _ => p

/-- An open reservation is made again through the tiles that now bear the hops' indices. -/
def Moved.chain (v : Moved) (c : Chain) : Chain := { c with hops := c.hops.map (fun h => (v.tile h.1, h.2)), ver := v.ver }

/-- A core record goes to the core with the same CID, halted. -/
def Moved.core (v : Moved) (c : Core) : Core :=
  let orr : Orrery := { c.orr with lastTick := c.orr.lastTick.map v.cycle }
  { c with sl := c.sl.map (renamed v.uids), park := c.park.map v.park, replay := c.replay.map (fun r => { r with park := r.park.map v.park }),
           chain := c.chain.map v.chain, ask := c.ask.map (fun q => { q with chain := v.chain q.chain }), issuedAt := c.issuedAt.map v.cycle, ownAt := v.cycle c.ownAt, orr := orr, halted := c.sl.isSome }

def Moved.loc (v : Moved) : CLoc → CLoc
  | .peer t l f o => match v.tileOf? t with
    | some u => .peer u l f o
    | none => .hole l
  | c => c

def Moved.copy (v : Moved) (q : Copy) : Copy := { q with who := v.who q.who, terr := v.terr, src := v.loc q.src, dst := v.loc q.dst, ver := v.ver }

/-- A barrier's rectangle is translated with the shape. -/
def BarCfg.move (b : BarCfg) (d : Int × Int) : BarCfg :=
  { b with x0 := ((b.x0 : Int) + d.1).toNat, x1 := ((b.x1 : Int) + d.1).toNat, y0 := ((b.y0 : Int) + d.2).toNat, y1 := ((b.y1 : Int) + d.2).toNat }

/-- A configured barrier stays valid only where the shape is a translation of the source's; otherwise it is invalid as under 03 R72. -/
def Moved.bar (v : Moved) (b : Barrier) : Barrier := match v.shift with
  | some d => { b with cfg := b.cfg.map (fun c => c.move d), from' := b.from'.map (fun c => c.move d), held := b.held.map (fun c => c.move d) }
  | none => { b with valid := false, arr := 0, kids := 0, sent := false, bad := false, told := false, from' := [], held := [] }

/-- Cores that wait in a barrier that was valid and no longer is take barrier configuration. -/
def Moved.barred (v : Moved) (t : Tile) (c : Core) : Core :=
  if v.shift.isSome then c
  else (List.finRange 4).foldl (fun c (id : Bar) => if (t.bars[id]).valid then c.failPark (barWaiting id) (barFault id.val) else c) c

/-- The tile record and what else a section gives its tile; the tile keeps its place, index, owner, counters and firmware anchor. -/
def Moved.tileRec (v : Moved) (now : Tile) (x : Tile) (anch : Bool) : Tile :=
  { now with
    bias := x.bias, anchT := anch, bars := x.bars.map v.bar, votes := x.votes.map (fun e => (e.1, e.2.1, v.who e.2.2)), voteNo := x.voteNo,
    locks := x.locks, copyQ := x.copyQ.map v.copy, posted := x.posted.map (fun p => { p with who := v.who p.who }),
    overflow := x.overflow, fills := [], upcalls := x.upcalls, chainBufs := [], lastFid := x.lastFid, nextSid := x.nextSid,
    resident := x.resident.map (renamed v.codes), quiet := true, preempt := true }

/-- A slice on its new tile: its deadline is as far off as it was. -/
def Moved.slice (v : Moved) (x : Slice) : Slice :=
  { x with uid := renamed v.uids x.uid, launch := renamed v.launches x.launch, terr := v.terr, tile := x.tile.map v.tile,
           code := renamed v.codes x.code, deadline := x.deadline + BitVec.ofInt 64 v.later, arrival := v.arr + x.arrival,
           cores := x.cores.map (fun c => coreOf (v.tile (tileOf c)) ⟨c.val % 4, by omega⟩),
           saved := x.saved.map v.core, home := none, rings := x.rings.map (fun r => { r.again with freed := [] }) }

/-- May the tile take the anchor its section records (03 R73)? -/
def State.anchorRoom (s : State) (terr : Nat) (t : TileId) (x : Tile) : Bool :=
  x.anchT && (s.anchored t || decide (s.anchors terr < 16))

/-- Restores a section on its tile. -/
def State.putSection (s : State) (v : Moved) (sec : Section) : State :=
  let t := v.tile sec.pos
  let anch := s.anchorRoom v.terr t sec.tile
  let s1 := ((s.clear (scratchKey t.val 0) 3145728).putCells (scratchKey t.val 0) sec.cells).modTile t (fun x => v.tileRec x sec.tile anch)
  let s2 := ((coresOf t).zip sec.cores).foldl (fun s e => s.modCore e.1 (fun _ => v.barred sec.tile (v.core e.2))) s1
  { s2 with slices := s2.slices ++ sec.slices.map v.slice }

/-- The free tiles that may take ceding sections, each adjacent to the territory; lowest position first. -/
def State.cedingRoom (s : State) (terr n : Nat) : Option (List TileId) :=
  let l := allTiles.filter (fun t => (s.tiles[t]).isFree && !(s.beside t terr).isEmpty)
  if n ≤ l.length then some (l.take n) else none

/-- The translation that takes every member section to its tile, if there is one. -/
def shiftOf : List (TileId × TileId) → Option (Int × Int)
  | [] => some (0, 0)
  | (a, b) :: r =>
    let d (e : TileId × TileId) : Int × Int := ((tileX e.2 : Int) - tileX e.1, (tileY e.2 : Int) - tileY e.1)
    if r.all (fun e => d e == d (a, b)) then some (d (a, b)) else none

/-- The slices an image holds. -/
def Image.slices (i : Image) : List Slice := i.sections.flatMap (·.slices) ++ i.loose

/-- How the image's names move to the territory. -/
def State.movedBy (s : State) (terr : Nat) (i : Image) (ceding : List TileId) : Moved :=
  let mem := (i.sections.filter (fun x => !x.isCeding)).filterMap (fun x => (s.memberAt terr x.lidx).map (fun t => (x.pos, t)))
  { terr := terr, tiles := mem ++ ((i.sections.filter (·.isCeding)).map (·.pos)).zip ceding,
    uids := renumber s.dev.nextUid (i.slices.map (·.uid)), codes := renumber s.dev.nextHandle (i.codes.map (·.handle)),
    launches := renumber s.dev.nextLaunch (i.launches.map (·.id)), later := (s.now : Int) - i.savedAt, arr := s.dev.nextArr,
    shift := shiftOf mem, ver := s.shapeVer terr }

/-- A free tile joins the territory as a ceding tile under its section's index; its evacuation budget starts when the context resumes. -/
def State.cedeTo (s : State) (terr : Nat) (t : TileId) (lidx : Nat) : State :=
  (s.abandon t).modTile t (fun x => { x with
    owner := some terr, lidx := lidx, claim := none, joinVer := s.shapeVer terr, preempt := true,
    ceding := some { gain := none, lastCycle := 0, expired := false, cleared := false, ver := s.shapeVer terr } })

/-- A launch of the image, to be reported to the session. -/
def Moved.launch (v : Moved) (sess : Nat) (ss : List Slice) (l : Launch) : Launch :=
  { l with id := renamed v.launches l.id, sess := sess, terr := v.terr, open' := (ss.filter (fun x => x.launch == l.id)).length, forced := none }

/-- The territory's votes and freezes. -/
def Moved.terrRec (v : Moved) (i : Image) (y : Terr) : Terr :=
  { y with
    halted := true, haltReply := none, imaged := false, frz := y.frz || i.frz, mark := y.mark || i.mark || i.frz,
    votes := i.votes.map (fun w => { w with
      todo := w.todo.map v.tile, voters := w.voters.map (fun e => (v.tile e.1, v.who e.2.1, e.2.2.1, e.2.2.2)) }),
    nextVote := i.nextVote, waiting := i.waiting.map (fun w => (v.who w.1, w.2.1, v.tile w.2.2)), lastCoop := y.lastCoop }

/-- The chain value and counts are carried; no event is recorded. -/
def Session.carry (x : Session) (i : Image) : Session :=
  if x.chain = i.chain ∧ x.evBase + x.log.length = i.evcnt then { x with replays := i.replays }
  else { x with chain := i.chain, evBase := i.evcnt, log := [], replays := i.replays }

/-- The numbers the image uses are the device's no more. -/
def Dev.past (d : Dev) (i : Image) : Dev :=
  { d with nextUid := d.nextUid + i.slices.length, nextHandle := d.nextHandle + i.codes.length, nextLaunch := d.nextLaunch + i.launches.length,
           nextReq := max d.nextReq i.nextReq, nextArr := d.nextArr + (i.slices.map (fun x => x.arrival + 1)).foldl max 0 }

/-- Everything the checks allowed is written. -/
def State.restored (s : State) (h : Hdr) (i : Image) (pages : List (Nat × List (Nat × Byte))) (ceding : List TileId) : State :=
  let v := s.movedBy h.terr i ceding
  let s1 : State := { s with slices := s.slices.filter (fun x => x.terr != h.terr),
                             launches := s.launches.filter (fun l => l.terr != h.terr) ++ i.launches.map (v.launch h.sess i.slices),
                             codes := s.codes ++ i.codes.map (fun o => { o with handle := renamed v.codes o.handle, terr := h.terr }),
                             dev := s.dev.past i }
  let s2 := (((i.sections.filter (·.isCeding)).map (·.lidx)).zip ceding).foldl (fun s e => s.cedeTo h.terr e.2 e.1) s1
  let s3 := i.sections.foldl (fun s x => s.putSection v x) s2
  let s4 := ({ s3 with slices := s3.slices ++ i.loose.map v.slice }).modTerr h.terr (v.terrRec i)
  let s5 := (s4.putPages h.terr pages).modSession h.sess (fun x => x.carry i)
  if i.frz then allTiles.foldl (fun s t => s.markClaim t h.terr) s5 else s5

/-- The territory may be filled: it has no slices, or they are halted and quiescent; and no tile moves to or from it (DESIGN CHOICE, log 25). -/
def State.fillable (s : State) (h : Hdr) : Bool :=
  (s.findTerr h.terr).all (fun y => (!s.slices.any (fun x => x.terr == y.id) && !s.terrTraffic y.id) || s.quiescent y.id) && s.still h.terr

/-- RESTORE. The context is halted when it is done. -/
def execRestore (h : Hdr) (off : Nat) (s : State) : Out :=
  s.runCmd h 0x0032 (fun s => s.ifAllows h [.locked] && s.fillable h) true (fun s => match s.ancestry 8 off with
    | none => .bad 6
    | some is => match is.getLast? with
      | none => .bad 6
      | some i =>
        let ms := i.sections.filter (fun x => !x.isCeding)
        let pages := chainPages is
        if i.major ≠ 1 ∨ ms.length ≠ s.size h.terr ∨ ms.any (fun x => (s.memberAt h.terr x.lidx).isNone) = true ∨
            (i.frz && ms.any (fun x => s.memberAt h.terr x.lidx != some x.pos)) = true ∨
            pages.any (fun g => !s.mapped h.terr g.1 false) = true then .bad 6
        else match s.cedingRoom h.terr (i.sections.length - ms.length) with
          | none => .bad 7
          | some ts => .done (s.restored h i pages ts) .empty)

/-! ### CHECKPOINT, DIRTY, LOADPAGES (20 R348, R349, R351, R353) -/

/-- Is a Parallax stream of the territory running? TERR numbers are given again; one of an earlier territory is none of this one's. -/
def State.streaming (s : State) (terr : Nat) : Bool := s.pxOut.any (fun p => p.terr == terr && p.born == (s.terr! terr).born)

/-- Is an image one of this territory, as it has stood since its CREATE on this module (DESIGN CHOICE, log 25: 20 R348 does not say what makes it
so)? -/
def State.ownImage (s : State) (terr : Nat) (i : Image) : Bool := i.writer == devid && i.terr == terr && i.born == (s.terr! terr).born

/-- The endpoint a stream goes to exists. -/
def State.buddyOk (s : State) (sess buddy : Nat) : Bool := ((s.session! sess).endpoint buddy).isSome

/-- An offset on the buddy. -/
def buddyOffset (boff : Nat) (bpoff : Option Nat) : Bool := decide (boff % 4096 = 0) && bpoff.all (fun p => decide (p % 4096 = 0))

/-- Check 6 of CHECKPOINT. -/
def State.ckptOk (s : State) (h : Hdr) (b : CkptBody) : Bool :=
  s.storeOffset b.off && decide (b.off + 4096 + b.limit ≤ s.storeBytes) &&
    (b.full || ((s.findImage b.poff).any (s.ownImage h.terr) && !(s.terr! h.terr).dirtySince)) &&
    (s.chainFrom s.store.length b.poff).all (fun i => !i.touches b.off (4096 + b.limit)) &&
    (b.buddy == 0 || (s.buddyOk h.sess b.buddy && buddyOffset b.boff b.bpoff))

/-- CHECKPOINT. -/
def execCheckpoint (h : Hdr) (body : CkptBody) (s : State) : Out :=
  s.runCmd h 0x0035 (fun s => s.ifAllows h [.run] && !s.streaming h.terr) true (fun s =>
    if !s.ckptOk h body then .bad 6
    else
      let s1 := if s.isHalted h then s else s.haltTerr h.terr
      .later (s1.beginSave { h := h, off := body.off, full := body.full, ckpt := some body, resume := !s.isHalted h, zeroed := false,
                              image := none }) id)

/-- Bits as bytes, eight to each, lowest first. -/
def bitBytes (f : Nat → Bool) (n : Nat) : List Byte :=
  (List.range ((n + 7) / 8)).map (fun b => BitVec.ofNat 8 ((List.range 8).map (fun i => bit64 (decide (8 * b + i < n) && f (8 * b + i)) i)).sum)

/-- DIRTY: the bits of the range, which it clears; a write in that same cycle leaves its bit set. -/
def execDirty (h : Hdr) (first count : Nat) (s : State) : Out :=
  s.runCmd h 0x0034 (fun s => s.ifAllows h [.run]) true (fun s =>
    if count = 0 ∨ 524288 < count ∨ 2 ^ 32 < first + count then .bad 6
    else
      let y := s.terr! h.terr
      let bit (i : Nat) : Bool := if y.dirtyRead then y.dirty.contains (first + i)
        else y.pages.any (fun p => decide (p.vpn = (first + i) / 32))
      .done (s.modTerr h.terr (fun y => { y.cleaned s.now (fun g => decide (first ≤ g) && decide (g < first + count)) with
        dirtyRead := true, dirtySince := true }))
        (.bytes (bitBytes bit count)))

/-- LOADPAGES. -/
def execLoadpages (h : Hdr) (off : Nat) (s : State) : Out :=
  s.runCmd h 0x0037 (fun s => s.ifAllows h [.locked]) true (fun s => match s.ancestry 8 off with
    | none => .bad 6
    | some is =>
      let pages := chainPages is
      if pages.any (fun g => !s.mapped h.terr g.1 true) then .bad 6 else .done (s.putPages h.terr pages) .empty)

/-! ### Parallax (20 R350) -/

/-- PXSEND. -/
def execPxsend (h : Hdr) (off buddy boff : Nat) (bpoff : Option Nat) (s : State) : Out :=
  s.runCmd h 0x0036 (fun s => s.ifAllows h [.run, .locked]) true (fun s =>
    if (s.findImage off).isNone = true ∨ (s.buddyOk h.sess buddy && buddyOffset boff bpoff) = false then .bad 6
    else .done (s.startStream h.sess h.terr buddy off boff bpoff) .empty)

/-- A stream of this module ends: PXDONE. -/
def State.pxDone (s : State) (k status : Nat) : State := match s.pxOut[k]? with
  | none => s
  | some p => { s with pxOut := s.pxOut.eraseIdx k, outbox := s.outbox ++ [.pxdone p.sess p.off p.boff status] }

/-- LINK_LOSS: status 2. -/
def execLinkLoss (k : Nat) (s : State) : Out := .next (s.pxDone k 2)

/-- PARALLAX_ACK: the buddy committed (0), refused (1), or its store is too small (3). -/
def execParallaxAck (k status : Nat) (s : State) : Out := .next (if status = 0 ∨ status = 1 ∨ status = 3 then s.pxDone k status else s)

/-- What a stream leaves at BOFF: the image with the pages of the ancestors that came with it, whose parent is BPOFF. -/
def State.streamImage (s : State) (p : PxIn) (last : Image) : Image :=
  let i : Image := { last with off := p.boff, gen := s.now, parent := p.bpoff, pages := chainPages p.images, patched := [] }
  if p.images.length = 1 then { i with pages := last.pages } else i.sealed

/-- The answer to a stream's sender, which is then done. -/
def State.pxAnswer (s : State) (k : Nat) (p : PxIn) (status : Nat) : State :=
  { s with pxIn := s.pxIn.eraseIdx k, outbox := s.outbox ++ [.pxack p.fa p.boff status] }

/-- PARALLAX_STREAM_ARRIVAL: a stream that another module sends arrives. It is refused from a module that PXPEERS does not list, and one that
does not fit the store is not written. Otherwise the record at BOFF is zeroed, and the writing goes on in `pxStep`. -/
def execParallaxStreamArrival (k : Nat) (s : State) : Out := match s.pxIn[k]? with
  | none => .next s
  | some p =>
    if p.stage != 0 then .next s
    else if !s.dev.pxpeers.contains p.fa || s.dev.bootFail || p.boff % 4096 != 0 then .next (s.pxAnswer k p 1)
    else match p.images.getLast? with
      | none => .next (s.pxAnswer k p 1)
      | some last =>
        let i := s.streamImage p last
        if s.storeBytes < i.off + 4096 + i.len then .next (s.pxAnswer k p 3)
        else
          let s1 := s.zeroRecord p.boff
          .next { s1 with pxIn := s1.pxIn.set k { p with stage := 1 } }

/-- The next step of an arriving stream that is being written (20 R347): the bytes of the image it leaves, which is then all that is kept of
it, then the record and the acknowledgement. One that breaks off leaves BOFF without a valid image. -/
def State.pxStep (s : State) (k : Nat) : Option State := match s.pxIn[k]? with
  | none => none
  | some p =>
    if p.stage = 0 then none
    else match p.images.getLast? with
      | none => none
      | some last =>
        if p.stage = 1 then
          let i := s.streamImage p last
          let s1 := s.overwrite (p.boff + 4096) i.bytes
          some (if p.whole then { s1 with pxIn := s1.pxIn.set k { p with images := [i], stage := 2 } } else { s1 with pxIn := s1.pxIn.eraseIdx k })
        else some ((s.commitImage last).pxAnswer k p 0)

end Sys2Proof.Machine
end

