-- ==== Sys2Proof/Machine/Device.lean ====
section
/-! DEFINITION. The module as a whole: host RMA (16 R292, 17 R332, 20 R348), counters, telemetry, fencing, the patrol scrub, power and
temperature (21 R354 to R363). -/

namespace Sys2Proof.Machine

/-! ### Host RMA -/

/-- The window of the interface covers these bytes (17 R330). -/
def Iface.windowHas (i : Iface) (va n : Nat) : Bool :=
  let lo := (i.regs[5]).toNat / 65536 % 4294967296
  let hi := (i.regs[6]).toNat / 65536 % 4294967296
  decide (lo * 65536 ≤ va) && decide (va + n ≤ (hi + 1) * 65536)

/-- May a session's RMA reach these bytes of a territory: within the window once it is attested, in CONFIG_UNLOCKED and RUN, also
while a STOP ends its slices (log 65). -/
def State.rmaAllowed (s : State) (sess terr va n : Nat) : Bool := (s.findTerr terr).any (fun y =>
  y.sess == sess && y.lives && !s.dev.bootFail && decide (va + n ≤ 2 ^ 48) &&
    (!y.iface.attested || (y.iface.windowHas va n && (y.iface.st == .unlocked || y.iface.st == .run))))

/-- Is a CHECKPOINT of the territory not yet answered? -/
def State.checkpointing (s : State) (terr : Nat) : Bool := (s.terr! terr).saving.any (fun v => v.ckpt.isSome)

/-- The end of an RMA request: performed, or refused with a UET error. -/
def State.rmaSay (s : State) (sess : Nat) (ok : Bool) (bs : List Byte) : State := { s with outbox := s.outbox ++ [.rma sess ok bs] }

/-- RMA_WRITE: all of it is performed, or none. -/
def execRmaWrite (sess terr va : Nat) (bytes : List Byte) (s : State) : Out :=
  .next (if !s.rmaAllowed sess terr va bytes.length || s.checkpointing terr then s.rmaSay sess false []
    else if bytes = [] then s.rmaSay sess true []
    else match s.writeHbm terr va bytes with
      | .ok s1 => s1.rmaSay sess true []
      | .error _ => s.rmaSay sess false [])

/-- RMA_READ. -/
def execRmaRead (sess terr va len : Nat) (s : State) : Out :=
  .next (if !s.rmaAllowed sess terr va len then s.rmaSay sess false []
    else match s.readHbm terr va len with
      | .ok bs => s.rmaSay sess true bs
      | .error _ => s.rmaSay sess false [])

/-- A device counter: 0 to 4 stand for ids 16 to 20. -/
def State.bumpDev (s : State) (i : Fin 5) (n : Nat) : State :=
  { s with dev := { s.dev with ctr := vmod s.dev.ctr i (fun x => x + BitVec.ofNat 64 n) } }

/-- UNSUPPORTED_PACKET: dropped and counted. -/
def execUnsupportedPacket (s : State) : Out := .next (s.bumpDev 2 1)

/-! ### COUNTERS, TELEMETRY, FENCE (21 R355 to R358, R363) -/

/-- The members in logical order. -/
def State.inOrder (s : State) (terr : Nat) : List TileId := (List.range 1024).filterMap (fun i => s.memberAt terr i)

/-- The counters of a tile among `count` ids from `first` on. -/
def tileProbes (first count : Nat) (t : TileId) : List Probe :=
  ((List.finRange 16).filter (fun i => decide (first ≤ i.val) && decide (i.val < first + count))).map (.tile t)

/-- The device's counters among them. -/
def devProbes (first count : Nat) : List Probe :=
  ((List.finRange 5).filter (fun i => decide (first ≤ i.val + 16) && decide (i.val + 16 < first + count))).map .dev

/-- What COUNTERS reads: of the whole device (TERR = 0xFFFF), or of each member of a territory after its place. -/
def State.counterProbes (s : State) (h : Hdr) (first count : Nat) : List Probe :=
  if h.terr = 0xFFFF then allTiles.flatMap (tileProbes first count) ++ devProbes first count
  else (s.inOrder h.terr).flatMap (fun t => .place t :: tileProbes first count t)

/-- What TELEMETRY reads. -/
def telemetryProbes : List Probe := .sample :: (List.finRange 32).map .island

/-- A command's response starts to be read. -/
def State.startReading (s : State) (h : Hdr) (code : Nat) (ps : List Probe) : State :=
  { s with readings := s.readings ++ [{ h := h, code := code, todo := ps.zipIdx.map (fun e => (e.2, e.1)), got := [] }] }

/-- The bytes of one piece, as they stand now. Temperatures come from outside the device: free values. -/
def State.probe (s : State) : Probe → List Byte
  | .place t => leBytes 2 t.val
  | .tile t id => leBytes 8 ((s.tiles[t]).ctr[id]).toNat
  | .dev id => leBytes 8 (s.dev.ctr[id]).toNat
  | .sample => leBytes 4 s.dev.module16 ++ leBytes 4 (Config.freeWord s.stepNo).toNat ++ leBytes 8 s.now ++ leBytes 16 0
  | .island i =>
    let x := s.dev.isl[i]
    leBytes 4 x.watts16 ++ leBytes 2 (s.clkOf i) ++ leBytes 2 (Config.freeWord s.stepNo).toNat ++ leBytes 2 s.dev.islandcap[i] ++
      leBytes 1 (bit64 x.hot 0) ++ leBytes 5 0

/-- The body of a response all of whose pieces have been read. -/
def Reading.body (r : Reading) : List Byte :=
  (List.range r.got.length).flatMap (fun n => ((r.got.find? (fun e => e.1 == n)).map (·.2)).getD [])

/-- A piece of a response is read; after the last one the command is answered. -/
def State.readPiece (s : State) (k n : Nat) : State := match s.readings[k]? with
  | none => s
  | some r => match r.todo.find? (fun e => e.1 == n) with
    | none => s
    | some e =>
      let r1 : Reading := { r with todo := r.todo.filter (fun x => x.1 != n), got := r.got ++ [(n, s.probe e.2)] }
      let s1 := { s with stepNo := s.stepNo + 1 }
      if r1.todo.isEmpty then (({ s1 with readings := s1.readings.eraseIdx k }).respond r.h r.code 0 (.bytes r1.body)).idle r.h.sess
      else { s1 with readings := s1.readings.set k r1 }

/-- COUNTERS. TERR = 0xFFFF needs a session that OPS admits. -/
def execCounters (h : Hdr) (first count : Nat) (s : State) : Out :=
  let all := decide (h.terr = 0xFFFF)
  s.runCmd h 0x0060 (fun s => !all || s.operator h) (!all) (fun s =>
    if count = 0 ∨ (if all then 21 else 16) < first + count then .bad 6
    else .later s (fun s => s.startReading h 0x0060 (s.counterProbes h first count)))

/-- TELEMETRY. -/
def execTelemetry (h : Hdr) (s : State) : Out :=
  s.runCmd h 0x0061 anyState false (fun s => .later s (fun s => s.startReading h 0x0061 telemetryProbes))

/-- A tile is fenced; a claim on it is abandoned. -/
def State.fence (s : State) (t : TileId) : State := (s.abandon t).modTile t (fun x => { x with fenced := true, fencedAt := some s.now })

/-- FENCE. -/
def execFenceTile (h : Hdr) (x y : Nat) (s : State) : Out :=
  s.runCmd h 0x0062 (fun s => s.opsAdmits h.sess && (tileXY x y).all (fun t => (s.tiles[t]).isFree)) false (fun s => match tileXY x y with
    | none => .bad 6
    | some t => .done (s.fence t) .empty)

/-! ### Errors (21 R354, R357) -/

/-- A receipt's counter rises by `n`, and saturates. -/
def Session.countN (x : Session) (i : Fin 6) (n : Nat) : Session := { x with counts := vmod x.counts i (fun k => min (k + n) 4294967295) }

/-- A read or the scrub finds words of one 2 MiB piece of physical HBM in error. Words in a page that a territory maps count in its session's
receipt (21 R356, R357). -/
def State.hbmErrors (s : State) (page corrected uncorrectable : Nat) : State :=
  let s1 := (s.bumpDev 0 corrected).bumpDev 1 uncorrectable
  (s1.terrs.filter (fun y => y.pages.any (fun p => p.ppn == page))).foldl (fun s y =>
    s.modSession y.sess (fun x => (x.countN 0 corrected).countN 1 uncorrectable)) s1

/-- PATROL_SCRUB: what the scrub finds. With SCRUB = 0 there is no scrub. -/
def execPatrolScrub (page corrected uncorrectable : Nat) (s : State) : Out :=
  if s.dev.scrub = 0 then .next s else .next (s.hbmErrors page corrected uncorrectable)

/-- The oldest ECC error that an access finds: a corrected word of a tile's scratchpad, weight banks or reserved area, or words that a read of
HBM finds. -/
def State.meetError (s : State) : State := match s.errors with
  | [] => s
  | .tile t :: r => ({ s with errors := r }).bump t 10
  | .hbm page corrected uncorrectable :: r => ({ s with errors := r }).hbmErrors page corrected uncorrectable

/-! ### Power and cooling (21 R360 to R362) -/

/-- A step down of the clock, if it is not at its lowest. -/
def State.stepDown (s : State) (i : Fin 32) : State :=
  if 8 < (s.dev.isl[i]).clk then
    (({ s with dev := { s.dev with isl := vmod s.dev.isl i (fun x => { x with clk := x.clk - 1 }) } }).bumpDev 3 1)
  else s

def State.modIsland (s : State) (i : Fin 32) (f : Island → Island) : State := { s with dev := { s.dev with isl := vmod s.dev.isl i f } }

/-- ISLAND_POWER_WINDOW: the powers that an island and the module measured over the window that ends, in sixteenths of a watt. Above MODCAP
every island steps down, once in a window of 17,000 cycles. -/
def execIslandPowerWindow (isl : Fin 32) (watts16 module16 : Nat) (s : State) : Out :=
  let s0 := s.modIsland isl (fun x => { x with watts16 := watts16 })
  let s1 : State := { s0 with dev := { s0.dev with module16 := module16 } }
  let cap := 16 * s.dev.islandcap[isl]
  let win := s.now / 17000
  if 16 * s.dev.modcap < module16 then
    .next (if s.dev.modWin = some win then s1
      else (List.finRange 32).foldl State.stepDown { s1 with dev := { s1.dev with modWin := some win } })
  else if cap < watts16 then .next (s1.stepDown isl)
  else if 10 * watts16 < 9 * cap then .next (s1.modIsland isl (fun x => { x with clk := min 16 (x.clk + 1) }))
  else .next s1

/-- THERMAL_THROTTLE: 105 °C is reached. -/
def execThermalThrottle (isl : Fin 32) (s : State) : Out :=
  if (s.dev.isl[isl]).hot then .next s else .next ((s.modIsland isl (fun x => { x with hot := true })).bumpDev 4 1)

/-- THERMAL_COOLED: 95 °C. -/
def execThermalCooled (isl : Fin 32) (s : State) : Out := .next (s.modIsland isl (fun x => { x with hot := false }))

/-- THERMAL_SHUTDOWN: 115 °C. Every core halts, and the module waits for a reset. -/
def execThermalShutdown (_isl : Fin 32) (s : State) : Out :=
  let s1 := s.bumpDev 4 1
  .next { s1 with dev := { s1.dev with power := .shutdown }, cores := s1.cores.map (fun c => { c with halted := c.sl.isSome }) }

/-- POWER_LOSS: nothing happens until a reset. What the device keeps across a reset is in `rebooted` (17 R321, 20 R347, 21 R359). -/
def execPowerLoss (s : State) : Out := .next { s with dev := { s.dev with power := .off } }

end Sys2Proof.Machine
end

