-- ==== Sys2Proof/Machine/Scalar.lean ====
section
/-! DEFINITION. The scalar instructions: A-word majors 0 to 11 (09 R201 to R206), NOP of either word (09 R200), and LI
(08 R160, 09 R207). None sets a flag (09 R201). -/

namespace Sys2Proof.Machine

/-! ### Shapes and values -/

/-- sd := f sa sb at latency n. -/
def scalarRR (g : Guard) (d a b : Reg) (n : Nat) (f : Word → Word → Word) (s : State) : Out :=
  aluWord g [.scalar a, .scalar b] (wS d (some n)) (.scalar d (f (s.rs a) (s.rs b))) n 0 s

/-- sd := f sa at latency 1. -/
def scalarR (g : Guard) (d a : Reg) (f : Word → Word) (s : State) : Out :=
  aluWord g [.scalar a] (wS d (some 1)) (.scalar d (f (s.rs a))) 1 0 s

/-- The high 64 bits of the signed product (09 R201). -/
def mulHigh (x y : Word) : Word := BitVec.ofInt 64 (x.toInt * y.toInt / 2 ^ 64)

/-- The high 64 bits of the unsigned product (09 R201). -/
def mulHighU (x y : Word) : Word := BitVec.ofNat 64 (x.toNat * y.toNat / 2 ^ 64)

/-- DIV: truncated, -1 for a zero divisor, -2^63 on overflow (09 R202). -/
def divS (x y : Word) : Word :=
  if y = 0 then BitVec.ofInt 64 (-1)
  else if x.toInt = -2 ^ 63 ∧ y.toInt = -1 then BitVec.ofInt 64 (-2 ^ 63)
  else BitVec.ofInt 64 (x.toInt.tdiv y.toInt)

/-- REM: the sign of the dividend; the dividend for a zero divisor, 0 on overflow (09 R202). -/
def remS (x y : Word) : Word :=
  if y = 0 then x
  else if x.toInt = -2 ^ 63 ∧ y.toInt = -1 then 0
  else BitVec.ofInt 64 (x.toInt - x.toInt.tdiv y.toInt * y.toInt)

/-- DIVU (09 R202). -/
def divU (x y : Word) : Word := if y = 0 then BitVec.allOnes 64 else BitVec.ofNat 64 (x.toNat / y.toNat)

/-- REMU (09 R202). -/
def remU (x y : Word) : Word := if y = 0 then x else BitVec.ofNat 64 (x.toNat % y.toNat)

/-- A shift count: bits 5:0 (09 R201). -/
def shAmt (y : Word) : Nat := y.toNat % 64

/-- Leading zero bits, 0 to 64. -/
def leadZeros (x : Word) : Nat := if x = 0 then 64 else 63 - Nat.log2 x.toNat

/-- Trailing zero bits, 0 to 64. -/
def trailZeros (x : Word) : Nat := ((List.range 64).find? (fun i => x.getLsbD i)).getD 64

/-- One bits. -/
def popCount (x : Word) : Nat := ((List.range 64).filter (fun i => x.getLsbD i)).length

/-- Does a condition hold (09 R204)? -/
def condHolds (c : Cond) (x y : Word) : Bool := match c with
  | .eq => x == y
  | .ne => x != y
  | .lt => x.slt y
  | .le => x.sle y
  | .gt => y.slt x
  | .ge => y.sle x
  | .ltu => x.ult y
  | .leu => x.ule y
  | .gtu => y.ult x
  | .geu => y.ule x

/-- A peer address at the caller's own frame id (09 R206). -/
def tadrVal (x : Word) (imm : BitVec 12) : Word :=
  (0x2#64 <<< 60) ||| ((x &&& 0x3FF#64) <<< 50) ||| (0xFF#64 <<< 42) ||| imm.setWidth 64

/-! ### NOP -/

/-- A bundle's NOP changes no state (09 R200); the word may carry the switch marker. -/
def execNopC (m : Bool) (s : State) : Out := cWord m [] [] (fun s => .ok s) s

/-- The A-word NOP changes no state, whatever its guard (09 R200). -/
def execNopA (_g : Guard) (s : State) : Out := finish s (.ok s)

/-! ### Register-register forms (09 R201, R202) -/

def execAdd (g : Guard) (d a b : Reg) (s : State) : Out := scalarRR g d a b 1 (· + ·) s
def execSub (g : Guard) (d a b : Reg) (s : State) : Out := scalarRR g d a b 1 (· - ·) s
def execMul (g : Guard) (d a b : Reg) (s : State) : Out := scalarRR g d a b 3 (· * ·) s
def execMulh (g : Guard) (d a b : Reg) (s : State) : Out := scalarRR g d a b 3 mulHigh s
def execMulhu (g : Guard) (d a b : Reg) (s : State) : Out := scalarRR g d a b 3 mulHighU s
def execDiv (g : Guard) (d a b : Reg) (s : State) : Out := scalarRR g d a b 20 divS s
def execDivu (g : Guard) (d a b : Reg) (s : State) : Out := scalarRR g d a b 20 divU s
def execRem (g : Guard) (d a b : Reg) (s : State) : Out := scalarRR g d a b 20 remS s
def execRemu (g : Guard) (d a b : Reg) (s : State) : Out := scalarRR g d a b 20 remU s
def execAnd (g : Guard) (d a b : Reg) (s : State) : Out := scalarRR g d a b 1 (· &&& ·) s
def execOr (g : Guard) (d a b : Reg) (s : State) : Out := scalarRR g d a b 1 (· ||| ·) s
def execXor (g : Guard) (d a b : Reg) (s : State) : Out := scalarRR g d a b 1 (· ^^^ ·) s
def execAndn (g : Guard) (d a b : Reg) (s : State) : Out := scalarRR g d a b 1 (fun x y => x &&& ~~~y) s
def execShl (g : Guard) (d a b : Reg) (s : State) : Out := scalarRR g d a b 1 (fun x y => x <<< shAmt y) s
def execShr (g : Guard) (d a b : Reg) (s : State) : Out := scalarRR g d a b 1 (fun x y => x >>> shAmt y) s
def execSra (g : Guard) (d a b : Reg) (s : State) : Out := scalarRR g d a b 1 (fun x y => x.sshiftRight (shAmt y)) s
def execRotr (g : Guard) (d a b : Reg) (s : State) : Out := scalarRR g d a b 1 (fun x y => x.rotateRight (shAmt y)) s
def execClz (g : Guard) (d a : Reg) (s : State) : Out := scalarR g d a (fun x => BitVec.ofNat 64 (leadZeros x)) s
def execCtz (g : Guard) (d a : Reg) (s : State) : Out := scalarR g d a (fun x => BitVec.ofNat 64 (trailZeros x)) s
def execPopc (g : Guard) (d a : Reg) (s : State) : Out := scalarR g d a (fun x => BitVec.ofNat 64 (popCount x)) s
def execMin (g : Guard) (d a b : Reg) (s : State) : Out := scalarRR g d a b 1 (fun x y => if y.slt x then y else x) s
def execMax (g : Guard) (d a b : Reg) (s : State) : Out := scalarRR g d a b 1 (fun x y => if x.slt y then y else x) s
def execMinu (g : Guard) (d a b : Reg) (s : State) : Out := scalarRR g d a b 1 (fun x y => if y.ult x then y else x) s
def execMaxu (g : Guard) (d a b : Reg) (s : State) : Out := scalarRR g d a b 1 (fun x y => if x.ult y then y else x) s
def execMov (g : Guard) (d a : Reg) (s : State) : Out := scalarR g d a (fun x => x) s
def execExtb (g : Guard) (d a : Reg) (s : State) : Out := scalarR g d a (fun x => (x.setWidth 8).signExtend 64) s
def execExth (g : Guard) (d a : Reg) (s : State) : Out := scalarR g d a (fun x => (x.setWidth 16).signExtend 64) s
def execLea (g : Guard) (d a b : Reg) (k : Fin 4) (s : State) : Out :=
  scalarRR g d a b 1 (fun x y => x + (y <<< k.val)) s

/-! ### Immediate forms (09 R203) -/

def execAddi (g : Guard) (d : Reg) (imm : BitVec 16) (s : State) : Out :=
  scalarR g d d (fun x => x + imm.signExtend 64) s
def execAndi (g : Guard) (d : Reg) (imm : BitVec 16) (s : State) : Out :=
  scalarR g d d (fun x => x &&& imm.setWidth 64) s
def execOri (g : Guard) (d : Reg) (imm : BitVec 16) (s : State) : Out :=
  scalarR g d d (fun x => x ||| imm.setWidth 64) s
def execXori (g : Guard) (d : Reg) (imm : BitVec 16) (s : State) : Out :=
  scalarR g d d (fun x => x ^^^ imm.setWidth 64) s
/-- MOVI reads no register (08 R158). -/
def execMovi (g : Guard) (d : Reg) (imm : BitVec 16) (s : State) : Out :=
  aluWord g [] (wS d (some 1)) (.scalar d (imm.signExtend 64)) 1 0 s
def execShli (g : Guard) (d a : Reg) (sh : BitVec 6) (s : State) : Out := scalarR g d a (fun x => x <<< sh.toNat) s
def execShri (g : Guard) (d a : Reg) (sh : BitVec 6) (s : State) : Out := scalarR g d a (fun x => x >>> sh.toNat) s
def execSrai (g : Guard) (d a : Reg) (sh : BitVec 6) (s : State) : Out :=
  scalarR g d a (fun x => x.sshiftRight sh.toNat) s

/-! ### Predicates (09 R204, R205) -/

def execCmp (g : Guard) (pd : PReg) (a b : Reg) (cond : Cond) (s : State) : Out :=
  aluWord g [.scalar a, .scalar b] (wP pd (some 1)) (.pred pd (condHolds cond (s.rs a) (s.rs b))) 1 0 s
def execCmpi (g : Guard) (pd : PReg) (a : Reg) (cond : Cond) (imm : BitVec 10) (s : State) : Out :=
  aluWord g [.scalar a] (wP pd (some 1)) (.pred pd (condHolds cond (s.rs a) (imm.signExtend 64))) 1 0 s

/-- pd := f pa pb at latency 1. -/
def predPP (g : Guard) (pd pa pb : PReg) (f : Bool → Bool → Bool) (s : State) : Out :=
  aluWord g [.pred pa, .pred pb] (wP pd (some 1)) (.pred pd (f (s.rp pa) (s.rp pb))) 1 0 s

def execPand (g : Guard) (pd pa pb : PReg) (s : State) : Out := predPP g pd pa pb (· && ·) s
def execPor (g : Guard) (pd pa pb : PReg) (s : State) : Out := predPP g pd pa pb (· || ·) s
def execPxor (g : Guard) (pd pa pb : PReg) (s : State) : Out := predPP g pd pa pb (· != ·) s
def execPnot (g : Guard) (pd pa : PReg) (s : State) : Out :=
  aluWord g [.pred pa] (wP pd (some 1)) (.pred pd (!s.rp pa)) 1 0 s
def execSel (g : Guard) (d a b : Reg) (pc : PReg) (s : State) : Out :=
  aluWord g [.scalar a, .scalar b, .pred pc] (wS d (some 1)) (.scalar d (if s.rp pc then s.rs a else s.rs b)) 1 0 s

/-! ### Peer addresses and constants (09 R206, R207) -/

def execTadr (g : Guard) (d a : Reg) (imm : BitVec 12) (s : State) : Out := scalarR g d a (fun x => tadrVal x imm) s

/-- The value of shape 0 (08 R160). -/
def liSignedVal (p : BitVec 51) : Word := p.signExtend 64

/-- The value of shape 1, a `space.hbm` constant (08 R160). -/
def liHbmVal (p : BitVec 48) : Word := (0x4#64 <<< 60) ||| p.setWidth 64

/-- The value of shape 2, a `space.peer` constant (08 R160). -/
def liPeerVal (p : BitVec 40) : Word :=
  (0x2#64 <<< 60) ||| ((p.extractLsb' 22 18).setWidth 64 <<< 42) ||| (p.extractLsb' 0 22).setWidth 64

/-- The value of shape 3 (08 R160). -/
def liShiftedVal (p : BitVec 51) : Word := p.signExtend 64 <<< 13

def execLiSigned (m : Bool) (d : Reg) (p : BitVec 51) (s : State) : Out :=
  cResult m [] (wS d (some 1)) (fun _ => .scalar d (liSignedVal p)) 1 s
def execLiHbm (m : Bool) (d : Reg) (p : BitVec 48) (s : State) : Out :=
  cResult m [] (wS d (some 1)) (fun _ => .scalar d (liHbmVal p)) 1 s
def execLiPeer (m : Bool) (d : Reg) (p : BitVec 40) (s : State) : Out :=
  cResult m [] (wS d (some 1)) (fun _ => .scalar d (liPeerVal p)) 1 s
def execLiShifted (m : Bool) (d : Reg) (p : BitVec 51) (s : State) : Out :=
  cResult m [] (wS d (some 1)) (fun _ => .scalar d (liShiftedVal p)) 1 s

end Sys2Proof.Machine
end

