-- ==== Sys2Proof/Machine/Vector.lean ====
section
/-! DEFINITION. The vector instructions (10 R208 to R228): A-word majors 16 to 28 and 48. -/

namespace Sys2Proof.Machine

/-! ### Elements (10 R208) -/

/-- What a type code's elements are: a float format, or an integer with its sign and width (05 R103, R106). -/
inductive ElemKind
  | flt (f : FFmt)
  | int (signed : Bool) (w : Nat)
  deriving DecidableEq, Repr

def elemKind : ETy → ElemKind
  | .f32 => .flt fF32
  | .f16 => .flt fF16
  | .bf16 => .flt fBF16
  | .e4m3 => .flt fE4M3
  | .e5m2 => .flt fE5M2
  | .i4 => .int true 4
  | .i8 => .int true 8
  | .i16 => .int true 16
  | .i32 => .int true 32
  | .n8 => .int false 8
  | .n16 => .int false 16
  | .n32 => .int false 32

/-- The element width in bits. -/
def elemWidth (t : ETy) : Nat := match elemKind t with
  | .flt f => f.width
  | .int _ w => w

/-- Elem(x, j, w). -/
def elem (x : Vec) (w j : Nat) : Nat := x.toNat / 2 ^ (w * j) % 2 ^ w

/-- The elements of a register, element 0 first. -/
def elems (x : Vec) (w : Nat) : List Nat := (List.range (1024 / w)).map (elem x w)

/-- A register from its elements; the elements above those named are 0 (10 R209). -/
def ofElems (w : Nat) (es : List Nat) : Vec := BitVec.ofNat 1024 (es.foldr (fun x acc => x % 2 ^ w + 2 ^ w * acc) 0)

/-- A register's value and flags from its elements' (10 R209: flags are ORed over all elements). -/
def gather (w : Nat) (es : List FRes) : Vec × BitVec 6 :=
  (ofElems w (es.map (·.1)), es.foldl (fun a r => a ||| r.2) 0)

/-! ### Shapes -/

/-- A vector A-word: vd takes the value at latency `n`, with its flags. -/
def vecWord (g : Guard) (reads : List RegId) (d : Reg) (n : Nat) (r : Vec × BitVec 6) (s : State) : Out :=
  aluWord g reads (wV d (some n)) (.vector d r.1) n r.2 s

/-- vd := f x y on each element of `w` bits. -/
def vecMap2 (g : Guard) (d a b : Reg) (w n : Nat) (f : Nat → Nat → FRes) (s : State) : Out :=
  vecWord g [.vector a, .vector b] d n (gather w (List.zipWith f (elems (s.rv a) w) (elems (s.rv b) w))) s

/-- vd := f x on each element of `w` bits. -/
def vecMap1 (g : Guard) (d a : Reg) (w n : Nat) (f : Nat → FRes) (s : State) : Out :=
  vecWord g [.vector a] d n (gather w ((elems (s.rv a) w).map f)) s

/-- An element operation by type: on floats with flags, on integers of width `w` read by the type's sign, wrapping. -/
def elemOp2 (t : ETy) (ff : FFmt → Nat → Nat → FRes) (fi : Int → Int → Int) (x y : Nat) : FRes :=
  match elemKind t with
  | .flt f => ff f x y
  | .int sg w => (bitsOf w (fi (intOf sg w x) (intOf sg w y)), 0)

def elemOp1 (t : ETy) (ff : FFmt → Nat → FRes) (fi : Int → Int) (x : Nat) : FRes :=
  match elemKind t with
  | .flt f => ff f x
  | .int sg w => (bitsOf w (fi (intOf sg w x)), 0)

/-- A one-operand float function; integer types are not accepted (10 R210) and keep their element. -/
def elemFn (t : ETy) (ff : FFmt → Nat → FRes) (x : Nat) : FRes := elemOp1 t ff id x

/-! ### Arithmetic (10 R211) -/

def execVadd (g : Guard) (d a b : Reg) (ty : ETy) (s : State) : Out :=
  vecMap2 g d a b (elemWidth ty) 4 (elemOp2 ty FFmt.add (· + ·)) s
def execVsub (g : Guard) (d a b : Reg) (ty : ETy) (s : State) : Out :=
  vecMap2 g d a b (elemWidth ty) 4 (elemOp2 ty FFmt.sub (· - ·)) s
def execVmul (g : Guard) (d a b : Reg) (ty : ETy) (s : State) : Out :=
  vecMap2 g d a b (elemWidth ty) 4 (elemOp2 ty FFmt.mul (· * ·)) s
def execVdiv (g : Guard) (d a b : Reg) (ty : ETy) (s : State) : Out :=
  vecMap2 g d a b (elemWidth ty) 16 (elemOp2 ty FFmt.div (fun x _ => x)) s
def execVmin (g : Guard) (d a b : Reg) (ty : ETy) (s : State) : Out :=
  vecMap2 g d a b (elemWidth ty) 4 (elemOp2 ty (fun f => f.minmax false false) min) s
def execVmax (g : Guard) (d a b : Reg) (ty : ETy) (s : State) : Out :=
  vecMap2 g d a b (elemWidth ty) 4 (elemOp2 ty (fun f => f.minmax true false) max) s
def execVminn (g : Guard) (d a b : Reg) (ty : ETy) (s : State) : Out :=
  vecMap2 g d a b (elemWidth ty) 4 (elemOp2 ty (fun f => f.minmax false true) min) s
def execVmaxn (g : Guard) (d a b : Reg) (ty : ETy) (s : State) : Out :=
  vecMap2 g d a b (elemWidth ty) 4 (elemOp2 ty (fun f => f.minmax true true) max) s

/-! ### One-operand functions (10 R213, R214) -/

def execVsqrt (g : Guard) (d a : Reg) (ty : ETy) (s : State) : Out :=
  vecMap1 g d a (elemWidth ty) 16 (elemFn ty FFmt.sqrt) s
def execVrcp (g : Guard) (d a : Reg) (ty : ETy) (s : State) : Out :=
  vecMap1 g d a (elemWidth ty) 8 (elemFn ty FFmt.rcp) s
def execVrsq (g : Guard) (d a : Reg) (ty : ETy) (s : State) : Out :=
  vecMap1 g d a (elemWidth ty) 8 (elemFn ty FFmt.rsq) s
def execVexp2 (g : Guard) (d a : Reg) (ty : ETy) (s : State) : Out :=
  vecMap1 g d a (elemWidth ty) 8 (elemFn ty FFmt.exp2) s
def execVlog2 (g : Guard) (d a : Reg) (ty : ETy) (s : State) : Out :=
  vecMap1 g d a (elemWidth ty) 8 (elemFn ty FFmt.log2) s

/-- Clears the sign bit. -/
def FFmt.clearSign (f : FFmt) (x : Nat) : FRes := (x % f.signBit, 0)

/-- Inverts the sign bit. -/
def FFmt.flipSign (f : FFmt) (x : Nat) : FRes := ((x + f.signBit) % (2 * f.signBit), 0)

def execVabs (g : Guard) (d a : Reg) (ty : ETy) (s : State) : Out :=
  vecMap1 g d a (elemWidth ty) 2 (elemOp1 ty FFmt.clearSign (fun x => if x < 0 then -x else x)) s
def execVneg (g : Guard) (d a : Reg) (ty : ETy) (s : State) : Out :=
  vecMap1 g d a (elemWidth ty) 2 (elemOp1 ty FFmt.flipSign (fun x => -x)) s

/-! ### Bitwise operations and shifts (10 R217) -/

/-- vd := f va vb over all 1,024 bits at latency 2. -/
def vecBits (g : Guard) (d a b : Reg) (f : Vec → Vec → Vec) (s : State) : Out :=
  vecWord g [.vector a, .vector b] d 2 (f (s.rv a) (s.rv b), 0) s

def execVand (g : Guard) (d a b : Reg) (s : State) : Out := vecBits g d a b (· &&& ·) s
def execVor (g : Guard) (d a b : Reg) (s : State) : Out := vecBits g d a b (· ||| ·) s
def execVxor (g : Guard) (d a b : Reg) (s : State) : Out := vecBits g d a b (· ^^^ ·) s
def execVnot (g : Guard) (d a : Reg) (s : State) : Out := vecWord g [.vector a] d 2 (~~~(s.rv a), 0) s

def execVshl (g : Guard) (d a b : Reg) (ty : ETy) (s : State) : Out :=
  let w := elemWidth ty
  vecMap2 g d a b w 2 (fun x y => (x * 2 ^ (y % w) % 2 ^ w, 0)) s
def execVshr (g : Guard) (d a b : Reg) (ty : ETy) (s : State) : Out :=
  let w := elemWidth ty
  vecMap2 g d a b w 2 (fun x y => (x / 2 ^ (y % w), 0)) s
def execVsra (g : Guard) (d a b : Reg) (ty : ETy) (s : State) : Out :=
  let w := elemWidth ty
  vecMap2 g d a b w 2 (fun x y => (bitsOf w (sext x w / 2 ^ (y % w)), 0)) s

/-! ### Fused multiply-add (10 R212), compare (R215), select (R216) -/

def fmtOf : FTy → FFmt
  | .f32 => fF32
  | .f16 => fF16
  | .bf16 => fBF16

/-- The three forms: round(± x × y ± z). -/
def vecFma (g : Guard) (d a b c : Reg) (f : FTy) (negProd negAdd : Bool) (s : State) : Out :=
  let fm := fmtOf f
  let w := fm.width
  let es := List.zipWith (fun (p : Nat × Nat) z => fm.fma negProd negAdd p.1 p.2 z)
    ((elems (s.rv a) w).zip (elems (s.rv b) w)) (elems (s.rv c) w)
  vecWord g [.vector a, .vector b, .vector c] d 4 (gather w es) s

def execVfma (g : Guard) (d a b c : Reg) (f : FTy) (s : State) : Out := vecFma g d a b c f false false s
def execVfms (g : Guard) (d a b c : Reg) (f : FTy) (s : State) : Out := vecFma g d a b c f false true s
def execVfnma (g : Guard) (d a b c : Reg) (f : FTy) (s : State) : Out := vecFma g d a b c f true false s

/-- One element of VCMP: all ones or 0. -/
def cmpElem (ty : ETy) (c : VCond) (x y : Nat) : FRes :=
  let ones := 2 ^ elemWidth ty - 1
  match elemKind ty with
  | .flt f => let r := f.cmp c x y; (if r.1 then ones else 0, r.2)
  | .int sg w => (if vcondInt c (intOf sg w x) (intOf sg w y) then ones else 0, 0)

def execVcmp (g : Guard) (d a b : Reg) (ty : ETy) (cond : VCond) (s : State) : Out :=
  vecMap2 g d a b (elemWidth ty) 2 (cmpElem ty cond) s

def execVsel (g : Guard) (d a b c : Reg) (s : State) : Out :=
  vecWord g [.vector a, .vector b, .vector c] d 2
    ((s.rv c &&& s.rv a) ||| (~~~(s.rv c) &&& s.rv b), 0) s

/-! ### Conversion (10 R218 to R220) -/

/-- Conv of one element; the mode may depend on the destination element (stochastic rounding). -/
def convElem (dt st : ETy) (mode : RMode) (sat : Bool) (x : Nat) : FRes :=
  match elemKind st, elemKind dt with
  | .flt fs, .flt fd => cvtFF fs fd mode sat x
  | .flt fs, .int sg w => cvtFI fs sg w mode x
  | .int sg w, .flt fd => cvtIF fd sg w mode sat x
  | .int ss sw, .int ds dw => cvtII ss sw ds dw sat x

/-- The conversion of K = 1024 / max(sw, dw) elements; the rest of the result is 0 (10 R218). -/
def convVec (dt st : ETy) (mode : Nat → RMode) (sat : Bool) (x : Vec) : Vec × BitVec 6 :=
  let sw := elemWidth st
  let dw := elemWidth dt
  let k := 1024 / max sw dw
  gather dw ((List.range k).map (fun j => convElem dt st (mode j) sat (elem x sw j)))

def rmodeOf : Rm → RMode
  | .rne => .rne
  | .rz => .rz
  | .ru => .ru
  | .rd => .rd

def execVcvt (g : Guard) (d a : Reg) (dt st : ETy) (rm : Rm) (sat : Bool) (s : State) : Out :=
  vecWord g [.vector a] d 3 (convVec dt st (fun _ => rmodeOf rm) sat (s.rv a)) s

def etyOfSr : SrTy → ETy
  | .f16 => .f16
  | .bf16 => .bf16
  | .e4m3 => .e4m3
  | .e5m2 => .e5m2

def etyOfF : FTy → ETy
  | .f32 => .f32
  | .f16 => .f16
  | .bf16 => .bf16

/-- The draw of destination element j: lane j div (32 / dw), index j mod (32 / dw) (10 R220). -/
def srMode (seed : BitVec 32) (dw j : Nat) : RMode := .sr (srDraw seed (j / (32 / dw)) (j % (32 / dw)))

def execVcvtSr (g : Guard) (d a b : Reg) (dt : SrTy) (st : FTy) (sat : Bool) (s : State) : Out :=
  let t := etyOfSr dt
  vecWord g [.vector a, .scalar b] d 3
    (convVec t (etyOfF st) (srMode ((s.rs b).setWidth 32) (elemWidth t)) sat (s.rv a)) s

/-! ### Saturation, clamping, packing (10 R221 to R224) -/

/-- Clamps to the range of a `k`-bit integer, at the element's own width (10 R221). -/
def vsatElem (ty : ETy) (k : Nat) (x : Nat) : FRes :=
  match elemKind ty with
  | .flt _ => (x, 0)
  | .int sg w =>
    let c := satInt (intOf sg w x) (intLo sg k) (intHi sg k)
    (bitsOf w c.1, if c.2 then flagSAT else 0)

def execVsat (g : Guard) (d a : Reg) (k : Fin 32) (ty : ETy) (s : State) : Out :=
  vecMap1 g d a (elemWidth ty) 2 (vsatElem ty (k.val + 1)) s

/-- MIN(MAX(x, −y), y) (10 R222). -/
def vclampElem (ty : ETy) (x y : Nat) : FRes :=
  match elemKind ty with
  | .flt f =>
    let lo := (f.flipSign y).1
    let r := f.minmax true false x lo
    let q := f.minmax false false r.1 y
    (q.1, r.2 ||| q.2)
  | .int sg w =>
    let xi := intOf sg w x
    let yi := intOf sg w y
    let lo := intOf sg w (bitsOf w (-yi))
    let r := min (max xi lo) yi
    (bitsOf w r, if r = xi then 0 else flagSAT)

def execVclamp (g : Guard) (d a b : Reg) (ty : ETy) (s : State) : Out :=
  vecMap2 g d a b (elemWidth ty) 2 (vclampElem ty) s

/-- The low halves of va's elements, then of vb's (10 R223). -/
def execVpack (g : Guard) (d a b : Reg) (ty : ETy) (s : State) : Out :=
  let w := elemWidth ty
  vecWord g [.vector a, .vector b] d 3
    (ofElems w ((elems (s.rv a) (2 * w) ++ elems (s.rv b) (2 * w)).map (fun x => x % 2 ^ w)), 0) s

/-- Widens half of the elements (10 R224). -/
def execVunpk (g : Guard) (d a : Reg) (h : Bool) (ty : ETy) (s : State) : Out :=
  let w := elemWidth ty
  let half := 1024 / w / 2
  let sg := match elemKind ty with
    | .flt _ => false
    | .int sg _ => sg
  let es := (List.range half).map (fun j =>
    bitsOf (2 * w) (intOf sg w (elem (s.rv a) w ((if h then half else 0) + j))))
  vecWord g [.vector a] d 3 (ofElems (2 * w) es, 0) s

/-! ### Reductions (05 R116, 10 R225) -/

/-- One level of the pairwise tree: results with the flags so far. -/
def redLevel (op : Nat → Nat → FRes) : List Nat → List FRes
  | x :: y :: r => op x y :: redLevel op r
  | _ => []

/-- `n` levels of the tree over a list, with flags ORed. -/
def redTree (op : Nat → Nat → FRes) : Nat → List Nat → BitVec 6 → FRes
  | 0, xs, fl => (xs.headD 0, fl)
  | n + 1, xs, fl =>
    let l := redLevel op xs
    redTree op n (l.map (·.1)) (l.foldl (fun a r => a ||| r.2) fl)

/-- The identity of an excluded lane: float, signed and unsigned (05 R116). -/
inductive RedOp | add | max | min
  deriving DecidableEq, Repr

def redIdentity (o : RedOp) (ty : ETy) : Nat := match elemKind ty, o with
  | .flt f, .add => f.withSign true 0
  | .flt f, .max => f.withSign true f.infMag
  | .flt f, .min => f.infMag
  | .int _ _, .add => 0
  | .int sg w, .max => bitsOf w (intLo sg w)
  | .int sg w, .min => bitsOf w (intHi sg w)

def redStep (o : RedOp) (ty : ETy) : Nat → Nat → FRes := match o with
  | .add => elemOp2 ty FFmt.add (· + ·)
  | .max => elemOp2 ty (fun f => f.minmax true false) max
  | .min => elemOp2 ty (fun f => f.minmax false false) min

/-- The reduction of lanes 0 to n − 1, written to all 32 lanes. -/
def vecReduce (o : RedOp) (g : Guard) (d a : Reg) (n : Fin 32) (ty : ETy) (s : State) : Out :=
  let xs := (List.range 32).map (fun i => if i ≤ n.val then elem (s.rv a) 32 i else redIdentity o ty)
  let r := redTree (redStep o ty) 5 xs 0
  vecWord g [.vector a] d 6 (ofElems 32 (List.replicate 32 r.1), r.2) s

def execVredadd (g : Guard) (d a : Reg) (n : Fin 32) (ty : ETy) (s : State) : Out := vecReduce .add g d a n ty s
def execVredmax (g : Guard) (d a : Reg) (n : Fin 32) (ty : ETy) (s : State) : Out := vecReduce .max g d a n ty s
def execVredmin (g : Guard) (d a : Reg) (n : Fin 32) (ty : ETy) (s : State) : Out := vecReduce .min g d a n ty s

/-! ### Lane moves (10 R226) -/

def execVperm (g : Guard) (d a b : Reg) (ty : ETy) (s : State) : Out :=
  let w := elemWidth ty
  vecWord g [.vector a, .vector b] d 3
    (ofElems w ((elems (s.rv b) w).map (fun i => elem (s.rv a) w (i % (1024 / w)))), 0) s

def execVbcast (g : Guard) (d a : Reg) (ty : ETy) (s : State) : Out :=
  let w := elemWidth ty
  vecWord g [.scalar a] d 2 (ofElems w (List.replicate (1024 / w) ((s.rs a).toNat % 2 ^ w)), 0) s

def execVslide (g : Guard) (d a b : Reg) (ty : ETy) (s : State) : Out :=
  let w := elemWidth ty
  let k := (s.rs b).toInt
  vecWord g [.vector a, .scalar b] d 3
    (ofElems w ((List.range (1024 / w)).map (fun (j : Nat) =>
      let i := (j : Int) + k
      if 0 ≤ i ∧ i < 1024 / w then elem (s.rv a) w i.toNat else 0)), 0) s

def execViota (g : Guard) (d : Reg) (ty : ETy) (s : State) : Out :=
  let w := elemWidth ty
  vecWord g [] d 2 (ofElems w (List.range (1024 / w)), 0) s

/-- VMOVS reads vd as a source (10 R226). -/
def execVmovs (g : Guard) (d a b : Reg) (ty : ETy) (s : State) : Out :=
  let w := elemWidth ty
  let i := (s.rs b).toNat % (1024 / w)
  vecWord g [.vector d, .scalar a, .scalar b] d 2
    (ofElems w ((elems (s.rv d) w).set i ((s.rs a).toNat % 2 ^ w)), 0) s

/-- One element, sign-extended for i codes and zero-extended for the others (10 R226). -/
def extVal (ty : ETy) (x : Nat) : Word := match elemKind ty with
  | .int true w => wordOfInt (sext x w)
  | _ => BitVec.ofNat 64 x

def execVext (g : Guard) (d a b : Reg) (ty : ETy) (s : State) : Out :=
  let w := elemWidth ty
  aluWord g [.vector a, .scalar b] (wS d (some 2))
    (.scalar d (extVal ty (elem (s.rv a) w ((s.rs b).toNat % (1024 / w))))) 2 0 s

/-! ### Microscaling blocks (10 R227, R228) -/

/-- The element format a type code names (10 R210). -/
def mxFmtOf (ty : ETy) : MxFmt := match elemKind ty with
  | .flt f => some f
  | .int _ _ => none

def execVqmx (g : Guard) (d a : Reg) (ty : ETy) (s : State) : Out :=
  let r := mxQuant (mxFmtOf ty) ((elems (s.rv a) 32).map fF32.decode)
  vecWord g [.vector a] d 6 (ofElems 8 (r.1 ++ [r.2.1]), r.2.2) s

def execVdqmx (g : Guard) (d a : Reg) (ty : ETy) (s : State) : Out :=
  let scale := elem (s.rv a) 8 32
  vecWord g [.vector a] d 6
    (gather 32 ((List.range 32).map (fun i => mxDecode (mxFmtOf ty) scale (elem (s.rv a) 8 i)))) s

end Sys2Proof.Machine
end

