-- ==== Sys2Proof/Machine/Dispatch.lean ====
section
/-! DEFINITION. The meaning of every instruction and event, one arm for each constructor. -/

namespace Sys2Proof.Machine

def exec (i : Instr) (s : State) : Host.Outcome State Fault Refusal :=
  match i with
  | .nopC m => Sys2Proof.Machine.execNopC m s
  | .ret m => Sys2Proof.Machine.execRet m s
  | .rett m => Sys2Proof.Machine.execRett m s
  | .upret m => Sys2Proof.Machine.execUpret m s
  | .exit m => Sys2Proof.Machine.execExit m s
  | .yld m => Sys2Proof.Machine.execYld m s
  | .trap m imm => Sys2Proof.Machine.execTrap m imm s
  | .bkpt m imm => Sys2Proof.Machine.execBkpt m imm s
  | .fence m sc => Sys2Proof.Machine.execFence m sc s
  | .fencesc m sc => Sys2Proof.Machine.execFencesc m sc s
  | .br m disp => Sys2Proof.Machine.execBr m disp s
  | .brp m n p disp => Sys2Proof.Machine.execBrp m n p disp s
  | .call m disp => Sys2Proof.Machine.execCall m disp s
  | .detach m disp => Sys2Proof.Machine.execDetach m disp s
  | .attach m disp => Sys2Proof.Machine.execAttach m disp s
  | .loop m lvl count fin => Sys2Proof.Machine.execLoop m lvl count fin s
  | .loopr m lvl a fin => Sys2Proof.Machine.execLoopr m lvl a fin s
  | .jmp m a => Sys2Proof.Machine.execJmp m a s
  | .callr m a => Sys2Proof.Machine.execCallr m a s
  | .mvtl m lp a => Sys2Proof.Machine.execMvtl m lp a s
  | .mvfl m d lp => Sys2Proof.Machine.execMvfl m d lp s
  | .mfs m d r => Sys2Proof.Machine.execMfs m d r s
  | .mts m r a => Sys2Proof.Machine.execMts m r a s
  | .disc m d n => Sys2Proof.Machine.execDisc m d n s
  | .cycle m d => Sys2Proof.Machine.execCycle m d s
  | .seal m a b => Sys2Proof.Machine.execSeal m a b s
  | .spawn m d a => Sys2Proof.Machine.execSpawn m d a s
  | .ld m d a sz disp => Sys2Proof.Machine.execLd m d a sz disp s
  | .st m d a sz disp => Sys2Proof.Machine.execSt m d a sz disp s
  | .lda m d a sz sc disp => Sys2Proof.Machine.execLda m d a sz sc disp s
  | .stl m d a sz sc disp => Sys2Proof.Machine.execStl m d a sz sc disp s
  | .ldp m d a sz disp => Sys2Proof.Machine.execLdp m d a sz disp s
  | .stp m d a sz disp => Sys2Proof.Machine.execStp m d a sz disp s
  | .vld m d a disp => Sys2Proof.Machine.execVld m d a disp s
  | .vst m d a disp => Sys2Proof.Machine.execVst m d a disp s
  | .vldp m d a disp => Sys2Proof.Machine.execVldp m d a disp s
  | .vstp m d a disp => Sys2Proof.Machine.execVstp m d a disp s
  | .vlds m d a b sz => Sys2Proof.Machine.execVlds m d a b sz s
  | .vsts m d a b sz => Sys2Proof.Machine.execVsts m d a b sz s
  | .vgath m d a b sz => Sys2Proof.Machine.execVgath m d a b sz s
  | .vscat m d a b sz => Sys2Proof.Machine.execVscat m d a b sz s
  | .atom m d a b op ty => Sys2Proof.Machine.execAtom m d a b op ty s
  | .atomp m d a b op ty => Sys2Proof.Machine.execAtomp m d a b op ty s
  | .bar m id => Sys2Proof.Machine.execBar m id s
  | .barq m d id => Sys2Proof.Machine.execBarq m d id s
  | .vote m d a op => Sys2Proof.Machine.execVote m d a op s
  | .rsub m a ring => Sys2Proof.Machine.execRsub m a ring s
  | .rget m d ring => Sys2Proof.Machine.execRget m d ring s
  | .rput m ring => Sys2Proof.Machine.execRput m ring s
  | .rrel m ring => Sys2Proof.Machine.execRrel m ring s
  | .barcfg m id x0 y0 x1 y1 cnt => Sys2Proof.Machine.execBarcfg m id x0 y0 x1 y1 cnt s
  | .msend m a b => Sys2Proof.Machine.execMsend m a b s
  | .mrecv m d a b => Sys2Proof.Machine.execMrecv m d a b s
  | .mprobe m d b => Sys2Proof.Machine.execMprobe m d b s
  | .mcast m a => Sys2Proof.Machine.execMcast m a s
  | .mres m a => Sys2Proof.Machine.execMres m a s
  | .nopA g => Sys2Proof.Machine.execNopA g s
  | .add g d a b => Sys2Proof.Machine.execAdd g d a b s
  | .sub g d a b => Sys2Proof.Machine.execSub g d a b s
  | .mul g d a b => Sys2Proof.Machine.execMul g d a b s
  | .mulh g d a b => Sys2Proof.Machine.execMulh g d a b s
  | .mulhu g d a b => Sys2Proof.Machine.execMulhu g d a b s
  | .div g d a b => Sys2Proof.Machine.execDiv g d a b s
  | .divu g d a b => Sys2Proof.Machine.execDivu g d a b s
  | .rem g d a b => Sys2Proof.Machine.execRem g d a b s
  | .remu g d a b => Sys2Proof.Machine.execRemu g d a b s
  | .and g d a b => Sys2Proof.Machine.execAnd g d a b s
  | .or g d a b => Sys2Proof.Machine.execOr g d a b s
  | .xor g d a b => Sys2Proof.Machine.execXor g d a b s
  | .andn g d a b => Sys2Proof.Machine.execAndn g d a b s
  | .shl g d a b => Sys2Proof.Machine.execShl g d a b s
  | .shr g d a b => Sys2Proof.Machine.execShr g d a b s
  | .sra g d a b => Sys2Proof.Machine.execSra g d a b s
  | .rotr g d a b => Sys2Proof.Machine.execRotr g d a b s
  | .clz g d a => Sys2Proof.Machine.execClz g d a s
  | .ctz g d a => Sys2Proof.Machine.execCtz g d a s
  | .popc g d a => Sys2Proof.Machine.execPopc g d a s
  | .min g d a b => Sys2Proof.Machine.execMin g d a b s
  | .max g d a b => Sys2Proof.Machine.execMax g d a b s
  | .minu g d a b => Sys2Proof.Machine.execMinu g d a b s
  | .maxu g d a b => Sys2Proof.Machine.execMaxu g d a b s
  | .mov g d a => Sys2Proof.Machine.execMov g d a s
  | .extb g d a => Sys2Proof.Machine.execExtb g d a s
  | .exth g d a => Sys2Proof.Machine.execExth g d a s
  | .lea g d a b k => Sys2Proof.Machine.execLea g d a b k s
  | .addi g d imm => Sys2Proof.Machine.execAddi g d imm s
  | .andi g d imm => Sys2Proof.Machine.execAndi g d imm s
  | .ori g d imm => Sys2Proof.Machine.execOri g d imm s
  | .xori g d imm => Sys2Proof.Machine.execXori g d imm s
  | .movi g d imm => Sys2Proof.Machine.execMovi g d imm s
  | .shli g d a sh => Sys2Proof.Machine.execShli g d a sh s
  | .shri g d a sh => Sys2Proof.Machine.execShri g d a sh s
  | .srai g d a sh => Sys2Proof.Machine.execSrai g d a sh s
  | .cmp g pd a b cond => Sys2Proof.Machine.execCmp g pd a b cond s
  | .cmpi g pd a cond imm => Sys2Proof.Machine.execCmpi g pd a cond imm s
  | .pand g pd pa pb => Sys2Proof.Machine.execPand g pd pa pb s
  | .por g pd pa pb => Sys2Proof.Machine.execPor g pd pa pb s
  | .pxor g pd pa pb => Sys2Proof.Machine.execPxor g pd pa pb s
  | .pnot g pd pa => Sys2Proof.Machine.execPnot g pd pa s
  | .sel g d a b pc => Sys2Proof.Machine.execSel g d a b pc s
  | .tadr g d a imm => Sys2Proof.Machine.execTadr g d a imm s
  | .vadd g d a b ty => Sys2Proof.Machine.execVadd g d a b ty s
  | .vsub g d a b ty => Sys2Proof.Machine.execVsub g d a b ty s
  | .vmul g d a b ty => Sys2Proof.Machine.execVmul g d a b ty s
  | .vdiv g d a b ty => Sys2Proof.Machine.execVdiv g d a b ty s
  | .vmin g d a b ty => Sys2Proof.Machine.execVmin g d a b ty s
  | .vmax g d a b ty => Sys2Proof.Machine.execVmax g d a b ty s
  | .vminn g d a b ty => Sys2Proof.Machine.execVminn g d a b ty s
  | .vmaxn g d a b ty => Sys2Proof.Machine.execVmaxn g d a b ty s
  | .vsqrt g d a ty => Sys2Proof.Machine.execVsqrt g d a ty s
  | .vrcp g d a ty => Sys2Proof.Machine.execVrcp g d a ty s
  | .vrsq g d a ty => Sys2Proof.Machine.execVrsq g d a ty s
  | .vexp2 g d a ty => Sys2Proof.Machine.execVexp2 g d a ty s
  | .vlog2 g d a ty => Sys2Proof.Machine.execVlog2 g d a ty s
  | .vabs g d a ty => Sys2Proof.Machine.execVabs g d a ty s
  | .vneg g d a ty => Sys2Proof.Machine.execVneg g d a ty s
  | .vand g d a b => Sys2Proof.Machine.execVand g d a b s
  | .vor g d a b => Sys2Proof.Machine.execVor g d a b s
  | .vxor g d a b => Sys2Proof.Machine.execVxor g d a b s
  | .vnot g d a => Sys2Proof.Machine.execVnot g d a s
  | .vshl g d a b ty => Sys2Proof.Machine.execVshl g d a b ty s
  | .vshr g d a b ty => Sys2Proof.Machine.execVshr g d a b ty s
  | .vsra g d a b ty => Sys2Proof.Machine.execVsra g d a b ty s
  | .vfma g d a b c f => Sys2Proof.Machine.execVfma g d a b c f s
  | .vfms g d a b c f => Sys2Proof.Machine.execVfms g d a b c f s
  | .vfnma g d a b c f => Sys2Proof.Machine.execVfnma g d a b c f s
  | .vcmp g d a b ty cond => Sys2Proof.Machine.execVcmp g d a b ty cond s
  | .vsel g d a b c => Sys2Proof.Machine.execVsel g d a b c s
  | .vcvt g d a dt st rm sat => Sys2Proof.Machine.execVcvt g d a dt st rm sat s
  | .vcvtSr g d a b dt st sat => Sys2Proof.Machine.execVcvtSr g d a b dt st sat s
  | .vredadd g d a n ty => Sys2Proof.Machine.execVredadd g d a n ty s
  | .vredmax g d a n ty => Sys2Proof.Machine.execVredmax g d a n ty s
  | .vredmin g d a n ty => Sys2Proof.Machine.execVredmin g d a n ty s
  | .vperm g d a b ty => Sys2Proof.Machine.execVperm g d a b ty s
  | .vbcast g d a ty => Sys2Proof.Machine.execVbcast g d a ty s
  | .vslide g d a b ty => Sys2Proof.Machine.execVslide g d a b ty s
  | .viota g d ty => Sys2Proof.Machine.execViota g d ty s
  | .vmovs g d a b ty => Sys2Proof.Machine.execVmovs g d a b ty s
  | .vext g d a b ty => Sys2Proof.Machine.execVext g d a b ty s
  | .vsat g d a k ty => Sys2Proof.Machine.execVsat g d a k ty s
  | .vclamp g d a b ty => Sys2Proof.Machine.execVclamp g d a b ty s
  | .vpack g d a b ty => Sys2Proof.Machine.execVpack g d a b ty s
  | .vunpk g d a h ty => Sys2Proof.Machine.execVunpk g d a h ty s
  | .vqmx g d a ty => Sys2Proof.Machine.execVqmx g d a ty s
  | .vdqmx g d a ty => Sys2Proof.Machine.execVdqmx g d a ty s
  | .liSigned m d p => Sys2Proof.Machine.execLiSigned m d p s
  | .liHbm m d p => Sys2Proof.Machine.execLiHbm m d p s
  | .liPeer m d p => Sys2Proof.Machine.execLiPeer m d p s
  | .liShifted m d p => Sys2Proof.Machine.execLiShifted m d p s
  | .rwait m ring n limit => Sys2Proof.Machine.execRwait m ring n limit s
  | .copy m a b c tag => Sys2Proof.Machine.execCopy m a b c tag s
  | .copym m a tag => Sys2Proof.Machine.execCopym m a tag s
  | .cwait m mask => Sys2Proof.Machine.execCwait m mask s
  | .cquery m d => Sys2Proof.Machine.execCquery m d s
  | .mlw m a bank fmt => Sys2Proof.Machine.execMlw m a bank fmt s
  | .mfmt m stream fmt => Sys2Proof.Machine.execMfmt m stream fmt s
  | .mmul m a b c acc bank stream f32 m1 => Sys2Proof.Machine.execMmul m a b c acc bank stream f32 m1 s
  | .mout m a cnt => Sys2Proof.Machine.execMout m a cnt s
  | .mdrain m a b acc cnt => Sys2Proof.Machine.execMdrain m a b acc cnt s
  | .mver m d acc => Sys2Proof.Machine.execMver m d acc s
  | .mzero m b acc => Sys2Proof.Machine.execMzero m b acc s
  | .mwait m b acc => Sys2Proof.Machine.execMwait m b acc s
  | .opatch m a cnt => Sys2Proof.Machine.execOpatch m a cnt s
  | .oclk m dom n => Sys2Proof.Machine.execOclk m dom n s
  | .osetY m a cell => Sys2Proof.Machine.execOsetY m a cell s
  | .osetRes m a cell => Sys2Proof.Machine.execOsetRes m a cell s
  | .osetPort m a port => Sys2Proof.Machine.execOsetPort m a port s
  | .osetBind m port ring unb => Sys2Proof.Machine.execOsetBind m port ring unb s
  | .ogetY m d cell => Sys2Proof.Machine.execOgetY m d cell s
  | .ogetRes m d cell => Sys2Proof.Machine.execOgetRes m d cell s
  | .ogetTap m d tap => Sys2Proof.Machine.execOgetTap m d tap s
  | .ogetDom m d dom => Sys2Proof.Machine.execOgetDom m d dom s
  | .ostep m mask => Sys2Proof.Machine.execOstep m mask s
  | .orun m a mask => Sys2Proof.Machine.execOrun m a mask s
  | .ohalt m mask => Sys2Proof.Machine.execOhalt m mask s
  | .osave m a => Sys2Proof.Machine.execOsave m a s
  | .orst m a => Sys2Proof.Machine.execOrst m a s
  | .otap m a tap => Sys2Proof.Machine.execOtap m a tap s
  | .tshape m d a => Sys2Proof.Machine.execTshape m d a s
  | .tmap m d a => Sys2Proof.Machine.execTmap m d a s
  | .tpress m a => Sys2Proof.Machine.execTpress m a s
  | .tanchor m a on => Sys2Proof.Machine.execTanchor m a on s
  | .tfreeze m => Sys2Proof.Machine.execTfreeze m s
  | .tthaw m => Sys2Proof.Machine.execTthaw m s
  | .tevac m => Sys2Proof.Machine.execTevac m s
  | .illegalInstruction w1 => Sys2Proof.Machine.execIllegalInstruction w1 s
  | .emulation w1 => Sys2Proof.Machine.execEmulation w1 s
  | .chainRelease k => Sys2Proof.Machine.execChainRelease k s
  | .sizeGrantReturn k => Sys2Proof.Machine.execSizeGrantReturn k s
  | .handlerTileAnswer k => Sys2Proof.Machine.execHandlerTileAnswer k s
  | .spawnPlacement core => Sys2Proof.Machine.execSpawnPlacement core s
  | .variableLatencyResponse k => Sys2Proof.Machine.execVariableLatencyResponse k s
  | .freezeRelease core => Sys2Proof.Machine.execFreezeRelease core s
  | .asyncTrapEntry core => Sys2Proof.Machine.execAsyncTrapEntry core s
  | .dispatch tile => Sys2Proof.Machine.execDispatch tile s
  | .heldSlicePlacement sl => Sys2Proof.Machine.execHeldSlicePlacement sl s
  | .budgetExhausted sl => Sys2Proof.Machine.execBudgetExhausted sl s
  | .budgetGraceExpiry sl => Sys2Proof.Machine.execBudgetGraceExpiry sl s
  | .sliceLate sl => Sys2Proof.Machine.execSliceLate sl s
  | .sliceCompletion sl => Sys2Proof.Machine.execSliceCompletion sl s
  | .resultRead sl => Sys2Proof.Machine.execResultRead sl s
  | .launchCompletion la => Sys2Proof.Machine.execLaunchCompletion la s
  | .peerRequestArrival k => Sys2Proof.Machine.execPeerRequestArrival k s
  | .hbmAccess k => Sys2Proof.Machine.execHbmAccess k s
  | .refusalArrival k => Sys2Proof.Machine.execRefusalArrival k s
  | .ackArrival k => Sys2Proof.Machine.execAckArrival k s
  | .retransmitTimeout k => Sys2Proof.Machine.execRetransmitTimeout k s
  | .messageArrival k => Sys2Proof.Machine.execMessageArrival k s
  | .chainReservation k => Sys2Proof.Machine.execChainReservation k s
  | .chainAnswer k => Sys2Proof.Machine.execChainAnswer k s
  | .chainPayload k => Sys2Proof.Machine.execChainPayload k s
  | .barrierArrival k => Sys2Proof.Machine.execBarrierArrival k s
  | .barrierRelease k => Sys2Proof.Machine.execBarrierRelease k s
  | .voteContribution k => Sys2Proof.Machine.execVoteContribution k s
  | .copyBeat tile k => Sys2Proof.Machine.execCopyBeat tile k s
  | .copyComplete tile k => Sys2Proof.Machine.execCopyComplete tile k s
  | .copyFailure k => Sys2Proof.Machine.execCopyFailure k s
  | .matrixStart core k => Sys2Proof.Machine.execMatrixStart core k s
  | .matrixComplete core k => Sys2Proof.Machine.execMatrixComplete core k s
  | .streamPush sl ring => Sys2Proof.Machine.execStreamPush sl ring s
  | .streamPull sl ring => Sys2Proof.Machine.execStreamPull sl ring s
  | .loopCountBlockReady sl ring => Sys2Proof.Machine.execLoopCountBlockReady sl ring s
  | .rwaitTimeout core => Sys2Proof.Machine.execRwaitTimeout core s
  | .orreryTick core => Sys2Proof.Machine.execOrreryTick core s
  | .orreryCountEnd core dom => Sys2Proof.Machine.execOrreryCountEnd core dom s
  | .epochEnd => Sys2Proof.Machine.execEpochEnd s
  | .phaseStart tile => Sys2Proof.Machine.execPhaseStart tile s
  | .sizeRequest k => Sys2Proof.Machine.execSizeRequest k s
  | .sizeGrant k => Sys2Proof.Machine.execSizeGrant k s
  | .moveCommit tile => Sys2Proof.Machine.execMoveCommit tile s
  | .evacuationExpiry tile => Sys2Proof.Machine.execEvacuationExpiry tile s
  | .cessionClearing tile => Sys2Proof.Machine.execCessionClearing tile s
  | .cessionJoining tile => Sys2Proof.Machine.execCessionJoining tile s
  | .upcallArrival k => Sys2Proof.Machine.execUpcallArrival k s
  | .freezeMark k => Sys2Proof.Machine.execFreezeMark k s
  | .freezeTakesHold terr => Sys2Proof.Machine.execFreezeTakesHold terr s
  | .thawRequest k => Sys2Proof.Machine.execThawRequest k s
  | .anchorRequest k => Sys2Proof.Machine.execAnchorRequest k s
  | .anchorApply k => Sys2Proof.Machine.execAnchorApply k s
  | .shapeSnapshot k => Sys2Proof.Machine.execShapeSnapshot k s
  | .preemptionHalt core => Sys2Proof.Machine.execPreemptionHalt core s
  | .quiescenceComplete tile => Sys2Proof.Machine.execQuiescenceComplete tile s
  | .replayAbort sl => Sys2Proof.Machine.execReplayAbort sl s
  | .patrolScrub page corrected uncorrectable => Sys2Proof.Machine.execPatrolScrub page corrected uncorrectable s
  | .islandPowerWindow isl watts16 module16 => Sys2Proof.Machine.execIslandPowerWindow isl watts16 module16 s
  | .thermalThrottle isl => Sys2Proof.Machine.execThermalThrottle isl s
  | .thermalCooled isl => Sys2Proof.Machine.execThermalCooled isl s
  | .thermalShutdown isl => Sys2Proof.Machine.execThermalShutdown isl s
  | .deviceReset => Sys2Proof.Machine.execDeviceReset s
  | .powerLoss => Sys2Proof.Machine.execPowerLoss s
  | .spdmSessionEnd sess => Sys2Proof.Machine.execSpdmSessionEnd sess s
  | .linkLoss k => Sys2Proof.Machine.execLinkLoss k s
  | .parallaxStreamArrival k => Sys2Proof.Machine.execParallaxStreamArrival k s
  | .parallaxAck k status => Sys2Proof.Machine.execParallaxAck k status s
  | .rmaWrite sess terr va bytes => Sys2Proof.Machine.execRmaWrite sess terr va bytes s
  | .rmaRead sess terr va len => Sys2Proof.Machine.execRmaRead sess terr va len s
  | .unsupportedPacket => Sys2Proof.Machine.execUnsupportedPacket s
  | .create h tiles minA maxB => Sys2Proof.Machine.execCreate h tiles minA maxB s
  | .dissolve h => Sys2Proof.Machine.execDissolve h s
  | .policy h id value => Sys2Proof.Machine.execPolicy h id value s
  | .policySetAnchor h value => Sys2Proof.Machine.execPolicySetAnchor h value s
  | .policyClearAnchor h value => Sys2Proof.Machine.execPolicyClearAnchor h value s
  | .pxpeers h value => Sys2Proof.Machine.execPxpeers h value s
  | .ops h value => Sys2Proof.Machine.execOps h value s
  | .mapPages h va len psize perm => Sys2Proof.Machine.execMapPages h va len psize perm s
  | .unmap h va len => Sys2Proof.Machine.execUnmap h va len s
  | .protect h va len perm => Sys2Proof.Machine.execProtect h va len perm s
  | .loadCode h body dimg => Sys2Proof.Machine.execLoadCode h body dimg s
  | .launch h body => Sys2Proof.Machine.execLaunch h body s
  | .preempt h => Sys2Proof.Machine.execPreempt h s
  | .save h off full => Sys2Proof.Machine.execSave h off full s
  | .restore h off => Sys2Proof.Machine.execRestore h off s
  | .resume h => Sys2Proof.Machine.execResume h s
  | .debugClaim h sl => Sys2Proof.Machine.execDebugClaim h sl s
  | .debugRelease h sl => Sys2Proof.Machine.execDebugRelease h sl s
  | .debugHalt h sl => Sys2Proof.Machine.execDebugHalt h sl s
  | .debugRead h sl => Sys2Proof.Machine.execDebugRead h sl s
  | .debugWrite h sl pos wr => Sys2Proof.Machine.execDebugWrite h sl pos wr s
  | .debugStep h sl => Sys2Proof.Machine.execDebugStep h sl s
  | .debugGo h sl => Sys2Proof.Machine.execDebugGo h sl s
  | .fwwrite h off bytes => Sys2Proof.Machine.execFwwrite h off bytes s
  | .fwactivate h force => Sys2Proof.Machine.execFwactivate h force s
  | .fwcommit h => Sys2Proof.Machine.execFwcommit h s
  | .openSession h fa nonce => Sys2Proof.Machine.execOpenSession h fa nonce s
  | .close h => Sys2Proof.Machine.execClose h s
  | .receipt h => Sys2Proof.Machine.execReceipt h s
  | .evlog h first count => Sys2Proof.Machine.execEvlog h first count s
  | .epadd h idx fa job ports => Sys2Proof.Machine.execEpadd h idx fa job ports s
  | .epdel h idx => Sys2Proof.Machine.execEpdel h idx s
  | .ifRead h reg => Sys2Proof.Machine.execIfRead h reg s
  | .ifWrite h reg value => Sys2Proof.Machine.execIfWrite h reg value s
  | .getCertificate sess slot => Sys2Proof.Machine.execGetCertificate sess slot s
  | .challenge sess nonce => Sys2Proof.Machine.execChallenge sess nonce s
  | .getMeasurements sess index => Sys2Proof.Machine.execGetMeasurements sess index s
  | .getDeviceInterfaceReport sess terr => Sys2Proof.Machine.execGetDeviceInterfaceReport sess terr s
  | .lockInterfaceRequest sess terr => Sys2Proof.Machine.execLockInterfaceRequest sess terr s
  | .startInterfaceRequest sess terr nonce => Sys2Proof.Machine.execStartInterfaceRequest sess terr nonce s
  | .stopInterfaceRequest sess terr => Sys2Proof.Machine.execStopInterfaceRequest sess terr s
  | .createIndexed h version tiles minA maxB => Sys2Proof.Machine.execCreateIndexed h version tiles minA maxB s
  | .dirty h first count => Sys2Proof.Machine.execDirty h first count s
  | .checkpoint h body => Sys2Proof.Machine.execCheckpoint h body s
  | .pxsend h off buddy boff bpoff => Sys2Proof.Machine.execPxsend h off buddy boff bpoff s
  | .loadpages h off => Sys2Proof.Machine.execLoadpages h off s
  | .counters h first count => Sys2Proof.Machine.execCounters h first count s
  | .telemetry h => Sys2Proof.Machine.execTelemetry h s
  | .fenceTile h x y => Sys2Proof.Machine.execFenceTile h x y s
  | .spdmSessionStart sess => Sys2Proof.Machine.execSpdmSessionStart sess s
  | .unknownCommand h code => Sys2Proof.Machine.execUnknownCommand h code s

end Sys2Proof.Machine
end

