-- ==== Sys2Proof/Machine/Issue.lean ====
section
/-! DEFINITION. The life of a core between its words (02 R34 to R50, 04 R84, R102, 08 R155, R156, R178, R179, 09 R182 to R190,
10 R230, 11 R232): fetching and issuing a bundle, loop end checks, the transfer after a delay bundle, the return from a handler, the
ends of parks, EXIT and YIELD. -/

namespace Sys2Proof.Machine

/-! ### Fetching (08 R155, R179, 09 R183) -/

/-- The 64 bits of the bundle a unit is to issue, or the fault taken in its place. -/
def State.fetch (s : State) (u : CoreId) : Except TrapRec (BitVec 64) :=
  let k := s.cores[u]
  if k.pc.toNat % 8 ≠ 0 then .error (cause 0x05 k.pc 8)
  else match k.sl with
    | none => .error (cause 0x06 k.pc 0)
    | some x => match (s.codeOf (s.slice! x)).words[k.pc.toNat / 8]? with
      | some w => .ok w
      | none => .error (cause 0x06 k.pc 0)

/-- The instructions a bundle gives a core to execute, word 0 first. A word of the extension space goes to the emulation handler, with the
other word of its bundle; the switch marker of word 0 holds for it too (08 R168, 16 R308). -/
def bundleWords : Bundle → List Instr
  | .lone i => [i]
  | .pair c a => [c, a]
  | .illegal w1 => [.illegalInstruction w1]
  | .extension m is => is ++ (if m then [.nopC true] else [])

/-! ### The words of a bundle on one core (08 R156) -/

/-- The state after a word; a word's meaning always answers one. -/
def nextOr (o : Out) (s : State) : State := match o with
  | .next s' => s'
  | _ => s

/-- One word of the current core. What word 0 of the bundle made pending is not pending for word 1, which sees no result of it. -/
def State.runWord (s : State) (before : List Pend) (i : Instr) : State :=
  let made := s.c.pend
  let s1 := nextOr (exec i (s.modCur (fun c => { c with pend := before }))) s
  match s1.issue with
  | .issued => s1.modCur (fun c => { c with pend := made ++ c.pend.drop before.length })
  | _ => s1

/-- How the words of a bundle have fared so far: the tile as the bundle found it, the state while every word has issued, the faults, a freeze,
and the parks in which cores wait before the bundle issues. -/
structure Run where
  tile : Tile
  st : State
  traps : List (CoreId × TrapRec)
  stall : Option (CoreId × Freeze)
  waits : List (CoreId × Park)

/-- A freeze, with the entries that the lower positions of the bundle take: it is over when all of them are free, for the bundle issues whole
or not at all (08 R156, 12 R260). -/
def Freeze.after (f : Freeze) (before now : Tile) : Freeze := match f with
  | .copyQueue n => .copyQueue (n + (now.copyQ.length - before.copyQ.length))
  | .locks n => .locks (n + (before.freeLocks - now.freeLocks))
  | .votes n => .votes (n + (now.votes.length - before.votes.length))
  | f => f

/-- A word has not issued: its core froze, or parked first. -/
def Run.held (r : Run) (core : CoreId) (c : Core) : Run := match c.freeze, c.park with
  | some f, _ => { r with stall := r.stall.orElse fun _ => some (core, f.after r.tile r.st.tiles[tileOf core]) }
  | none, some p => { r with waits := r.waits ++ [(core, p)] }
  | none, none => r

/-- An instruction whose effect on engines or messages an emulated one may have: it returns no result and parks for nothing. -/
def emulable : Instr → Bool
  | .stp _ _ _ _ _ => true
  | .vstp _ _ _ _ => true
  | .copy _ _ _ _ _ => true
  | .copym _ _ _ => true
  | .mlw _ _ _ _ => true
  | .mfmt _ _ _ => true
  | .mmul _ _ _ _ _ _ _ _ _ => true
  | .mout _ _ _ => true
  | .mzero _ _ _ => true
  | .msend _ _ _ => true
  | .mcast _ _ => true
  | .opatch _ _ _ => true
  | .oclk _ _ _ => true
  | .osetY _ _ _ => true
  | .osetRes _ _ _ => true
  | .osetPort _ _ _ => true
  | .osetBind _ _ _ _ => true
  | .ostep _ _ => true
  | .orun _ _ _ => true
  | .ohalt _ _ => true
  | .otap _ _ _ => true
  | .rsub _ _ _ => true
  | .rrel _ _ => true
  | .rput _ _ => true
  | .barcfg _ _ _ _ _ _ _ => true
  | .tpress _ _ => true
  | .seal _ _ _ => true
  | _ => false

/-- A core whose registers are the operands that the emulation handler takes. -/
def Core.emulating (c : Core) (n : Nat) : Core :=
  { c with sreg := Vector.ofFn (fun r => (Config.emulatedOperand n r.val).setWidth 64),
           vreg := Vector.ofFn (fun r => Config.emulatedOperand n (256 + r.val)), pend := [] }

/-- The effect of such an instruction, for an instruction that is emulated: on everything but its core's registers and marks. One that would
fault or wait has none. -/
def State.emulWord (s : State) (n : Nat) (i : Instr) : State :=
  let s1 := nextOr (exec i (s.modCur (fun c => c.emulating n))) s
  match emulable i, s1.issue with
  | true, .issued => s1.modCur (fun c => { c with sreg := s.c.sreg, vreg := s.c.vreg, pend := s.c.pend, park := s.c.park })
  | _, _ => s

/-- What an emulated instruction does to engines and by messages (16 R308). The step number is that under which its word was executed. -/
def State.emulWords (s : State) (n : Nat) : State :=
  ((Config.emulatedWords n).flatMap (fun w => bundleWords (decodeBundle w.toNat))).foldl (fun s i => s.emulWord n i) s

/-- Is a word one that the emulation handler has? -/
def isEmulation : Instr → Bool
  | .emulation _ => true
  | _ => false

/-- The next word of a core; after a fault of the core there is none. -/
def Run.word (before : List Pend) (core : CoreId) (r : Run) (i : Instr) : Run :=
  if r.traps.any (fun t => t.1 == core) then r
  else
    let s1 := r.st.runWord before i
    match s1.issue with
    | .issued => { r with st := if isEmulation i then s1.emulWords r.st.stepNo else s1 }
    | .trapped t => { r with traps := r.traps ++ [(core, t)] }
    | .stalled => r.held core s1.cores[core]

/-- All words of a bundle on one core of the gang. -/
def Run.core (is : List Instr) (r : Run) (core : CoreId) : Run :=
  let s0 : State := { r.st with cur := core }
  is.foldl (Run.word s0.c.pend core) { r with st := s0 }

/-! ### End checks (02 R49, R50) -/

/-- Values written to le take effect once the checks they wait for have been made. -/
def LoopEff.tick (e : LoopEff) (lb : BitVec 32) : LoopEff :=
  let q := e.leQ.map (fun x => (x.1 - 1, x.2))
  { lb := lb, le := (((q.filter (fun x => x.1 = 0)).getLast?).map (·.2)).getD e.le, leQ := q.filter (fun x => x.1 ≠ 0) }

/-- The end check of a level: the core, and the offset issue branches back to, if it does. -/
def Core.checkLevel (c : Core) (l : Lvl) : Core × Option Word :=
  let n := c.lc l - 1
  let e := c.leff[l]
  let c1 := { c with lreg := vset c.lreg (lcId l) n, leff := vset c.leff l (e.tick c.lreg[lbId l]) }
  if n = 0 then (c1.syncLoop l, none) else (c1, some (e.lb.setWidth 64))

/-- Is the bundle at `pc` the end bundle of this level, which is active? -/
def Core.endsHere (c : Core) (pc : Word) (l : Lvl) : Bool := c.lc l != 0 && (c.leff[l]).le.setWidth 64 == pc

/-- The end checks of the bundle at `pc`, levels 2, 1, 0 until one branches back. -/
def Core.endChecks (c : Core) (pc : Word) : Core × Option Word :=
  [(2 : Lvl), 1, 0].foldl (fun r l => match r.2 with
    | some _ => r
    | none => if r.1.endsHere pc l then r.1.checkLevel l else r) (c, none)

/-- Does any active level end at `pc`? -/
def Core.endsAny (c : Core) (pc : Word) : Bool := [(2 : Lvl), 1, 0].any (c.endsHere pc)

/-! ### What follows a bundle (08 R178, 09 R183 to R190) -/

/-- No offset: EXIT's or YIELD's delay bundle makes its own end checks. -/
def noTarget : Word := BitVec.allOnes 64

/-- A bundle with a transfer not taken, EXIT or YIELD makes the end checks of its own issue, and its delay bundle then makes none. -/
def Core.checksBefore (c : Core) (pc : Word) (kind : XferKind) : Core :=
  if c.endsAny pc then
    let r := c.endChecks pc
    { r.1 with delay := some { kind := if kind = .untaken then .jump else kind, target := r.2.getD (pc + 16) }, pc := pc + 8 }
  else { c with delay := some { kind := kind, target := noTarget }, pc := pc + 8 }

/-- Falls through, or branches back at an end check. -/
def Core.fallThrough (c : Core) (pc next : Word) : Core :=
  let r := c.endChecks pc
  { r.1 with pc := r.2.getD next }

/-- The control state of a unit after its bundle at `pc`: the transfer it asked for, or the one whose delay bundle it was. -/
def Core.advance (c : Core) : Core :=
  let pc := c.pc
  match c.xfer with
  | some x => match x.kind with
    | .jump => { c with delay := some x, pc := pc + 8 }
    | .skip => c.fallThrough pc x.target
    | .rett => c
    | .evac => { c with owed := some x, pc := pc + 8 }
    | k => c.checksBefore pc k
  | none => match c.delay with
    | none => c.fallThrough pc (pc + 8)
    | some d =>
      let c1 := { c with delay := none }
      match d.kind with
      | .jump => { c1 with pc := d.target }
      | .exit => { (if d.target = noTarget then c1.fallThrough pc (pc + 8) else { c1 with pc := d.target }) with owed := some d }
      | .yld => { (if d.target = noTarget then c1.fallThrough pc (pc + 8) else { c1 with pc := d.target }) with owed := some d }
      | _ => c1.fallThrough pc (pc + 8)

/-! ### Landing pending results (02 R40, 04 R97) -/

/-- The results that have arrived. -/
def gotAll (ps : List Pend) : Bool := ps.all (fun p => p.got.isSome)

/-- Lands the pending results that have arrived, and clears their marks. -/
def Core.settled (c : Core) : Core :=
  let w : List Flight := c.pend.filterMap (fun p => p.got.map (fun x => { dist := 0, wr := x.1, flags := x.2 }))
  ({ c with pend := c.pend.filter (fun p => p.got.isNone) }).landAll c.pc w

/-- Lands them and frees the ranges their requests locked. -/
def State.settle (s : State) (core : CoreId) : State :=
  let ids := ((s.cores[core]).pend.filter (fun p => p.got.isSome)).map (·.id)
  (s.modCore core Core.settled).modTile (tileOf core) (fun t => { t with locks := t.locks.filter (fun l => !ids.contains l.op) })

/-- A load that was refused: its mark clears, and a stale peer leaves 0 in its destination, any other refusal the old value
(04 R84, R85). -/
def Core.clearRefused (c : Core) (id : Nat) (t : TrapRec) : Core :=
  let zeros : List Flight := if t.code = 0x0A then
      (c.pend.filter (fun p => p.id == id)).filterMap (fun p => p.reg.map (fun r => { dist := 0, wr := zeroWr r, flags := 0 })) else []
  ({ c with pend := c.pend.filter (fun p => p.id != id) }).landRegs c.pc zeros

/-- Has every pending result of the core arrived, or been refused? -/
def Core.restIn (c : Core) : Bool := c.pend.all (fun p => p.got.isSome || c.refused.any (fun r => r.1 == p.id))

/-- All that a stream of a handler or debugger leaves in flight lands, and no mark of it stays. -/
def State.landRest (s : State) (core : CoreId) : State :=
  let s1 := (s.modCore core (fun c =>
    ({ c with flight := [] }).landAll c.pc (c.flight.mergeSort (fun a b => decide (a.dist ≤ b.dist))))).settle core
  s1.modCore core (fun c => c.refused.foldl (fun c r => c.clearRefused r.1 r.2.1) c)

/-! ### The return from a handler (02 R45, 09 R188, 10 R230) -/

/-- The interrupted stream is back: results, marks, the delay bundle, a park and refusals; INH is clear. -/
def Core.resumed (c : Core) : Core := match c.replay with
  | none => { c with park := none, tcause := c.tcause &&& ~~~0x200#64 }
  | some r => { c with
      flight := r.flight, pend := r.pend, delay := r.delay, owed := r.owed, park := r.park, refused := r.refused ++ c.refused,
      replay := none, tcause := c.tcause &&& ~~~0x200#64 }

/-- The bundles that the last fixed-latency result in flight still has to run. -/
def Core.maxDist (c : Core) : Nat := c.flight.foldl (fun a f => max a f.dist) 0

/-- RETT on one core: with results of the handler still in flight it holds until each has landed, a fixed-latency one in the cycle of its
own bundle (DEDUCED, log 62). -/
def State.returnCore (s : State) (core : CoreId) : State :=
  let s1 := s.modCore core Core.unstep
  let k := s1.cores[core]
  if k.flight.isEmpty && k.pend.isEmpty then s1.modCore core Core.resumed
  else s1.modCore core (fun c => { c with park := some { why := .returning (s1.coreCycle (tileOf core) k.maxDist), marks := false } })

/-- The cores of a gang whose bundle was a RETT or UPRET. -/
def State.returns (s : State) (g : List CoreId) : List CoreId :=
  g.filter (fun c => (s.cores[c]).xfer.any (fun x => x.kind == .rett))

/-- The unit's offset after a RETT is its TPC. -/
def State.returnAll (s : State) (u : CoreId) (g : List CoreId) : State :=
  let rs := s.returns g
  let s1 := if rs.contains u then s.modCore u (fun c => { c with pc := c.tpc }) else s
  rs.foldl State.returnCore s1

/-! ### After the bundle (09 R187, 16 R309) -/

/-- The causes raised after the bundle. -/
def State.afterCauses (s : State) (g : List CoreId) : List (CoreId × TrapRec) :=
  g.filterMap (fun c => ((s.cores[c]).after).map (fun t => (c, t)))

/-- TRAP and BKPT: the trap, or in a slice that a debugger has claimed a breakpoint halts it. -/
def State.raiseCauses (s : State) (u : CoreId) (g : List CoreId) (ts : List (CoreId × TrapRec)) : State :=
  let x := s.slice! ((s.cores[u]).sl.getD 0)
  let ts' := if x.claimed then ts.filter (fun t => t.2.code != 0x14) else ts
  let s1 := if ts'.length < ts.length then s.modCores x.cores (fun c => { c with dbgHalt := true, dbgSteps := 0 }) else s
  if ts'.isEmpty then s1 else s1.trapGang g ts' (s1.cores[u]).pc

/-- A core has issued a bundle with its gang in cycle `now`, on it in cycle `own` (02 R34); a follower that has just detached counts as
issuing later (log 9). -/
def Core.issuedIn (c : Core) (now own : Nat) : Core :=
  { c with xfer := none, after := none, issuedAt := some (max now (c.issuedAt.getD 0)), ownAt := own, dbgSteps := 0 }

/-- The gang's bundle has issued on every core. -/
def State.bundleDone (s : State) (u : CoreId) (g : List CoreId) : State :=
  let ts := s.afterCauses g
  let s1 := (s.modCore u Core.advance).returnAll u g
  let s2 := g.foldl (fun s' c => s'.modCore c (fun k => k.issuedIn s.now (s.cycleOf c))) s1
  if ts.isEmpty then s2 else s2.raiseCauses u g ts

/-! ### Issue (02 R34, R36, R38, R45) -/

/-- The detached followers that wait at the bundle the leader is to issue. -/
def State.joiners (s : State) (u : CoreId) : List CoreId := match (s.cores[u]).sl with
  | some x => if (s.cores[u]).pos = 0 then
      (s.slice! x).cores.filter (fun c => (s.cores[c]).det && (s.cores[c]).rendez == some (s.cores[u]).pc) else []
  | none => []

/-- The cores that issue the unit's next bundle, in gang position order. -/
def State.issuers (s : State) (u : CoreId) : List CoreId := match (s.cores[u]).sl with
  | some x => (s.slice! x).cores.filter (fun c => (s.gang u).contains c || (s.joiners u).contains c)
  | none => []

/-- A follower that issues with the leader again gives up its own control state. -/
def Core.rejoin (c : Core) : Core :=
  { c with det := false, rendez := none, delay := none, ras := [], spilled := 0, lreg := Vector.replicate 9 0,
           leff := Vector.replicate 3 { lb := 0, le := 0, leQ := [] } }

/-- The bundle of a debugger's step is a stream of its own: what the stopped stream has in flight is put aside (02 R38). -/
def Core.hold (c : Core) : Core :=
  if c.dbgHalt && c.dbgHeld.isNone then { c with dbgHeld := some (c.flight, c.pend), flight := [], pend := [] } else c

/-- The cores of the gang trap at the bundle at `pc`, which has not issued; a debugger's step is over with it. -/
def State.trapBundle (s : State) (g : List CoreId) (ts : List (CoreId × TrapRec)) (pc : Word) : State :=
  (s.trapGang g ts pc).modCores g (fun c => { c with dbgSteps := 0 })

/-- The words of a bundle on every core that issues it, results in flight one bundle nearer. -/
def State.runBundle (s : State) (u : CoreId) (g : List CoreId) (pc : Word) (w : BitVec 64) : Run :=
  g.foldl (Run.core (bundleWords (decodeBundle w.toNat)))
    { tile := s.tiles[tileOf u], st := s.modCores g (fun c => c.age pc), traps := [], stall := none, waits := [] }

/-- A word that neither reads nor changes anything but registers and, by a local access, the frame: an A-word, or one of these C-words. -/
def isPlain (i : Instr) : Bool := match i with
  | .nopC _ => true
  | .ld _ _ _ _ _ => true
  | .st _ _ _ _ _ => true
  | .vld _ _ _ _ => true
  | .vst _ _ _ _ => true
  | .vlds _ _ _ _ _ => true
  | .vsts _ _ _ _ _ => true
  | .vgath _ _ _ _ _ => true
  | .vscat _ _ _ _ _ => true
  | .atom _ _ _ _ _ _ => true
  | .br _ _ => true
  | .brp _ _ _ _ => true
  | .jmp _ _ => true
  | .loop _ _ _ _ => true
  | .loopr _ _ _ _ => true
  | .mvtl _ _ _ => true
  | .mvfl _ _ _ => true
  | .mfs _ _ _ => true
  | .mts _ _ _ => true
  | .disc _ _ _ => true
  | .cycle _ _ => true
  | i => match encode i with
    | .aword _ => true
    | _ => false

/-- The accesses under way that reach their banks before a bundle issues: those that 08 R180 puts before every access of it. A bundle with a word
of another kind, or a debugger's step, finds all of them performed (DESIGN CHOICE, log 9). -/
def State.performFor (s : State) (g : List CoreId) (w : BitVec 64) : State :=
  if (bundleWords (decodeBundle w.toNat)).all isPlain && g.all (fun c => !(s.cores[c]).dbgHalt && (s.cores[c]).rendez.isNone) then
    s.performOld Core.mayLag g
  else s.performAccs g

/-- One bundle of a unit: on every core of the gang, whole or not at all. First the local accesses that come before the bundle's reach their
banks (04 R89, 08 R180). A wait before issue parks its core; a fault of any core traps the gang; a freeze leaves the bundle to be tried again. A
follower that waits at the bundle is attached again only once the leader has issued it (02 R36); its own fault alone traps the gang with it as
attached (DEDUCED, log 43). -/
def State.issue' (s : State) (u : CoreId) : State :=
  let own := s.gang u
  let g := s.issuers u
  let pc := (s.cores[u]).pc
  let a := s.performAccs g
  match s.fetch u with
  | .error t => a.trapBundle own (own.map (fun c => (c, t))) pc
  | .ok w =>
    let s0 := a.modCores (s.joiners u) Core.rejoin
    let s1 := ((s.performFor g w).modCores (s.joiners u) Core.rejoin).modCores g Core.hold
    let r := s1.runBundle u g pc w
    let mine := r.traps.filter (fun t => own.contains t.1)
    if !r.waits.isEmpty then r.waits.foldl (fun s w => s.modCore w.1 (fun c => { c with park := some w.2 })) a
    else if !mine.isEmpty then a.trapBundle own mine pc
    else if !r.traps.isEmpty then s0.trapBundle g r.traps pc
    else match r.stall with
      | some (c, f) => s.modCore c (fun k => { k with freeze := some f })
      | none => (g.foldl (fun s c => s.modCore c (fun k => k.orFlags (flagsOf (s1.cores[c]).dueNext))) r.st).bundleDone u g

/-- May a core issue in this cycle: not halted, not frozen, not parked, no bundle of this cycle issued, no step of a debugger unfinished, and
no reservation to be made again (16 R312)? -/
def Core.canIssue (c : Core) (now : Nat) : Bool :=
  !c.halted && (!c.dbgHalt || c.dbgSteps != 0) && c.dbgHeld.isNone && c.freeze.isNone && c.park.isNone && c.owed.isNone &&
    c.issuedAt.all (fun n => decide (n < now)) && c.ask.all (fun q => q.statusOff.isSome)

/-- Is a core the one whose program counter its gang follows: a leader, or a detached follower that does not wait at a rendezvous? -/
def Core.isUnit (c : Core) : Bool := c.sl.isSome && (c.pos == 0 || c.det) && c.rendez.isNone

/-- Is an Orrery tick or a count's end of the core due, which comes first in its cycle? -/
def State.orreryDue (s : State) (c : CoreId) : Bool :=
  s.tickDue c || (List.finRange 4).any (s.cores[c]).countDone

/-- Is the unit ready to issue: every core that issues with it may, and no asynchronous trap comes first? A leader that has reached a
rendezvous waits for a follower still parked at its ATTACH, and a follower that waits at a rendezvous takes no asynchronous trap until it
has rejoined (DESIGN CHOICE, log 52: the manual settles neither). Where the island's clock has just risen, the gang waits until each
follower's cycle is later than that of its last bundle (09 R198, log 9). -/
def State.ready (s : State) (u : CoreId) : Bool :=
  (s.cores[u]).isUnit && s.coreTick (tileOf u) && !s.preempted u && (s.issuers u).all (fun c => (s.cores[c]).canIssue s.now && !s.orreryDue c) &&
    (s.gang u).all (fun c => (s.cores[c]).issuedAt.isNone || decide ((s.cores[c]).ownAt < s.cycleOf c)) && !s.asyncReady u

/-- Is a word a command to the copy engine? -/
def isCopyWord : Instr → Bool
  | .copy _ _ _ _ _ => true
  | .copym _ _ _ => true
  | _ => false

/-- Does the unit's next bundle hold one? -/
def State.copyNext (s : State) (u : CoreId) : Bool := match s.fetch u with
  | .ok w => (bundleWords (decodeBundle w.toNat)).any isCopyWord
  | .error _ => false

/-- Is the unit frozen, with every cause of its freezes over? -/
def State.thaws (s : State) (u : CoreId) : Bool :=
  (s.cores[u]).isUnit && s.frozenUnit u && (s.gang u).all (fun c => (s.cores[c]).freeze.all (s.freezeOver c))

/-- May the unit issue now? Of the copy commands of one cycle on a tile, those of lower gang positions go first, whether their cores are
ready or come out of a freeze (12 R260). -/
def State.canIssue (s : State) (u : CoreId) : Bool :=
  s.ready u && (!s.copyNext u || (coresOf (tileOf u)).all (fun v =>
    !(decide ((s.cores[v]).pos < (s.cores[u]).pos) && (s.ready v || s.thaws v) && s.copyNext v)))

/-! ### EXIT, TEVAC and YIELD take effect (02 R31, R37, 09 R189, R190) -/

/-- A core stops issuing: results in flight and pending marks are discarded. Causes and refusals stay. -/
def Core.leave (c : Core) : Core :=
  { c with flight := [], pend := [], delay := none, owed := none, xfer := none, park := some { why := .exitWait, marks := false },
           freeze := none, rendez := none, refused := ((c.replay.map (·.refused)).getD []) ++ c.refused, replay := none, dbgHeld := none }

/-- EXIT or TEVAC: the exit wait begins, on detached followers too. -/
def State.leaveSlice (s : State) (x : Slice) (how : EndHow) : State :=
  ((s.modCores x.cores Core.leave).freePosted x).modSlice x.uid (fun y => { y with st := .exiting, how := how, grace := none })

/-- The return-address store with the entries of the spill area, newest first. -/
def State.wholeRas (s : State) (core : CoreId) : List Word :=
  let k := s.cores[core]
  let base := scratchKey (tileOf core) (reservedBase + spillBase core)
  k.ras ++ ((List.range k.spilled).map (fun i => BitVec.ofNat 64 (s.num (base + 8 * i) 8))).reverse

/-- What YIELD saves of a core. -/
def State.savedCore (s : State) (core : CoreId) : Core := { s.cores[core] with ras := s.wholeRas core, park := none }

/-- The slice waits again, where R29's order puts it: queued on its tile, held there while the queue is full, or re-homed from a ceding
tile. -/
def State.waitAgain (s : State) (x : Slice) (t : TileId) : State :=
  if (s.tiles[t]).ceding.isSome then s.rehome x.uid t
  else if s.roomFor x.uid t then (s.newArrival x.uid).modSlice x.uid (fun y => { y with st := .queued })
  else (s.newArrival x.uid).modSlice x.uid (fun y => { y with st := .held })

/-- YIELD: every result has landed; the Orreries stop, which is no halt that flushes a tap (18 R338), the cores are saved and released, the
slice is requeued. -/
def State.yieldSlice (s : State) (x : Slice) (t : TileId) : State :=
  let s1 := x.cores.foldl (fun s c => (s.settle c).stopDoms c) s
  let saved := x.cores.map s1.savedCore
  let s2 := s1.modCores x.cores (fun _ => Core.reset)
  let s3 := if (s.tiles[t]).ceding.isSome then s2.dropMessages x t else s2
  (s3.modSlice x.uid (fun y => { y with cores := [], saved := saved, table := none })).waitAgain x t

/-- Does something hold up what a core owes: a park, a freeze, a halt, a local access, a debugger's step? -/
def Core.busy (c : Core) : Bool :=
  c.park.isSome || c.freeze.isSome || c.halted || c.dbgHalt || !c.acc.isEmpty || c.dbgHeld.isSome

/-- What a unit owes takes effect when nothing holds its gang up. A YIELD first parks as at a switch marker. -/
def State.payOwed (s : State) (u : CoreId) : Option State := match (s.cores[u]).owed, (s.cores[u]).sl with
  | some d, some uid =>
    let g := s.gang u
    if g.any (fun c => (s.cores[c]).busy) then none
    else match d.kind with
      | .yld => some ((s.modCores g (fun c => { c with park := some { why := .yieldWait, marks := false } })).modCore u
          (fun c => { c with owed := none }))
      | .evac => some (s.leaveSlice (s.slice! uid) .evacuated)
      | _ => some (s.leaveSlice (s.slice! uid) .exit)
  | _, _ => none

/-! ### The ends of parks (02 R40, 04 R84, R93, R100, 06 R129, R137, 12 R264, R269) -/

/-- The parks that EXIT and YIELD hold a gang in end on all of it. -/
def ParkWhy.ofGang : ParkWhy → Bool
  | .exitWait => true
  | .yieldWait => true
  | _ => false

/-- A park in progress is over on a core that traps at it: a SPAWN is not performed. -/
def Core.dropPark (c : Core) : Core :=
  let req := spawnReq c
  { c with park := none, pend := c.pend.filter (fun p => some p.id != req) }

/-- Is the park an STL's, whose bundle has not issued? -/
def Park.beforeIssue (p : Park) : Bool := match p.why with
  | .storeRelease _ => true
  | _ => false

/-- A trap taken at a core's park, which ends: results that have arrived land if the park clears marks (04 R84). The unit goes on after the
parking bundle; an STL's, which has not issued, is passed over (DEDUCED, log 63). A refusal that ends the exit wait lets the slice run
on in its handler. A precise one while INH is set goes to firmware, as any fault of a handler (02 R46). -/
def State.trapAtPark (s : State) (core : CoreId) (t : TrapRec) : State :=
  let u := ({ s with cur := core }).ctlId
  let p := (s.cores[core]).park
  let s0 := if p.any (·.marks) then s.settle core else s
  let s1 := if p.any Park.beforeIssue then s0.modCore u Core.advance else s0
  let s2 := if p.any (fun p => p.why.ofGang) then
      (s1.modCores (s.gang u) Core.dropPark).modSlice ((s.cores[core]).sl.getD 0) (fun x => { x with st := .running })
    else if (spawnReq (s.cores[core])).isSome then
      s1.modCores (s.gang u) (fun c => { c with
        pend := c.pend.filter (fun q => some q.id != spawnReq (s.cores[core])), park := if c.pos = (s.cores[core]).pos then none else c.park })
    else s1.modCore core Core.dropPark
  s2.trapGang (s2.gang u) [(core, t)] (s2.cores[u]).pc

/-- An asynchronous cause that a park meets while INH is set is held off, as every asynchronous cause is (02 R42), and waits for a bundle
boundary (DESIGN CHOICE, log 57: 04 R85 and 12 R264 speak of the park alone); the others are taken at the park. -/
def State.causeAtPark (s : State) (core : CoreId) (t : TrapRec) (heldOff : Core → Core) : State :=
  if (s.cores[core]).inh && t.async then (s.causeFor core t).modCore core heldOff else s.trapAtPark core t

/-- A park whose end may bring a cause. -/
def State.endWith (s : State) (core : CoreId) (r : Core × Option TrapRec) : State :=
  let s1 := s.modCore core (fun _ => r.1)
  match r.2 with
  | none => s1.modCore core Core.endPark
  | some t => s1.causeAtPark core t Core.endPark

/-- Does the core's park wait for a ring that has met a translation fault, or that satisfies it? -/
def State.ringPark (s : State) (core : CoreId) (ring : Ring) (n : Nat) (b : Back) : Option State :=
  match (s.slice! ((s.cores[core]).sl.getD 0)).rings[ring.val]? with
  | none => none
  | some r => match r.fault with
    | some t => some (s.trapBack core b t)
    | none => if r.waitDone n then some (s.modCore core Core.endPark) else none

/-- The end of a park for its own reason, if it has come. -/
def State.parkOver (s : State) (core : CoreId) (p : Park) : Option State :=
  let c := s.cores[core]
  match p.why with
  | .marker => if gotAll c.pend then some ((s.settle core).modCore core (fun k => { k with park := none })) else none
  | .fence sc => if s.fenced core sc then some (s.modCore core Core.endPark) else none
  | .storeRelease sc => if s.fenced core sc then some (s.modCore core Core.endPark) else none
  | .spawn _ _ _ => none
  | .barFence id => if s.fenced core .y then some (s.barCount core id p.marks) else none
  | .barWait _ n => if n = 0 then some (s.modCore core Core.endPark) else none
  | .chain => if c.ask.isNone then some (s.modCore core Core.endPark) else none
  | .cwait mask => if c.cwaitDone mask then some (s.endWith core (c.cwaitEnd mask)) else none
  | .drain acc ver mid => if c.mq.all (fun e => e.mid != mid) then some (s.endWith core (c.matrixEnd acc ver)) else none
  | .mwait acc ver => if covers (c.accs[acc]).ver ver then some (s.endWith core (c.matrixEnd acc ver)) else none
  | .rwait ring n _ b => s.ringPark core ring n b
  | .orrery n op =>
    if n ≤ s.now then some ((s.modTile (tileOf core) (fun t => t.release op)).modCore core Core.endPark) else none
  | .answer _ => none
  | .exitWait => none
  | .yieldWait =>
    let x := s.slice! (c.sl.getD 0)
    if c.pos = 0 && x.cores.all (fun d => gotAll (s.cores[d]).pend && (s.cores[d]).refused.isEmpty) then
      x.tile.map (fun t => s.yieldSlice x t) else none
  | .returning n => if n ≤ s.now && c.restIn then some ((s.landRest core).modCore core Core.resumed) else none

/-- Is a refusal taken at this park? Not while a handler's results are awaited, nor in the exit wait of a slice that others ended. -/
def State.takesRefusal (s : State) (core : CoreId) (p : Park) : Bool := match p.why with
  | .returning _ => false
  | .exitWait => let x := s.slice! ((s.cores[core]).sl.getD 0)
    x.how == .exit || x.how == .evacuated
  | _ => true

/-- A park takes a refusal, which clears its load's mark. A stopped follower's counts for nothing. -/
def State.takeRefusal (s : State) (core : CoreId) (p : Park) (r : Nat × TrapRec × Bool) : State :=
  let c := s.cores[core]
  let s1 := s.modCore core (fun k => { k with refused := k.refused.erase r })
  if c.det && p.why == .exitWait then s1
  else
    let s2 := (if p.marks then s1.settle core else s1).modCore core (fun k => k.clearRefused r.1 r.2.1)
    s2.causeAtPark core r.2.1 id

/-- Does the core's gang still have a local access that has not reached its bank, or the core a request to its own tile that must be performed
before a later local access (04 R89, R90)? A park of a YIELD or EXIT is one of every core of the slice, and ends for all of them at once. -/
def State.unreached (s : State) (core : CoreId) : Bool :=
  let cs := if (s.cores[core]).park.any (fun p => p.why.ofGang) then (s.sliceOn core).cores else [core]
  (s.gang ({ s with cur := core }).ctlId ++ cs).any (fun c => !(s.cores[c]).acc.isEmpty) || cs.any s.selfPending

/-- A debugger's step ends: what its bundle left in flight lands before the stopped stream goes on (02 R38, 10 R230). -/
def State.stepEnd (s : State) (core : CoreId) : Option State :=
  let c := s.cores[core]
  if c.dbgHeld.isSome && c.freeze.isNone && !c.halted && c.restIn && !s.unreached core then
    some ((s.landRest core).modCore core Core.unstep)
  else none

/-- What a core that does not issue does next, if anything. -/
def State.parkStep (s : State) (core : CoreId) : Option State :=
  let c := s.cores[core]
  match c.park with
  | none => s.stepEnd core
  | some p =>
    if c.halted || c.freeze.isSome || (c.dbgHalt && c.dbgSteps == 0 && c.dbgHeld.isNone) || s.unreached core then none
    else if !s.takesRefusal core p then s.parkOver core p
    else match c.takable with
      | some r => some (s.takeRefusal core p r)
      | none => s.parkOver core p

end Sys2Proof.Machine
end

