-- ==== Sys2Proof/Machine/Time.lean ====
section
/-! DEFINITION. Who may move next, and what a cycle of the time base makes due (02 R32, R33, 03 R54 to R61, R78, 06 R137, 11 R247,
21 R360). One agent moves in a step; the order in which those that may move do so is a free choice (00 R8). -/

namespace Sys2Proof.Machine

/-- What one step does: an event of the opcode table, or what a core, a stream controller or the command processor does between them. -/
inductive Move
  | event (i : Instr)
  | input
  | issue (u : CoreId)
  | access (c : CoreId)
  | park (c : CoreId)
  | owed (u : CoreId)
  | controller (sl ring : Nat)
  | fill (t : TileId) (id : Nat)
  | message (k : Nat)
  | askAgain (c : CoreId)
  | save (terr : Nat)
  | stream (k : Nat)
  | fade (terr : Nat)
  | update
  | read (k n : Nat)
  | error
  | tick

/-! ### Moves that come before the cycle ends -/

/-- Has a core a local access that reaches its bank in this cycle, without a bundle of the core issuing? Freezes delay it (04 R89), and those that
08 R180 puts before it come first. -/
def State.accessDue (s : State) (c : CoreId) : Bool :=
  let k := s.cores[c]
  k.issuedAt.all (fun n => decide (n < s.now)) && s.coreTick (tileOf c) && !s.frozenUnit c &&
    s.accFirst (s.gang ({ s with cur := c }).ctlId) c

/-- Has no core of the slice on a core the end of an ORUN count due? It comes before a park of the slice ends, for a YIELD then stops the
domains (07 R150). -/
def State.countsDone (s : State) (c : CoreId) : Bool :=
  (s.sliceOn c).cores.all (fun e => (List.finRange 4).all (fun d => !(s.cores[e]).countDone d))

/-- What a core of a slice does in this cycle. -/
def State.coreMoves (s : State) (c : CoreId) : List Move :=
  let k := s.cores[c]
  let calm := s.countsDone c
  (if k.isUnit && !(s.gang c).all (fun d => (s.cores[d]).causes.isEmpty) && s.asyncReady c then [.event (.asyncTrapEntry c)] else []) ++
  (if s.accessDue c then [.access c] else []) ++
  (if calm && (k.park.isSome || k.dbgHeld.isSome) && (s.parkStep c).isSome then [.park c] else []) ++
  (if calm && k.owed.isSome && (s.payOwed c).isSome then [.owed c] else []) ++
  (if k.freeze.any (s.freezeOver c) then [.event (.freezeRelease c)] else []) ++
  (if k.mayHalt && s.preempted c && (s.terr! (s.sliceOn c).terr).halted then [.event (.preemptionHalt c)] else []) ++
  (if k.orr.active && s.tickDue c then [.event (.orreryTick c)] else []) ++
  ((List.finRange 4).filter k.countDone).map (fun d => .event (.orreryCountEnd c d)) ++
  (if s.canIssue c then [.issue c] else [])

/-- The moves that must be made before the time base advances. -/
def State.nowMoves (s : State) : List Move :=
  s.slices.flatMap (fun x => (if s.isLate x then [.event (.sliceLate x.uid)] else []) ++
    (if x.st == .held && (s.heldReady x.uid).isSome then [.event (.heldSlicePlacement x.uid)] else []) ++ x.cores.flatMap s.coreMoves) ++
  (s.terrs.filter (fun y => y.mark && !y.frz && s.still y.id)).map (fun y => .event (.freezeTakesHold y.id)) ++
  (if s.updateReady then [.update] else [])

/-! ### Moves that may be made at any time -/

/-- A request of class 0 that arrives, at a tile or at a stream controller. -/
def Packet.requested (p : Packet) : Move := .event (if p.dst < 384 then .peerRequestArrival p.id else .hbmAccess p.id)

/-- The move of a message that arrives. -/
def State.arrival (s : State) (p : Packet) : Move := match p.body with
  | .load _ _ _ _ => p.requested
  | .store _ _ _ => p.requested
  | .atom _ _ _ _ _ _ _ => p.requested
  | .copyWr _ _ _ _ _ => p.requested
  | .read _ _ _ _ _ => p.requested
  | .data _ _ => .message p.id
  | .preempt => .message p.id
  | .push sl ring _ _ => .event (.streamPush sl ring)
  | .fetch sl ring _ => .event (.streamPull sl ring)
  | .fetched _ _ _ _ => .event (.hbmAccess p.id)
  | .rowRead _ _ _ _ => .event (.hbmAccess p.id)
  | .rowWrite _ _ _ _ => .event (.hbmAccess p.id)
  | .rowData _ _ _ _ => .event (.hbmAccess p.id)
  | .rowBad _ _ _ _ => .event (.hbmAccess p.id)
  | .tagged _ _ _ _ _ _ => .event (.messageArrival p.id)
  | .reserve _ _ => .event (.chainReservation p.id)
  | .payload _ _ _ _ => .event (.chainPayload p.id)
  | .reply _ _ _ => .event (.variableLatencyResponse p.id)
  | .refuse req _ _ => .event (if isCopyReq (s.keptReq req) then .copyFailure p.id else .refusalArrival p.id)
  | .chainAns _ _ _ => .event (.chainAnswer p.id)
  | .chainFault _ _ => .event (.refusalArrival p.id)
  | .ack _ => .event (.ackArrival p.id)
  | .void => .event (.barrierArrival p.id)
  | .chainFree _ => .event (.chainRelease p.id)
  | .barArrive _ _ => .event (.barrierArrival p.id)
  | .barRelease _ _ _ => .event (.barrierRelease p.id)
  | .vote _ _ _ _ => .event (.voteContribution p.id)
  | .sizeReq _ _ _ _ => .event (.sizeRequest p.id)
  | .sizeGrant _ _ _ _ _ => .event (.sizeGrant p.id)
  | .sizeReturn _ _ _ => .event (.sizeGrantReturn p.id)
  | .upcall _ _ => .event (.upcallArrival p.id)
  | .freezeReq => .event (.freezeMark p.id)
  | .thawReq => .event (.thawRequest p.id)
  | .anchorReq _ _ => .event (.anchorRequest p.id)
  | .anchorFwd _ _ _ _ _ => .event (.anchorApply p.id)
  | .snapReq _ _ => .event (.shapeSnapshot p.id)
  | .snapAns _ _ _ _ => .event (.handlerTileAnswer p.id)
  | .answer _ _ => .event (.handlerTileAnswer p.id)

/-- A TFREEZE's request that a request of its core to its own tile comes before: with that performed, its park can end in the very cycle in which
the freeze takes hold (04 R90, 12 R279). -/
def State.askHeld (s : State) (p : Packet) : Bool := match p.body, p.who.bind (fun w => ((s.slice! w.1).cores)[w.2]?) with
  | .freezeReq, some c => s.selfPending c
  | _, _ => false

/-- The messages that may arrive next. -/
def State.netMoves (s : State) : List Move :=
  (s.net.filter (fun p => (s.firstPacket p.id).isSome && !s.askHeld p)).map s.arrival ++
  (s.kept.filter (fun p => decide (p.sent + retransmitAfter ≤ s.now))).map (fun p => .event (.retransmitTimeout p.id))

/-- What the rings of a slice may do. -/
def State.ringMoves (s : State) (x : Slice) : List Move :=
  x.rings.zipIdx.flatMap (fun e =>
    (if (s.controller x.uid e.2).isSome then [.controller x.uid e.2] else []) ++
    (if e.1.sub.any (fun b => b.counts.isSome) && s.terrMoves x then [.event (.loopCountBlockReady x.uid e.2)] else []))

/-- What a core's matrix unit and SPAWN may do. -/
def State.unitMoves (s : State) (c : CoreId) : List Move :=
  let k := s.cores[c]
  (k.mq.filter (fun e => s.matrixMoves c &&
      (if e.running then e.goesOn else k.mayStart e && !k.dbgHalt))).map (fun e => .event (.matrixStart c e.mid)) ++
  (k.mq.filter (fun e => s.matrixMoves c && e.finished)).map (fun e => .event (.matrixComplete c e.mid)) ++
  (if k.ask.any (·.refused) && s.matrixMoves c then [.askAgain c] else []) ++
  (if k.spawnPark.isSome && s.spawnReady c then [.event (.spawnPlacement c)] else [])

/-- What the scheduler and the command processor may do with a slice. -/
def State.sliceMoves (s : State) (x : Slice) : List Move := match x.st with
  | .held => []
  | .queued => []
  | .ended => [.event (.resultRead x.uid)]
  | _ =>
    (if x.tile.any (fun t => s.sliceDone x t) then [.event (.sliceCompletion x.uid)] else []) ++
    s.ringMoves x ++ x.cores.flatMap s.unitMoves

/-- A tile at which something besides its slices may be under way. -/
def Tile.stirs (x : Tile) : Bool := x.owner.isSome || x.ceding.isSome || !x.copyQ.isEmpty || !x.fills.isEmpty

/-- The tiles that stir, with their places. -/
def State.stirring (s : State) : List TileId := ((List.finRange 384).zip s.tiles.toList).filterMap (fun e => if e.2.stirs then some e.1 else none)

/-- What a tile's scheduler, copy engine and border logic may do. -/
def State.tileMoves (s : State) (t : TileId) : List Move :=
  let x := s.tiles[t]
  (if s.slices.any (fun y => y.tile == some t && y.st == .queued) && (s.dispatchOn t).isSome then [.event (.dispatch t)] else []) ++
  (x.copyQ.filter (fun q => s.canBeat t q)).map (fun q => .event (.copyBeat t q.cid)) ++
  x.fills.map (fun f => .fill t f.id) ++
  (x.copyQ.filter Copy.settled).map (fun q => .event (.copyComplete t q.cid)) ++
  (if x.owner.any (fun a => (s.terr! a).halted) && s.canQuiesce t then [.event (.quiescenceComplete t)] else []) ++
  (if x.ceding.any (fun c => !c.cleared) && s.tileDrained t then [.event (.cessionClearing t)] else [])

/-- May an input be taken? No earlier command of its session is still without its effect (16 R296), and no command is taken while firmware
activation ends the territories (17 R321). -/
def State.inputReady (s : State) (i : Instr) : Bool :=
  i.command.all (fun c => s.dev.activating.isNone && !(s.session! c.1.sess).busy)

/-- The next input, and the inputs without it. -/
def State.nextInput (s : State) : Option (Instr × List Instr) :=
  (s.inputs.find? s.inputReady).map (fun i => (i, s.inputs.eraseP s.inputReady))

/-- The moves that may be made, in this cycle or later. -/
def State.freeMoves (s : State) : List Move :=
  s.slices.flatMap s.sliceMoves ++ s.stirring.flatMap s.tileMoves ++ s.netMoves ++
  (s.launches.filter (fun l => l.open' = 0)).map (fun l => .event (.launchCompletion l.id)) ++
  (s.terrs.filter (fun y => y.dying.isSome && s.mayDissolve y.id)).map (fun y => .fade y.id) ++
  (s.terrs.filter (fun y => (s.saveStep y.id).isSome)).map (fun y => .save y.id) ++
  ((List.range s.pxIn.length).filter (fun k => (s.pxStep k).isSome)).map (fun k => .stream k) ++
  s.readings.zipIdx.flatMap (fun e => e.1.todo.map (fun x => .read e.2 x.1)) ++ (if s.errors.isEmpty then [] else [.error]) ++ (if s.nextInput.isSome then [.input] else [])

/-! ### The time base (03 R53 to R61, R78) -/

/-- Is a slice's context halted, so that the cycle is not charged (02 R32)? A cycle in which one of its cores still issued is charged. -/
def State.uncharged (s : State) (x : Slice) : Bool :=
  (s.terr! x.terr).halted && x.cores.all (fun c => (s.cores[c]).halted && (s.cores[c]).issuedAt != some s.now)

/-- Is a slice being ended by DISSOLVE, or as it ends one? Its completion is not charged (16 R299). -/
def Slice.dissolving (x : Slice) : Bool := x.st == .exiting && (x.how == .dissolved || x.how == .ifError)

/-- A cycle is charged to a slice that holds cores. -/
def Slice.charge (x : Slice) : Slice :=
  { x with left := x.left - 1, charged := x.charged + 1, grace := x.grace.map (· - 1) }

def State.chargeAll (s : State) : State :=
  { s with slices := s.slices.map (fun x => if x.cores.isEmpty || x.dissolving || s.uncharged x then x else x.charge) }

/-- The budget events of the cycle just charged. -/
def budgetDue (old new : Slice) : List Instr :=
  (if old.left ≠ 0 ∧ new.left = 0 ∧ new.cores ≠ [] then [.budgetExhausted new.uid] else []) ++
  (if old.grace ≠ some 0 ∧ new.grace = some 0 then [.budgetGraceExpiry new.uid] else [])

/-- Policy values accepted before the phase take effect (03 R78). -/
def Dev.settle (d : Dev) : Dev :=
  { d with h := dueValue d.pendPol 0 d.h, w := dueValue d.pendPol 1 d.w, cool := dueValue d.pendPol 2 d.cool, pendPol := [] }

/-- A territory's values stay as they are while it is frozen: FRZ counts, not the mark before it. Those accepted before its interface was locked
come into force although it is locked by then (DESIGN CHOICE, log 71: 03 R78 leaves both open). -/
def Terr.settle (y : Terr) : Terr :=
  if y.frz then y
  else { y with evac := dueValue y.pendPol 3 y.evac, minA := dueValue y.pendPol 4 y.minA, maxB := dueValue y.pendPol 5 y.maxB,
                pendPol := [], pendAnch := [] }

/-- So do its firmware anchors. -/
def State.settleAnchors (s : State) (y : Terr) : State :=
  if y.frz then s
  else y.pendAnch.foldl (fun s e =>
    if (s.tiles[e.1]).isMember y.id then s.modTile e.1 (fun t => { t with anchF := e.2 }) else s) s

def State.settlePolicy (s : State) : State :=
  let s1 := s.terrs.foldl State.settleAnchors s
  { s1 with dev := s1.dev.settle, terrs := s1.terrs.map Terr.settle }

/-- The tiles of the phase that runs. -/
def State.phaseTiles (s : State) : List TileId := allTiles.filter (fun t => decide (phaseOf t = s.now / 3400 % 9))

/-- The tiles that move between territories. -/
def State.moving (s : State) : List TileId :=
  ((List.finRange 384).zip s.tiles.toList).filterMap (fun e => if e.2.ceding.isSome || e.2.joining.isSome then some e.1 else none)

/-- A change of shape that is due: the tile, the territory whose shape version it changes, the event. -/
abbrev ShapeDue := TileId × Option Nat × Instr

/-- The losses and annexations that may have committed in the middle of a phase, which is the cycle before this one (03 R60, R71). -/
def State.commitsDue (s : State) : List ShapeDue :=
  if s.now % 3400 = 1701 then s.phaseTiles.filterMap (fun t => ((s.tiles[t]).claim).map (fun c => (t, c.lose, .moveCommit t))) else []

/-- The tile whose step 6 is over. -/
def State.joinDue (s : State) (t : TileId) : Option ShapeDue :=
  let x := s.tiles[t]
  match x.ceding, x.joining with
  | some c, _ => if c.cleared then some (t, c.gain, .cessionJoining t) else none
  | none, some (b, cyc) => if cyc < s.now then some (t, some b, .cessionJoining t) else none
  | none, none => none

/-- Those of one territory, in the order in which its handler tile granted them, which the shape versions follow (03 R68). -/
def Terr.inOrder (y : Terr) (l : List ShapeDue) : List Instr :=
  y.order.eraseDups.filterMap (fun g => (l.find? (fun e => e.1 == g && e.2.1 == some y.id)).map (·.2.2))

/-- The changes of shape of a cycle; those that change no version a handler tile orders come last. -/
def State.shapesDue (s : State) : List Instr :=
  let l := s.commitsDue ++ s.moving.filterMap s.joinDue
  s.terrs.flatMap (fun y => y.inOrder l) ++
    (l.filter (fun e => !s.terrs.any (fun y => e.2.1 == some y.id && y.order.contains e.1))).map (·.2.2)

/-- Is the tile's evacuation budget over? -/
def State.expiryDue (s : State) (t : TileId) : List Instr :=
  if (s.tiles[t]).ceding.any (fun c => !c.expired && c.lastCycle != 0 && decide (c.lastCycle < s.now)) then [.evacuationExpiry t] else []

/-- The border events of a cycle: its changes of shape, the end of an epoch every 1,700 cycles, the tests of a phase every 3,400, the
evacuation budgets that are over. A join counts before the epoch that ends in its cycle, a commit, which closes its cycle, after it
(DESIGN CHOICE, log 53). -/
def State.borderDue (s : State) : List Instr :=
  s.shapesDue ++ (if s.now % 1700 = 0 then [.epochEnd] else []) ++
  (if s.now % 3400 = 0 then s.phaseTiles.map Instr.phaseStart else []) ++ s.moving.flatMap s.expiryDue

/-- The limit of an RWAIT. -/
def Core.ringLimit (c : Core) : Option Nat := match c.park with
  | some { why := .rwait _ _ dl _, marks := _ } => some dl
  | _ => none

/-- The RWAITs whose limit has come. -/
def State.ringsDue (s : State) : List Instr := s.slices.flatMap (fun x => (x.cores.filter (fun c =>
  (s.cores[c]).ringLimit.any (fun dl => decide (dl ≤ s.now)) && !(s.cores[c]).halted && !(s.cores[c]).dbgHalt && !s.selfPending c)).map Instr.rwaitTimeout)

/-- One cycle of the time base. -/
def State.advance (s : State) : State :=
  let s1 := { s.chargeAll with now := s.now + 1 }
  let s2 := if s1.now % 3400 = 0 then s1.settlePolicy else s1
  { s2 with due := s2.borderDue ++ ((s.slices.zip s2.slices).flatMap (fun e => budgetDue e.1 e.2)) ++ s2.ringsDue }

/-! ### Choosing and making a move -/

/-- Every move that may come next: those that may be made, and the advance of time once nothing must be made before it. -/
def State.moves (s : State) : List Move :=
  let a := s.nowMoves
  let b := s.freeMoves
  if a.isEmpty then b ++ [.tick] else a ++ b

/-- Makes a move. -/
def State.makeMove (s : State) : Move → Out
  | .event i => exec i s
  | .input => match s.nextInput with
    | some (i, r) => exec i { s with inputs := r }
    | none => .next s
  | .issue u => .next (s.issue' u)
  | .access c => .next (s.performAcc c)
  | .park c => .next ((s.parkStep c).getD s)
  | .owed u => .next ((s.payOwed u).getD s)
  | .controller sl ring => .next ((s.controller sl ring).getD s)
  | .askAgain c => .next (s.askAgain c)
  | .fill t id => .next (s.fillStep t id)
  | .message k => .next (s.takeMessage k)
  | .save a => .next ((s.saveStep a).getD s)
  | .stream k => .next ((s.pxStep k).getD s)
  | .fade a => .next (s.tryDissolve a)
  | .update => .next s.updated
  | .read k n => .next (s.readPiece k n)
  | .error => .next s.meetError
  | .tick => .next s.advance

/-- The next move: a free choice among several. -/
def State.pick (s : State) : Out := match s.moves with
  | [] => .next s.advance
  | [m] => s.makeMove m
  | m :: r => ({ s with stepNo := s.stepNo + 1 }).makeMove ((m :: r).getD (Config.choice s.stepNo % (r.length + 1)) m)

/-- Without power nothing happens but a reset; what else arrives is lost. -/
def State.unpowered (s : State) : Out := match s.inputs with
  | [] => .fault .waitsForReset
  | .deviceReset :: r => exec .deviceReset { s with inputs := r }
  | .powerLoss :: r => exec .powerLoss { s with inputs := r }
  | _ :: r => .next { s with inputs := r }

/-- One step. -/
def State.stepOnce (s : State) : Out :=
  if s.dev.power ≠ .on then s.unpowered
  else match s.due with
    | i :: r => exec i { s with due := r }
    | [] => s.pick

/-! ### A state whose next instruction is a given one -/

/-- The module is powered, its first island runs at nominal, and the numbers of one slice, launch, code object and territory are given out. -/
def State.withPower (s : State) : State :=
  { s with dev := { s.dev with power := .on, isl := vset s.dev.isl 0 { clk := 16, hot := false, watts16 := 0 }, nextUid := s.dev.nextUid + 1,
                               nextLaunch := s.dev.nextLaunch + 1, nextHandle := s.dev.nextHandle + 1, nextTerr := s.dev.nextTerr + 1 } }

/-- The control state and slice that run a bundle as a program's first: territory 0 with tile (0, 0), one code object that holds it, and a
slice of one core with a frame of 64 KiB. -/
def State.withBundle (s : State) (w : BitVec 64) : State :=
  let body : CodeBody := { words := [w], data := [], slice := none, frame := 65536, rings := [], patches := [] }
  let x := newSlice 0 0 0 0 0 0 0xFFFFFFFFFFFFFFFF#64 0 4294967295 65536 1 (some 0) false (some 0) []
  let t0 : TileId := 0
  let c0 : CoreId := 0
  let s1 := (s.modTile t0 (fun t => { t with owner := some 0, lastFid := some 0, nextSid := 1, resident := [0] })).modCore c0 (fun _ =>
    { Core.reset with sl := some 0, ringbase := 0x2000 })
  let s2 := s1.withPower
  { s2 with
    terrs := [newTerr 0 0 0 t0 0 1 384 0], codes := [{ handle := 0, terr := 0, body := body, dimg := 0 }],
    launches := [{ id := 0, sess := 0, terr := 0, seq := 0, open' := 1, nslice := 0, late := 0, replays := 0, status := 0, forced := none, first := 0,
                   cause := 0 }],
    slices := [{ x with tile := some t0, st := .running, cores := [c0], table := some 0, fsize := 65536 }], cur := c0,
    net := [], kept := [], inputs := [], due := [] }

end Sys2Proof.Machine
end

