-- ==== Sys2Proof/Machine/Step.lean ====
section
/-! DEFINITION. One step of the machine, and the state whose next instruction is a given one. -/

namespace Sys2Proof.Machine

/-- One step: one agent moves, or a cycle of the time base ends. -/
def step (s : State) : Host.Outcome State Fault Refusal := s.stepOnce

/-- The state with an instruction of the opcode table as the only bundle of a program that is about to issue it (log 6). -/
def State.withFetchWord (s : State) (nbits w : Nat) : State := s.withBundle (BitVec.ofNat 64 (tableBundle nbits w))

end Sys2Proof.Machine
end

