-- ==== Sys2Proof/Safety.lean ====
section
/-! DEFINITION. The terms the claims about the machine use: the invariant of every step, when a word meets no register
fault, an access that finds its frame, and the states that a word's own effect leads to. -/

namespace Sys2Proof.Machine

/-- What every step keeps: memory is in its canonical form. -/
def State.Inv (s : State) : Prop := Memory.wf s.mem = true

/-- No register that the word reads is pending, and no result it makes collides with another (02 R39, R40). -/
def State.Ready (s : State) (reads : List RegId) (writes : List (RegId × Option Nat)) : Prop :=
  (∀ r ∈ reads, s.c.isPend r = false) ∧ ∀ d ∈ writes, s.c.collides d = false

/-- The state of a word that has issued. -/
def State.issued (s : State) : State := { s with issue := .issued }

/-- The state of a word whose whole effect is one result: it lands on the issuing core `n` bundles later with the flags `fl`. -/
def State.result (s : State) (w : Wr) (n : Nat) (fl : BitVec 6) : State := (s.landAt w n fl).issued

/-- The state of a C-word or lone word with the switch marker `m`, from the state its effect leads to. -/
def State.after (s : State) (m : Bool) : State := (s.mark m).issued

/-- The state of a bundle that waits: its core is frozen (02 R41). -/
def State.frozenBy (s : State) (f : Freeze) : State :=
  let s1 := s.modCur (fun c => { c with freeze := some f })
  { s1 with issue := .stalled }

/-- `n` bytes at `a` lie in the slice's own frame at offset `off`, aligned to `align`, and no range lock refuses the access
(04 R80, R81, R98). -/
def State.InFrame (s : State) (a : Word) (off n align : Nat) (store : Bool) : Prop :=
  parseAddr a = .local' off ∧ a.toNat % align = 0 ∧ s.sl.fid.isSome = true ∧ off + n ≤ s.sl.fsize ∧
    (s.tiles[s.tile]).lockHit (s.sl.fbase + off) n store = none

/-- The address names a peer tile's frame, or HBM, and the access to `n` bytes may leave the core: no range lock of its own tile refuses one
that names its own tile (04 R81, R98). -/
def State.IsFar (s : State) (a : Word) (n align : Nat) (store : Bool) : Prop :=
  a.toNat % align = 0 ∧
    ((∃ lidx fid off, parseAddr a = .peer lidx fid off ∧ (fid = 255 → s.sl.fid.isSome = true) ∧
        ∀ p, s.ownPeer lidx fid off = some p → (s.tiles[s.tile]).lockHit p n store = none) ∨
      ∃ va, parseAddr a = .hbm va)

/-- The core uses its own control registers and its next bundle is no delay bundle: a branch executes (02 R34, 08 R178). -/
def State.MayBranch (s : State) : Prop := s.ownsControl = true ∧ s.ctl.delay = none

/-- Two states agree on every byte of memory outside the `n` bytes from key `k` on. -/
def SameOutside (s t : State) (k n : Nat) : Prop := ∀ a, a < k ∨ k + n ≤ a → t.byte a = s.byte a

/-- A comparison holds as its condition says of the bits, the Int values or the unsigned values. -/
def CondSays (c : Cond) (x y : Word) : Prop := match c with
  | .eq => x = y
  | .ne => x ≠ y
  | .lt => x.toInt < y.toInt
  | .le => x.toInt ≤ y.toInt
  | .gt => y.toInt < x.toInt
  | .ge => y.toInt ≤ x.toInt
  | .ltu => x.toNat < y.toNat
  | .leu => x.toNat ≤ y.toNat
  | .gtu => y.toNat < x.toNat
  | .geu => y.toNat ≤ x.toNat

/-- A vector condition holds of two elements: integers by the type's sign, floats by their values in the real order where ±0 are equal, and
with a NaN only `ne` (05 R114, 10 R215). -/
def VCondSays (ty : ETy) (c : VCond) (x y : Nat) : Prop :=
  let holds (a b : Int) : Prop := match c with
    | .eq => a = b
    | .ne => a ≠ b
    | .lt => a < b
    | .le => a ≤ b
    | .gt => b < a
    | .ge => b ≤ a
  match elemKind ty with
  | .flt f => if (f.decode x).isNaN || (f.decode y).isNaN then c = .ne else holds (f.valueKey x) (f.valueKey y)
  | .int sg w => holds (intOf sg w x) (intOf sg w y)

/-- A vector whose elements of `w` bits are `f` of the elements of two others, with the flags of all elements (10 R209). -/
def IsMap2 (w : Nat) (f : Nat → Nat → FRes) (x y v : Vec) (fl : BitVec 6) : Prop :=
  (∀ j < 1024 / w, elem v w j = (f (elem x w j) (elem y w j)).1 % 2 ^ w) ∧
    ∀ i < 6, fl.getLsbD i = true ↔ ∃ j < 1024 / w, (f (elem x w j) (elem y w j)).2.getLsbD i = true

/-- A vector whose elements of `w` bits are `f` of the elements of another, with the flags of all elements (10 R209). -/
def IsMap1 (w : Nat) (f : Nat → FRes) (x v : Vec) (fl : BitVec 6) : Prop :=
  (∀ j < 1024 / w, elem v w j = (f (elem x w j)).1 % 2 ^ w) ∧
    ∀ i < 6, fl.getLsbD i = true ↔ ∃ j < 1024 / w, (f (elem x w j)).2.getLsbD i = true

/-- The word answers a next state whose only effect is a vector result at latency `n`: `f` of the elements of `x` and `y`. -/
def Answers2 (s : State) (i : Instr) (d : Reg) (n w : Nat) (f : Nat → Nat → FRes) (x y : Vec) : Prop :=
  ∃ v fl, IsMap2 w f x y v fl ∧ exec i s = .next (s.result (.vector d v) n fl)

/-- The word answers a next state whose only effect is a vector result at latency `n`: `f` of the elements of `x`. -/
def Answers1 (s : State) (i : Instr) (d : Reg) (n w : Nat) (f : Nat → FRes) (x : Vec) : Prop :=
  ∃ v fl, IsMap1 w f x v fl ∧ exec i s = .next (s.result (.vector d v) n fl)

/-- The word answers a next state whose only effect is a vector result at latency `n` with the flags `fl`: element j of `w` bits is
`f j`. -/
def AnswersElems (s : State) (i : Instr) (d : Reg) (n w : Nat) (f : Nat → Nat) (fl : BitVec 6) : Prop :=
  ∃ v : Vec, (∀ j < 1024 / w, elem v w j = f j % 2 ^ w) ∧ exec i s = .next (s.result (.vector d v) n fl)

/-- The guard an instruction carries: that of an A-word (01 R12). -/
def guardOf : Instr → Option Guard
  | .nopA g => some g
  | .add g _ _ _ => some g
  | .sub g _ _ _ => some g
  | .mul g _ _ _ => some g
  | .mulh g _ _ _ => some g
  | .mulhu g _ _ _ => some g
  | .div g _ _ _ => some g
  | .divu g _ _ _ => some g
  | .rem g _ _ _ => some g
  | .remu g _ _ _ => some g
  | .and g _ _ _ => some g
  | .or g _ _ _ => some g
  | .xor g _ _ _ => some g
  | .andn g _ _ _ => some g
  | .shl g _ _ _ => some g
  | .shr g _ _ _ => some g
  | .sra g _ _ _ => some g
  | .rotr g _ _ _ => some g
  | .clz g _ _ => some g
  | .ctz g _ _ => some g
  | .popc g _ _ => some g
  | .min g _ _ _ => some g
  | .max g _ _ _ => some g
  | .minu g _ _ _ => some g
  | .maxu g _ _ _ => some g
  | .mov g _ _ => some g
  | .extb g _ _ => some g
  | .exth g _ _ => some g
  | .lea g _ _ _ _ => some g
  | .addi g _ _ => some g
  | .andi g _ _ => some g
  | .ori g _ _ => some g
  | .xori g _ _ => some g
  | .movi g _ _ => some g
  | .shli g _ _ _ => some g
  | .shri g _ _ _ => some g
  | .srai g _ _ _ => some g
  | .cmp g _ _ _ _ => some g
  | .cmpi g _ _ _ _ => some g
  | .pand g _ _ _ => some g
  | .por g _ _ _ => some g
  | .pxor g _ _ _ => some g
  | .pnot g _ _ => some g
  | .sel g _ _ _ _ => some g
  | .tadr g _ _ _ => some g
  | .vadd g _ _ _ _ => some g
  | .vsub g _ _ _ _ => some g
  | .vmul g _ _ _ _ => some g
  | .vdiv g _ _ _ _ => some g
  | .vmin g _ _ _ _ => some g
  | .vmax g _ _ _ _ => some g
  | .vminn g _ _ _ _ => some g
  | .vmaxn g _ _ _ _ => some g
  | .vsqrt g _ _ _ => some g
  | .vrcp g _ _ _ => some g
  | .vrsq g _ _ _ => some g
  | .vexp2 g _ _ _ => some g
  | .vlog2 g _ _ _ => some g
  | .vabs g _ _ _ => some g
  | .vneg g _ _ _ => some g
  | .vand g _ _ _ => some g
  | .vor g _ _ _ => some g
  | .vxor g _ _ _ => some g
  | .vnot g _ _ => some g
  | .vshl g _ _ _ _ => some g
  | .vshr g _ _ _ _ => some g
  | .vsra g _ _ _ _ => some g
  | .vfma g _ _ _ _ _ => some g
  | .vfms g _ _ _ _ _ => some g
  | .vfnma g _ _ _ _ _ => some g
  | .vcmp g _ _ _ _ _ => some g
  | .vsel g _ _ _ _ => some g
  | .vcvt g _ _ _ _ _ _ => some g
  | .vcvtSr g _ _ _ _ _ _ => some g
  | .vredadd g _ _ _ _ => some g
  | .vredmax g _ _ _ _ => some g
  | .vredmin g _ _ _ _ => some g
  | .vperm g _ _ _ _ => some g
  | .vbcast g _ _ _ => some g
  | .vslide g _ _ _ _ => some g
  | .viota g _ _ => some g
  | .vmovs g _ _ _ _ => some g
  | .vext g _ _ _ _ => some g
  | .vsat g _ _ _ _ => some g
  | .vclamp g _ _ _ _ => some g
  | .vpack g _ _ _ _ => some g
  | .vunpk g _ _ _ _ => some g
  | .vqmx g _ _ _ => some g
  | .vdqmx g _ _ _ => some g
  | _ => none

/-- The C-words of the opcode table (08 R159, 09, 11). -/
def isCWord : Instr → Bool
  | .nopC _ => true
  | .ret _ => true
  | .rett _ => true
  | .upret _ => true
  | .exit _ => true
  | .yld _ => true
  | .trap _ _ => true
  | .bkpt _ _ => true
  | .fence _ _ => true
  | .fencesc _ _ => true
  | .br _ _ => true
  | .brp _ _ _ _ => true
  | .call _ _ => true
  | .detach _ _ => true
  | .attach _ _ => true
  | .loop _ _ _ _ => true
  | .loopr _ _ _ _ => true
  | .jmp _ _ => true
  | .callr _ _ => true
  | .mvtl _ _ _ => true
  | .mvfl _ _ _ => true
  | .mfs _ _ _ => true
  | .mts _ _ _ => true
  | .disc _ _ _ => true
  | .cycle _ _ => true
  | .seal _ _ _ => true
  | .spawn _ _ _ => true
  | .ld _ _ _ _ _ => true
  | .st _ _ _ _ _ => true
  | .lda _ _ _ _ _ _ => true
  | .stl _ _ _ _ _ _ => true
  | .ldp _ _ _ _ _ => true
  | .stp _ _ _ _ _ => true
  | .vld _ _ _ _ => true
  | .vst _ _ _ _ => true
  | .vldp _ _ _ _ => true
  | .vstp _ _ _ _ => true
  | .vlds _ _ _ _ _ => true
  | .vsts _ _ _ _ _ => true
  | .vgath _ _ _ _ _ => true
  | .vscat _ _ _ _ _ => true
  | .atom _ _ _ _ _ _ => true
  | .atomp _ _ _ _ _ _ => true
  | .bar _ _ => true
  | .barq _ _ _ => true
  | .vote _ _ _ _ => true
  | .rsub _ _ _ => true
  | .rget _ _ _ => true
  | .rput _ _ => true
  | .rrel _ _ => true
  | .barcfg _ _ _ _ _ _ _ => true
  | .msend _ _ _ => true
  | .mrecv _ _ _ _ => true
  | .mprobe _ _ _ => true
  | .mcast _ _ => true
  | .mres _ _ => true
  | _ => false

/-- The lone words of the opcode table (08 R161, 12 R259). -/
def isLone : Instr → Bool
  | .liSigned _ _ _ => true
  | .liHbm _ _ _ => true
  | .liPeer _ _ _ => true
  | .liShifted _ _ _ => true
  | .rwait _ _ _ _ => true
  | .copy _ _ _ _ _ => true
  | .copym _ _ _ => true
  | .cwait _ _ => true
  | .cquery _ _ => true
  | .mlw _ _ _ _ => true
  | .mfmt _ _ _ => true
  | .mmul _ _ _ _ _ _ _ _ _ => true
  | .mout _ _ _ => true
  | .mdrain _ _ _ _ _ => true
  | .mver _ _ _ => true
  | .mzero _ _ _ => true
  | .mwait _ _ _ => true
  | .opatch _ _ _ => true
  | .oclk _ _ _ => true
  | .osetY _ _ _ => true
  | .osetRes _ _ _ => true
  | .osetPort _ _ _ => true
  | .osetBind _ _ _ _ => true
  | .ogetY _ _ _ => true
  | .ogetRes _ _ _ => true
  | .ogetTap _ _ _ => true
  | .ogetDom _ _ _ => true
  | .ostep _ _ => true
  | .orun _ _ _ => true
  | .ohalt _ _ => true
  | .osave _ _ => true
  | .orst _ _ => true
  | .otap _ _ _ => true
  | .tshape _ _ _ => true
  | .tmap _ _ _ => true
  | .tpress _ _ => true
  | .tanchor _ _ _ => true
  | .tfreeze _ => true
  | .tthaw _ => true
  | .tevac _ => true
  | _ => false

/-- The registers a word reads, in operand order, and those it writes, each with its latency, none where the result has a variable one
(02 R38, 08 R159, R162, 09 R201, 10 R208, 11 R234 to R238): of every A-word, and of the C-words and lone words that meet no other check before
that of their registers. -/
def operandsOf : Instr → Option (List RegId × List (RegId × Option Nat))
  | .nopA _ => some ([], [])
  | .add _ d a b => some ([.scalar a, .scalar b], wS d (some 1))
  | .sub _ d a b => some ([.scalar a, .scalar b], wS d (some 1))
  | .and _ d a b => some ([.scalar a, .scalar b], wS d (some 1))
  | .or _ d a b => some ([.scalar a, .scalar b], wS d (some 1))
  | .xor _ d a b => some ([.scalar a, .scalar b], wS d (some 1))
  | .andn _ d a b => some ([.scalar a, .scalar b], wS d (some 1))
  | .shl _ d a b => some ([.scalar a, .scalar b], wS d (some 1))
  | .shr _ d a b => some ([.scalar a, .scalar b], wS d (some 1))
  | .sra _ d a b => some ([.scalar a, .scalar b], wS d (some 1))
  | .rotr _ d a b => some ([.scalar a, .scalar b], wS d (some 1))
  | .min _ d a b => some ([.scalar a, .scalar b], wS d (some 1))
  | .max _ d a b => some ([.scalar a, .scalar b], wS d (some 1))
  | .minu _ d a b => some ([.scalar a, .scalar b], wS d (some 1))
  | .maxu _ d a b => some ([.scalar a, .scalar b], wS d (some 1))
  | .mul _ d a b => some ([.scalar a, .scalar b], wS d (some 3))
  | .mulh _ d a b => some ([.scalar a, .scalar b], wS d (some 3))
  | .mulhu _ d a b => some ([.scalar a, .scalar b], wS d (some 3))
  | .div _ d a b => some ([.scalar a, .scalar b], wS d (some 20))
  | .divu _ d a b => some ([.scalar a, .scalar b], wS d (some 20))
  | .rem _ d a b => some ([.scalar a, .scalar b], wS d (some 20))
  | .remu _ d a b => some ([.scalar a, .scalar b], wS d (some 20))
  | .clz _ d a => some ([.scalar a], wS d (some 1))
  | .ctz _ d a => some ([.scalar a], wS d (some 1))
  | .popc _ d a => some ([.scalar a], wS d (some 1))
  | .mov _ d a => some ([.scalar a], wS d (some 1))
  | .extb _ d a => some ([.scalar a], wS d (some 1))
  | .exth _ d a => some ([.scalar a], wS d (some 1))
  | .lea _ d a b _ => some ([.scalar a, .scalar b], wS d (some 1))
  | .addi _ d _ => some ([.scalar d], wS d (some 1))
  | .andi _ d _ => some ([.scalar d], wS d (some 1))
  | .ori _ d _ => some ([.scalar d], wS d (some 1))
  | .xori _ d _ => some ([.scalar d], wS d (some 1))
  | .movi _ d _ => some ([], wS d (some 1))
  | .shli _ d a _ => some ([.scalar a], wS d (some 1))
  | .shri _ d a _ => some ([.scalar a], wS d (some 1))
  | .srai _ d a _ => some ([.scalar a], wS d (some 1))
  | .tadr _ d a _ => some ([.scalar a], wS d (some 1))
  | .cmp _ pd a b _ => some ([.scalar a, .scalar b], wP pd (some 1))
  | .cmpi _ pd a _ _ => some ([.scalar a], wP pd (some 1))
  | .pand _ pd pa pb => some ([.pred pa, .pred pb], wP pd (some 1))
  | .por _ pd pa pb => some ([.pred pa, .pred pb], wP pd (some 1))
  | .pxor _ pd pa pb => some ([.pred pa, .pred pb], wP pd (some 1))
  | .pnot _ pd pa => some ([.pred pa], wP pd (some 1))
  | .sel _ d a b pc => some ([.scalar a, .scalar b, .pred pc], wS d (some 1))
  | .vadd _ d a b _ => some ([.vector a, .vector b], wV d (some 4))
  | .vsub _ d a b _ => some ([.vector a, .vector b], wV d (some 4))
  | .vmul _ d a b _ => some ([.vector a, .vector b], wV d (some 4))
  | .vmin _ d a b _ => some ([.vector a, .vector b], wV d (some 4))
  | .vmax _ d a b _ => some ([.vector a, .vector b], wV d (some 4))
  | .vminn _ d a b _ => some ([.vector a, .vector b], wV d (some 4))
  | .vmaxn _ d a b _ => some ([.vector a, .vector b], wV d (some 4))
  | .vdiv _ d a b _ => some ([.vector a, .vector b], wV d (some 16))
  | .vsqrt _ d a _ => some ([.vector a], wV d (some 16))
  | .vrcp _ d a _ => some ([.vector a], wV d (some 8))
  | .vrsq _ d a _ => some ([.vector a], wV d (some 8))
  | .vexp2 _ d a _ => some ([.vector a], wV d (some 8))
  | .vlog2 _ d a _ => some ([.vector a], wV d (some 8))
  | .vabs _ d a _ => some ([.vector a], wV d (some 2))
  | .vneg _ d a _ => some ([.vector a], wV d (some 2))
  | .vand _ d a b => some ([.vector a, .vector b], wV d (some 2))
  | .vor _ d a b => some ([.vector a, .vector b], wV d (some 2))
  | .vxor _ d a b => some ([.vector a, .vector b], wV d (some 2))
  | .vnot _ d a => some ([.vector a], wV d (some 2))
  | .vshl _ d a b _ => some ([.vector a, .vector b], wV d (some 2))
  | .vshr _ d a b _ => some ([.vector a, .vector b], wV d (some 2))
  | .vsra _ d a b _ => some ([.vector a, .vector b], wV d (some 2))
  | .vfma _ d a b c _ => some ([.vector a, .vector b, .vector c], wV d (some 4))
  | .vfms _ d a b c _ => some ([.vector a, .vector b, .vector c], wV d (some 4))
  | .vfnma _ d a b c _ => some ([.vector a, .vector b, .vector c], wV d (some 4))
  | .vcmp _ d a b _ _ => some ([.vector a, .vector b], wV d (some 2))
  | .vsel _ d a b c => some ([.vector a, .vector b, .vector c], wV d (some 2))
  | .vcvt _ d a _ _ _ _ => some ([.vector a], wV d (some 3))
  | .vcvtSr _ d a b _ _ _ => some ([.vector a, .scalar b], wV d (some 3))
  | .vredadd _ d a _ _ => some ([.vector a], wV d (some 6))
  | .vredmax _ d a _ _ => some ([.vector a], wV d (some 6))
  | .vredmin _ d a _ _ => some ([.vector a], wV d (some 6))
  | .vperm _ d a b _ => some ([.vector a, .vector b], wV d (some 3))
  | .vbcast _ d a _ => some ([.scalar a], wV d (some 2))
  | .vslide _ d a b _ => some ([.vector a, .scalar b], wV d (some 3))
  | .viota _ d _ => some ([], wV d (some 2))
  | .vmovs _ d a b _ => some ([.vector d, .scalar a, .scalar b], wV d (some 2))
  | .vext _ d a b _ => some ([.vector a, .scalar b], wS d (some 2))
  | .vsat _ d a _ _ => some ([.vector a], wV d (some 2))
  | .vclamp _ d a b _ => some ([.vector a, .vector b], wV d (some 2))
  | .vpack _ d a b _ => some ([.vector a, .vector b], wV d (some 3))
  | .vunpk _ d a _ _ => some ([.vector a], wV d (some 3))
  | .vqmx _ d a _ => some ([.vector a], wV d (some 6))
  | .vdqmx _ d a _ => some ([.vector a], wV d (some 6))
  | .mvfl _ d _ => some ([], wS d (some 1))
  | .mfs _ d _ => some ([], wS d (some 1))
  | .mts _ r a => some ([.scalar a], [(.sys r, some 1)])
  | .disc _ d _ => some ([], wS d (some 1))
  | .cycle _ d => some ([], wS d (some 1))
  | .seal _ a b => some ([.scalar a, .scalar b], [])
  | .spawn _ d a => some ([.scalar a], wS d none)
  | .ld _ d a _ _ => some ([.scalar a], wS d (some 5))
  | .st _ d a _ _ => some ([.scalar a, .scalar d], [])
  | .lda _ d a _ _ _ => some ([.scalar a], wS d none)
  | .ldp _ d a _ _ => some ([.scalar a], wS d none)
  | .stp _ d a _ _ => some ([.scalar a, .scalar d], [])
  | .vld _ d a _ => some ([.scalar a], wV d (some 5))
  | .vst _ d a _ => some ([.scalar a, .vector d], [])
  | .vldp _ d a _ => some ([.scalar a], wV d none)
  | .vstp _ d a _ => some ([.scalar a, .vector d], [])
  | .vlds _ d a b _ => some ([.scalar a, .scalar b], wV d (some 8))
  | .vsts _ d a b _ => some ([.scalar a, .scalar b, .vector d], [])
  | .vgath _ d a b _ => some ([.scalar a, .vector b], wV d (some 8))
  | .vscat _ d a b _ => some ([.scalar a, .vector b, .vector d], [])
  | .atom _ d a b op _ => some (atomReads op d a b, wS d (some 6))
  | .atomp _ d a b op _ => some (atomReads op d a b, wS d none)
  | .barq _ d _ => some ([], wS d (some 1))
  | .vote _ d a _ => some ([.scalar a], wS d none)
  | .rsub _ a _ => some ([.scalar a], [])
  | .rget _ d _ => some ([], wS d (some 1))
  | .msend _ a b => some ([.scalar a, .scalar b], [])
  | .mrecv _ d a b => some ([.scalar a, .scalar b], wS d none)
  | .mprobe _ d b => some ([.scalar b], wS d none)
  | .mcast _ a => some ([.scalar a], [])
  | .mres _ a => some ([.scalar a], [])
  | .liSigned _ d _ => some ([], wS d (some 1))
  | .liHbm _ d _ => some ([], wS d (some 1))
  | .liPeer _ d _ => some ([], wS d (some 1))
  | .liShifted _ d _ => some ([], wS d (some 1))
  | .copy _ a b c _ => some ([.scalar a, .scalar b, .scalar c], [])
  | .copym _ a _ => some ([.scalar a], [])
  | .cquery _ d => some ([], wS d (some 2))
  | .mlw _ a _ _ => some ([.scalar a], [])
  | .mmul _ a b c _ _ _ _ _ => some ([.scalar a, .scalar b, .scalar c], [])
  | .mout _ a _ => some ([.scalar a], [])
  | .mdrain _ a b _ _ => some ([.scalar a, .scalar b], [])
  | .mver _ d _ => some ([], wS d (some 1))
  | .mzero _ b _ => some ([.scalar b], [])
  | .mwait _ b _ => some ([.scalar b], [])
  | .opatch _ a _ => some ([.scalar a], [])
  | .osetY _ a _ => some ([.scalar a], [])
  | .osetRes _ a _ => some ([.scalar a], [])
  | .osetPort _ a _ => some ([.vector a], [])
  | .ogetY _ d _ => some ([], wS d (some 2))
  | .ogetRes _ d _ => some ([], wS d (some 2))
  | .ogetTap _ d _ => some ([], wS d (some 2))
  | .ogetDom _ d _ => some ([], wS d (some 2))
  | .orun _ a _ => some ([.scalar a], [])
  | .otap _ a _ => some ([.scalar a], [])
  | .osave _ a => some ([.scalar a], [])
  | .orst _ a => some ([.scalar a], [])
  | .tshape _ d a => some ([.scalar a], wS d none)
  | .tmap _ d a => some ([.scalar a], wS d none)
  | .tpress _ a => some ([.scalar a], [])
  | .tanchor _ a _ => some ([.scalar a], [])
  | _ => none

/-- The 32 elements of a strided, gather or scatter access all pass the checks of an access to the slice's own frame. -/
def State.LanesInFrame (s : State) (addr : Nat → Word) (n : Nat) (store : Bool) : Prop :=
  ∀ l < 32, ∃ off, s.InFrame (addr l) off n n store

/-- The next message of its source, destination and class, in sequence at its destination (11 R247). -/
def State.Arriving (s : State) (k : Nat) (p : Packet) : Prop :=
  s.firstPacket k = some p ∧ p.seq = lookupSeq s.rxSeq p.key

/-- The state in which an arriving message has been accepted. -/
def State.accepted (s : State) (p : Packet) : State :=
  { s.takePacket p.id with rxSeq := bumpSeq (s.takePacket p.id).rxSeq p.key }

/-- A command that its session may run now: the session is open with no command under way, the device has firmware, the frame is well
formed, its SEQ is the next, and it travels as the session's interface asks (16 R295, R296, 17 R320, R331). -/
def State.MayRun (s : State) (h : Hdr) : Prop :=
  ∃ x, s.findSession h.sess = some x ∧ x.busy = false ∧ s.dev.bootFail = false ∧ h.formed = true ∧ h.seq = x.nextSeq ∧ s.secureOk h = true

/-- Such a command on the territory it names, which is its session's. -/
def State.MayRunOn (s : State) (h : Hdr) : Prop := s.MayRun h ∧ (s.ownTerr h).isSome = true

/-- The state after a command whose effect led to `s`: its SEQ is taken, and a response of status 0 carries `b`. -/
def State.ran (s : State) (h : Hdr) (code : Nat) (b : Body) : State := (s.accept h false).respond h code 0 b

/-- The header and the code of a host command that belongs to an open session. -/
def commandOf (i : Instr) : Option (Hdr × Nat) := match i with
  | .openSession _ _ _ => none
  | .unknownCommand _ _ => none
  | _ => i.command

end Sys2Proof.Machine
end

