-- ==== Sys2Proof/Certificates/Slice0/Obligations.lean ====
section
/-! DEFINITION. The claims about the machine. -/

open Sys2Proof Sys2Proof.Machine

/-! ### Scalar A-words -/

/-- The register-register forms compute the values of R201's table at their latencies, and set no flag. For the minimum and maximum
forms the lesser and the greater are by Int or unsigned. -/
def Obligations.ScalarRegisterForms : Prop :=
  ∀ (s : State) (g : Guard) (d a b : Reg) (k : Fin 4), s.guardOn g = true → s.Ready [.scalar a, .scalar b] (wS d (some 1)) →
    let x := s.rs a
    let y := s.rs b
    let n := y.toNat % 64
    let res (v : Word) : Out := .next (s.result (.scalar d v) 1 0)
    exec (.add g d a b) s = res (x + y) ∧
    exec (.sub g d a b) s = res (x - y) ∧
    exec (.and g d a b) s = res (x &&& y) ∧
    exec (.or g d a b) s = res (x ||| y) ∧
    exec (.xor g d a b) s = res (x ^^^ y) ∧
    exec (.andn g d a b) s = res (x &&& ~~~y) ∧
    exec (.shl g d a b) s = res (BitVec.ofNat 64 (x.toNat * 2 ^ n)) ∧
    exec (.shr g d a b) s = res (BitVec.ofNat 64 (x.toNat / 2 ^ n)) ∧
    exec (.sra g d a b) s = res (BitVec.ofInt 64 (x.toInt / 2 ^ n)) ∧
    exec (.rotr g d a b) s = res (BitVec.ofNat 64 (x.toNat / 2 ^ n + x.toNat * 2 ^ (64 - n))) ∧
    exec (.min g d a b) s = res (BitVec.ofInt 64 (min x.toInt y.toInt)) ∧
    exec (.max g d a b) s = res (BitVec.ofInt 64 (max x.toInt y.toInt)) ∧
    exec (.minu g d a b) s = res (BitVec.ofNat 64 (min x.toNat y.toNat)) ∧
    exec (.maxu g d a b) s = res (BitVec.ofNat 64 (max x.toNat y.toNat)) ∧
    exec (.lea g d a b k) s = res (BitVec.ofNat 64 (x.toNat + y.toNat * 2 ^ k.val))

/-- Products are taken exactly and their low or high 64 bits land at latency 3; division truncates toward zero, answers every divisor and
dividend, and lands at latency 20. -/
def Obligations.ScalarProductsAndQuotients : Prop :=
  (∀ (s : State) (g : Guard) (d a b : Reg), s.guardOn g = true → s.Ready [.scalar a, .scalar b] (wS d (some 3)) →
    let x := s.rs a
    let y := s.rs b
    let res (v : Word) : Out := .next (s.result (.scalar d v) 3 0)
    exec (.mul g d a b) s = res (BitVec.ofNat 64 (x.toNat * y.toNat)) ∧
    exec (.mulh g d a b) s = res ((x.signExtend 128 * y.signExtend 128).extractLsb' 64 64) ∧
    exec (.mulhu g d a b) s = res ((x.setWidth 128 * y.setWidth 128).extractLsb' 64 64)) ∧
  (∀ (s : State) (g : Guard) (d a b : Reg), s.guardOn g = true → s.Ready [.scalar a, .scalar b] (wS d (some 20)) →
    let x := s.rs a
    let y := s.rs b
    let res (v : Word) : Out := .next (s.result (.scalar d v) 20 0)
    exec (.div g d a b) s = res (if y = 0 then BitVec.allOnes 64 else x.sdiv y) ∧
    exec (.rem g d a b) s = res (if y = 0 then x else x.srem y) ∧
    exec (.divu g d a b) s = res (if y = 0 then BitVec.allOnes 64 else x / y) ∧
    exec (.remu g d a b) s = res (if y = 0 then x else x % y))

/-- Copies, extensions and counts of one operand; the immediate forms read and write the register in d, MOVI reads none, and the shift
immediates shift by bits 11:6. All land at latency 1. -/
def Obligations.ScalarOneOperandAndImmediateForms : Prop :=
  (∀ (s : State) (g : Guard) (d a : Reg), s.guardOn g = true → s.Ready [.scalar a] (wS d (some 1)) →
    let x := s.rs a
    let res (v : Word) : Out := .next (s.result (.scalar d v) 1 0)
    exec (.mov g d a) s = res x ∧
    exec (.extb g d a) s = res ((x.setWidth 8).signExtend 64) ∧
    exec (.exth g d a) s = res ((x.setWidth 16).signExtend 64) ∧
    exec (.popc g d a) s = res (BitVec.ofNat 64 ((List.range 64).countP (fun i => x.getLsbD i))) ∧
    (∃ n ≤ 64, exec (.clz g d a) s = res (BitVec.ofNat 64 n) ∧ (∀ i < n, x.getLsbD (63 - i) = false) ∧
      (n < 64 → x.getLsbD (63 - n) = true)) ∧
    ∃ n ≤ 64, exec (.ctz g d a) s = res (BitVec.ofNat 64 n) ∧ (∀ i < n, x.getLsbD i = false) ∧ (n < 64 → x.getLsbD n = true)) ∧
  (∀ (s : State) (g : Guard) (d a : Reg) (imm : BitVec 16) (sh : BitVec 6), s.guardOn g = true →
    let res (v : Word) : Out := .next (s.result (.scalar d v) 1 0)
    (s.Ready [] (wS d (some 1)) → exec (.movi g d imm) s = res (imm.signExtend 64)) ∧
    (s.Ready [.scalar d] (wS d (some 1)) →
      exec (.addi g d imm) s = res (s.rs d + imm.signExtend 64) ∧
      exec (.andi g d imm) s = res (s.rs d &&& imm.setWidth 64) ∧
      exec (.ori g d imm) s = res (s.rs d ||| imm.setWidth 64) ∧
      exec (.xori g d imm) s = res (s.rs d ^^^ imm.setWidth 64)) ∧
    (s.Ready [.scalar a] (wS d (some 1)) →
      exec (.shli g d a sh) s = res (BitVec.ofNat 64 ((s.rs a).toNat * 2 ^ sh.toNat)) ∧
      exec (.shri g d a sh) s = res (BitVec.ofNat 64 ((s.rs a).toNat / 2 ^ sh.toNat)) ∧
      exec (.srai g d a sh) s = res (BitVec.ofInt 64 ((s.rs a).toInt / 2 ^ sh.toNat))))

/-- CMP and CMPI write pd with latency 1, 1 where the relation holds and 0 otherwise; the predicate forms write pd with latency 1, and SEL
chooses by the predicate it reads at issue, which must not be pending. -/
def Obligations.ComparisonsAndPredicates : Prop :=
  (∀ (s : State) (g : Guard) (pd : PReg) (a b : Reg) (c : Cond) (imm : BitVec 10), s.guardOn g = true →
    (s.Ready [.scalar a, .scalar b] (wP pd (some 1)) →
      ∃ v : Bool, (v = true ↔ CondSays c (s.rs a) (s.rs b)) ∧ exec (.cmp g pd a b c) s = .next (s.result (.pred pd v) 1 0)) ∧
    (s.Ready [.scalar a] (wP pd (some 1)) →
      ∃ v : Bool, (v = true ↔ CondSays c (s.rs a) (imm.signExtend 64)) ∧
        exec (.cmpi g pd a c imm) s = .next (s.result (.pred pd v) 1 0))) ∧
  (∀ (s : State) (g : Guard) (pd pa pb : PReg) (d a b : Reg), s.guardOn g = true →
    (s.Ready [.pred pa, .pred pb] (wP pd (some 1)) →
      exec (.pand g pd pa pb) s = .next (s.result (.pred pd (s.rp pa && s.rp pb)) 1 0) ∧
      exec (.por g pd pa pb) s = .next (s.result (.pred pd (s.rp pa || s.rp pb)) 1 0) ∧
      exec (.pxor g pd pa pb) s = .next (s.result (.pred pd (Bool.xor (s.rp pa) (s.rp pb))) 1 0)) ∧
    (s.Ready [.pred pa] (wP pd (some 1)) → exec (.pnot g pd pa) s = .next (s.result (.pred pd (!s.rp pa)) 1 0)) ∧
    (s.Ready [.scalar a, .scalar b, .pred pa] (wS d (some 1)) →
      exec (.sel g d a b pa) s = .next (s.result (.scalar d (if s.rp pa then s.rs a else s.rs b)) 1 0)) ∧
    (s.Ready [.scalar a, .scalar b] [] → s.c.isPend (.pred pa) = true →
      exec (.sel g d a b pa) s = .next (s.preciseTrap (cause 0x03 (BitVec.ofNat 64 (512 + pa.val)) 0))))

/-- TADR builds a peer address at frame id 0xFF; NOPs change nothing but carry the switch marker; the four shapes of LI land their
values at latency 1. -/
def Obligations.AddressesAndConstants : Prop :=
  ∀ (s : State) (g : Guard) (m : Bool) (d a : Reg) (imm : BitVec 12) (p : BitVec 51) (h : BitVec 48) (q : BitVec 40),
    exec (.nopA g) s = .next s.issued ∧
    exec (.nopC m) s = .next (s.after m) ∧
    (s.guardOn g = true → s.Ready [.scalar a] (wS d (some 1)) →
      exec (.tadr g d a imm) s = .next (s.result (.scalar d (BitVec.ofNat 64
        (2 * 2 ^ 60 + (s.rs a).toNat % 2 ^ 10 * 2 ^ 50 + 255 * 2 ^ 42 + imm.toNat))) 1 0)) ∧
    (s.Ready [] (wS d (some 1)) →
      exec (.liSigned m d p) s = .next ((s.landAt (.scalar d (BitVec.ofInt 64 p.toInt)) 1 0).after m) ∧
      exec (.liHbm m d h) s = .next ((s.landAt (.scalar d (BitVec.ofNat 64 (4 * 2 ^ 60 + h.toNat))) 1 0).after m) ∧
      exec (.liPeer m d q) s = .next ((s.landAt (.scalar d (BitVec.ofNat 64
        (2 * 2 ^ 60 + q.toNat / 2 ^ 22 * 2 ^ 42 + q.toNat % 2 ^ 22))) 1 0).after m) ∧
      exec (.liShifted m d p) s = .next ((s.landAt (.scalar d (BitVec.ofInt 64 (p.toInt * 2 ^ 13))) 1 0).after m))

/-! ### Vector A-words -/

/-- Two-operand arithmetic, element by element: floats by the format's operation, the lesser and greater by the type's sign; an integer
sum, difference or product is its low w bits whatever the sign and sets no flag. -/
def Obligations.VectorArithmetic : Prop :=
  (∀ (s : State) (g : Guard) (d a b : Reg) (ty : ETy), s.guardOn g = true →
    let w := elemWidth ty
    let x := s.rv a
    let y := s.rv b
    (s.Ready [.vector a, .vector b] (wV d (some 4)) →
      Answers2 s (.vadd g d a b ty) d 4 w (elemOp2 ty FFmt.add (· + ·)) x y ∧
      Answers2 s (.vsub g d a b ty) d 4 w (elemOp2 ty FFmt.sub (· - ·)) x y ∧
      Answers2 s (.vmul g d a b ty) d 4 w (elemOp2 ty FFmt.mul (· * ·)) x y ∧
      Answers2 s (.vmin g d a b ty) d 4 w (elemOp2 ty (fun f => f.minmax false false) min) x y ∧
      Answers2 s (.vmax g d a b ty) d 4 w (elemOp2 ty (fun f => f.minmax true false) max) x y ∧
      (ty.isArithFloat = true →
        Answers2 s (.vminn g d a b ty) d 4 w (elemOp2 ty (fun f => f.minmax false true) min) x y ∧
        Answers2 s (.vmaxn g d a b ty) d 4 w (elemOp2 ty (fun f => f.minmax true true) max) x y)) ∧
    (ty.isArithFloat = true → s.Ready [.vector a, .vector b] (wV d (some 16)) →
      ∃ f, elemKind ty = .flt f ∧ Answers2 s (.vdiv g d a b ty) d 16 w f.div x y)) ∧
  (∀ (s : State) (g : Guard) (d a b : Reg) (ty : ETy), ty.isByteInt = true → s.guardOn g = true →
    s.Ready [.vector a, .vector b] (wV d (some 4)) →
    let w := elemWidth ty
    let x := fun j => elem (s.rv a) w j
    let y := fun j => elem (s.rv b) w j
    AnswersElems s (.vadd g d a b ty) d 4 w (fun j => x j + y j) 0 ∧
    AnswersElems s (.vsub g d a b ty) d 4 w (fun j => x j + 2 ^ w - y j) 0 ∧
    AnswersElems s (.vmul g d a b ty) d 4 w (fun j => x j * y j) 0)

/-- The one-operand functions at their latencies; absolute value and negation act on the sign bit of a float and wrap on an integer. -/
def Obligations.VectorOneOperandForms : Prop :=
  ∀ (s : State) (g : Guard) (d a : Reg) (ty : ETy), s.guardOn g = true →
    let w := elemWidth ty
    let x := s.rv a
    (∀ f, elemKind ty = .flt f →
      (s.Ready [.vector a] (wV d (some 16)) → Answers1 s (.vsqrt g d a ty) d 16 w f.sqrt x) ∧
      (s.Ready [.vector a] (wV d (some 8)) →
        Answers1 s (.vrcp g d a ty) d 8 w f.rcp x ∧ Answers1 s (.vrsq g d a ty) d 8 w f.rsq x ∧
        Answers1 s (.vexp2 g d a ty) d 8 w f.exp2 x ∧ Answers1 s (.vlog2 g d a ty) d 8 w f.log2 x) ∧
      (s.Ready [.vector a] (wV d (some 2)) →
        AnswersElems s (.vabs g d a ty) d 2 w (fun j => elem x w j % 2 ^ (w - 1)) 0 ∧
        AnswersElems s (.vneg g d a ty) d 2 w (fun j => elem x w j + 2 ^ (w - 1)) 0)) ∧
    (∀ sg, elemKind ty = .int sg w → s.Ready [.vector a] (wV d (some 2)) →
      AnswersElems s (.vneg g d a ty) d 2 w (fun j => 2 ^ w - elem x w j) 0 ∧
      AnswersElems s (.vabs g d a ty) d 2 w (fun j => if intOf sg w (elem x w j) < 0 then 2 ^ w - elem x w j else elem x w j) 0)

/-- The bitwise forms act on all 1,024 bits, the shifts on each element by the low bits of the other's, VSEL bit by bit; none sets a
flag. -/
def Obligations.VectorBitwiseAndShifts : Prop :=
  ∀ (s : State) (g : Guard) (d a b c : Reg) (ty : ETy), s.guardOn g = true →
    let w := elemWidth ty
    let x := s.rv a
    let y := s.rv b
    let res (v : Vec) : Out := .next (s.result (.vector d v) 2 0)
    (s.Ready [.vector a, .vector b] (wV d (some 2)) →
      exec (.vand g d a b) s = res (x &&& y) ∧ exec (.vor g d a b) s = res (x ||| y) ∧ exec (.vxor g d a b) s = res (x ^^^ y) ∧
      AnswersElems s (.vshl g d a b ty) d 2 w (fun j => elem x w j * 2 ^ (elem y w j % w)) 0 ∧
      AnswersElems s (.vshr g d a b ty) d 2 w (fun j => elem x w j / 2 ^ (elem y w j % w)) 0 ∧
      AnswersElems s (.vsra g d a b ty) d 2 w
        (fun j => (sext (elem x w j) w / 2 ^ (elem y w j % w) % 2 ^ w).toNat) 0) ∧
    (s.Ready [.vector a] (wV d (some 2)) → exec (.vnot g d a) s = res (~~~x)) ∧
    (s.Ready [.vector a, .vector b, .vector c] (wV d (some 2)) →
      ∃ v : Vec, (∀ i, v.getLsbD i = if (s.rv c).getLsbD i then x.getLsbD i else y.getLsbD i) ∧ exec (.vsel g d a b c) s = res v)

/-- The fused forms round once per element from the exact value; an element of VCMP is all ones exactly where the vector condition holds of
the two elements, and 0 elsewhere; both set the flags of every element. -/
def Obligations.VectorFusedAndCompare : Prop :=
  ∀ (s : State) (g : Guard) (d a b c : Reg) (f : FTy) (ty : ETy) (cond : VCond), s.guardOn g = true →
    (s.Ready [.vector a, .vector b, .vector c] (wV d (some 4)) →
      let fm := fmtOf f
      let w := fm.width
      let r (np na : Bool) (j : Nat) : FRes := fm.fma np na (elem (s.rv a) w j) (elem (s.rv b) w j) (elem (s.rv c) w j)
      let ans (i : Instr) (np na : Bool) : Prop := ∃ fl, AnswersElems s i d 4 w (fun j => (r np na j).1) fl ∧
        ∀ k < 6, fl.getLsbD k = true ↔ ∃ j < 1024 / w, (r np na j).2.getLsbD k = true
      ans (.vfma g d a b c f) false false ∧ ans (.vfms g d a b c f) false true ∧ ans (.vfnma g d a b c f) true false) ∧
    (s.Ready [.vector a, .vector b] (wV d (some 2)) →
      Answers2 s (.vcmp g d a b ty cond) d 2 (elemWidth ty) (cmpElem ty cond) (s.rv a) (s.rv b) ∧
      ∀ x y, (VCondSays ty cond x y → (cmpElem ty cond x y).1 = 2 ^ elemWidth ty - 1) ∧
        (¬ VCondSays ty cond x y → (cmpElem ty cond x y).1 = 0))

/-- A conversion works on K = 1024 / max(sw, dw) elements and writes 0 to the elements above them. -/
def Obligations.VectorConversions : Prop :=
  ∀ (s : State) (g : Guard) (d a b : Reg) (dt st : ETy) (rm : Rm) (sat : Bool) (dr : SrTy) (f : FTy), s.guardOn g = true →
    (s.Ready [.vector a] (wV d (some 3)) →
      let k := 1024 / max (elemWidth st) (elemWidth dt)
      let r (j : Nat) : FRes := convElem dt st (rmodeOf rm) sat (elem (s.rv a) (elemWidth st) j)
      ∃ fl, AnswersElems s (.vcvt g d a dt st rm sat) d 3 (elemWidth dt) (fun j => if j < k then (r j).1 else 0) fl ∧
        ∀ i < 6, fl.getLsbD i = true ↔ ∃ j < k, (r j).2.getLsbD i = true) ∧
    (s.Ready [.vector a, .scalar b] (wV d (some 3)) →
      let t := etyOfSr dr
      let u := etyOfF f
      let k := 1024 / max (elemWidth u) (elemWidth t)
      let e := 32 / elemWidth t
      let r (j : Nat) : FRes := convElem t u (.sr (srDraw ((s.rs b).setWidth 32) (j / e) (j % e))) sat (elem (s.rv a) (elemWidth u) j)
      ∃ fl, AnswersElems s (.vcvtSr g d a b dr f sat) d 3 (elemWidth t) (fun j => if j < k then (r j).1 else 0) fl ∧
        ∀ i < 6, fl.getLsbD i = true ↔ ∃ j < k, (r j).2.getLsbD i = true)

/-- Saturation clamps each element to k bits, clamping is symmetric about 0, packing keeps the low halves of two registers, unpacking widens
half of one; quantizing writes 32 element bytes and the scale byte after them, the rest 0, and dequantizing reads them back. -/
def Obligations.VectorNarrowingForms : Prop :=
  (∀ (s : State) (g : Guard) (d a b : Reg) (k : Fin 32) (h : Bool) (ty : ETy), s.guardOn g = true →
    let w := elemWidth ty
    (s.Ready [.vector a] (wV d (some 2)) → Answers1 s (.vsat g d a k ty) d 2 w (vsatElem ty (k.val + 1)) (s.rv a)) ∧
    (s.Ready [.vector a, .vector b] (wV d (some 2)) → Answers2 s (.vclamp g d a b ty) d 2 w (vclampElem ty) (s.rv a) (s.rv b)) ∧
    (ty.narrow = true → s.Ready [.vector a, .vector b] (wV d (some 3)) →
      AnswersElems s (.vpack g d a b ty) d 3 w (fun j => if j < 512 / w then elem (s.rv a) (2 * w) j
        else elem (s.rv b) (2 * w) (j - 512 / w)) 0) ∧
    (ty.narrow = true → s.Ready [.vector a] (wV d (some 3)) →
      AnswersElems s (.vunpk g d a h ty) d 3 (2 * w)
        (fun j => (intOf ty.isSigned w (elem (s.rv a) w ((if h then 512 / w else 0) + j)) % 2 ^ (2 * w)).toNat) 0)) ∧
  (∀ (s : State) (g : Guard) (d a : Reg) (ty : ETy), s.guardOn g = true → s.Ready [.vector a] (wV d (some 6)) →
    (let r := mxQuant (mxFmtOf ty) ((elems (s.rv a) 32).map fF32.decode)
     r.1.length = 32 ∧
     AnswersElems s (.vqmx g d a ty) d 6 8 (fun j => if j < 32 then r.1.getD j 0 else if j = 32 then r.2.1 else 0) r.2.2) ∧
    (let r (j : Nat) : FRes := mxDecode (mxFmtOf ty) (elem (s.rv a) 8 32) (elem (s.rv a) 8 j)
     ∃ fl, AnswersElems s (.vdqmx g d a ty) d 6 32 (fun j => (r j).1) fl ∧
       ∀ i < 6, fl.getLsbD i = true ↔ ∃ j < 32, (r j).2.getLsbD i = true))

/-- A reduction combines lanes 0 to n in the pairwise tree, excluded lanes holding the identity, and writes every lane; the lane moves permute,
broadcast, slide, number, insert one element and extract one. -/
def Obligations.VectorReductionsAndLaneMoves : Prop :=
  (∀ (s : State) (g : Guard) (d a : Reg) (n : Fin 32) (ty : ETy), s.guardOn g = true → s.Ready [.vector a] (wV d (some 6)) →
    let ans (i : Instr) (o : RedOp) : Prop :=
      let r := redTree (redStep o ty) 5 ((List.range 32).map (fun i => if i ≤ n.val then elem (s.rv a) 32 i else redIdentity o ty)) 0
      AnswersElems s i d 6 32 (fun _ => r.1) r.2
    ans (.vredadd g d a n ty) .add ∧ ans (.vredmax g d a n ty) .max ∧ ans (.vredmin g d a n ty) .min) ∧
  (∀ (s : State) (g : Guard) (d a b : Reg) (ty : ETy), s.guardOn g = true →
    let w := elemWidth ty
    let e := 1024 / w
    (s.Ready [.vector a, .vector b] (wV d (some 3)) →
      AnswersElems s (.vperm g d a b ty) d 3 w (fun j => elem (s.rv a) w (elem (s.rv b) w j % e)) 0) ∧
    (s.Ready [.scalar a] (wV d (some 2)) → AnswersElems s (.vbcast g d a ty) d 2 w (fun _ => (s.rs a).toNat) 0) ∧
    (s.Ready [.vector a, .scalar b] (wV d (some 3)) →
      AnswersElems s (.vslide g d a b ty) d 3 w (fun j =>
        let i := (j : Int) + (s.rs b).toInt
        if 0 ≤ i ∧ i < e then elem (s.rv a) w i.toNat else 0) 0) ∧
    (s.Ready [] (wV d (some 2)) → AnswersElems s (.viota g d ty) d 2 w (fun j => j) 0) ∧
    (s.Ready [.vector d, .scalar a, .scalar b] (wV d (some 2)) →
      AnswersElems s (.vmovs g d a b ty) d 2 w
        (fun j => if j = (s.rs b).toNat % e then (s.rs a).toNat else elem (s.rv d) w j) 0) ∧
    (s.Ready [.vector a, .scalar b] (wS d (some 2)) →
      let x := elem (s.rv a) w ((s.rs b).toNat % e)
      exec (.vext g d a b ty) s = .next (s.result (.scalar d
        (if ty.isSigned then BitVec.ofInt 64 (sext x w) else BitVec.ofNat 64 x)) 2 0)))

/-! ### Guards, register faults, results -/

/-- An A-word whose guard is false has no effect at all, whatever its operands hold. -/
def Obligations.GuardedOffHasNoEffect : Prop :=
  ∀ (i : Instr) (g : Guard) (s : State), guardOf i = some g → s.guardOn g = false → exec i s = .next s.issued

/-! ### Control words -/

/-- A taken branch transfers to PC plus 8 times its signed displacement, or to a register's value, after its delay bundle; BRP is
taken only where its predicate XOR its N bit is 1, and has its delay bundle either way. Once its bundle has issued, a unit that asked for no
transfer goes on at PC + 8; after one that did the delay bundle at PC + 8 issues next, and after that the target, or the bundle after the delay
bundle where the branch was not taken. (Where an end check is due the loop rules apply.) -/
def Obligations.BranchesTransfer : Prop :=
  (∀ (s : State) (m n : Bool) (p : PReg) (a : Reg) (disp : BitVec 24) (d20 : BitVec 20), s.MayBranch →
    exec (.br m disp) s = .next ((s.transfer .jump (s.pcNow + disp.signExtend 64 * 8#64)).after m) ∧
    (s.Ready [.scalar a] [] → exec (.jmp m a) s = .next ((s.transfer .jump (s.rs a)).after m)) ∧
    (s.Ready [.pred p] [] → exec (.brp m n p d20) s =
      .next ((s.transfer (if Bool.xor (s.rp p) n then .jump else .untaken) (s.pcNow + d20.signExtend 64 * 8#64)).after m))) ∧
  (∀ (s : State) (k : XferKind) (x : Word), (s.transfer k x).c = { s.c with xfer := some { kind := k, target := x } } ∧
    s.transfer k x = { s with cores := (s.transfer k x).cores } ∧ ∀ c, c ≠ s.cur → (s.transfer k x).cores[c] = s.cores[c]) ∧
  (∀ (c : Core) (x y : Xfer), let ends : Prop := ∃ l : Lvl, c.endsHere c.pc l = true
    (c.xfer = none → c.delay = none → ¬ends → c.advance = { c with pc := c.pc + 8 }) ∧
    (c.xfer = some x → x.kind = .jump → c.advance = { c with delay := some x, pc := c.pc + 8 }) ∧
    (c.xfer = none → c.delay = some y → y.kind = .jump → c.advance = { c with delay := none, pc := y.target }) ∧
    (c.xfer = some x → x.kind = .untaken → ¬ends → ∃ z, c.advance = { c with delay := some z, pc := c.pc + 8 } ∧ z.kind = .untaken) ∧
    (c.xfer = none → c.delay = some y → y.kind = .untaken → ¬ends → c.advance = { c with delay := none, pc := c.pc + 8 }))

/-- A call pushes PC + 16 on the return-address store and transfers; a full store first spills its oldest entry to the reserved area at RSP,
which rises by 8, and the core freezes for the 2 core cycles after its own; with 240 entries spilled it takes an address fault that names
RSP. RET transfers to the newest entry, refilling an empty store from the spill area below RSP with the same freeze; with nothing spilled it
faults. (A transfer comes about as BranchesTransfer states.) -/
def Obligations.CallsAndReturns : Prop :=
  (∀ (s : State) (m : Bool) (a : Reg) (disp : BitVec 24), s.MayBranch → s.Ready [.scalar a] [] →
    let ret := s.pcNow + 16
    let tgt := s.pcNow + disp.signExtend 64 * 8#64
    (s.c.ras.length < 16 →
      let s1 := s.modCur (fun c => { c with ras := ret :: c.ras })
      exec (.call m disp) s = .next ((s1.transfer .jump tgt).after m) ∧
      exec (.callr m a) s = .next ((s1.transfer .jump (s.rs a)).after m)) ∧
    (∀ last rest, s.c.ras = rest ++ [last] → rest.length = 15 → s.c.spilled < 240 →
      let s1 := (s.setBytes (scratchKey s.tile (reservedBase + s.c.rsp.toNat)) (leBytes 8 last.toNat)).modCur (fun c => { c with
        ras := ret :: rest, spilled := c.spilled + 1, rsp := c.rsp + 8, freeze := some (.until' (s.coreCycle s.tile 3)) })
      exec (.call m disp) s = .next ((s1.transfer .jump tgt).after m) ∧
      exec (.callr m a) s = .next ((s1.transfer .jump (s.rs a)).after m)) ∧
    (16 ≤ s.c.ras.length → 240 ≤ s.c.spilled →
      exec (.call m disp) s = .next (s.preciseTrap (cause 0x06 s.c.rsp 0)) ∧
      exec (.callr m a) s = .next (s.preciseTrap (cause 0x06 s.c.rsp 0)))) ∧
  (∀ (s : State) (m : Bool), s.MayBranch →
    (∀ t r, s.c.ras = t :: r → exec (.ret m) s = .next (((s.modCur (fun c => { c with ras := r })).transfer .jump t).after m)) ∧
    (s.c.ras = [] → s.c.spilled ≠ 0 →
      exec (.ret m) s = .next (((s.modCur (fun c => { c with spilled := c.spilled - 1, rsp := c.rsp - 8, freeze := some (.until' (s.coreCycle s.tile 3)) })).transfer
        .jump (BitVec.ofNat 64 (s.num (scratchKey s.tile (reservedBase + (s.c.rsp - 8).toNat)) 8))).after m)) ∧
    (s.c.ras = [] → s.c.spilled = 0 → exec (.ret m) s = .next (s.preciseTrap (cause 0x0F 0 0))))

/-- LOOP and LOOPR land the count, the next bundle and the end bundle in the level's registers at latency 1, skip the body where the
count is 0, and fault where the end lies outside the code object; MVTL checks an address it writes; MVFL reads. The end bundle of active levels
decrements the count of each, level 2 first, until one is left that is not 0: issue then goes back to its lb, else on. An end bundle that holds a
branch not taken makes the checks in its own issue, and its delay bundle comes before their outcome. A value that MVTL writes takes effect at the
next end check for lc, after it for lb, and after it or, from the last two bundles of the body, after the one that follows it for le; for a level
that is not active at once. -/
def Obligations.LoopRegisters : Prop :=
  (∀ (s : State) (m : Bool) (l : Lvl) (count : BitVec 12) (fin : BitVec 10) (a d : Reg) (lp : LReg),
    let le := s.pcNow + BitVec.ofNat 64 (8 * fin.toNat)
    let opened (n : BitVec 32) : State :=
      let s1 := ((s.landAt (.loopReg (lcId l) n true) 1 0).landAt (.loopReg (lbId l) ((s.pcNow + 8).setWidth 32) true) 1 0).landAt
        (.loopReg (leId l) (le.setWidth 32) true) 1 0
      if n = 0 then s1.transfer .skip (le + 8) else s1
    (s.MayBranch → s.Ready [.scalar a] (loopWrites l) → le.toNat < s.codeSize →
      exec (.loop m l count fin) s = .next ((opened (count.setWidth 32)).after m) ∧
      exec (.loopr m l a fin) s = .next ((opened ((s.rs a).setWidth 32)).after m)) ∧
    (s.MayBranch → s.Ready [.scalar a] (loopWrites l) → s.codeSize ≤ le.toNat →
      exec (.loop m l count fin) s = .next (s.preciseTrap (cause 0x06 le 0)) ∧
      exec (.loopr m l a fin) s = .next (s.preciseTrap (cause 0x06 le 0))) ∧
    (s.ownsControl = true → s.Ready [.scalar a] [(.loopReg lp, some 1)] →
      let x := s.rs a
      exec (.mvtl m lp a) s = .next (
        if 3 ≤ lp.val ∧ x.toNat % 8 ≠ 0 then s.preciseTrap (cause 0x05 x 8)
        else if 3 ≤ lp.val ∧ s.codeSize ≤ x.toNat then s.preciseTrap (cause 0x06 x 0)
        else (s.landAt (.loopReg lp (x.setWidth 32) false) 1 0).after m)) ∧
    (s.Ready [] (wS d (some 1)) →
      exec (.mvfl m d lp) s = .next ((s.landAt (.scalar d ((s.ctl.lreg[lp]).setWidth 64)) 1 0).after m))) ∧
  (∀ (c : Core) (pc : Word) (l : Lvl), let e := c.endChecks pc
    (c.endsHere pc l = true ↔ c.lc l ≠ 0 ∧ (c.leff[l]).le.setWidth 64 = pc) ∧
    e.1 = { c with lreg := e.1.lreg, leff := e.1.leff } ∧ (∀ r : LReg, 3 ≤ r.val → e.1.lreg[r] = c.lreg[r]) ∧
    (c.endsHere pc l = true → c.lc l ≠ 1 → (∀ k : Lvl, l < k → c.endsHere pc k = true → c.lc k = 1) →
      e.2 = some ((c.leff[l]).lb.setWidth 64) ∧ e.1.lc l = c.lc l - 1 ∧ (∀ k : Lvl, l < k → e.1.lc k = if c.endsHere pc k then 0 else c.lc k) ∧
      ∀ k : Lvl, k < l → e.1.lc k = c.lc k) ∧
    ((∀ k : Lvl, c.endsHere pc k = true → c.lc k = 1) → e.2 = none ∧ e.1.lc l = if c.endsHere pc l then 0 else c.lc l)) ∧
  (∀ (c : Core) (x : Xfer), let e := c.endChecks c.pc
    (c.xfer = none → c.delay = none → c.advance = { e.1 with pc := e.2.getD (c.pc + 8) }) ∧
    (c.xfer = some x → x.kind = .skip → c.advance = { e.1 with pc := e.2.getD x.target }) ∧
    (c.xfer = some x → x.kind = .untaken → (∃ l : Lvl, c.endsHere c.pc l = true) →
      c.advance = { e.1 with delay := some { kind := .jump, target := e.2.getD (c.pc + 16) }, pc := c.pc + 8 })) ∧
  (∀ (c : Core) (pc : Word) (l : Lvl) (x : BitVec 32),
    (c.landLoop pc (lcId l) x false).lc l = x ∧ (x ≠ 0 → (c.landLoop pc (lcId l) x false).leff = c.leff) ∧
    (c.lc l = 0 →
      ((c.landLoop pc (lbId l) x false).leff[l]).lb = x ∧ ((c.landLoop pc (leId l) x false).leff[l]).le = x) ∧
    (c.lc l ≠ 0 → let b := c.landLoop pc (lbId l) x false
      b.leff = c.leff ∧ b.lreg[lbId l] = x ∧ (c.lc l ≠ 1 → ((b.checkLevel l).1.leff[l]).lb = x)) ∧
    (c.lc l ≠ 0 → c.lc l ≠ 1 → c.lc l ≠ 2 → (c.leff[l]).leQ = [] → let b := c.landLoop pc (leId l) x false
      let last : Prop := pc.toNat = (c.leff[l]).le.toNat ∨ pc.toNat + 8 = (c.leff[l]).le.toNat
      b.lreg[leId l] = x ∧ (b.leff[l]).le = (c.leff[l]).le ∧
      (¬last → ((b.checkLevel l).1.leff[l]).le = x) ∧
      (last → ((b.checkLevel l).1.leff[l]).le = (c.leff[l]).le ∧ ((((b.checkLevel l).1).checkLevel l).1.leff[l]).le = x)))

/-- An attached follower makes no use of its control registers: branches, calls, loops and MVTL change nothing there. The words that may not
stand in a delay bundle take an illegal-instruction trap there. -/
def Obligations.WhereControlWordsDoNotTransfer : Prop :=
  (∀ (s : State) (m n : Bool) (p : PReg) (a b : Reg) (disp : BitVec 24) (d20 : BitVec 20) (l : Lvl) (count : BitVec 12) (fin : BitVec 10)
    (lp : LReg), s.ownsControl = false → s.ctl.delay = none → s.Ready [.scalar a, .scalar b, .pred p] [] →
    let same : Out := .next (s.after m)
    exec (.br m disp) s = same ∧ exec (.jmp m a) s = same ∧ exec (.brp m n p d20) s = same ∧ exec (.call m disp) s = same ∧
    exec (.callr m a) s = same ∧ exec (.ret m) s = same ∧ exec (.loop m l count fin) s = same ∧ exec (.loopr m l a fin) s = same ∧
    exec (.mvtl m lp a) s = same ∧ exec (.seal m a b) s = same) ∧
  (∀ (s : State) (m n : Bool) (p : PReg) (a : Reg) (disp : BitVec 24) (d20 : BitVec 20) (l : Lvl) (count : BitVec 12) (fin : BitVec 10),
    s.ctl.delay.isSome = true →
    let trap : Out := .next (s.preciseTrap (cause 0x01 s.pcNow 0))
    exec (.br m disp) s = trap ∧ exec (.brp m n p d20) s = trap ∧ exec (.jmp m a) s = trap ∧ exec (.call m disp) s = trap ∧
    exec (.callr m a) s = trap ∧ exec (.ret m) s = trap ∧ exec (.loop m l count fin) s = trap ∧ exec (.loopr m l a fin) s = trap ∧
    exec (.rett m) s = trap ∧ exec (.upret m) s = trap ∧ exec (.exit m) s = trap ∧ exec (.yld m) s = trap ∧
    exec (.detach m disp) s = trap ∧ exec (.attach m disp) s = trap ∧ exec (.tevac m) s = trap)

/-- TRAP and BKPT raise their cause with the immediate once the bundle has issued; RETT and UPRET need INH set and the kind of cause they
return from, and return to TPC. A word that is no instruction, and one of the unassigned extension space, take an illegal-instruction
trap that names the bundle and the word; firmware may emulate an extension word in its place, and then its results land at latency 1, its bytes are stored and it may transfer. Where
the spec leaves a point open it states the model's choice (log 15, 37). -/
def Obligations.TrapsReturnsAndIllegalWords : Prop :=
  (∀ (s : State) (m : Bool) (imm : BitVec 18),
    exec (.trap m imm) s = .next ((s.modCur (fun c => { c with after := some (cause 0x15 (imm.setWidth 64) 0) })).after m) ∧
    exec (.bkpt m imm) s = .next ((s.modCur (fun c => { c with after := some (cause 0x14 (imm.setWidth 64) 0) })).after m) ∧
    (s.ctl.delay = none →
      let illegal : Out := .next (s.preciseTrap (cause 0x01 s.pcNow 0))
      let back : Out := .next ((s.transfer .rett s.c.tpc).after m)
      (s.c.inh = false → exec (.rett m) s = illegal ∧ exec (.upret m) s = illegal) ∧
      (s.c.inh = true → s.c.causeCode = 0 → exec (.rett m) s = back ∧ exec (.upret m) s = back) ∧
      (s.c.inh = true → s.c.causeCode ≠ 0 → isUpcall s.c.causeCode = true → exec (.rett m) s = illegal ∧ exec (.upret m) s = back) ∧
      (s.c.inh = true → s.c.causeCode ≠ 0 → isUpcall s.c.causeCode = false → exec (.rett m) s = back ∧ exec (.upret m) s = illegal))) ∧
  (∀ (s : State) (w1 : Bool),
    let trap (s : State) : Out := .next (s.preciseTrap (cause 0x01 s.pcNow (if w1 then 1 else 0)))
    let s1 := { s with stepNo := s.stepNo + 1 }
    exec (.illegalInstruction w1) s = trap s ∧
    (Config.emulated s.stepNo = none → exec (.emulation w1) s = trap s1) ∧
    ∀ ws, Config.emulated s.stepNo = some ws →
      exec (.emulation w1) s = .next (s1.emulate s.stepNo ws).issued) ∧
  ∀ (s : State) (n : Nat) (ws : List (Nat × BitVec 1024)),
    let t := (ws.map emulatedWr ++ (Config.emulatedSys n).map emulatedSysWr).foldl (fun s w => s.landAt w 1 0) s
    let u := (Config.emulatedStores n).foldl (fun s e => s.emulStore e.1 e.2) t
    (Config.emulatedTarget n = none → s.emulate n ws = u) ∧
    (∀ x, Config.emulatedTarget n = some x → s.ctl.delay = none → s.ownsControl = true → s.emulate n ws = u.transfer .skip x)

/-- EXIT and YIELD take effect after their delay bundle, count the slice as evacuated on a ceding tile, and are illegal on a detached
follower; YIELD is illegal while a follower is detached and acts as EXIT once BUDGET is 0; an attached follower's copy does nothing. From the end
of the delay bundle, or of TEVAC's own bundle, the unit issues no more; once no park, freeze or access of its gang is left, EXIT and TEVAC discard
every result in flight and every mark and begin the exit wait on all cores of the slice, and YIELD parks. Where the spec leaves a point open it
states the model's choice (log 14). -/
def Obligations.ExitAndYield : Prop :=
  (∀ (s : State) (m : Bool), s.ctl.delay = none →
    let illegal : Out := .next (s.preciseTrap (cause 0x01 s.pcNow 2))
    (s.c.det = true → exec (.exit m) s = illegal ∧ exec (.yld m) s = illegal) ∧
    (s.c.det = false → s.ownsControl = false → exec (.exit m) s = .next (s.after m) ∧ exec (.yld m) s = .next (s.after m)) ∧
    (s.c.det = false → s.ownsControl = true →
      exec (.exit m) s = .next ((s.evacuate.transfer .exit 0).after m) ∧
      (s.sl.left = 0 → exec (.yld m) s = .next ((s.evacuate.transfer .exit 0).after m)) ∧
      (s.sl.left ≠ 0 → s.anyDetached = true → exec (.yld m) s = illegal) ∧
      (s.sl.left ≠ 0 → s.anyDetached = false → exec (.yld m) s = .next ((s.evacuate.transfer .yld 0).after m)))) ∧
  (∀ (c : Core) (x y : Xfer) (now : Nat), let ends : Prop := ∃ l : Lvl, c.endsHere c.pc l = true
    let e := ({ c with delay := none } : Core).endChecks c.pc
    (c.xfer = some x → (x.kind = .exit ∨ x.kind = .yld) → ¬ends → ∃ z, c.advance = { c with delay := some z, pc := c.pc + 8 } ∧ z.kind = x.kind ∧
      ∀ d : Core, d.xfer = none → d.delay = some z → (∀ l : Lvl, d.endsHere d.pc l = false) →
        d.advance = { d with delay := none, owed := some z, pc := d.pc + 8 }) ∧
    (c.xfer = some x → (x.kind = .exit ∨ x.kind = .yld) → ends → let b := c.endChecks c.pc
      c.advance = { b.1 with delay := some { kind := x.kind, target := b.2.getD (c.pc + 16) }, pc := c.pc + 8 }) ∧
    (c.xfer = none → c.delay = some y → (y.kind = .exit ∨ y.kind = .yld) → c.advance = if y.target = noTarget
      then { e.1 with pc := e.2.getD (c.pc + 8), owed := some y } else { c with delay := none, pc := y.target, owed := some y }) ∧
    (c.xfer = some x → x.kind = .evac → c.advance = { c with owed := some x, pc := c.pc + 8 }) ∧
    (c.owed.isSome = true → c.canIssue now = false)) ∧
  (∀ (s : State) (u : CoreId) (x : Xfer) (uid : Nat), (s.cores[u]).owed = some x → (s.cores[u]).sl = some uid →
    let busy : Prop := ∃ c ∈ s.gang u, (s.cores[c]).busy = true
    (busy → s.payOwed u = none) ∧
    (¬busy → (x.kind = .exit → s.payOwed u = some (s.leaveSlice (s.slice! uid) .exit)) ∧
      (x.kind = .evac → s.payOwed u = some (s.leaveSlice (s.slice! uid) .evacuated)) ∧
      (x.kind = .yld → s.payOwed u = some ((s.modCores (s.gang u) (fun c => { c with park := some { why := .yieldWait, marks := false } })).modCore u
        (fun c => { c with owed := none }))))) ∧
  (∀ (s : State) (x : Slice) (how : EndHow) (c : CoreId), c ∈ x.cores → let k := (s.leaveSlice x how).cores[c]
    k.flight = [] ∧ k.pend = [] ∧ k.delay = none ∧ k.owed = none ∧ k.replay = none ∧ k.park = some { why := .exitWait, marks := false })

/-- DETACH gives an attached follower its own control state, empty, at the target, and does nothing on another core; ATTACH makes a
detached follower wait for the leader at the rendezvous, which must lie in the code object, and does nothing on another core. -/
def Obligations.GangsSplitAndMeet : Prop :=
  ∀ (s : State) (m : Bool) (disp : BitVec 24), s.ctl.delay = none →
    let t := s.pcNow + disp.signExtend 64 * 8#64
    (s.ownsControl = true → exec (.detach m disp) s = .next (s.after m)) ∧
    (s.ownsControl = false → ∃ s1, exec (.detach m disp) s = .next (s1.after m) ∧
      s1 = s.modCur (fun _ => s1.c) ∧ s1.c.det = true ∧ s1.c.pc = t ∧ s1.c.ras = [] ∧ s1.c.spilled = 0 ∧
      s1.c.rsp = BitVec.ofNat 64 (s.cur.val % 4 * 0x780) ∧ (∀ l, s1.c.lc l = 0) ∧ s1.c.sreg = s.c.sreg ∧ s1.c.vreg = s.c.vreg ∧
      s1.c.preg = s.c.preg ∧ s1.c.flight = s.c.flight ∧ s1.c.pend = s.c.pend) ∧
    (s.c.det = false → exec (.attach m disp) s = .next (s.after m)) ∧
    (s.c.det = true → t.toNat < s.codeSize →
      exec (.attach m disp) s = .next ((s.modCur (fun c => { c with rendez := some t })).after m)) ∧
    (s.c.det = true → s.codeSize ≤ t.toNat → exec (.attach m disp) s = .next (s.preciseTrap (cause 0x06 t 0)))

/-- MFS reads every system register at its core's issue cycle, MTS writes TRAPV, FPFLAGS and DISCSEL and takes the privileged fault for every other
register. -/
def Obligations.SystemRegisters : Prop :=
  ∀ (s : State) (m : Bool) (d a : Reg) (r : SysReg),
    (s.Ready [] (wS d (some 1)) → exec (.mfs m d r) s = .next ((s.landAt (.scalar d (match r with
      | .core => BitVec.ofNat 64 ((if s.c.det then 64 else 0) + s.c.pos * 16 + s.c.gsize * 4 + s.cur.val % 4)
      | .tile => s.tileReg s.tile
      | .shapev => s.shapevReg s.sl.terr
      | .sliceid => BitVec.ofNat 64 s.sl.sid
      | .deadline => s.sl.deadline
      | .budget => BitVec.ofNat 64 (s.sl.left - (s.issueCycle - s.now))
      | .frame => BitVec.ofNat 64 (s.sl.fid.getD 255)
      | .fsize => BitVec.ofNat 64 s.sl.fsize
      | .trapv => s.c.trapv
      | .tcause => s.c.tcause
      | .tpc => s.c.tpc &&& 0x1FFF8#64
      | .tinfo0 => s.c.tinfo0
      | .tinfo1 => s.c.tinfo1
      | .fpflags => s.c.fpflags.setWidth 64
      | .rsp => s.ctl.rsp
      | .ringbase => s.c.ringbase
      | .discsel => s.c.discsel.setWidth 64)) 1 0).after m)) ∧
    (s.Ready [.scalar a] [(.sys r, some 1)] → exec (.mts m r a) s = .next (
      if r = .trapv ∨ r = .fpflags ∨ r = .discsel then (s.landAt (.sys r (s.rs a)) 1 0).after m
      else s.preciseTrap (cause 0x13 s.pcNow 0)))

/-- DISC reads a discovery word of the page DISCSEL selects, CYCLE the time base of the cycle the core issues in, which an attached follower
at position k does k core cycles after the leader, SEAL names an HBM buffer within its limits, SPAWN parks as a fence and marks its result
pending; an attached follower's waits for its own accesses and for the leader's result. Where the spec leaves a point open it states the
model's choice (log 5, 9). -/
def Obligations.DiscoveryTimeSealSpawn : Prop :=
  ∀ (s : State) (m : Bool) (d a b : Reg) (n : Fin 32),
    (s.Ready [] (wS d (some 1)) →
      exec (.disc m d n) s = .next ((s.landAt (.scalar d (s.discWord s.c.discsel n.val)) 1 0).after m) ∧
      (s.ownsControl = true → exec (.cycle m d) s = .next ((s.landAt (.scalar d (BitVec.ofNat 64 s.now)) 1 0).after m)) ∧
      (s.ownsControl = false → ∃ t, exec (.cycle m d) s = .next ((s.landAt (.scalar d (BitVec.ofNat 64 t)) 1 0).after m) ∧
        let clk := s.clkOf (islandOf s.tile)
        (clk = 16 → t = s.now + s.c.pos) ∧ (8 ≤ clk → clk ≤ 16 → s.now + s.c.pos ≤ t ∧ t ≤ s.now + 2 * s.c.pos))) ∧
    (s.ownsControl = true → s.Ready [.scalar a, .scalar b] [] →
      (∀ va, parseAddr (s.rs a) = .hbm va → 1 ≤ (s.rs b).toNat → (s.rs b).toNat < 2 ^ 32 → s.sealCount < 16 →
        exec (.seal m a b) s = .next ((s.modCur (fun c => { c with seals := c.seals ++ [(s.rs a, (s.rs b).toNat)] })).after m)) ∧
      (((∀ va, parseAddr (s.rs a) ≠ .hbm va) ∨ (s.rs b).toNat = 0 ∨ 2 ^ 32 ≤ (s.rs b).toNat ∨ 16 ≤ s.sealCount) →
        exec (.seal m a b) s = .next (s.preciseTrap (cause 0x06 (s.rs a) 0)))) ∧
    (∀ off, s.ownsControl = true → s.Ready [.scalar a] (wS d none) → s.InFrame (s.rs a) off 32 32 false →
      let s1 := { s with dev := { s.dev with nextReq := s.dev.nextReq + 1 } }
      exec (.spawn m d a) s = .next ((((s1.pendOn s.dev.nextReq (dstS d)).parkOn (.spawn d (s.rs a) s.dev.nextReq)).noReplay).after m)) ∧
    (s.ownsControl = false → s.Ready [.scalar a] (wS d none) →
      (∀ req, spawnReq s.ctl = some req → exec (.spawn m d a) s = .next (((s.pendOn req (dstS d)).parkOn (.fence .y)).after m)) ∧
      (spawnReq s.ctl = none → exec (.spawn m d a) s = .next ((s.parkOn (.fence .y)).after m)))

/-! ### Memory words -/

/-- A local load at its scaled address in the slice's own frame issues and reaches its bank after its bundle. It then takes the bytes of its size
as they stand, extends them as its size code says and lands them: scalars and whole vectors at latency 5, the 32 elements of the strided and
gather forms at latency 8, counted from its bundle however many bundles later it reaches the bank. Memory is read only. That a vector access
takes all its bytes from one state is the model's choice (log 16). -/
def Obligations.LocalLoads : Prop :=
  (∀ (s : State) (m : Bool) (d a b : Reg) (sz : MemSz) (disp : BitVec 11) (off : Nat),
    let n := sizeOf' sz
    let key := scratchKey s.tile (s.sl.fbase + off)
    (s.Ready [.scalar a] (wS d (some 5)) → s.InFrame (s.rs a + BitVec.ofInt 64 (disp.toInt * n)) off n n false →
      exec (.ld m d a sz disp) s = .next ((s.setAcc (.load key d sz)).after m)) ∧
    (s.Ready [.scalar a] (wV d (some 5)) → s.InFrame (s.rs a + BitVec.ofInt 64 (disp.toInt * 128)) off 128 128 false →
      exec (.vld m d a disp) s = .next ((s.setAcc (.loadVec key d)).after m)) ∧
    (∀ addr : Nat → Word, s.LanesInFrame addr n false →
      let keys := (List.range 32).map (fun l => scratchKey s.tile (s.sl.fbase + (addr l).toNat))
      let loads : Out := .next ((s.setAcc (.loadLanes keys d sz)).after m)
      (s.Ready [.scalar a, .scalar b] (wV d (some 8)) →
        (∀ l, addr l = s.rs a + BitVec.ofInt 64 (l * (s.rs b).toInt)) → exec (.vlds m d a b sz) s = loads) ∧
      (s.Ready [.scalar a, .vector b] (wV d (some 8)) →
        (∀ l, addr l = s.rs a + (lane (s.rv b) l).signExtend 64) → exec (.vgath m d a b sz) s = loads))) ∧
  (∀ (s : State) (core : CoreId) (d : Reg) (sz : MemSz) (key lag : Nat) (keys : List Nat) (rest : List (Nat × LocalAcc)),
    let n := sizeOf' sz
    let val (k : Nat) : Word := let x := leNat (s.bytes k n)
      if sizeSigned sz then BitVec.ofInt 64 (sext x (8 * n)) else BitVec.ofNat 64 x
    let lands (w : Wr) (lat : Nat) : State := s.modCore core (fun c => { c with
      acc := rest, flight := c.flight ++ [{ dist := lat - lag, wr := w, flags := 0 }] })
    let acc := (s.cores[core]).acc
    (acc = (lag, .load key d sz) :: rest → s.performAcc core = lands (.scalar d (val key)) 5) ∧
    (acc = (lag, .loadVec key d) :: rest → s.performAcc core = lands (.vector d (BitVec.ofNat 1024 (leNat (s.bytes key 128)))) 5) ∧
    (acc = (lag, .loadLanes keys d sz) :: rest →
      s.performAcc core = lands (.vector d (ofLanes (keys.map (fun k => (val k).setWidth 32)))) 8))

/-- A local store at its address in the slice's own frame issues, a strided or scatter store for each lane its own address, lanes in ascending
order, and reaches its bank after its bundle. It then writes the low bytes of its register, or of each lane, and no other byte. That it
writes all of them in one step is the model's choice (log 16). -/
def Obligations.LocalAndLaneStores : Prop :=
  (∀ (s : State) (m : Bool) (d a b : Reg) (sz : MemSz) (disp : BitVec 11) (off : Nat),
    let n := sizeOf' sz
    let key := scratchKey s.tile (s.sl.fbase + off)
    (s.Ready [.scalar a, .scalar d] [] → s.InFrame (s.rs a + BitVec.ofInt 64 (disp.toInt * n)) off n n true →
      exec (.st m d a sz disp) s = .next ((s.setAcc (.store [(key, leBytes n (s.rs d).toNat)])).after m)) ∧
    (s.Ready [.scalar a, .vector d] [] → s.InFrame (s.rs a + BitVec.ofInt 64 (disp.toInt * 128)) off 128 128 true →
      exec (.vst m d a disp) s = .next ((s.setAcc (.store [(key, leBytes 128 (s.rv d).toNat)])).after m)) ∧
    (∀ addr : Nat → Word, s.LanesInFrame addr n true →
      let ws := (List.range 32).map (fun l => (scratchKey s.tile (s.sl.fbase + (addr l).toNat), leBytes n (lane (s.rv d) l).toNat))
      let stores : Out := .next ((s.setAcc (.store ws)).after m)
      (s.Ready [.scalar a, .scalar b, .vector d] [] →
        (∀ l, addr l = s.rs a + BitVec.ofInt 64 (l * (s.rs b).toInt)) → exec (.vsts m d a b sz) s = stores) ∧
      (s.Ready [.scalar a, .vector b, .vector d] [] →
        (∀ l, addr l = s.rs a + (lane (s.rv b) l).signExtend 64) → exec (.vscat m d a b sz) s = stores))) ∧
  (∀ n x : Nat, (leBytes n x).length = n ∧ ∀ i < n, (leBytes n x)[i]? = some (BitVec.ofNat 8 (x / 256 ^ i))) ∧
  (∀ (s : State) (core : CoreId) (ws : List (Nat × List Byte)) (lag : Nat) (rest : List (Nat × LocalAcc)), s.Inv →
    (s.cores[core]).acc = (lag, .store ws) :: rest →
    let t := s.performAcc core
    t = { s.modCore core (fun c => { c with acc := rest }) with mem := t.mem } ∧
    (∀ k, (∀ w ∈ ws, k < w.1 ∨ w.1 + w.2.length ≤ k) → t.byte k = s.byte k) ∧
    ∀ pre w post, ws = pre ++ w :: post → (∀ v ∈ post, v.1 + v.2.length ≤ w.1 ∨ w.1 + w.2.length ≤ v.1) →
      ∀ i x, w.2[i]? = some x → t.byte (w.1 + i) = x)

/-- An atomic on the slice's own frame issues and reaches its bank after its bundle. It then replaces four bytes by the operation's value and
lands the old one at latency 6 with the operation's flags; for the compare-and-swap the destination supplies the comparand. What each operation
writes, and that only the float sum sets flags. -/
def Obligations.LocalAtomicsAndTheirValues : Prop :=
  (∀ (s : State) (m : Bool) (d a b : Reg) (op : AtomOp) (ty : AtomTy) (off : Nat),
    s.Ready (atomReads op d a b) (wS d (some 6)) → s.InFrame (s.rs a) off 4 4 true →
    exec (.atom m d a b op ty) s = .next ((s.setAcc (.atom (scratchKey s.tile (s.sl.fbase + off)) d op ty ((s.rs b).setWidth 32)
      ((s.rs d).setWidth 32))).after m)) ∧
  (∀ (s : State) (core : CoreId) (key lag : Nat) (d : Reg) (op : AtomOp) (ty : AtomTy) (x cmp : BitVec 32) (rest : List (Nat × LocalAcc)), s.Inv →
    (s.cores[core]).acc = (lag, .atom key d op ty x cmp) :: rest →
    let t := s.performAcc core
    let old : BitVec 32 := BitVec.ofNat 32 (leNat (s.bytes key 4))
    let r := atomNew op ty old x cmp
    t = { s.modCore core (fun c => { c with
      acc := rest, flight := c.flight ++ [{ dist := 6 - lag, wr := .scalar d (atomOld ty old), flags := r.2 }] }) with mem := t.mem } ∧
    SameOutside s t key 4 ∧ ∀ i < 4, t.byte (key + i) = BitVec.ofNat 8 (r.1.toNat / 256 ^ i)) ∧
  (∀ (old x cmp : BitVec 32) (ty : AtomTy),
    (ty ≠ .f32 → atomNew .add ty old x cmp = (old + x, 0)) ∧
    (atomNew .add .f32 old x cmp = let r := fF32.add old.toNat x.toNat; (BitVec.ofNat 32 r.1, r.2)) ∧
    atomNew .and ty old x cmp = (old &&& x, 0) ∧ atomNew .or ty old x cmp = (old ||| x, 0) ∧
    atomNew .xor ty old x cmp = (old ^^^ x, 0) ∧ atomNew .xchg ty old x cmp = (x, 0) ∧
    atomNew .cas ty old x cmp = (if old = cmp then x else old, 0) ∧
    atomNew .min .i32 old x cmp = (BitVec.ofInt 32 (min old.toInt x.toInt), 0) ∧
    atomNew .max .i32 old x cmp = (BitVec.ofInt 32 (max old.toInt x.toInt), 0) ∧
    atomNew .min .n32 old x cmp = (BitVec.ofNat 32 (min old.toNat x.toNat), 0) ∧
    atomNew .max .n32 old x cmp = (BitVec.ofNat 32 (max old.toNat x.toNat), 0))

/-- The words that reach beyond the frame send one request: loads and atomics mark their register pending, stores do not; LDA always carries
the switch marker, and a peer atomic is not replayed after. A request for a peer's frame goes to the tile its index names now, one for HBM
to the address's controller: one message of class 0, a copy kept until it is acknowledged. A hole sends nothing. Where the spec leaves a point
open it states the model's choice (log 41). -/
def Obligations.FarAccessesSendRequests : Prop :=
  (∀ (s : State) (m : Bool) (d a b : Reg) (sz : MemSz) (sc : Scope) (disp : BitVec 11) (d9 : BitVec 9) (op : AtomOp) (ty : AtomTy),
    let n := sizeOf' sz
    let ad := s.rs a + BitVec.ofInt 64 (disp.toInt * n)
    let ad9 := s.rs a + BitVec.ofInt 64 (d9.toInt * n)
    let adv := s.rs a + BitVec.ofInt 64 (disp.toInt * 128)
    (s.Ready [.scalar a] (wS d none) → s.IsFar ad n n false →
      exec (.ldp m d a sz disp) s = .next ((s.farAccess ad true (dstS d) (fun p => .load p ad n (.scalar d sz))).after m)) ∧
    (s.Ready [.scalar a] (wS d none) → s.IsFar ad9 n n false →
      exec (.lda m d a sz sc d9) s = .next ((s.farAccess ad9 true (dstS d) (fun p => .load p ad9 n (.scalar d sz))).after true)) ∧
    (s.Ready [.scalar a, .scalar d] [] → s.IsFar ad n n true →
      exec (.stp m d a sz disp) s = .next ((s.farAccess ad false none (fun p => .store p ad (leBytes n (s.rs d).toNat))).after m)) ∧
    (s.Ready [.scalar a] (wV d none) → s.IsFar adv 128 128 false →
      exec (.vldp m d a disp) s = .next ((s.farAccess adv true (some (.vector d)) (fun p => .load p adv 128 (.vector d))).after m)) ∧
    (s.Ready [.scalar a, .vector d] [] → s.IsFar adv 128 128 true →
      exec (.vstp m d a disp) s = .next ((s.farAccess adv false none (fun p => .store p adv (leBytes 128 (s.rv d).toNat))).after m)) ∧
    (s.Ready (atomReads op d a b) (wS d none) → s.IsFar (s.rs a) 4 4 true →
      exec (.atomp m d a b op ty) s = .next (((s.farAccess (s.rs a) true (dstS d)
        (fun p => .atom p (s.rs a) op ty ((s.rs b).setWidth 32) ((s.rs d).setWidth 32) d)).noReplay).after m))) ∧
  (∀ (s : State) (a : Word) (pends : Bool) (reg : Option RegId) (mk : Place → Msg),
    let t := s.farAccess a pends reg mk
    t.mem = s.mem ∧
    (∀ lidx fid off tile, parseAddr a = .peer lidx fid off → s.memberAt s.sl.terr lidx = some tile →
      let f := if fid = 255 then s.sl.fid.getD 255 else fid
      ∃ p : Packet, t.net = s.net ++ [p] ∧ t.kept = s.kept ++ [p] ∧ p.id = s.dev.nextReq ∧ p.src = s.tile.val ∧ p.dst = tile.val ∧
        p.cls = 0 ∧ p.terr = s.sl.terr ∧ p.body = mk (.peer tile lidx f off)) ∧
    (∀ va, parseAddr a = .hbm va →
      ∃ p : Packet, t.net = s.net ++ [p] ∧ t.kept = s.kept ++ [p] ∧ p.id = s.dev.nextReq ∧ p.src = s.tile.val ∧
        p.dst = 384 + va / 2097152 % 8 * 16 + va / 256 % 16 ∧ p.cls = 0 ∧ p.body = mk (.hbm va)) ∧
    (∀ lidx fid off, parseAddr a = .peer lidx fid off → s.memberAt s.sl.terr lidx = none → t.net = s.net ∧ t.kept = s.kept))

/-- STL first parks until its core's accesses are complete at its scope, or while a refusal that its park takes has arrived, and only then
issues, with the checks of a plain store; at scope c it waits for no access. The fences park at a scope above the core and are complete at scope c; an acquiring load of the slice's own frame issues a
load whose value it delivers, and parks for the marker. Where the spec leaves a point open it states the model's choice (log 17, 63, 76). -/
def Obligations.AcquireReleaseAndFences : Prop :=
  (∀ (s : State) (m : Bool) (d a : Reg) (sz : MemSz) (sc : Scope) (disp : BitVec 9) (off : Nat),
    let n := sizeOf' sz
    let ad := s.rs a + BitVec.ofInt 64 (disp.toInt * n)
    let bs := leBytes n (s.rs d).toNat
    let key := scratchKey s.tile (s.sl.fbase + off)
    let id := s.dev.nextReq
    (s.fenced s.cur sc = true → s.c.stlRefused sc = false → s.Ready [.scalar a, .scalar d] [] →
      (s.InFrame ad off n n true → exec (.stl m d a sz sc disp) s = .next ((s.setAcc (.store [(key, bs)])).after m)) ∧
      (s.IsFar ad n n true → exec (.stl m d a sz sc disp) s = .next ((s.farAccess ad false none (fun p => .store p ad bs)).after m))) ∧
    (s.fenced s.cur sc = false ∨ s.c.stlRefused sc = true → ∃ t, exec (.stl m d a sz sc disp) s = .next t ∧
      t = { s.modCur (fun c => { c with park := some { why := .storeRelease sc, marks := false } }) with issue := .stalled }) ∧
    (s.Ready [.scalar a] (wS d none) → s.InFrame ad off n n false →
      exec (.lda m d a sz sc disp) s = .next ((({ s.pendOn id (dstS d) with dev := { s.dev with nextReq := id + 1 } }).setAcc
        (.loadPend key d sz id)).after true)) ∧
    exec (.fence m sc) s = .next ((if sc = .c then s else s.parkOn (.fence sc)).after m) ∧
    exec (.fencesc m sc) s = .next ((if sc = .c then s else s.parkOn (.fence sc)).after m)) ∧
  (∀ (s : State) (core : CoreId) (sc : Scope) (d : Reg) (sz : MemSz) (key id lag : Nat) (rest : List (Nat × LocalAcc)),
    (s.fenced core sc = true ↔ sc = .c ∨ (s.selfPending core = false ∧ (sc = .t ∨ (s.cores[core]).outst = []))) ∧
    ((s.cores[core]).acc = (lag, .loadPend key d sz id) :: rest → s.performAcc core =
      s.modCore core (fun c => ({ c with acc := rest }).deliver id (.scalar d (loadVal sz (s.bytes key (sizeOf' sz)))) 0)))

/-- The checks of an access stop it with its own cause: a wrong space or layout, the reserved area, a misaligned address, bytes outside
the frame, and a range lock: one on a destination stops a load too; memory is unchanged. -/
def Obligations.AccessChecksTrap : Prop :=
  ∀ (s : State) (m : Bool) (d a : Reg) (sz : MemSz) (disp : BitVec 11), s.Ready [.scalar a] (wS d (some 5)) →
    s.Ready [.scalar a, .scalar d] [] →
    let n := sizeOf' sz
    let ad := s.rs a + BitVec.ofInt 64 (disp.toInt * n)
    let traps (t : TrapRec) : Prop := exec (.ld m d a sz disp) s = .next (s.preciseTrap t) ∧
      exec (.st m d a sz disp) s = .next (s.preciseTrap t)
    (parseAddr ad = .bad ∨ (∃ va, parseAddr ad = .hbm va) ∨ (∃ l f o, parseAddr ad = .peer l f o) → traps (cause 0x06 ad 0)) ∧
    ((∃ o, parseAddr ad = .reserved o) → traps (cause 0x13 s.pcNow 0)) ∧
    (∀ off, parseAddr ad = .local' off → ad.toNat % n ≠ 0 → traps (cause 0x05 ad (BitVec.ofNat 64 n))) ∧
    (∀ off, parseAddr ad = .local' off → ad.toNat % n = 0 → (s.sl.fid = none ∨ s.sl.fsize < off + n) → traps (cause 0x06 ad 0)) ∧
    (∀ off k, parseAddr ad = .local' off → ad.toNat % n = 0 → s.sl.fid.isSome = true → off + n ≤ s.sl.fsize →
      (s.tiles[s.tile]).lockHit (s.sl.fbase + off) n true = some k →
      exec (.st m d a sz disp) s = .next (s.preciseTrap (cause 0x08 ad (BitVec.ofNat 64 k)))) ∧
    (∀ off k, parseAddr ad = .local' off → ad.toNat % n = 0 → s.sl.fid.isSome = true → off + n ≤ s.sl.fsize →
      (s.tiles[s.tile]).lockHit (s.sl.fbase + off) n false = some k →
      exec (.ld m d a sz disp) s = .next (s.preciseTrap (cause 0x08 ad (BitVec.ofNat 64 k)))) ∧
    (∀ lidx fid off p k, parseAddr ad = .peer lidx fid off → ad.toNat % n = 0 → (fid = 255 → s.sl.fid.isSome = true) →
      s.ownPeer lidx fid off = some p →
      ((s.tiles[s.tile]).lockHit p n false = some k →
        exec (.ldp m d a sz disp) s = .next (s.preciseTrap (cause 0x08 ad (BitVec.ofNat 64 k)))) ∧
      ((s.tiles[s.tile]).lockHit p n true = some k →
        exec (.stp m d a sz disp) s = .next (s.preciseTrap (cause 0x08 ad (BitVec.ofNat 64 k)))))

/-! ### Barriers, votes, rings, messages, engines -/

/-- BARCFG configures an id on a rectangle of members that holds its tile, unless a core stands in the id's barrier, and faults
otherwise; the arrivals that wait on the tile combine with the configuration, and one that differs is a mismatch; BAR parks as a fence on a configured, valid id and faults on another; BARQ reads; VOTE sends its operand to the handler
tile, and with four votes in flight the core freezes. Where the spec leaves a point open it states the model's choice (log 79). -/
def Obligations.BarriersAndVotes : Prop :=
  ∀ (s : State) (m : Bool) (d a : Reg) (id : Fin 4) (x0 x1 : BitVec 5) (y0 y1 : BitVec 4) (cnt : BitVec 2) (op : VoteOp),
    let b := (s.tiles[s.tile]).bars[id]
    let cfg : BarCfg := { x0 := x0.toNat, y0 := y0.toNat, x1 := x1.toNat, y1 := y1.toNat, count := cnt.toNat + 1 }
    let fault : Out := .next (s.preciseTrap (cause 0x12 (BitVec.ofNat 64 id.val) 0))
    let fits : Prop := (x0.toNat ≤ tileX s.tile ∧ tileX s.tile ≤ x1.toNat ∧ y0.toNat ≤ tileY s.tile ∧ tileY s.tile ≤ y1.toNat) ∧
      (∀ x y, x0.toNat ≤ x → x ≤ x1.toNat → y0.toNat ≤ y → y ≤ y1.toNat →
        ∃ t, tileXY x y = some t ∧ (s.tiles[t]).isMember s.sl.terr = true) ∧
      ∀ k : Fin 4, (s.cores[coreOf s.tile k]).inBar id = false
    let come := b.from' ++ b.held
    let set := s.modBar s.tile id (fun _ => {
      cfg := some cfg, valid := true, phase := false, arr := 0, kids := come.length, sent := false, bad := false, told := false, from' := come,
      held := [] })
    let met : Bool := come.any (· != cfg) || (b.bad && !b.told)
    (fits → met = false → exec (.barcfg m id x0 y0 x1 y1 cnt) s = .next (set.after m)) ∧
    (fits → met = true → exec (.barcfg m id x0 y0 x1 y1 cnt) s = .next ((set.barFail s.tile s.sl.terr id none).after m)) ∧
    (¬fits → exec (.barcfg m id x0 y0 x1 y1 cnt) s = fault) ∧
    (b.cfg.isSome = true → b.valid = true → exec (.bar m id) s = .next ((s.parkOn (.barFence id)).after m)) ∧
    (b.cfg = none ∨ b.valid = false → exec (.bar m id) s = fault) ∧
    (s.Ready [] (wS d (some 1)) → exec (.barq m d id) s = .next ((s.landAt (.scalar d (BitVec.ofNat 64
      ((if b.cfg.isSome && b.valid then 16 else 0) + (b.cfg.elim 0 (fun c => min b.arr c.count)) * 2 + if b.phase then 1 else 0))) 1 0).after m)) ∧
    (s.Ready [.scalar a] (wS d none) →
      (4 ≤ (s.tiles[s.tile]).votes.length → exec (.vote m d a op) s =
        .next (s.frozenBy (.votes 1))) ∧
      ((s.tiles[s.tile]).votes.length < 4 → ∃ (t : State) (p : Packet), exec (.vote m d a op) s = .next (t.after m) ∧ t.mem = s.mem ∧
        t.net = s.net ++ [p] ∧ p.cls = 5 ∧ p.src = s.tile.val ∧ p.dst = (s.terr! s.sl.terr).handler.val ∧
        p.body = .vote (s.tiles[s.tile]).voteNo op (s.rs a) d ∧
        (t.tiles[s.tile]).votes = (s.tiles[s.tile]).votes ++ [((s.tiles[s.tile]).voteNo, p.id, s.me)] ∧
        (t.tiles[s.tile]).voteNo = (s.tiles[s.tile]).voteNo + 1 ∧
        t.c.pend = s.c.pend ++ [{ id := p.id, reg := dstS d, got := none }] ∧ t.c.sreg = s.c.sreg))

/-- On a declared ring: RSUB subscribes with a descriptor in range, RGET takes the next item whose tag is in its slot, RREL frees the
oldest slot held, RPUT hands it to the controller, RWAIT goes on, times out at limit 0, or parks. A tag that does not match, a fault record,
and a ring whose state refuses the word take their traps: a slot held too many or none held, a live subscription, no subscription. Where the
spec leaves a point open it states the model's choice (log 58). -/
def Obligations.RingWords : Prop :=
  ∀ (s : State) (m : Bool) (d a : Reg) (ring : Ring) (n : BitVec 9) (limit : BitVec 32) (off : Nat) (r : RingSt),
    let trap (t : TrapRec) : Out := .next (s.preciseTrap t)
    let refused : Out := trap (cause 0x0B (BitVec.ofNat 64 ring.val) 0xFFFFFFFF#64)
    let illegal : Out := trap (cause 0x01 s.pcNow 0)
    (s.ringNamed ring.val = .ok r → s.Ready [.scalar a] [] → s.InFrame (s.rs a) off 80 16 false →
      let sub := parseSub (s.bytes (scratchKey s.tile (s.sl.fbase + off)) 80) r.bytes
      (r.live = true ∨ r.user.isSome = true → exec (.rsub m a ring) s = refused) ∧
      (r.live = false → r.user = none → sub = none → exec (.rsub m a ring) s = trap (cause 0x06 (s.rs a) 0)) ∧
      (∀ store b, r.live = false → r.user = none → sub = some (store, b) →
        exec (.rsub m a ring) s = .next ((s.modRing s.uid ring.val (fun r => r.subscribe store b)).after m))) ∧
    (∀ t, s.ringReady ring.val = .error t →
      (s.Ready [] (wS d (some 1)) → exec (.rget m d ring) s = trap t) ∧
      exec (.rrel m ring) s = trap t ∧ exec (.rput m ring) s = trap t ∧ exec (.rwait m ring n limit) s = trap t) ∧
    (s.sl.rings[ring.val]? = none ∨ (s.ringNamed ring.val = .ok r ∧ r.dir = none) →
      s.ringReady ring.val = .error (cause 0x0B (BitVec.ofNat 64 ring.val) 0xFFFFFFFF#64)) ∧
    (s.ringReady ring.val = .ok r →
      (s.Ready [] (wS d (some 1)) →
        let j := r.count + r.got
        (r.user.isSome = true ∨ r.got = r.slots → exec (.rget m d ring) s = refused) ∧
        (r.user = none → r.got ≠ r.slots → r.tagOf j = BitVec.ofNat 16 j →
          exec (.rget m d ring) s = .next (((s.modRing s.uid ring.val (fun r => { r with got := r.got + 1 })).landAt
            (.scalar d (BitVec.ofNat 64 (r.base + j % r.slots * r.bytes))) 1 0).after m)) ∧
        (r.user = none → r.got ≠ r.slots → r.tagOf j ≠ BitVec.ofNat 16 j →
          (∀ t, r.fault = some t → exec (.rget m d ring) s = trap t) ∧
          (r.fault = none → exec (.rget m d ring) s =
            trap (cause 0x0B (BitVec.ofNat 64 ring.val) (BitVec.ofNat 64 (j % 65536 * 65536 + (r.tagOf j).toNat)))))) ∧
      (r.dir = some false →
        (r.user = none → r.got ≠ 0 → exec (.rrel m ring) s =
          .next ((s.modRing s.uid ring.val (fun r => { r with
            head := r.head + 1, got := r.got - 1, freed := r.freed.filter (fun e => e.1 != r.head % r.slots) ++ [(r.head % r.slots, s.issueCycle)] })).after m)) ∧
        (r.user.isSome = true ∨ r.got = 0 → exec (.rrel m ring) s = refused) ∧ exec (.rput m ring) s = illegal) ∧
      (r.dir = some true →
        (r.user = none → r.got ≠ 0 → r.pastEnd = false → exec (.rput m ring) s =
          .next ((s.modRing s.uid ring.val (fun r => { r with tail := r.tail + 1, got := r.got - 1 })).after m)) ∧
        (r.user.isSome = true ∨ r.got = 0 ∨ r.pastEnd = true → exec (.rput m ring) s = refused) ∧ exec (.rrel m ring) s = illegal) ∧
      (∀ t, r.fault = some t → exec (.rwait m ring n limit) s = trap t) ∧
      (r.fault = none → r.waitDone n.toNat = true → exec (.rwait m ring n limit) s = .next (s.after true)) ∧
      (r.fault = none → r.waitDone n.toNat = false → limit = 0 →
        exec (.rwait m ring n limit) s = trap (ringTimeout ring.val r)) ∧
      (r.fault = none → r.waitDone n.toNat = false → limit ≠ 0 → exec (.rwait m ring n limit) s =
        .next ((s.parkOn (.rwait ring n.toNat (s.now + limit.toNat) s.backNow)).after true)))

/-- MSEND sends its payload to the tile its index names now; MRECV takes a waiting message, whose payload is then
written to its buffer, posts, or answers 2^63 + 1 with 256 posted; MPROBE reads; MRES asks the first hop for a buffer and parks; MCAST sends along the open chain and closes it; without an open
chain, or with one, the chain words take the schedule trap. Where the spec leaves a point open it
states the model's choice (log 18). -/
def Obligations.MessagesAndChains : Prop :=
  ∀ (s : State) (m : Bool) (d a b : Reg) (off : Nat),
    let h := s.rs b
    let ad := s.rs a
    let len := wbits h 56 48
    let src (n : Nat) : List Byte := s.bytes (scratchKey s.tile (s.sl.fbase + off)) n
    let own (f : Nat) : Nat := if f = 255 then s.sl.fid.getD 255 else f
    (s.Ready [.scalar a, .scalar b] [] → headerOk h = true → s.InFrame ad off len 8 false →
      (exec (.msend m a b) s = .next (((s.sendMsg (wbits h 9 0) (own (wbits h 23 16)) (BitVec.ofNat 16 (wbits h 47 32)) (src len)).noReplay).after m)) ∧
      ∀ t, s.memberAt s.sl.terr (wbits h 9 0) = some t →
        ∃ p : Packet, (s.sendMsg (wbits h 9 0) (own (wbits h 23 16)) (BitVec.ofNat 16 (wbits h 47 32)) (src len)).net = s.net ++ [p] ∧
          p.dst = t.val ∧ p.cls = 1 ∧
          p.body = .tagged t (wbits h 9 0) (own (wbits h 23 16)) (s.tiles[s.tile]).lidx (BitVec.ofNat 16 (wbits h 47 32)) (src len)) ∧
    (s.Ready [.scalar a, .scalar b] (wS d none) → specOk h = true → goodLen len = true → s.InFrame ad off len 8 true →
      let id := s.dev.nextReq
      let s1 := ({ s with dev := { s.dev with nextReq := id + 1 } } : State).pendOn id (dstS d)
      ∃ t : State, exec (.mrecv m d a b) s = .next (t.after m) ∧
        match (s.tiles[s.tile]).queued (s.sl.fid.getD 255) (specSrc h) (specTag h) len with
        | some q =>
          let f : Fill := {
            who := s.me, id := id, off := off, bytes := q.bytes, todo := List.range (q.bytes.length / 8),
            wr := if d = 0 then .flagsOnly else .scalar d (msgRecord q.bytes.length q.tag q.fid q.src) }
          t = s1.modTile s.tile (fun x => { x with overflow := x.overflow.erase q, fills := x.fills ++ [f] })
        | none => if (s.tiles[s.tile]).posted.length < 256 then
            let q : Posted := {
              id := id, who := s.me, fid := s.sl.fid.getD 255, src := specSrc h, tag := specTag h, cap := len, off := off, d := d }
            t = s1.modTile s.tile (fun x => { x with posted := x.posted ++ [q] })
          else t = s.pendNow (dstS d) (.scalar d 0x8000000000000001#64)) ∧
    (s.Ready [.scalar b] (wS d none) → specOk h = true → len = 0 →
      exec (.mprobe m d b) s = .next ((s.pendNow (dstS d) (.scalar d
        (match (s.tiles[s.tile]).queued (s.sl.fid.getD 256) (specSrc h) (specTag h) 256 with
          | some q => msgRecord q.bytes.length q.tag q.fid q.src
          | none => 0))).after m)) ∧
    (∀ de, s.Ready [.scalar a] [] → s.InFrame ad off 32 32 false → parseChain (src 32) = some de →
      (s.c.chain.isSome = true ∨ s.c.ask.isSome = true → exec (.mres m a) s = .next (s.preciseTrap (cause 0x0B 0xFF 0xFFFFFFFF#64))) ∧
      ∀ t0 l0 rest, s.c.chain = none → s.c.ask = none → s.resolveHops s.sl.terr de.hops = .ok ((t0, l0) :: rest) →
        ∃ (t : State) (p : Packet), exec (.mres m a) s = .next (t.after m) ∧ t.mem = s.mem ∧ t.net = s.net ++ [p] ∧ p.cls = 2 ∧
          p.dst = t0.val ∧ t.c.park = some { why := .chain, marks := false } ∧ t.c.sreg = s.c.sreg ∧
          p.body = .reserve { cid := s.dev.nextReq, hops := (t0, l0) :: rest, len := de.len, fid := own de.fid, off := de.off,
                                  ver := s.shapeVer s.sl.terr } 0) ∧
    (s.Ready [.scalar a] [] → s.c.chain = none → exec (.mcast m a) s = .next (s.preciseTrap (cause 0x0B 0xFF 0xFFFFFFFF#64))) ∧
    (∀ c t0 l0, s.Ready [.scalar a] [] → s.c.chain = some c → c.hop 0 = some (t0, l0) → s.InFrame ad off c.len 128 false →
      1 ≤ (s.tiles[s.tile]).freeLocks →
      ∃ (t : State) (p : Packet), exec (.mcast m a) s = .next (t.after m) ∧ t.mem = s.mem ∧ t.net = s.net ++ [p] ∧ p.cls = 2 ∧
        p.dst = t0.val ∧ t.c.chain = none ∧ t.c.sreg = s.c.sreg ∧ p.body = .payload c 0 (src c.len) (s.shapeVer s.sl.terr))

/-- A copy whose checks pass is accepted, or freezes its core while its tag runs, the queue is full or the range table short; COPYM
starts a copy with its follow-on, and refuses a destination outside the frame space; CWAIT parks on its tags; CQUERY reads the tags and the free queue entries at latency 2. Where the spec leaves a point open it
states the model's choice (log 19). -/
def Obligations.CopyWords : Prop :=
  ∀ (s : State) (m : Bool) (d a b c : Reg) (tag : Fin 16) (mask : BitVec 16) (off : Nat),
    (s.Ready [.scalar a, .scalar b, .scalar c] [] →
      let len := (s.rs c).toNat % 2 ^ 32
      let need := (s.copyLocks (s.copyLoc (s.rs b)) (s.copyLoc (s.rs a)) len).length
      (∀ t, s.checkCopy (s.rs a) (s.rs b) len (s.rs c) = some t → exec (.copy m a b c tag) s = .next (s.preciseTrap t)) ∧
      (s.checkCopy (s.rs a) (s.rs b) len (s.rs c) = none →
        (∀ f, s.copyStall tag need = some f → exec (.copy m a b c tag) s = .next (s.frozenBy f)) ∧
        (s.copyStall tag need = none → exec (.copy m a b c tag) s = .next ((s.acceptCopy (s.rs a) (s.rs b) len tag none).after m)))) ∧
    (∀ (dst src : Word) (n : Nat) (f : Option Nat), let t := s.acceptCopy dst src n tag f
      t.mem = s.mem ∧ t.c.tags[tag] = .running ∧
        ∃ q : Copy, (t.tiles[s.tile]).copyQ = (s.tiles[s.tile]).copyQ ++ [q] ∧ q.tag = tag ∧ q.who = s.me ∧ q.len = n ∧ q.next = 0 ∧
          q.src = s.copyLoc src ∧ q.dst = s.copyLoc dst ∧ q.failed = none ∧ q.follow = f) ∧
    (∀ r, s.Ready [.scalar a] [] → s.InFrame (s.rs a) off 32 32 false →
      parseCopym (s.bytes (scratchKey s.tile (s.sl.fbase + off)) 32) = some r → (∃ o, parseAddr r.dst = .local' o) →
      s.checkCopy r.dst r.src r.len (s.rs a) = none → s.checkMmul r.dst r.bank s.c.streams[r.stream] r.f32 r.rows r.stride = none →
      s.copymStall r tag = none → exec (.copym m a tag) s = .next ((s.startCopym r tag).after m)) ∧
    (∀ r, s.Ready [.scalar a] [] → s.InFrame (s.rs a) off 32 32 false →
      parseCopym (s.bytes (scratchKey s.tile (s.sl.fbase + off)) 32) = some r → (∀ o, parseAddr r.dst ≠ .local' o) →
      exec (.copym m a tag) s = .next (s.preciseTrap (cause 0x06 (s.rs a) 0))) ∧
    exec (.cwait m mask) s = .next ((s.parkOn (.cwait mask)).after m) ∧
    (s.Ready [] (wS d (some 2)) → ∃ v : Word, exec (.cquery m d) s = .next ((s.landAt (.scalar d v) 2 0).after m) ∧
      v.toNat / 2 ^ 32 = 32 - (s.tiles[s.tile]).copyQ.length ∧
      ∀ k : Fin 16, v.toNat / 4 ^ k.val % 4 = match s.c.tags[k] with
        | .idle => 0
        | .running => 1
        | .complete => 2
        | .failed _ => 3)

/-- The matrix words: loads, multiplies, drains and clears take an entry of the core's queue with the range they lock, or freeze the
core; a multiply takes the bound outlier list; MDRAIN and MWAIT park; MFMT, MOUT and MVER act at once; a format code outside its range is
illegal. An MWAIT's park ends once its version is covered: the flags of the covered commands and the fault record are taken. Where the spec leaves
a point open it states the model's choice (log 16, 59, 77); that OVF then reads as it stood at the version waited for is the model's choice of
log 74. -/
def Obligations.MatrixWords : Prop :=
  ∀ (s : State) (m : Bool) (d a b c : Reg) (acc : Fin 8) (bank : Fin 2) (code : BitVec 3) (wf : WFmt) (stream : Fin 4) (f : AFmt) (f32 : Bool) (m1 : BitVec 2)
    (cnt : BitVec 6) (n : BitVec 10) (off : Nat),
    let base := s.sl.fbase + (s.rs a).toNat
    let ver : BitVec 16 := (s.rs b).setWidth 16
    let frozen (f : Freeze) : Out := .next (s.frozenBy f)
    let illegal : Out := .next (s.preciseTrap (cause 0x01 s.pcNow 0))
    (s.Ready [.scalar a] [] → WFmt.ofCode code.toNat = some wf → s.checkMlw (s.rs a) (wBytes wf) = none →
      let lock := s.mlwLock (s.rs a) (wBytes wf)
      (∀ f, s.matrixStall lock.toList.length = some f → exec (.mlw m a bank code) s = frozen f) ∧
      (s.matrixStall lock.toList.length = none →
        exec (.mlw m a bank code) s = .next (((s.queueEntry (.load bank wf (s.rs a) [] none) 0 0 false false lock).modCur
          (fun c => { c with banks := vmod c.banks bank (fun b => { b with fmt := wf, loading := b.loading + 1 }) })).after m))) ∧
    (s.Ready [.scalar a] [] → 4 ≤ code.toNat → s.checkMlw (s.rs a) 32768 = none → exec (.mlw m a bank code) s = illegal) ∧
    (AFmt.ofCode code.toNat = some f →
      exec (.mfmt m stream code) s = .next ((s.modCur (fun c => { c with streams := vset c.streams stream f })).after m)) ∧
    (5 ≤ code.toNat → exec (.mfmt m stream code) s = illegal) ∧
    (s.Ready [.scalar a, .scalar b, .scalar c] [] →
      let af := s.c.streams[stream]
      let rows := m1.toNat + 1
      (∀ t, s.checkMmul (s.rs a) bank af f32 rows (s.rs c) = some t →
        exec (.mmul m a b c acc bank stream f32 m1) s = .next (s.preciseTrap t)) ∧
      (s.checkMmul (s.rs a) bank af f32 rows (s.rs c) = none →
        (∀ f, s.matrixStall 1 = some f → exec (.mmul m a b c acc bank stream f32 m1) s = frozen f) ∧
        (s.matrixStall 1 = none → exec (.mmul m a b c acc bank stream f32 m1) s =
          .next (((s.queueEntry (.mul bank af f32 (s.rs a).toNat (s.rs c).toNat rows s.c.outl (decide (0 < (s.c.banks[bank]).loading)) [] none)
            acc ver false true (some (base, (rows - 1) * (s.rs c).toNat + aBytes af, false))).modCur (fun c => { c with outl := [] })).after m)))) ∧
    (s.Ready [.scalar a] [] → s.InFrame (s.rs a) off (8 * (cnt.toNat + 1)) 8 false →
      let l := parseOutl (s.bytes (scratchKey s.tile base) (8 * (cnt.toNat + 1))) (cnt.toNat + 1)
      (∀ o ∈ l, o.k < 128 ∧ o.n < 1024) → exec (.mout m a cnt) s = .next ((s.modCur (fun c => { c with outl := l })).after m)) ∧
    (s.Ready [.scalar a, .scalar b] [] → s.checkAccess .near (s.rs a) (4 * (n.toNat + 1)) 8 = none →
      (∀ f, s.matrixStall 1 = some f → exec (.mdrain m a b acc n) s = frozen f) ∧
      (s.matrixStall 1 = none → exec (.mdrain m a b acc n) s =
        .next (((s.queueEntry (.drain (s.rs a).toNat (n.toNat + 1)) acc ver false true (some (base, 4 * (n.toNat + 1), true))).parkOn
          (.drain acc ver s.dev.nextReq)).after m))) ∧
    (s.Ready [] (wS d (some 1)) → exec (.mver m d acc) s = .next ((s.landAt (.scalar d (BitVec.ofNat 64
      ((if (s.c.accs[acc]).ovfSeen then 65536 else 0) + (s.c.accs[acc]).issued.toNat))) 1 0).after m)) ∧
    (s.Ready [.scalar b] [] →
      (∀ f, s.matrixStall 0 = some f → exec (.mzero m b acc) s = frozen f) ∧
      (s.matrixStall 0 = none → exec (.mzero m b acc) s = .next ((s.queueEntry .zero acc ver false true none).after m)) ∧
      exec (.mwait m b acc) s = .next ((s.parkOn (.mwait acc ver)).after m)) ∧
    (∀ core : CoreId, let x := (s.cores[core]).accs[acc]
      let r := (s.cores[core]).matrixEnd acc ver
      (s.parkOver core { why := .mwait acc ver, marks := false } = none ↔ covers x.ver ver = false) ∧
      (covers x.ver ver = true → s.parkOver core { why := .mwait acc ver, marks := false } = some (s.endWith core r)) ∧
      r.2 = (s.cores[core]).mfault ∧ r.1 = { (s.cores[core]) with mfault := none, fpflags := r.1.fpflags, accs := r.1.accs } ∧
      (∀ i : Fin 8, i ≠ acc → r.1.accs[i] = (s.cores[core]).accs[i]) ∧ r.1.accs[acc] = { x with
        flags := x.flags.filter (fun e => !covers ver e.1), ovfSeen := x.ovfLog.getD (x.ver - ver).toNat false } ∧
      ∀ j < 6, r.1.fpflags.getLsbD j = true ↔
        (s.cores[core]).fpflags.getLsbD j = true ∨ ∃ e ∈ x.flags, covers ver e.1 = true ∧ e.2.getLsbD j = true) ∧
    (s.matrixStall n.toNat = some .matrixQueue ↔ 16 ≤ s.c.mq.length) ∧
    ((∃ k, s.matrixStall n.toNat = some (.locks k)) ↔ s.c.mq.length < 16 ∧ (s.tiles[s.tile]).freeLocks < n.toNat)

/-- The Orrery words: patching, periods, cell and port settings, binding, reads, single steps, runs, halts, taps, and the image of
OSAVE and ORST; each acts on the issuing core's Orrery, its slice's rings and its frame alone. A change to a cell of a halted domain is made at
once; one of a running domain is on its way for at most two ticks. An index outside its range is illegal. Where the spec leaves a point open it
states the model's choice (log 20, 21, 60). -/
def Obligations.OrreryWords : Prop :=
  (∀ (s : State) (m : Bool) (d a : Reg) (cnt : BitVec 9) (dom : Fin 4) (n : BitVec 13) (idx : BitVec 10) (port ring tap : Fin 16)
    (mask : BitVec 4),
    let o := s.c.orr
    let ad := s.rs a
    let illegal : Out := .next (s.preciseTrap (cause 0x01 s.pcNow 0))
    let sets (f : Orrery → Orrery) : Out := .next ((s.modCur (fun c => { c with orr := f c.orr })).after m)
    let writes (f : Orrery → Orrery) : Out := .next (((s.modCur (fun c => { c with orr := f c.orr })).chooseLate s.cur).after m)
    let reads (r : OrrRead) (v : Word) : Out := .next ((s.modCur (fun c => { c with flight := c.flight ++
      [{ dist := 2, wr := .scalar d v, flags := 0, src := if o.readRuns r then some r else none }] })).after m)
    let entries := (List.range (cnt.toNat + 1)).map (fun i => entryOfBytes (s.frameBytes (ad.toNat + 16 * i) 16))
    (s.Ready [.scalar a] [] → s.checkAccess .near ad (16 * (cnt.toNat + 1)) 16 = none →
      badEntry entries (entries.foldl patchCell o.flushLate.cells) = none → s.checkLocks ad (16 * (cnt.toNat + 1)) false = none →
      exec (.opatch m a cnt) s = writes (fun o => entries.foldl (fun o e => o.write e.cell (.patch e.cell e.dx e.dy)) o)) ∧
    (n.toNat ≤ 4096 → (o.doms[dom]).run = false →
      exec (.oclk m dom n) s = sets (fun o => o.modDom dom (fun x => { x with period := n.toNat }))) ∧
    (4096 < n.toNat ∨ (o.doms[dom]).run = true → exec (.oclk m dom n) s = illegal) ∧
    (s.Ready [.scalar a] [] → idx.toNat < 512 →
      exec (.osetY m a idx) s = writes (fun o => o.write idx.toNat (.y idx.toNat (ad.setWidth 32))) ∧
      exec (.osetRes m a idx) s = writes (fun o => o.write idx.toNat (.res idx.toNat (ad.setWidth 32)))) ∧
    (s.Ready [.vector a] [] → idx.toNat = port.val → ((o.ports[port]).queue).length ≤ 32 →
      exec (.osetPort m a idx) s = sets (fun o => o.modPort port
        (fun p => { p with queue := p.queue ++ (List.range 32).map (fun i => (lane (s.rv a) i).toInt.sign) }))) ∧
    (∀ r, idx.toNat = port.val → s.ringNamed ring.val = .ok r → (o.ports[port]).ring = none → r.live = true → r.dir = some false →
      r.got = 0 → r.user = none → exec (.osetBind m idx ring false) s = .next (((s.modRing s.uid ring.val (fun x =>
        { x with user := some (s.c.pos, .port port), taken := 0 })).modOrr s.cur
        (fun o => o.modPort port (fun p => { p with ring := some ring }))).after m)) ∧
    (∀ r, idx.toNat = port.val → (o.ports[port]).ring = some r →
      exec (.osetBind m idx ring true) s = .next (((s.modRing s.uid r.val (fun x => { x with user := none, taken := 0 })).modOrr s.cur
        (fun o => o.modPort port (fun p => { p with ring := none }))).after m)) ∧
    (s.Ready [] (wS d (some 2)) →
      (idx.toNat < 512 →
        exec (.ogetY m d idx) s = reads (.y idx.toNat) ((o.cell idx.toNat).y.signExtend 64) ∧
        exec (.ogetRes m d idx) s = reads (.res idx.toNat) ((o.cell idx.toNat).res.setWidth 64)) ∧
      (idx.toNat = tap.val → exec (.ogetTap m d idx) s = reads (.tap tap) (o.taps[tap]).count) ∧
      (idx.toNat = dom.val → ∃ v, exec (.ogetDom m d idx) s = reads (.dom dom) v ∧ v.toNat / 2 ^ 32 = (o.doms[dom]).steps.toNat ∧
        v.extractLsb' 19 13 = 0 ∧ v.extractLsb' 6 13 = BitVec.ofNat 13 (o.doms[dom]).period ∧ v.extractLsb' 3 3 = 0 ∧
        v.getLsbD 2 = (o.doms[dom]).ovr ∧ v.getLsbD 1 = o.hold ∧ v.getLsbD 0 = (o.doms[dom]).run) ∧
      (512 ≤ idx.toNat → exec (.ogetY m d idx) s = illegal ∧ exec (.ogetRes m d idx) s = illegal) ∧
      (16 ≤ idx.toNat → exec (.ogetTap m d idx) s = illegal) ∧ (4 ≤ idx.toNat → exec (.ogetDom m d idx) s = illegal)) ∧
    (s.Ready [.scalar a] [] → 512 ≤ idx.toNat → exec (.osetY m a idx) s = illegal ∧ exec (.osetRes m a idx) s = illegal) ∧
    (16 ≤ idx.toNat → (s.Ready [.vector a] [] → exec (.osetPort m a idx) s = illegal) ∧
      ∀ unb, exec (.osetBind m idx ring unb) s = illegal) ∧
    exec (.ostep m mask) s = sets (fun o => { (maskDoms mask).foldl (fun o d => o.modDom d Dom.ask) o with lastTick := some s.now }) ∧
    (s.Ready [.scalar a] [] → mask ≠ 0 → (∀ k ∈ maskDoms mask, (o.doms[k]).run = false ∧ (o.doms[k]).period ≠ 0) →
      exec (.orun m a mask) s = sets (fun o =>
        { (maskDoms mask).foldl (fun o d => o.modDom d (Dom.start (ad.setWidth 32))) o with lastTick := some s.now })) ∧
    (s.Ready [.scalar a] [] → (mask = 0 ∨ ∃ k ∈ maskDoms mask, (o.doms[k]).run = true ∨ (o.doms[k]).period = 0) →
      exec (.orun m a mask) s = illegal) ∧
    exec (.ohalt m mask) s = .next ((s.haltDoms s.cur (maskDoms mask)).after m) ∧
    (s.Ready [.scalar a] [] → tapOk ad = true → o.tapRuns o.taps[tap] = false → o.tapRuns (tapOf ad) = false →
      ((tapOf ad).mode ≠ 2 ∨ ∃ r, s.ringNamed (tapOf ad).ring.val = .ok r ∧ r.live = true ∧ r.dir = some true ∧
        (r.user = none ∨ r.user = some (s.c.pos, .tap tap))) →
      exec (.otap m a tap) s = .next ((s.setTap tap (tapOf ad)).after m)) ∧
    (s.Ready [.scalar a] [] → s.checkAccess .near ad 20480 128 = none → 1 ≤ (s.tiles[s.tile]).freeLocks →
      (let s1 := s.haltDoms s.cur (List.finRange 4)
       exec (.osave m a) s = .next (((s1.setFrame ad.toNat s1.c.orr.image).orrPark ad.toNat true).after m)) ∧
      (badImage (s.frameBytes ad.toNat 20480) (fun r => ((s.sl.rings[r]?).map (·.bytes)).getD 0) = none →
        ∃ t : State, exec (.orst m a) s = .next (t.after m) ∧ t.mem = s.mem ∧
          t.c.orr = o.ofImage (s.frameBytes ad.toNat 20480) ∧ (∀ k : Fin 4, (t.c.orr.doms[k]).run = false) ∧ t.c.sreg = s.c.sreg))) ∧
  (∀ (o : Orrery) (s : State) (core : CoreId) (cell : Nat) (w : OrrWrite),
    (o.cellRuns cell = false → o.write cell w = o.apply w) ∧
    (o.cellRuns cell = true → o.write cell w = { o with late := o.late ++ [(2, w)] }) ∧
    ((s.cores[core]).orr.late = [] → s.chooseLate core = s))

/-- TPRESS sets the tile's bias clamped to 0 and 255; TSHAPE and TMAP mark their register pending, TANCHOR, TFREEZE and TTHAW park, and
each of the five sends one request of class 5 to the handler tile; TEVAC leaves a ceding tile and faults on another. -/
def Obligations.TerritoryWords : Prop :=
  ∀ (s : State) (m : Bool) (d a : Reg) (on : Bool),
    let asks (i : Instr) (body : Msg) (pend : List Pend) (park : Option Park) : Prop :=
      ∃ (t : State) (p : Packet), exec i s = .next (t.after m) ∧ t.mem = s.mem ∧ t.net = s.net ++ [p] ∧ p.id = s.dev.nextReq ∧ p.cls = 5 ∧
        p.src = s.tile.val ∧ p.dst = (s.terr! s.sl.terr).handler.val ∧ p.body = body ∧ t.c.pend = s.c.pend ++ pend ∧ t.c.park = park ∧
        t.c.sreg = s.c.sreg
    (s.Ready [.scalar a] [] →
      exec (.tpress m a) s = .next ((s.modTile s.tile (fun x => { x with bias := (max 0 (min 255 (s.rs a).toInt)).toNat })).after m) ∧
      asks (.tanchor m a on) (.anchorReq ((s.rs a).toNat % 1024) on) [] (some { why := .answer s.dev.nextReq, marks := false })) ∧
    (s.Ready [.scalar a] (wS d none) →
      asks (.tmap m d a) (.snapReq d (.map ((s.rs a).toNat % 1024))) [{ id := s.dev.nextReq, reg := dstS d, got := none }] s.c.park ∧
      (∀ off, s.InFrame (s.rs a) off 136 8 true → 1 ≤ (s.tiles[s.tile]).freeLocks →
        asks (.tshape m d a) (.snapReq d (.shape off)) [{ id := s.dev.nextReq, reg := dstS d, got := none }] s.c.park)) ∧
    asks (.tfreeze m) .freezeReq [] (some { why := .answer s.dev.nextReq, marks := false }) ∧
    asks (.tthaw m) .thawReq [] (some { why := .answer s.dev.nextReq, marks := false }) ∧
    (s.ctl.delay = none → s.c.det = false → s.ownsControl = true →
      ((s.tiles[s.tile]).ceding.isSome = true → exec (.tevac m) s = .next ((s.evacuate.transfer .evac 0).after m)) ∧
      ((s.tiles[s.tile]).ceding = none → exec (.tevac m) s = .next (s.preciseTrap (cause 0x0B 0xFD 0xFFFFFFFF#64))))

/-! ### The command processor -/

/-- Whatever a command asks, its session's checks come first: a malformed frame is answered with status 1, a SEQ out of order with 2, a
command outside the secure session that its interface asks for with 4; nothing else changes. Where the spec leaves a point open it
states the model's choice (log 24). -/
def Obligations.CommandsAreCheckedInOrder : Prop :=
  ∀ (i : Instr) (h : Hdr) (code : Nat) (s : State) (x : Session), commandOf i = some (h, code) → s.findSession h.sess = some x →
    s.dev.bootFail = false → x.busy = false →
    let answers (st : Nat) : Prop := exec i s = .next (s.respond h code st .empty)
    (h.formed = false → answers 1) ∧ (h.formed = true → h.seq ≠ x.nextSeq → answers 2) ∧
      (h.formed = true → h.seq = x.nextSeq → s.secureOk h = false → answers 4)

/-- CREATE and CREATE_INDEXED make a territory of free, connected tiles with one handler tile at index 0, and a claim on one of them is
given up; DISSOLVE ends its slices with status 5; POLICY takes device settings from an admitted session with TERR = 0xFFFF and a territory's
from its own session, refuses bytes that must be zero, and firmware anchors and phase settings wait for the next phase. Where the spec leaves a
point open it states the model's choice (log 24). -/
def Obligations.TerritoryCommands : Prop :=
  ∀ (s : State) (h : Hdr) (minA maxB id v : Nat),
    (∀ (l : List (Nat × TileId)) (ver : Nat) (hd : TileId), s.MayRun h → s.ownsNone h = true → h.terr ≤ 63 → s.findTerr h.terr = none →
      s.terrs.length < 64 → (l.map (·.1)).Nodup → (l.map (·.2)).Nodup → (0, hd) ∈ l → (∀ e ∈ l, e.1 ≤ 1023 ∧ (s.tiles[e.2]).isFree = true) →
      tilesConnected (l.map (·.2)) = true → 1 ≤ minA → minA ≤ l.length → l.length ≤ maxB → maxB ≤ 384 → ver < 2 ^ 32 →
      let made (i : Instr) (code : Nat) (ver : Nat) : Prop := ∃ t : State, exec i s = .next (t.ran h code .empty) ∧ t.mem = s.mem ∧
        t.terrs = s.terrs ++ [newTerr h.terr s.dev.nextTerr h.sess hd (BitVec.ofNat 32 ver) minA maxB s.fwver] ∧
        (∀ e ∈ l, (t.tiles[e.2]).owner = some h.terr ∧ (t.tiles[e.2]).lidx = e.1 ∧ (t.tiles[e.2]).claim = none) ∧
        ((∀ e ∈ l, (s.tiles[e.2]).claim = none) → t.net = s.net) ∧ ∀ u : TileId, u ∉ l.map (·.2) → t.tiles[u] = s.tiles[u]
      made (.createIndexed h ver (l.map (fun e => (e.1, tileX e.2, tileY e.2))) minA maxB) 0x0013 ver ∧
      (l.map (·.1) = List.range l.length → made (.create h (l.map (fun e => (tileX e.2, tileY e.2))) minA maxB) 0x0010 0)) ∧
    (s.MayRunOn h → s.ifAllows h [.unlocked] = true →
      let s1 := (s.modTerr h.terr (fun y => { y with dying := some { how := .dissolved, reply := some h, stop := none, stays := false } })).forceLaunches h.terr 5
      exec (.dissolve h) s = .next (((s1.endSlices h.terr .dissolved).accept h true).tryDissolve h.terr)) ∧
    (s.MayRun h → s.policyState h id v = true → (devSetting id = false → (s.ownTerr h).isSome = true) →
      (∀ t, s.policySet h id v = .done t .empty → exec (.policy h id v) s = .next (t.ran h 0x0012 .empty) ∧
        (id = 6 → exec (.policySetAnchor h v) s = .next (t.ran h 0x0012 .empty)) ∧
        (id = 7 → exec (.policyClearAnchor h v) s = .next (t.ran h 0x0012 .empty)) ∧
        (id = 9 → exec (.pxpeers h v) s = .next (t.ran h 0x0012 .empty)) ∧
        (id = 10 → exec (.ops h v) s = .next (t.ran h 0x0012 .empty))) ∧
      (h.pad ≠ 0 → exec (.policy h id v) s = .next (s.respond h 0x0012 6 .empty))) ∧
    (h.pad = 0 → h.terr = 0xFFFF → 4 ≤ v → v ≤ 255 → s.policySet h 0 v = .done { s with dev := { s.dev with pendPol := s.dev.pendPol ++ [(0, v)] } } .empty) ∧
    (∀ t, h.pad = 0 → s.memberAt h.terr v = some t →
      let pends (on : Bool) : CmdRes := .done (s.modTerr h.terr (fun y => { y with pendAnch := y.pendAnch ++ [(t, on)] })) .empty
      (s.heldAnchor h.terr t = true ∨ s.anchors h.terr + (s.terr! h.terr).anchPending < 16 → s.policySet h 6 v = pends true) ∧
      (s.heldAnchor h.terr t = false → 16 ≤ s.anchors h.terr + (s.terr! h.terr).anchPending → s.policySet h 6 v = .bad 6) ∧
      s.policySet h 7 v = pends false) ∧
    (∀ e, h.pad = 0 → h.terr = 0xFFFF → (s.session! h.sess).endpoint v = some e → v ≤ 4095 → e.fa ∉ s.dev.pxpeers → e.fa ∉ s.dev.ops →
      s.policySet h 9 v = .done { s with dev := { s.dev with pxpeers := s.dev.pxpeers ++ [e.fa] } } .empty ∧
      s.policySet h 10 v = .done { s with dev := { s.dev with ops := s.dev.ops ++ [e.fa] } } .empty)

/-- MAP gives each 2 MiB piece a physical piece and zeroes it, UNMAP takes whole pages back and zeroes them, PROTECT changes permissions;
LOAD_CODE registers an object and records EV_CODE, LAUNCH records EV_ARGS and makes its slices; DIRTY returns and clears the bits, but for
those written in its own cycle; bytes that must be zero are refused. Where the spec leaves a point open it states the model's choice
(log 39, 44). -/
def Obligations.PagesCodeAndLaunches : Prop :=
  ∀ (s : State) (h : Hdr) (va len psize perm first count : Nat) (body : CodeBody) (dimg : Nat) (b : LaunchBody), s.MayRunOn h →
    let y := s.terr! h.terr
    (s.ifAllows h [.unlocked, .locked, .run] = true →
      (∀ ps, h.pad = 0 → psize ≤ 1 → perm ≤ 1 → va % pageSize psize = 0 → 0 < len → len % pageSize psize = 0 → va + len ≤ 2 ^ 48 →
        (∀ p ∈ y.pages, p.vpn * 2097152 < va ∨ va + len ≤ p.vpn * 2097152) → len / 2097152 ≤ 8 * (32768 - s.firstPiece) →
        givePieces s.firstPiece s.takenPieces (perm == 1) (psize == 1) (pieces va len) = some ps →
        exec (.mapPages h va len psize perm) s =
          .next ((((s.takePieces ps).zeroPages ps).modTerr h.terr (fun y => { y with pages := y.pages ++ ps })).ran h 0x0014 .empty)) ∧
      (h.pad = 0 → rangeBad y.pages va len = false →
        exec (.unmap h va len) s = .next (((s.zeroPages (y.pages.filter (fun p => p.inside va len))).modTerr h.terr (fun y => { y with
          pages := y.pages.filter (fun p => !p.inside va len),
          dirty := y.dirty.filter (fun g => decide (g * 65536 < va) || decide (va + len ≤ g * 65536)) })).ran h 0x0015 .empty) ∧
        (perm ≤ 1 → exec (.protect h va len perm) s = .next ((s.modTerr h.terr (fun y => { y with
          pages := y.pages.map (fun p => if p.inside va len then { p with rw := perm == 1 } else p) })).ran h 0x0016 .empty))) ∧
      (h.pad ≠ 0 → exec (.mapPages h va len psize perm) s = .next (s.respond h 0x0014 6 .empty) ∧
        exec (.unmap h va len) s = .next (s.respond h 0x0015 6 .empty) ∧
        exec (.protect h va len perm) s = .next (s.respond h 0x0016 6 .empty))) ∧
    (s.ifAllows h [.run] = true →
      (8 ≤ CodeBody.size body → CodeBody.size body ≤ 131072 → body.data = [] →
        exec (.loadCode h body dimg) s = .next (State.ran { s.evCode h.sess body with
          codes := s.codes ++ [{ handle := s.dev.nextHandle, terr := h.terr, body := body, dimg := dimg }],
          dev := { s.dev with nextHandle := s.dev.nextHandle + 1 } } h 0x0020 (.words [BitVec.ofNat 64 s.dev.nextHandle]))) ∧
      (∀ o n args, s.launchLimit h.terr b = some (o, n, args) →
        let size := roundFrame n.2.2
        let room (t : TileId) : Prop := (frameBase (s.frames t) size).isSome = true
        (b.coop = 0 ∨ size = 0 → (∀ t ∈ s.launchTiles h.terr b, size = 0 ∨
            room t ∧ (nextId (s.tiles[t]).lastFid (s.idHeld s.dev.nextUid t)).isSome = true) →
          exec (.launch h b) s = .next (((s.evArgs h.sess args).makeSlices h b o n none).ran h 0x0021 .empty)) ∧
        (∀ f, b.coop = 1 → size ≠ 0 → (∀ t ∈ s.launchTiles h.terr b, room t) → s.coopId h.terr = some f →
          exec (.launch h b) s = .next ((((s.launchTiles h.terr b).foldl (fun s t => s.modTile t (fun x => { x with lastFid := some f }))
            ((s.evArgs h.sess args).modTerr h.terr (fun y => { y with lastCoop := some f }))).makeSlices h b o n (some f)).ran h 0x0021 .empty))) ∧
      (1 ≤ count → count ≤ 524288 → first + count ≤ 2 ^ 32 → ∃ bits : Nat → Bool,
        exec (.dirty h first count) s = .next ((s.modTerr h.terr (fun y =>
          { y.cleaned s.now (fun g => decide (first ≤ g) && decide (g < first + count)) with dirtyRead := true, dirtySince := true })).ran h 0x0034
            (.bytes (bitBytes bits count))) ∧
        (∀ (z : Terr) (clean : Nat → Bool) (g : Nat),
          g ∈ (z.cleaned s.now clean).dirty ↔ g ∈ z.dirty ∧ (clean g = false ∨ (z.wroteAt = s.now ∧ g ∈ z.wrote))) ∧
        (y.dirtyRead = true → ∀ i < count, bits i = true ↔ first + i ∈ y.dirty) ∧
        (y.dirtyRead = false → ∀ i < count, bits i = true ↔ ∃ p ∈ y.pages, p.vpn = (first + i) / 32)))

/-- PREEMPT halts a context that runs, RESUME lets a halted one go on; SAVE and CHECKPOINT are accepted, and once the context is quiescent the
record at the offset is zeroed, the image is written and the record after it; bytes written over an image stand in it; RESTORE and LOADPAGES write one back, PXSEND starts a stream of
the image and its ancestors to a buddy. Where the spec leaves a point open it states the model's choice (log 24, 25, 26, 39). -/
def Obligations.ContextCommands : Prop :=
  (∀ (s : State) (h : Hdr) (off buddy boff : Nat) (bpoff : Option Nat) (full : Bool) (b : CkptBody), s.MayRunOn h →
    (s.ifAllows h [.run] = true →
      (s.isHalted h = false → exec (.preempt h) s =
        .next ((((s.haltTerr h.terr).modTerr h.terr (fun y => { y with haltReply := some h })).accept h true).tryHalted h.terr)) ∧
      (s.isHalted h = true → exec (.resume h) s = .next ((s.resumeTerr h.terr).ran h 0x0033 .empty) ∧
        (off % 4096 = 0 → off + 4096 ≤ s.storeBytes → exec (.save h off full) s = .next ((s.beginSave
          { h := h, off := off, full := full, ckpt := none, resume := false, zeroed := false, image := none }).accept h true))) ∧
      (s.isHalted h = false → exec (.resume h) s = .next (s.respond h 0x0033 4 .empty)) ∧
      (s.streaming h.terr = false → s.ckptOk h b = true → exec (.checkpoint h b) s =
        .next (((if s.isHalted h then s else s.haltTerr h.terr).beginSave
          { h := h, off := b.off, full := b.full, ckpt := some b, resume := !s.isHalted h, zeroed := false, image := none }).accept h true)) ∧
      (s.streaming h.terr = false → s.ckptOk h b = false → exec (.checkpoint h b) s = .next (s.respond h 0x0035 6 .empty))) ∧
    (s.ifAllows h [.run, .locked] = true → (s.findImage off).isSome = true → s.buddyOk h.sess buddy = true → boff % 4096 = 0 →
      (∀ p, bpoff = some p → p % 4096 = 0) →
      exec (.pxsend h off buddy boff bpoff) s = .next ((s.startStream h.sess h.terr buddy off boff bpoff).ran h 0x0036 .empty)) ∧
    (∀ is, s.ifAllows h [.locked] = true → s.ancestry 8 off = some is →
      (chainPages is).all (fun g => s.mapped h.terr g.1 true) = true →
      exec (.loadpages h off) s = .next ((s.putPages h.terr (chainPages is)).ran h 0x0037 .empty)) ∧
    (∀ is i ts, s.ifAllows h [.locked] = true → s.fillable h = true → s.ancestry 8 off = some is → is.getLast? = some i →
      let ms := i.sections.filter (fun x => !x.isCeding)
      (i.major ≠ 1 → exec (.restore h off) s = .next (s.respond h 0x0032 6 .empty)) ∧
      (i.major = 1 → ms.length = s.size h.terr → (∀ x ∈ ms, (s.memberAt h.terr x.lidx).isSome = true) →
        (i.frz = true → ∀ x ∈ ms, s.memberAt h.terr x.lidx = some x.pos) → (chainPages is).all (fun g => s.mapped h.terr g.1 false) = true →
        s.cedingRoom h.terr (i.sections.length - ms.length) = some ts →
        exec (.restore h off) s = .next ((s.restored h i (chainPages is) ts).ran h 0x0032 .empty)))) ∧
  (∀ (s : State) (terr : Nat) (v : Saving), (s.terr! terr).saving = some v →
    (s.quiescent terr = false → s.saveStep terr = none) ∧
    (s.quiescent terr = true →
      (v.zeroed = false → s.saveStep terr =
        some ((s.overwrite v.off (List.replicate 128 0)).modTerr terr (fun y => { y with saving := some { v with zeroed := true } }))) ∧
      (v.zeroed = true → v.image = none → ∃ t, s.saveStep terr = some t ∧ t.mem = s.mem ∧ t.dev = s.dev ∧
        t.store = (s.overwrite (v.off + 4096) ((s.savingImage terr v).bytes.take (s.savingRoom v))).store ∧
        (t.terr! terr).saving = some { v with image := some (s.savingImage terr v) }) ∧
      (∀ i, v.zeroed = true → v.image = some i → s.saveStep terr = some (s.finishSave terr v i)))) ∧
  (∀ (s : State) (i : Image), let c : Image := { i with gen := s.now }
    (s.commitImage i).store = (s.overwrite i.off c.recordBytes).store ++ [c]) ∧
  (∀ (s : State) (lo : Nat) (bs : List Byte), let t := s.overwrite lo bs
    t.mem = s.mem ∧ t.dev = s.dev ∧ (∀ i ∈ s.store, i.touches lo bs.length = false → i ∈ t.store) ∧
    (∀ i ∈ t.store, ∃ j ∈ s.store, j.recordHit lo bs.length = false ∧ i = j.hit lo bs) ∧
    ∀ i : Image, i.off + 4096 ≤ lo → lo < i.off + 4096 + i.len → 0 < bs.length → (i.hit lo bs).stored = writtenOver i.stored (lo - (i.off + 4096), bs)) ∧
  (∀ (s : State) (sess terr buddy off boff : Nat), s.startStream sess terr buddy off boff none = { s with
    stepNo := s.stepNo + 1,
    pxOut := s.pxOut ++ [{ sess := sess, terr := terr, born := (s.terr! terr).born, buddy := buddy, off := off, boff := boff, bpoff := none,
                           images := (s.chainFrom s.store.length off).reverse }] })

/-- The debug words on a slice of the territory: CLAIM, HALT, READ, WRITE, STEP of a halted slice, GO, RELEASE; the firmware and operator
commands; the counters and telemetry, whose response is read piece by piece; an unassigned CODE gets status 3. FWACTIVATE ends every territory, and once they have ended the sessions
end, the banks change roles and the device resets. Where the spec leaves a point open it states the model's choice
(log 4, 24, 33, 34, 38, 44, 61). -/
def Obligations.DebugAndOperatorCommands : Prop :=
  (∀ (s : State) (h : Hdr) (sl pos off first count x y code : Nat) (wr : DbgWrite) (bytes : List Byte) (force : Bool), s.MayRun h →
    (∀ z, (s.ownTerr h).isSome = true → s.ifAllows h [.unlocked] = true → s.dbgSlice h sl = some z →
      exec (.debugClaim h sl) s = .next ((s.modSlice sl (fun x => { x with claimed := true })).ran h 0x0040 .empty) ∧
      exec (.debugRelease h sl) s = .next (((s.dbgSet z false 0).modSlice sl (fun x => { x with claimed := false })).ran h 0x0040 .empty) ∧
      exec (.debugHalt h sl) s = .next ((s.dbgSet z true 0).ran h 0x0040 .empty) ∧
      exec (.debugGo h sl) s = .next ((s.dbgSet z false 0).ran h 0x0040 .empty) ∧
      (s.dbgHalted z = true → exec (.debugStep h sl) s = .next ((s.dbgSet z true 1).ran h 0x0040 .empty)) ∧
      (s.dbgHalted z = false → exec (.debugStep h sl) s = .next (s.respond h 0x0040 4 .empty)) ∧
      exec (.debugRead h sl) s = .next (State.ran { s with stepNo := s.stepNo + 1 } h 0x0040 (.debug (z.cores.map s.coreRead)
        (match z.tile with
          | some t => (s.tiles[t]).bars.toList.map barqVal
          | none => []) ((Config.freeWord s.stepNo).toNat % 65537))) ∧
      (∀ c, z.cores[pos]? = some c → (∀ off bs, wr ≠ .frame off bs) → (dbgReg wr).any (fun r => (s.cores[c]).engaged r) = false →
        exec (.debugWrite h sl pos wr) s = .next ((s.modCore c (fun k => k.dbgWrite wr)).ran h 0x0040 .empty))) ∧
    (s.operator h = true →
      (bytes ≠ [] → bytes.length ≤ 65536 → off + bytes.length ≤ 33554432 → exec (.fwwrite h off bytes) s =
        .next (State.ran { s with dev := { s.dev with flash := vmod s.dev.flash (1 - s.dev.primary) (fun b => patchBank b off bytes) } } h 0x0070 .empty)) ∧
      (h.pad = 0 → bootOk s.dev.svnMin s.dev.flash[1 - s.dev.primary] = true → (s.terrs = [] ∨ force = true) →
        exec (.fwactivate h force) s = .next ((s.terrs.map (·.id)).foldl State.endForUpdate
          { s.accept h true with dev := { s.dev with activating := some h } })) ∧
      (h.pad ≠ 0 ∨ bootOk s.dev.svnMin s.dev.flash[1 - s.dev.primary] = false → exec (.fwactivate h force) s = .next (s.respond h 0x0071 6 .empty)) ∧
      (h.pad = 0 → bootOk s.dev.svnMin s.dev.flash[1 - s.dev.primary] = true → s.terrs ≠ [] → force = false →
        exec (.fwactivate h force) s = .next (s.respond h 0x0071 4 .empty)) ∧
      (let svn := Config.imageSvn s.dev.running
       (svn ≤ s.dev.svnMin → exec (.fwcommit h) s = .next (s.ran h 0x0072 .empty)) ∧
       (s.dev.svnMin < svn → svn ≤ 64 → exec (.fwcommit h) s = .next (State.ran { s with dev := { s.dev with svnMin := svn } } h 0x0072 .empty)) ∧
       (s.dev.svnMin < svn → 64 < svn → exec (.fwcommit h) s = .next (s.respond h 0x0072 7 .empty))) ∧
      (1 ≤ count → first + count ≤ 21 → exec (.counters h first count) s = .next ((s.accept h true).startReading h 0x0060
        (allTiles.flatMap (tileProbes first count) ++ devProbes first count)))) ∧
    (h.terr ≠ 0xFFFF → (s.ownTerr h).isSome = true → 1 ≤ count → first + count ≤ 16 → exec (.counters h first count) s =
      .next ((s.accept h true).startReading h 0x0060 ((s.inOrder h.terr).flatMap (fun t => .place t :: tileProbes first count t)))) ∧
    exec (.telemetry h) s = .next ((s.accept h true).startReading h 0x0061 (.sample :: (List.finRange 32).map .island)) ∧
    (∀ t, s.opsAdmits h.sess = true → tileXY x y = some t → (s.tiles[t]).isFree = true →
      exec (.fenceTile h x y) s =
        .next (((s.abandon t).modTile t (fun x => { x with fenced := true, fencedAt := some s.now })).ran h 0x0062 .empty)) ∧
    (s.opsAdmits h.sess = true → tileXY x y = none → exec (.fenceTile h x y) s = .next (s.respond h 0x0062 6 .empty)) ∧
    exec (.unknownCommand h code) s = .next (s.respond h code 3 .empty)) ∧
  (∀ (s : State) (r : Reading) (k n : Nat) (p : Probe), s.readings[k]? = some r → r.todo.find? (fun e => e.1 == n) = some (n, p) →
    let s1 := { s with stepNo := s.stepNo + 1 }
    let r1 : Reading := { r with todo := r.todo.filter (fun e => e.1 != n), got := r.got ++ [(n, s.probe p)] }
    (r1.todo ≠ [] → s.readPiece k n = { s1 with readings := s1.readings.set k r1 }) ∧
    (r1.todo = [] → s.readPiece k n =
      (State.respond { s1 with readings := s1.readings.eraseIdx k } r.h r.code 0 (.bytes r1.body)).idle r.h.sess)) ∧
  (∀ (s : State) (t : TileId) (i : Fin 16) (j : Fin 5) (l : Fin 32) (first count : Nat),
    s.probe (.tile t i) = leBytes 8 ((s.tiles[t]).ctr[i]).toNat ∧ s.probe (.dev j) = leBytes 8 (s.dev.ctr[j]).toNat ∧
    (.tile t i ∈ tileProbes first count t ↔ first ≤ i.val ∧ i.val < first + count) ∧
    (.dev j ∈ devProbes first count ↔ first ≤ j.val + 16 ∧ j.val + 16 < first + count) ∧
    (s.probe .sample).length = 32 ∧ (s.probe (.island l)).length = 16) ∧
  (∀ (s : State) (g : Hdr), s.dev.activating = some g →
    let t := s.updated
    t.dev.primary = 1 - s.dev.primary ∧ t.dev.boots = s.dev.boots + 1 ∧ t.sessions = [] ∧ t.terrs = [] ∧ t.mem = [] ∧
      t.dev.flash = s.dev.flash ∧ t.store = s.store ∧ t.dev.activating = none ∧
      t.outbox = s.outbox ++ [.response g.sess (headerBytes 0x0071 0 0 g.seq g.terr g.tag) .empty])

/-- OPEN starts a session with DEVID and FWMEAS; RECEIPT, CLOSE and EVLOG answer with its records; the endpoint table and the interface
registers are read and written; a write to a locked register ends the territory with ERROR, and in ERROR every write is refused. Where the spec leaves a point open it
states the model's choice (log 24, 30). -/
def Obligations.SessionCommands : Prop :=
  ∀ (s : State) (h : Hdr) (fa : BitVec 128) (nonce : List Byte) (first count idx job reg : Nat) (ports : BitVec 8) (v : Word),
    (s.dev.bootFail = false → s.findSession h.sess = none → h.formed = true → nonce.length = 32 → h.seq = 0 → s.secureOk h = true →
      exec (.openSession h fa nonce) s = .next (State.respond { s with sessions := s.sessions ++ [newSession h.sess fa nonce] } h 0x0001 0
        (.bytes (digestBytes devid ++ digestBytes s.fwmeas)))) ∧
    (s.MayRun h →
      let x := s.session! h.sess
      exec (.receipt h) s = .next (s.countReceipt.ran h 0x0003 (.bytes (s.receiptBytes x false))) ∧
      (s.ownsNone h = true → exec (.close h) s =
        .next (State.ran { s.countReceipt with sessions := s.sessions.filter (fun x => x.id != h.sess) } h 0x0002 (.bytes (s.receiptBytes x true)))) ∧
      (∃ es, exec (.evlog h first count) s = .next (s.ran h 0x0004 (.events es)) ∧
        ∀ n e, (n, e) ∈ es ↔ x.evBase ≤ n ∧ x.log[n - x.evBase]? = some e ∧ first ≤ n ∧ n < first + count) ∧
      (h.pad = 0 → 1 ≤ idx → idx ≤ 4095 → job < 2 ^ 24 → x.endpoint idx = none → exec (.epadd h idx fa job ports) s =
        .next ((s.modSession h.sess (fun x => { x with eps := x.eps ++ [(idx, { fa := fa, job := job, ports := ports })] })).ran h 0x0005 .empty)) ∧
      (h.pad ≠ 0 → exec (.epadd h idx fa job ports) s = .next (s.respond h 0x0005 6 .empty) ∧
        (s.epInUse h.sess idx = false → exec (.epdel h idx) s = .next (s.respond h 0x0006 6 .empty))) ∧
      (h.pad = 0 → 1 ≤ idx → idx ≤ 4095 → (x.endpoint idx).isSome = true → s.epInUse h.sess idx = false → exec (.epdel h idx) s =
        .next ((s.modSession h.sess (fun x => { x with eps := x.eps.filter (fun e => e.1 != idx) })).ran h 0x0006 .empty)) ∧
      ((s.findTerr h.terr).any (fun y => y.iface.st == IfState.error) = true ∨ s.ghosts.any (fun g => g.terr == h.terr) = true →
        exec (.ifWrite h reg v) s = .next (s.respond h 0x0051 4 .empty)) ∧
      ((s.ownTerr h).isSome = true →
        (∀ hr : reg < 9, exec (.ifRead h reg) s = .next (s.ran h 0x0050 (.words [(s.terr! h.terr).iface.regs[reg]]))) ∧
        (s.ifWritable h.terr reg v = true → (s.terr! h.terr).iface.st ≠ .error → (∀ g ∈ s.ghosts, g.terr ≠ h.terr) →
          (s.ifFixed h.sess h.terr = true →
            exec (.ifWrite h reg v) s = .next (((s.accept h true).respond h 0x0051 4 .empty).ifError h.terr)) ∧
          ∀ hr : reg < 9, s.ifFixed h.sess h.terr = false → exec (.ifWrite h reg v) s =
            .next ((s.modTerr h.terr (fun y => { y with iface := { y.iface with regs := y.iface.regs.set reg v } })).ran h 0x0051 .empty))))

/-- SPDM requests are answered with certificates, signed measurements and challenges, a secure session starts with the algorithms that the
module negotiates and ends; TDISP requests inside one lock, start, report and stop an interface, a wrong start nonce sends it to ERROR, and a
stop in ERROR needs no secure session. Where the spec leaves a point open it
states the model's choice (log 24, 32). -/
def Obligations.AttestationRequests : Prop :=
  ∀ (s : State) (sess terr slot index : Nat) (nonce : List Byte), s.dev.bootFail = false →
    (slot ≤ 1 → exec (.getCertificate sess slot) s = .next (s.spdmSay sess 0x02 (Config.certificate slot))) ∧
    (nonce.length = 32 → exec (.challenge sess nonce) s = .next ((s.spdmSay sess 0x03 s.spdmSigs).tick)) ∧
    exec (.getMeasurements sess 1) s = .next ((s.spdmSay sess 0x60 (digestBytes s.fwmeas ++ s.spdmSigs)).tick) ∧
    exec (.getMeasurements sess 2) s = .next ((s.spdmSay sess 0x60 (digestBytes devid ++ s.spdmSigs)).tick) ∧
    (∀ o i, 0x10 ≤ index → index < 0x50 → s.ifaceOf (index - 0x10) = some (o, i) → exec (.getMeasurements sess index) s =
      .next ((s.spdmSay sess 0x60 (digestBytes (sha3 (s.ifReport (index - 0x10) i)) ++ s.spdmSigs)).tick)) ∧
    (sess ∉ s.dev.spdm → exec (.spdmSessionStart { sess := sess, algs := c9Algs }) s = .next { s with dev := { s.dev with spdm := s.dev.spdm ++ [sess] } }) ∧
    (∀ algs : SpdmAlgs, algs.hash ≠ .sha3_384 ∨ algs.sig ≠ .ed25519WithMlDsa65 ∨ algs.dhe ≠ .secp384r1 ∨ algs.aead ≠ .aes256Gcm →
      exec (.spdmSessionStart { sess := sess, algs := algs }) s = .next (s.spdmSay sess 0x7F [])) ∧
    ((∀ y ∈ s.terrs, y.sess = sess → y.iface.st ≠ .locked ∧ y.iface.st ≠ .run) →
      exec (.spdmSessionEnd sess) s = .next { s with dev := { s.dev with spdm := s.dev.spdm.filter (· != sess) } }) ∧
    (s.dev.spdm.contains sess = true →
      (∀ i, s.ifaceOf terr = some (sess, i) → exec (.getDeviceInterfaceReport sess terr) s = .next (s.tdispSay sess 0x84 true (s.ifReport terr i))) ∧
      (∀ y, s.findTerr terr = some y → y.sess = sess → s.mayLock y = true → exec (.lockInterfaceRequest sess terr) s = .next (s.lockIface y) ∧
        ∃ n : List Byte, n.length = 32 ∧ (s.lockIface y).outbox = s.outbox ++ [.tdisp sess 0x83 true n]) ∧
      (s.ifIs sess terr [.locked] = true →
        (nonce = (s.terr! terr).iface.nonce → exec (.startInterfaceRequest sess terr nonce) s =
          .next ((s.modTerr terr (fun y => { y with iface := { y.iface with st := .run } })).tdispSay sess 0x86 true [])) ∧
        (nonce ≠ (s.terr! terr).iface.nonce → exec (.startInterfaceRequest sess terr nonce) s = .next ((s.tdispSay sess 0x86 false []).ifError terr))) ∧
      (s.ifIs sess terr [.locked, .run] = true → s.inError sess terr = false → exec (.stopInterfaceRequest sess terr) s = .next ((State.endSlices ((s.modTerr terr (fun y => { y with
        dying := some { how := .dissolved, reply := none, stop := some sess, stays := true } })).forceLaunches terr 5) terr .dissolved).tryDissolve terr))) ∧
    (s.inError sess terr = true →
      (s.findTerr terr = none → exec (.stopInterfaceRequest sess terr) s =
        .next (State.tdispSay { s with ghosts := s.ghosts.filter (fun g => g.terr != terr) } sess 0x87 true [])) ∧
      ((s.findTerr terr).isSome = true → exec (.stopInterfaceRequest sess terr) s =
        .next (s.modTerr terr (fun y => { y with dying := y.dying.map (fun d => { d with stop := some sess }) }))))

/-! ### Messages of the mesh -/

/-- A message that is not the next of its source, destination and class has no effect of its own: a duplicate is acknowledged again, unless its
response, which is its acknowledgement, is itself not acknowledged yet; a later one is dropped, each is counted; the source resends from the oldest one not acknowledged for 16,384 cycles. Where the spec leaves a point open it
states the model's choice (log 35). -/
def Obligations.DeliveryIsInOrder : Prop :=
  ∀ (s : State) (p : Packet) (act : State → State) (k : Nat),
    let want := lookupSeq s.rxSeq p.key
    (p.seq = want → s.arrive p act = act (s.accepted p)) ∧
    (p.seq < want → (∀ q ∈ s.kept, ¬(q.src = p.dst ∧ q.dst = p.src ∧ q.body.answers = some p.id)) →
      s.arrive p act = ((s.takePacket p.id).bumpNode p.dst 13).sendAck p) ∧
    (p.seq < want → (∃ q ∈ s.kept, q.src = p.dst ∧ q.dst = p.src ∧ q.body.answers = some p.id) →
      s.arrive p act = (s.takePacket p.id).bumpNode p.dst 13) ∧
    (∀ req (w : Wr) (fl : BitVec 6) (tr : TrapRec) (own : Bool) (bs : List Byte),
      (Msg.reply req w fl).answers = some req ∧ (Msg.refuse req tr own).answers = some req ∧ (Msg.data req bs).answers = some req) ∧
    (want < p.seq → s.arrive p act = (s.takePacket p.id).bumpNode p.dst 14) ∧
    (s.keptReq k = some p → p.sent + 16384 ≤ s.now → exec (.retransmitTimeout k) s = .next (s.resend p.key)) ∧
    (∀ req, s.firstPacket k = some p → p.body = .ack req → ∃ t : State, exec (.ackArrival k) s = .next t ∧ t.mem = s.mem ∧
      t.net = s.net.eraseP (fun q => q.id == k) ∧ t.kept = s.kept.filter (fun q => q.id != req))

/-- A request that arrives is performed at the frame of a live slice, or at the physical address of a mapped page, and answered; a target that
has gone, a frame that is stale or too small, and a page that is not mapped refuse it and write nothing. So are the pieces
that a ring's controller reads and writes, and the reads of a copy's beat or of an MLW; what each has asked for comes back to it. An answer reaches the stream that issued its request: a result is delivered, a refusal waits for that stream's park, and
the handler tile's answers end the parks that wait for them or deliver a snapshot; each is acknowledged. Where the spec leaves a point open
it states the model's choice (log 16, 59). -/
def Obligations.RequestsArePerformedAndAnswered : Prop :=
  (∀ (s : State) (k : Nat) (p : Packet), s.Arriving k p →
    let t := s.accepted p
    let done (key : Nat) (wrote : State → State) : State := match p.body with
      | .load _ _ n dest => t.answer p (.reply p.id (loadWr dest (t.bytes key n)) 0)
      | .store _ _ bs => (wrote (t.setBytes key bs)).sendAck p
      | .copyWr _ _ bs _ _ => (wrote (t.setBytes key bs)).sendAck p
      | .read _ _ n _ _ => t.answer p (.data p.id (t.bytes key n))
      | .atom _ _ op ty x cmp d =>
        let old : BitVec 32 := BitVec.ofNat 32 (leNat (t.bytes key 4))
        let r := atomNew op ty old x cmp
        (wrote (t.setBytes key (leBytes 4 r.1.toNat))).answer p (.reply p.id (if d = 0 then .flagsOnly else .scalar d (atomOld ty old)) r.2)
      | _ => t
    (∀ tile u lidx fid off a n wr, nodeTile p.dst = some tile → requestOf p.body = some (.peer u lidx fid off, a, n, wr) →
      let refused (i : Fin 16) (tr : TrapRec) : Prop :=
        exec (.peerRequestArrival k) s = .next ((t.bump tile i).answer p (.refuse p.id tr (ownPark p.body tr)))
      (t.isHere tile p.terr lidx p.issued = false → refused 2 (stalePeer lidx p.issued)) ∧
      (t.isHere tile p.terr lidx p.issued = true →
        (t.liveFrame tile p.terr fid = none → refused 3 (cause 0x09 a 0)) ∧
        ∀ x, t.liveFrame tile p.terr fid = some x →
          (x.fsize < off + n → refused 3 (cause 0x06 a 0)) ∧
          (off + n ≤ x.fsize → exec (.peerRequestArrival k) s = .next (done (scratchKey tile (x.fbase + off)) id)))) ∧
    (∀ va a n wr, requestOf p.body = some (.hbm va, a, n, wr) →
      (∀ i1, t.translate p.terr va wr = .error i1 →
        exec (.hbmAccess k) s = .next (t.answer p (.refuse p.id (transFault va i1) (ownPark p.body (transFault va i1))))) ∧
      ∀ pa, t.translate p.terr va wr = .ok pa → exec (.hbmAccess k) s = .next (done (hbmKey pa) (fun s => s.markDirty p.terr va))) ∧
    (∀ sl ring va n, p.body = .rowRead sl ring va n →
      (∀ i1, t.translate p.terr va false = .error i1 → exec (.hbmAccess k) s = .next (t.answer p (.rowBad sl ring p.id (transFault va i1)))) ∧
      ∀ pa, t.translate p.terr va false = .ok pa →
        exec (.hbmAccess k) s = .next (t.answer p (.rowData sl ring p.id (t.bytes (hbmKey pa) n)))) ∧
    (∀ sl ring va bs, p.body = .rowWrite sl ring va bs →
      (∀ i1, t.translate p.terr va true = .error i1 → exec (.hbmAccess k) s = .next (t.answer p (.rowBad sl ring p.id (transFault va i1)))) ∧
      ∀ pa, t.translate p.terr va true = .ok pa →
        exec (.hbmAccess k) s = .next (((t.setBytes (hbmKey pa) bs).markDirty p.terr va).sendAck p)) ∧
    (∀ sl ring j bs, p.body = .fetched sl ring j bs → exec (.hbmAccess k) s = .next ((t.sendAck p).slotBack sl ring j bs)) ∧
    (∀ sl ring req bs, p.body = .rowData sl ring req bs →
      exec (.hbmAccess k) s = .next (((t.sendAck p).forget req).modSub sl ring (fun b => b.fill req bs))) ∧
    (∀ sl ring req tr, p.body = .rowBad sl ring req tr →
      exec (.hbmAccess k) s = .next (((t.sendAck p).forget req).modSub sl ring (fun b => b.drop req tr)))) ∧
  (∀ (s : State) (k : Nat) (p : Packet) (w : Who) (req : Nat), s.Arriving k p → p.who = some w →
    let t := (s.accepted p).sendAck p
    let ended : State := ((t.forget req).doneOut w req).dropVote p.dst req
    (∀ wr fl, p.body = .reply req wr fl →
      exec (.variableLatencyResponse k) s = .next (ended.modOwn w (fun c => c.deliver req wr fl))) ∧
    (∀ tr own, p.body = .refuse req tr own → isCopyReq (s.keptReq req) = false →
      (isLoadReq (s.keptReq req) = false → exec (.refusalArrival k) s = .next (ended.modOwn w (fun c => c.refuse req tr own))) ∧
      (isLoadReq (s.keptReq req) = true → exec (.refusalArrival k) s = .next ((t.forget req).modOwn w (fun c => c.refuseLoad req tr)))) ∧
    (∀ bs, p.body = .data req bs → s.makeMove (.message k) = .next
      ((match nodeTile p.dst with
        | some tile => (t.forget req).modTile tile (fun x => { x with copyQ := fillCopies x.copyQ req bs })
        | none => t.forget req).modOwn w (fun c => c.modLoads (fun segs bad => (fillSegs segs req bs, bad))))) ∧
    (∀ tr, p.body = .chainFault req tr → exec (.refusalArrival k) s = .next (t.modOwn w (fun c => c.refuse req tr false))) ∧
    (∀ tile, nodeTile p.dst = some tile →
      (p.body = .answer req .done → exec (.handlerTileAnswer k) s = .next (t.modOwn w (fun c => c.answered req))) ∧
      (∀ tr, p.body = .answer req (.fault tr) → exec (.handlerTileAnswer k) s = .next (t.modOwn w (fun c => c.refuse req tr false))) ∧
      (∀ wr rec off, p.body = .snapAns req wr rec off →
        exec (.handlerTileAnswer k) s = .next (t.snapBack tile w req wr rec off))))

/-- A tagged message is matched at a live frame, refused at a stale one; a receive's buffer is filled word by word, then its record delivered; a chain's reservation takes a buffer at each hop or is
undone, its payload is written at each hop and sent on, its control messages free buffers; barrier messages combine and release, a mismatch gives every waiting core barrier configuration; a vote
takes the value of a tile that has yet to contribute, and no value of one that has left. Where the spec leaves a point open it
states the model's choice (log 16, 18, 31, 79). -/
def Obligations.MessagesArrive : Prop :=
  (∀ (s : State) (k : Nat) (p : Packet), s.Arriving k p →
    let t := s.accepted p
    let u := t.sendAck p
    (∀ tile lidx fid src tag bs, p.body = .tagged tile lidx fid src tag bs →
      (t.isHere tile p.terr lidx p.ver = false →
        exec (.messageArrival k) s = .next ((t.bump tile 2).answer p (.refuse p.id (stalePeer lidx p.ver) false))) ∧
      (t.isHere tile p.terr lidx p.ver = true → ∀ x, t.liveFrame tile p.terr fid = some x →
        exec (.messageArrival k) s = .next ((t.matchArrival tile x src tag bs).sendAck p)) ∧
      (t.isHere tile p.terr lidx p.ver = true → t.liveFrame tile p.terr fid = none → ∃ (v : Word) (t' : State),
        exec (.messageArrival k) s = .next (t'.answer p (.refuse p.id (cause 0x09 v 0) false)) ∧ t' = { t.bump tile 3 with stepNo := t.stepNo + 1 })) ∧
    (∀ c i w tile lidx, p.body = .reserve c i → p.who = some w → c.hop i = some (tile, lidx) →
      let back (s : State) (ok : Bool) (hole : Option TrapRec) : State := s.send tile.val (s.nodeOf w) 3 (some w) p.terr (.chainAns c.cid ok hole)
      (t.isHere tile p.terr lidx c.ver = false → exec (.chainReservation k) s =
        .next (back ((u.bump tile 2).freeHops tile.val p.terr c.cid (c.hops.take i)) false (some (stalePeer lidx c.ver)))) ∧
      (t.isHere tile p.terr lidx c.ver = true → 8 ≤ (t.tiles[tile]).chainBufs.length →
        exec (.chainReservation k) s = .next (back (u.freeHops tile.val p.terr c.cid (c.hops.take i)) false none)) ∧
      (t.isHere tile p.terr lidx c.ver = true → (t.tiles[tile]).chainBufs.length < 8 →
        let taken := u.modTile tile (fun x => { x with chainBufs := x.chainBufs ++ [c.cid] })
        (c.hop (i + 1) = none → exec (.chainReservation k) s = .next (back taken true none)) ∧
        ∀ n, c.hop (i + 1) = some n →
          exec (.chainReservation k) s = .next (taken.send tile.val n.1.val 2 (some w) p.terr (.reserve c (i + 1))))) ∧
    (∀ c i w tile lidx bs ver, p.body = .payload c i bs ver → p.who = some w → c.hop i = some (tile, lidx) → i ≠ 0 →
      exec (.chainPayload k) s = .next (u.payloadAt p w c i tile lidx bs ver)) ∧
    (∀ c w tile lidx bs ver src, p.body = .payload c 0 bs ver → p.who = some w → c.hop 0 = some (tile, lidx) → nodeTile p.src = some src →
      exec (.chainPayload k) s = .next ((u.modTile src (fun x => x.release c.cid)).payloadAt p w c 0 tile lidx bs ver)) ∧
    (∀ tile w c x q cid ok, nodeTile p.dst = some tile → p.who = some w → p.body = .chainAns cid ok none → t.own w = some c →
      t.findSlice w.1 = some x → c.ask = some q → q.chain.cid = cid →
      exec (.chainAnswer k) s = .next ((u.chainDone w x tile q ok).doneOut w cid)) ∧
    (∀ tile cid, nodeTile p.dst = some tile → p.body = .chainFree cid → exec (.chainRelease k) s =
      .next ((t.modTile tile (fun x => { x with chainBufs := x.chainBufs.erase cid })).sendAck p)) ∧
    (∀ src tile id cfg, nodeTile p.src = some src → nodeTile p.dst = some tile → p.body = .barArrive id cfg →
      ((t.tiles[tile]).isMember p.terr = false → exec (.barrierArrival k) s = .next u) ∧
      ((t.tiles[tile]).isMember p.terr = true → exec (.barrierArrival k) s = .next (u.barReach tile p.terr id cfg src))) ∧
    (∀ src tile id cfg, nodeTile p.src = some src → nodeTile p.dst = some tile →
      ((t.tiles[tile]).isMember p.terr = false → ∀ bad, p.body = .barRelease id cfg bad → exec (.barrierRelease k) s = .next u) ∧
      ((t.tiles[tile]).isMember p.terr = true →
        (p.body = .barRelease id cfg true → exec (.barrierRelease k) s = .next (u.barFail tile p.terr id (some (cfg, src)))) ∧
        (p.body = .barRelease id cfg false →
          let b := (t.tiles[tile]).bars[id]
          (b.valid = true → b.bad = false → exec (.barrierRelease k) s = .next ((u.barFree tile p.terr id).barUp tile p.terr id)) ∧
          (b.valid = false ∨ b.bad = true → exec (.barrierRelease k) s = .next u)))) ∧
    (∀ tile w no op x d, nodeTile p.src = some tile → p.who = some w → p.body = .vote no op x d →
      exec (.voteContribution k) s = .next ((t.modTerr p.terr (fun y => { y with votes := y.votes.map (fun v =>
        if v.no = no then v.count tile op x (tile, w, p.id, d) else v) })).voteDone p.terr no) ∧
      ∀ v : Vote,
        (tile ∉ v.todo → v.count tile op x (tile, w, p.id, d) = { v with voters := v.voters ++ [(tile, w, p.id, d)] }) ∧
        (tile ∈ v.todo → v.op = none → v.count tile op x (tile, w, p.id, d) =
          { v with op := some op, x := x, todo := v.todo.filter (· != tile), voters := v.voters ++ [(tile, w, p.id, d)] }) ∧
        (∀ o, tile ∈ v.todo → v.op = some o → v.count tile op x (tile, w, p.id, d) =
          { v with x := voteOp o v.x x, todo := v.todo.filter (· != tile), voters := v.voters ++ [(tile, w, p.id, d)], bad := v.bad || o != op }))) ∧
  (∀ (s : State) (tile : TileId) (x : Slice) (src : Nat) (tag : BitVec 16) (bs : List Byte) (q : Posted),
    (s.tiles[tile]).posted.find? (fun q => q.fid == x.fid.getD 255 && matchMsg q.src q.tag src tag && decide (bs.length ≤ q.cap)) = some q →
    let f : Fill := {
      who := q.who, id := q.id, off := q.off, bytes := bs, todo := List.range (bs.length / 8),
      wr := if q.d = 0 then .flagsOnly else .scalar q.d (msgRecord bs.length tag (x.fid.getD 255) src) }
    s.matchArrival tile x src tag bs =
      s.modTile tile (fun y => { y with posted := y.posted.filter (fun r => r.id != q.id), fills := y.fills ++ [f] })) ∧
  (∀ (s : State) (tile : TileId) (f : Fill) (x : Slice), (s.tiles[tile]).fills.find? (fun g => g.id == f.id) = some f →
    s.findSlice f.who.1 = some x →
    let is := pickWords s.stepNo f.todo
    let rest := f.todo.filter (fun i => !is.contains i)
    let s1 := ({ s with stepNo := s.stepNo + 1 } : State).writeFill (scratchKey tile (x.fbase + f.off)) f is
    (rest ≠ [] → s.fillStep tile f.id =
      s1.modTile tile (fun y => { y with fills := y.fills.map (fun g => if g.id = f.id then { g with todo := rest } else g) })) ∧
    (rest = [] → s.fillStep tile f.id =
      (s1.modTile tile (fun y => { y with fills := y.fills.filter (fun g => g.id != f.id) })).modOwn f.who (fun c => c.deliver f.id f.wr 0))) ∧
  (∀ (s : State) (tile : TileId) (terr n : Nat) (id : Bar) (via : Option (BarCfg × TileId)) (c : CoreId) (q : Park), tileOf c = tile →
    (s.cores[c]).park = some q → q.why = .barWait id n →
    let b := (s.tiles[tile]).bars[id]
    b.cfg.isSome = true → b.valid = true → b.bad = false →
    ((s.barFail tile terr id via).cores[c]).refused = (s.cores[c]).refused ++ [(0, cause 0x12 (BitVec.ofNat 64 id.val) 0, false)])

/-! ### Engines -/

/-- A copy's beat issues: it is refused where its place is a hole or a tile that has left, or read, in this tile at once, elsewhere by requests;
the lowest beat whose bytes are there is written where the copy names. Its end leaves the tag complete or failed. The array and the drain port
take ready entries, read rows one after another and complete them: a multiply leaves in each entry of the accumulator the sum over its K-blocks in
ascending order, exact and modulo 2^32 on the unscaled path, rounded on the scaled one, and then its outliers; a drain writes the entries as
words and a clear sets them and OVF to 0; each advances its accumulator's version by one. Where the spec leaves a point open it states the
model's choice (log 16, 58, 77). -/
def Obligations.CopiesAndMatrixCommandsProceed : Prop :=
  (∀ (s : State) (tile : TileId) (core : CoreId) (k : Nat),
    (∀ q, (s.tiles[tile]).copyQ.find? (fun q => q.cid == k) = some q →
      (q.frontIn = true → exec (.copyBeat tile k) s = .next ((s.frontOut tile q).freeSource tile q.cid)) ∧
      (q.frontIn = false → s.canIssueBeat tile q = true → exec (.copyBeat tile k) s = .next (s.issueBeat tile q)) ∧
      (q.settled = true →
        (q.failed = none → exec (.copyComplete tile k) s = .next (s.endCopy tile q .complete)) ∧
        ∀ b tr, q.failed = some (b, tr) → exec (.copyComplete tile k) s = .next (s.endCopy tile q (.failed tr)))) ∧
    (∀ p req tr own, s.Arriving k p → p.body = .refuse req tr own → nodeTile p.dst = some tile → isCopyReq (s.keptReq req) = true →
      ∀ q b, (s.tiles[tile]).copyQ.findSome? (fun q => (q.byteOf req).map (fun b => (q, b))) = some (q, b) →
        let q' := { q.fail b tr with outIds := q.outIds.filter (·.1 != req), reads := fillSegs q.reads req [] }
        exec (.copyFailure k) s = .next (((((s.accepted p).sendAck p).forget req).modCopy tile q.cid (fun _ => q')).settleCopy tile q')) ∧
    (∀ e, (s.cores[core]).findEntry k = some e → s.matrixMoves core = true →
      (e.running = false → (s.cores[core]).mayStart e = true → (s.cores[core]).dbgHalt = false →
        exec (.matrixStart core k) s = .next (s.startEntry core e)) ∧
      (e.running = true → e.kind.unit = 0 → e.readsDone = false → exec (.matrixStart core k) s = .next (s.readNext core e)) ∧
      (∀ g, e.toAsk = some g → exec (.matrixStart core k) s = .next (s.askPiece core e g)) ∧
      (e.finished = true → exec (.matrixComplete core k) s = .next (((s.completeEntry core e).modCore core (fun c =>
        { c with mq := c.mq.filter (fun x => x.mid != k) })).modTile (tileOf core) (fun t => t.release k)) ∧
        (e.kind.unit ≠ 2 → (((s.completeEntry core e).cores[core]).accs[e.acc]).ver = ((s.cores[core]).accs[e.acc]).ver + 1)))) ∧
  (∀ (s : State) (tile : TileId) (q : Copy) (bs : List Byte) (o : Nat),
    let n := min (q.len - q.next) (128 - (q.dstA.toNat + q.next) % 128)
    let s0 := s.modTile tile (fun x => { x with lastBeat := some s.now })
    (∀ u tr, (s0.beatStale tile q q.src).or (s0.beatStale tile q q.dst) = some (u, tr) →
      s.issueBeat tile q = (s0.bump u (refusalCounter tr)).modCopy tile q.cid (fun y => y.fail q.next tr)) ∧
    (s0.beatStale tile q q.src = none → s0.beatStale tile q q.dst = none →
      (∀ p, q.src = .local' p → s.issueBeat tile q = ((s0.modCopy tile q.cid (fun y => { y with next := q.next + n })).beatWrite tile q q.next
        (s0.bytes (scratchKey tile (p + q.next)) n)).freeSource tile q.cid) ∧
      ((∀ p, q.src ≠ .local' p) → ∃ ps : List Packet, (s.issueBeat tile q).net = s.net ++ ps ∧ (s.issueBeat tile q).mem = s.mem ∧
        ps.map (fun p => (p.dst, p.body)) = q.pieces.map q.readOf ∧ ∀ p ∈ ps, p.cls = 0 ∧ p.src = tile.val)) ∧
    (∀ u lidx fid off, q.src = .peer u lidx fid off → q.pieces.map q.readOf =
      [(u.val, .read (.peer u lidx fid (off + q.next)) (q.srcA + BitVec.ofNat 64 q.next) n q.ver false)]) ∧
    (∀ va, q.src = .hbm va → (q.pieces.map (·.len)).sum = n ∧
      ∀ g ∈ q.pieces, (q.readOf g).1 = hbmNode g.va ∧ g.va = va + q.next + g.off ∧ 0 < g.len ∧ g.va % 256 + g.len ≤ 256) ∧
    (let gs := q.front
     let b := (gs.head?.map (·.item)).getD 0
     let s1 := s.modCopy tile q.cid (fun y => { y with reads := y.reads.filter (fun g => g.item != b) })
     ((∀ g ∈ gs, (g.bytes.getD []).length = g.len) → s.frontOut tile q = s1.beatWrite tile q b (gs.flatMap (fun g => g.bytes.getD []))) ∧
     ((∃ g ∈ gs, (g.bytes.getD []).length ≠ g.len) → s.frontOut tile q = s1)) ∧
    (∀ p, q.dst = .local' p → s.beatWrite tile q o bs = s.setBytes (scratchKey tile (p + o)) bs) ∧
    (let sends (dst : Nat) (pl : Place) : Prop := ∃ p : Packet, (s.beatWrite tile q o bs).net = s.net ++ [p] ∧ (s.beatWrite tile q o bs).mem = s.mem ∧
       p.cls = 0 ∧ p.src = tile.val ∧ p.dst = dst ∧ p.body = .copyWr pl (q.dstA + BitVec.ofNat 64 o) bs q.cid q.ver
     (∀ u lidx fid off, q.dst = .peer u lidx fid off → sends u.val (.peer u lidx fid (off + o))) ∧
     ∀ va, q.dst = .hbm va → sends (hbmNode (va + o)) (.hbm (va + o)))) ∧
  (∀ (s : State) (core : CoreId) (e : MEntry), let c := s.cores[core]
    let x := c.accs[e.acc]
    let t := s.completeEntry core e
    let y := (t.cores[core]).accs[e.acc]
    (e.kind = .zero → t.mem = s.mem ∧ y.ovf = false ∧ ∀ i, sget 0 y.ents i = 0) ∧
    (∀ addr n, s.Inv → e.kind = .drain addr n →
      let key := sliceKey (s.sliceOn core) addr
      y.ents = x.ents ∧ y.ovf = x.ovf ∧ SameOutside s t key (4 * n) ∧ ∀ i < n, t.bytes (key + 4 * i) 4 = leBytes 4 (sget 0 x.ents i).toNat) ∧
    (∀ bank f f32 addr stride rows outl dfr data w, e.kind = .mul bank f f32 addr stride rows outl dfr data w →
      (s.readNext core e).cores[core] = c.modEntry e.mid (fun z => { z with
        running := true
        kind := .mul bank f f32 addr stride rows outl dfr (data ++ [s.bytes (sliceKey (s.sliceOn core) (addr + data.length * stride)) (aBytes f)]) (w.or (some c.banks[bank])) }) ∧
      (e.voided = true → t.mem = s.mem ∧ y.ents = x.ents ∧ y.ovf = x.ovf) ∧
      (e.voided = false → ∀ (b : Bank) (bs : List Byte) (es : List (BitVec 32)), w.getD c.banks[bank] = b → b.bytes = sparseOf 0 bs →
        bs.length ≤ 33792 → x.ents = sparseOf 0 es → es.length = 1024 → data.length ≤ 1024 / wCols b.held → (∀ o ∈ outl, o.n < wCols b.held) →
        let plain := unscaled b.held f f32
        let row (m : Nat) : ActRow := actRow f (data.getD m [])
        let W (k n : Nat) : Int := weightAt b.held (fun j => bs.getD j 0) k n
        let S (m n blk : Nat) : Int := ((List.range 32).map (fun i => W (32 * blk + i) n * (row m).vals.getD (32 * blk + i) 0)).sum
        let scale (n blk : Nat) : Nat := (bs.getD (32768 + 4 * n + blk) 0).toNat
        let sum (m n : Nat) : BitVec 32 × Bool × BitVec 6 := (List.range 4).foldl (fun v blk =>
          addBlock plain (if b.held = .mxint8 then (scale n blk : Int) - 133 else 0) (decide (b.held = .mxint8) && scale n blk == 255)
            (row m) (S m n blk) blk v) (es.getD (m * wCols b.held + n) 0, false, 0)
        let outlier (m : Nat) (v : BitVec 32) (o : Outlier) : BitVec 32 :=
          if (row m).bad.getD (o.k / 32) false then BitVec.ofNat 32 fF32.canonNaN
          else BitVec.ofNat 32 (fF32.add v.toNat (outlierTerm o.delta ((row m).vals.getD o.k 0) ((row m).ea.getD (o.k / 32) 0)).1).1
        t.mem = s.mem ∧
        (∀ m n, m < data.length → n < wCols b.held →
          sget 0 y.ents (m * wCols b.held + n) = (outl.filter (fun o => o.n == n)).foldl (outlier m) (sum m n).1) ∧
        (∀ i, data.length * wCols b.held ≤ i → i < 1024 → sget 0 y.ents i = es.getD i 0) ∧
        (y.ovf = true ↔ x.ovf = true ∨ ∃ m n, m < data.length ∧ n < wCols b.held ∧ (sum m n).2.1 = true)))) ∧
  (∀ (eW S : Int) (bad : Bool) (r : ActRow) (blk : Nat) (v : BitVec 32 × Bool × BitVec 6), let z := v.1.toInt + S
    addBlock true eW bad r S blk v = (BitVec.ofInt 32 z, v.2.1 || decide (z < -2 ^ 31) || decide (2 ^ 31 - 1 < z), v.2.2) ∧
    (bad = true ∨ r.bad.getD blk false = true → addBlock false eW bad r S blk v = (BitVec.ofNat 32 fF32.canonNaN, v.2.1, v.2.2 ||| flagNV)) ∧
    (bad = false → r.bad.getD blk false = false → let u := fF32.round .rne false (decide (S < 0)) S.natAbs (eW + r.ea.getD blk 0) false
      addBlock false eW bad r S blk v = (BitVec.ofNat 32 (fF32.add v.1.toNat u.1).1, v.2.1, v.2.2 ||| u.2 ||| (fF32.add v.1.toNat u.1).2))) ∧
  (∀ (by' : Nat → Byte) (bs : List Byte) (k n : Nat) (w : WFmt) (f : AFmt) (f32 : Bool),
    weightAt .int8 by' k n = sext (by' (128 * n + k)).toNat 8 ∧ weightAt .mxint8 by' k n = sext (by' (128 * n + k)).toNat 8 ∧
    weightAt .int4 by' k n = sext ((by' ((128 * n + k) / 2)).toNat / 16 ^ ((128 * n + k) % 2)) 4 ∧
    (weightAt .ternary by' k n = match (by' ((128 * n + k) / 4)).toNat / 4 ^ ((128 * n + k) % 4) % 4 with
      | 1 => 1
      | 3 => -1
      | _ => 0) ∧
    (actRow .int8 bs).vals = bs.map (fun b => sext b.toNat 8) ∧
    (actRow .int4 bs).vals = bs.flatMap (fun b => [sext b.toNat 4, sext (b.toNat / 16) 4]) ∧
    (k < 128 → (actRow .int16 bs).vals[k]? = some (sext (leNat ((bs.drop (2 * k)).take 2)) 16)) ∧
    (unscaled w f f32 = true ↔ w ≠ .mxint8 ∧ f ≠ .mxint8 ∧ f ≠ .split ∧ f32 = false))

/-- A ring's controller waits for the flag of its loop-count block and reads the counts; it reads a load ring's next item from the homes of its
rows, piece by piece, and sends the item to the tile once all of it is in; it asks the tile for the next slot of a store ring, and writes its
bytes to their homes. A refusal stops the subscription once the items before are done. A push that arrives writes the slot and then its tag; a
pull reads the slot's words, in one step or several; one that finds its slice gone is taken up again; a store ring's item counts once every
write of it is acknowledged. An RWAIT times out; a domain whose count is done halts. A tick runs the Orrery: it holds, or its domains step on
what they take from ports and crossing FIFOs, from old values alone, and push what they made; an overrun leaves all of that as it was, halts every
domain and raises its cause. Where the spec leaves a point open it states the model's choice (log 10, 16, 60, 66, 67, 75, 78). -/
def Obligations.StreamsAndTicksProceed : Prop :=
  (∀ (s : State) (ring : Nat) (x : Slice) (r : RingSt) (b : Sub) (t : TileId), s.subOf x.uid ring = some (x, r, b) → x.tile = some t →
    (s.ringMoves? x r = true → b.stopped = false →
      let does (s' : State) : Prop := s.controller x.uid ring = some s'
      let stops (tr : TrapRec) : Prop := does (s.modRing x.uid ring (fun r => r.stop tr))
      (b.waitsLcb = true →
        (∀ e, b.bad = some e → stops e.2.2) ∧
        (b.bad = none → b.segs = [] →
          does (s.sendSegs x ring b [if b.seen then blockSeg 0 (b.lcb.getD 0) 12 else blockSeg 12 (b.lcb.getD 0 + 12) 4])) ∧
        ∀ g l bs, b.bad = none → b.segs = g :: l → b.seen = false → g.bytes = some bs →
          does (s.modSub x.uid ring (fun b => { b with segs := [], seen := decide (leNat bs = b.flagv.toNat) }))) ∧
      (b.waitsLcb = false → r.dir = some false →
        (∀ e, b.bad = some e → e.1 = r.tail → b.allIn r.tail = true → stops e.2.2) ∧
        (b.bad = none → x.st ≠ .exiting →
          (b.sent < b.next → b.allIn b.sent = true →
            does ((s.ctlSend x b t.val (.push x.uid ring b.sent (b.itemBytes b.sent))).modSub x.uid ring (fun b =>
              { b with sent := b.sent + 1, segs := b.segs.filter (fun g => g.item != b.sent) }))) ∧
          (b.next ≤ b.sent ∨ b.allIn b.sent = false → r.canPush s.now = true →
            let s1 := s.modSub x.uid ring (fun b => { b with next := b.next + 1 })
            (∀ gs, b.pieces b.next b.nrow = .ok gs → does (s1.sendSegs x ring b gs)) ∧
            ∀ tr, b.pieces b.next b.nrow = .error tr → does (s1.modSub x.uid ring (fun c => c.refuse b.next 0 tr))))) ∧
      (b.waitsLcb = false → r.dir = some true →
        (∀ e, b.bad = some e → b.segs = [] → stops e.2.2) ∧
        (b.bad = none → b.toWrite ≠ [] → does ((s.modSub x.uid ring (fun b =>
          { b with segs := b.segs.filter (fun g => g.req.isSome) })).sendSegs x ring b b.toWrite)) ∧
        (b.bad = none → b.toWrite = [] → r.canPull = true →
          (∀ tr, s.rowsOk x.terr b b.next b.nrow = some tr → stops tr) ∧
          (s.rowsOk x.terr b b.next b.nrow = none → does ((s.ctlSend x b t.val (.fetch x.uid ring b.next)).modSub x.uid ring (fun b =>
            { b with next := b.next + 1 })))))) ∧
    (∀ bs, s.terrMoves x = true → b.counts = some bs → exec (.loopCountBlockReady x.uid ring) s = .next (s.modSub x.uid ring (fun b => { b with
      c0 := fieldAt bs 0 4, c1 := fieldAt bs 4 4, c2 := fieldAt bs 8 4, waitsLcb := false, segs := [] }))) ∧
    (∀ p, s.ringPacket x.uid ring = some p → p.seq = lookupSeq s.rxSeq p.key →
      let u := (s.accepted p).sendAck p
      let stands : Prop := t.val = p.dst ∧ x.fid.isSome = true ∧ x.fresh = false
      (∀ j bs, p.body = .push x.uid ring j bs →
        (stands → j = r.tail → x.st ≠ .exiting → r.dir = some false → exec (.streamPush x.uid ring) s =
          .next ((u.setBytes (sliceKey x (r.slotOff j)) bs).modRing x.uid ring (fun r =>
            { (r.setTag j (BitVec.ofNat 16 j)) with tail := r.tail + 1 }))) ∧
        (j ≠ r.tail ∨ t.val ≠ p.dst → exec (.streamPush x.uid ring) s = .next (u.modRing x.uid ring RingSt.again))) ∧
      (∀ j, p.body = .fetch x.uid ring j →
        let n := b.nrow * b.rowb / 8
        let got := r.pulled ++ s.pullWords (sliceKey x (r.slotOff j)) (pickWords s.stepNo (wordsLeft n r.pulled))
        (stands → j = r.head → r.dir = some true →
          let s1 : State := { s with stepNo := s.stepNo + 1 }
          (wordsLeft n got ≠ [] → exec (.streamPull x.uid ring) s = .next (s1.modRing x.uid ring (fun r => { r with pulled := got }))) ∧
          (wordsLeft n got = [] → exec (.streamPull x.uid ring) s =
            .next ((((s1.accepted p).sendAck p).send p.dst p.src 3 p.who p.terr (.fetched x.uid ring j (wordBytes n got))).modRing x.uid ring (fun r =>
              { r with pulled := [] })))) ∧
        (j ≠ r.head ∨ t.val ≠ p.dst → exec (.streamPull x.uid ring) s = .next (u.modRing x.uid ring RingSt.again)))) ∧
    (∀ bs gs, b.stopped = false → b.next = r.head + 1 → b.segs = [] → b.pieces r.head b.nrow = .ok gs → s.slotBack x.uid ring r.head bs =
      s.modSub x.uid ring (fun b => { b with segs := gs.map (fun g => { g with store := true, bytes := some ((bs.drop g.off).take g.len) }) }))) ∧
  (∀ (r : RingSt) (b : Sub) (g : Seg) (req : Nat) (l : List Seg), r.sub = some b → b.segs = g :: l → g.req = some req → b.bad = none →
    (∀ k ∈ l, k.req ≠ some req) →
    (l ≠ [] → r.written req = { r with sub := some { b with segs := l } }) ∧
    (l = [] → r.written req = { r with
      sub := some { b with segs := [] }, head := r.head + 1, tags := r.tags.set (r.head % r.slots) (BitVec.ofNat 16 (r.head + r.slots)) })) ∧
  (∀ (s : State) (core : CoreId) (dom : Fin 4),
    (∀ rg n dl bk m, (s.cores[core]).park = some { why := .rwait rg n dl bk, marks := m } → dl ≤ s.now → s.selfPending core = false →
      let q := ((s.slice! ((s.cores[core]).sl.getD 0)).rings[rg.val]?).getD default
      q.waitDone n = false → exec (.rwaitTimeout core) s = .next (s.trapBack core bk (ringTimeout rg.val q))) ∧
    (s.tickDue core = true → exec (.orreryTick core) s = .next (s.orrTick core)) ∧
    (((s.cores[core]).orr.doms[dom]).run = true → ((s.cores[core]).orr.doms[dom]).left = some 0 →
      exec (.orreryCountEnd core dom) s = .next ((s.haltDom core dom).settleTick core)) ∧
    (let c := s.cores[core]
     let o := c.orr
     let go := (List.finRange 4).filter (fun d => (o.doms[d]).steps?)
     let holds : Prop := (∃ d ∈ go, ∃ p ∈ o.domPorts d, s.portNext core p = none) ∨ ∃ k : Fin 16, s.tapStuck core go o.taps[k] = true
     let ticked (h : Bool) : State := s.modOrr core (fun o => { o with lastTick := some s.now, hold := h })
     ((o.doms[dom]).steps? = true ↔ (o.doms[dom]).once ≠ 0 ∨ ((o.doms[dom]).run = true ∧ (o.doms[dom]).phase = 0 ∧ (o.doms[dom]).left ≠ some 0)) ∧
     (holds → s.orrTick core = ticked true) ∧ (¬holds → s.orrTick core = ((ticked false).orrStep core go).settleTick core) ∧
     (o.late = [] → (∀ f ∈ c.flight, f.src = none) → (∀ r, c.replay = some r → ∀ f ∈ r.flight, f.src = none) → s.settleTick core = s))) ∧
  (∀ (s : State) (core : CoreId) (go : List (Fin 4)), go.Nodup → let o := (s.cores[core]).orr
    (o.cells.map (·.1)).Nodup →
    let ports := (go.flatMap o.domPorts).eraseDups
    let t : TickIn := {
      go := go, incs := ports.map (fun p => (p.val, (s.portNext core p).getD 0)),
      took := go.flatMap (fun b => ((List.finRange 4).filter (· != b)).filterMap (fun a =>
        ((o.fifos[fifoIdx a b]).head?).map (fun e => ((fifoIdx a b).val, e)))) }
    let p1 := phase1All o t
    let dz := dzMap p1
    let steps (k : Nat) : Prop := ∃ d ∈ go, d.val = domOf k
    let tv (c : Cell) : Int := c.res.toNat + dxVal o t c * c.y.toInt
    let inc (k code : Nat) : Int :=
      if 528 ≤ code then t.port code else if domFin code = domFin k then dz code else t.foreign (domFin code) (domFin k) code
    let nY (k : Nat) (c : Cell) : Int := c.y.toInt + (c.dy.map (fun (term : BitVec 16) => if term.toNat % 1024 = 1023 then 0 else
      (if term.getLsbD 15 then -1 else 1) * inc k (term.toNat % 1024) * 2 ^ (term.toNat / 1024 % 32))).sum
    let overs := overruns o t p1
    let n := ((s.orrStep core go).cores[core]).orr
    (∀ k c, (k, c) ∈ o.cells → steps k → dz k = tv c / 2 ^ 32) ∧ (∀ k, (∀ c, (k, c) ∈ o.cells → ¬steps k) → dz k = 0) ∧
    (∀ c : Cell, (c.dx.toNat < 512 → dxVal o t c = (o.cell c.dx.toNat).dz) ∧ (512 ≤ c.dx.toNat → c.dx.toNat < 516 → dxVal o t c = 1) ∧
      (c.dx = 0x3FF → dxVal o t c = 0) ∧ (528 ≤ c.dx.toNat → c.dx.toNat < 544 → dxVal o t c = t.port c.dx.toNat)) ∧
    (∀ p : Fin 16, p ∈ ports → t.port (528 + p.val) = (s.portNext core p).getD 0) ∧
    (∀ (a b : Fin 4) cell, a ≠ b → b ∈ go → t.foreign a b cell = match (o.fifos[fifoIdx a b]).head? with
      | some e => sget 0 e cell
      | none => 0) ∧
    (∀ (a b : Fin 4) k z, (k, z) ∈ pushOf o dz a b ↔ k < 512 ∧ domFin k = a ∧ z = dz k ∧ z ≠ 0 ∧
      ∃ e ∈ o.cells, domFin e.1 = b ∧ ∃ term ∈ e.2.dy, term.toNat % 1024 = k) ∧
    (∀ d k, (d, 0, k) ∈ overs ↔ d = domOf k ∧ steps k ∧ ∃ c, (k, c) ∈ o.cells ∧ (nY k c < -2 ^ 31 ∨ 2 ^ 31 - 1 < nY k c)) ∧
    (∀ d k, (d, 1, k) ∈ overs ↔ ∃ a ∈ go, ∃ b, b ≠ a ∧ d = a.val ∧ ((pushOf o dz a b).head?.map (·.1)) = some k ∧
      15 ≤ (if b ∈ go then (o.fifos[fifoIdx a b]).tail else o.fifos[fifoIdx a b]).length) ∧
    (∀ x, x ∈ overs → (∀ y ∈ overs, y ≠ x → overLess x y = true) → s.orrStep core go = s.overrun core x) ∧
    (overs = [] →
      n.cells = (o.cells.map (fun e => (e.1, if go.any (fun d => d.val == domOf e.1)
        then { e.2 with y := BitVec.ofInt 32 (nY e.1 e.2), res := BitVec.ofInt 32 (tv e.2 % 2 ^ 32), dz := tv e.2 / 2 ^ 32 }
        else e.2))).filter (fun e => e.2 != Cell.empty) ∧
      (∀ a b : Fin 4, a ≠ b → n.fifos[fifoIdx a b] = (if b ∈ go then (o.fifos[fifoIdx a b]).tail else o.fifos[fifoIdx a b]) ++
        (if a ∈ go ∧ pushOf o dz a b ≠ [] then [pushOf o dz a b] else [])) ∧
      ∀ d : Fin 4, n.doms[d] = (o.doms[d]).after (go.contains d))) ∧
  (∀ (s : State) (core : CoreId) (x : Over), let o := (s.cores[core]).orr
    let t := (s.overrun core x).cores[core]
    o.late = [] → t.orr.cells = o.cells ∧ t.orr.fifos = o.fifos ∧ t.orr.ports = o.ports ∧
      (∀ d : Fin 4, (t.orr.doms[d]).run = false ∧ (t.orr.doms[d]).ovr = true) ∧
      t.causes = (s.cores[core]).causes ++ [{ code := 0x10, i0 := BitVec.ofNat 64 x.2.2, i1 := BitVec.ofNat 64 (x.1 * 2 + x.2.1), async := true }])

/-! ### Slices, the border, the module -/

/-- Dispatch takes the head of a queue onto the cores it finds and zeroes a fresh frame; a SPAWN places its slice; a held slice is queued where
there is room; the budget trap, its grace, lateness, the end of a freeze and an asynchronous trap come when they are due; a slice whose work is
done completes, its launch takes note, and it goes, or waits for its buffers, which are read one after another; its launch is reported. A
halted context's cores stop at their next bundle once the pre-emption has reached their tile; a tile whose work has drained is quiescent; a slice
is replayed at most three times, never after an effect that cannot be repeated, and not when something has ended it already. Where the spec leaves a point open it states the model's choice (log 28, 29, 41, 48, 49, 50,
51). -/
def Obligations.SlicesProceedHaltAndReplay : Prop :=
  (∀ (s : State) (tile : TileId) (core : CoreId) (sl : Nat) (x : Slice),
    (∀ cs tb res, s.dispatchOn tile = some (x, cs, tb, res) →
      let s1 := s.modTile tile (fun y => { y with resident := res })
      let s2 := if x.fresh then s1.clear (scratchKey tile x.fbase) x.fsize else s1
      exec (.dispatch tile) s = .next (((s2.startOn x tb tile cs).modSlice x.uid (fun y => { y with
        st := .running, cores := cs, saved := [], table := some tb, fresh := false, recCharged := y.charged, noReplay := false })).giveUpcalls tile x.uid)) ∧
    (∀ d a req u, (s.cores[core]).spawnPark = some (d, a, req) → (s.cores[core]).sl = some u → s.spawnReady core = true →
      let r := s.spawnSlice (s.slice! u) (s.bytes (sliceKey (s.slice! u) a.toNat) 32)
      exec (.spawnPlacement core) s = .next ((r.1.modCores (s.gang core) (fun c => c.deliver req (if d = 0 then .flagsOnly else .scalar d r.2) 0)).modCore
        core Core.endPark)) ∧
    (∀ f, (s.cores[core]).freeze = some f → s.freezeOver core f = true →
      let s1 := s.modCore core (fun c => { c with freeze := none })
      (f.abandoned = false → exec (.freezeRelease core) s = .next s1) ∧
      (f.abandoned = true → exec (.freezeRelease core) s = .next (s1.modCores (s.gang ({ s with cur := core } : State).ctlId)
        (fun c => { c with orr := { c.orr with lastTick := some s.now } })))) ∧
    (s.asyncReady core = true → exec (.asyncTrapEntry core) s =
      .next (((s.performAccs (s.gang core)).modCores (s.gang core) (fun c => { c with causes := c.causes.tail })).trapGang (s.gang core) (s.firstCauses (s.gang core)) (s.cores[core]).pc)) ∧
    (s.findSlice sl = some x →
      (s.heldReady sl = some tile → (x.home.isSome = true ∨ x.tile = none) → exec (.heldSlicePlacement sl) s = .next (s.place sl tile)) ∧
      (s.heldReady sl = some tile → x.home = none → x.tile.isSome = true →
        exec (.heldSlicePlacement sl) s = .next (s.modSlice sl (fun y => { y with st := .queued }))) ∧
      (x.left = 0 → x.grace = none → x.cores ≠ [] → (x.st = .running ∨ (x.st = .exiting ∧ (x.how = .exit ∨ x.how = .evacuated))) → exec (.budgetExhausted sl) s =
        .next ((s.causeLeader sl { code := 0x0E, i0 := BitVec.ofNat 64 x.declared, i1 := BitVec.ofNat 64 x.charged, async := true }).modSlice sl
          (fun y => { y with grace := some 8192 }))) ∧
      (x.grace = some 0 → x.st = .running → s.hasExited x = false → exec (.budgetGraceExpiry sl) s = .next (s.stopSlice sl .budget)) ∧
      (x.tile = some tile →
        (x.late = false → x.deadline.toNat < s.now → (x.st = .queued ∨ x.st = .running ∨ x.st = .exiting) →
          exec (.sliceLate sl) s = .next ((s.modSlice sl (fun y => { y with late := true })).bump tile 6)) ∧
        (s.sliceDone x tile = true →
          (x.how = .replay → exec (.sliceCompletion sl) s = .next (s.requeue x tile)) ∧
          (x.how ≠ .replay →
            let s1 := (s.release x tile).noteEnd x
            let y := s1.slice! sl
            (x.how = .exit → y.seals ≠ [] → exec (.sliceCompletion sl) s = .next s1) ∧
            (x.how = .exit → y.seals = [] → exec (.sliceCompletion sl) s = .next ((s1.dropSlice y).tryDissolve x.terr)) ∧
            (x.how ≠ .exit → exec (.sliceCompletion sl) s = .next ((s1.dropSlice y).tryDissolve x.terr))))) ∧
      (x.st = .ended → (s.terr! x.terr).iface.st ≠ .error →
        (x.seals = [] → exec (.resultRead sl) s = .next ((s.dropSlice x).tryDissolve x.terr)) ∧
        ∀ b bs, x.seals = b :: bs →
          let va := b.1.toNat % 2 ^ 48
          let n := sealWords va b.2
          let is := pickWords s.stepNo (wordsLeft n x.read)
          let s1 : State := { s with stepNo := s.stepNo + 1 }
          (s.sealRead x.terr va is = none → exec (.resultRead sl) s = .next (s1.sealDone x (.error (transFault va 0)))) ∧
          ∀ got, s.sealRead x.terr va is = some got →
            (wordsLeft n (x.read ++ got) = [] → exec (.resultRead sl) s =
              .next (s1.sealDone x (.ok (((wordBytes n (x.read ++ got)).drop (va % 8)).take b.2)))) ∧
            (wordsLeft n (x.read ++ got) ≠ [] → exec (.resultRead sl) s = .next (s1.modSlice sl (fun y => { y with read := x.read ++ got }))))) ∧
    (∀ l, s.launches.find? (fun l => l.id == sl) = some l → l.open' = 0 → l.forced = none → ∃ t : State, exec (.launchCompletion sl) s = .next t ∧
      t.outbox = s.outbox ++ [.completion l.sess l.seq l.status l.nslice l.late l.replays l.first (if l.status = 3 then l.cause else 0)] ∧
      t.launches = s.launches.filter (fun l => l.id != sl) ∧ t.mem = s.mem)) ∧
  (∀ (s : State) (tile : TileId) (core : CoreId) (sl u : Nat) (x : Slice),
    ((s.cores[core]).sl = some u → (s.terr! (s.slice! u).terr).halted = true → (s.cores[core]).halted = false →
      (s.tiles[tileOf core]).preempt = true →
      let halts (s : State) : Out := .next ((s.modCore core (fun c => { c with halted := true, freeze := none })).tryHalted (s.slice! u).terr)
      ((s.cores[core]).freeze = none → (s.cores[core]).acc = [] → exec (.preemptionHalt core) s = halts s) ∧
      ∀ f, (s.cores[core]).freeze = some f → f.abandoned = true →
        exec (.preemptionHalt core) s = halts (s.performAccs (s.gang ({ s with cur := core } : State).ctlId))) ∧
    (∀ (k : Nat) (p : Packet), s.Arriving k p → p.body = .preempt → nodeTile p.dst = some tile → let t := (s.accepted p).sendAck p
      ((s.terr! p.terr).halted = true → (s.tiles[tile]).owner = some p.terr →
        s.makeMove (.message k) = .next (t.modTile tile (fun x => { x with preempt := true }))) ∧
      ((s.terr! p.terr).halted = false ∨ (s.tiles[tile]).owner ≠ some p.terr → s.makeMove (.message k) = .next t)) ∧
    (s.canQuiesce tile = true → exec (.quiescenceComplete tile) s =
      .next (((coresOf tile).foldl (fun s c => s.parkChain tile c) s).modTile tile (fun x => { x with quiet := true }))) ∧
    (s.findSlice sl = some x → x.tile = some tile → (x.st = .running ∨ x.st = .exiting) →
      let s1 := s.bump tile 11
      (x.stopped = true → exec (.replayAbort sl) s = .next s1) ∧
      (x.stopped = false → (x.noReplay = true ∨ 3 ≤ x.replays) → exec (.replayAbort sl) s = .next ((s1.stopSlice sl .dataLoss).sendUpcall tile x.terr
        { code := 0x31, i0 := 0, i1 := BitVec.ofNat 64 (s.tiles[tile]).lidx, async := true })) ∧
      (x.stopped = false → x.noReplay = false → x.replays < 3 → exec (.replayAbort sl) s =
        .next (((((s1.stopSlice sl .replay).bump tile 15).modSlice sl (fun y => { y with replays := y.replays + 1 })).modLaunch x.launch
          (fun l => { l with replays := l.replays + 1 })).modSession (s.terr! x.terr).sess (fun y => { y with replays := y.replays + 1 })))))

/-- An epoch's end gives every member the mean of its raw pressure and its neighbours' smoothed ones; a phase's start claims a tile and
asks for sizes, its middle commits a claim that has its grants; an evacuation that is over stops what has issued no exit, and stops nothing
while the context is halted; a cession is cleared once drained, and its tile joins or is freed. Where the spec leaves a point open it
states the model's choice (log 1, 28, 53, 54). -/
def Obligations.BordersMove : Prop :=
  ∀ (s : State) (tile : TileId) (k : Nat),
    (∃ t : State, exec .epochEnd s = .next t ∧ t = { s with tiles := t.tiles } ∧ ∀ (u : TileId) (a : Nat),
      ((s.tiles[u]).isMember a = true →
        let ns := (nbrs u).filter (fun n => (s.tiles[n]).isMember a)
        (t.tiles[u]).press = ((s.tiles[u]).raw + (ns.map (fun n => (s.tiles[n]).press)).sum) / (1 + ns.length) ∧
        (t.tiles[u]).raw = min 255 ((s.tiles[u]).bias + 64 * s.demand u / (4 * s.dev.w))) ∧
      ((∀ a, (s.tiles[u]).isMember a = false) → t.tiles[u] = s.tiles[u])) ∧
    (∀ b, s.claimant tile = some b →
      ((∀ a, (s.tiles[tile]).owner = some a → s.connected tile a = true) →
        let c : Claim := { start := s.now, gain := b, lose := (s.tiles[tile]).owner, lossOk := (s.tiles[tile]).owner.isNone, gainOk := false, dead := false }
        exec (.phaseStart tile) s = .next ((s.modTile tile (fun x => { x with claim := some c })).askSizes tile c)) ∧
      (∀ a, (s.tiles[tile]).owner = some a → s.connected tile a = false → exec (.phaseStart tile) s = .next (s.bump tile 1))) ∧
    (∀ c, (s.tiles[tile]).claim = some c → s.commits c = true →
      let s2 := ((s.modTile tile (fun x => { x with claim := none })).bump tile 0).modTerr c.gain (fun y => y.ungrant false tile c.start)
      (∀ a, c.lose = some a → exec (.moveCommit tile) s =
        .next ((s2.modTerr a (fun y => (y.ungrant true tile c.start).unorder tile)).leave tile a (some c.gain) (s.now - 1))) ∧
      (c.lose = none → exec (.moveCommit tile) s = .next (s2.modTile tile (fun x => { x with joining := some (c.gain, s.now) })))) ∧
    (∀ c a, (s.tiles[tile]).ceding = some c → (s.tiles[tile]).owner = some a →
      (c.expired = false → c.lastCycle < s.now →
        let s1 := s.modTile tile (fun x => { x with ceding := some { c with expired := true } })
        ((s.terr! a).halted = false → exec (.evacuationExpiry tile) s =
          .next ((s.slices.filter (fun x => x.tile == some tile && x.st == .running && !x.evacuated && !s1.hasExited x)).foldl (fun s x =>
            ((s.stopSlice x.uid .expired).bump tile 4).sendUpcall tile a
              { code := 0x31, i0 := 1, i1 := BitVec.ofNat 64 (s.tiles[tile]).lidx, async := true }) s1)) ∧
        ((s.terr! a).halted = true → (s.terr! a).imaged = true → exec (.evacuationExpiry tile) s = .next (s.imageKeeps tile c)) ∧
        ((s.terr! a).halted = true → (s.terr! a).imaged = false → exec (.evacuationExpiry tile) s = .next s)) ∧
      (c.cleared = false → s.tileDrained tile = true → exec (.cessionClearing tile) s =
        .next ((s.clearTile tile).modTile tile (fun x => { x with ceding := some { c with cleared := true } }))) ∧
      (c.cleared = true → ∀ b y, c.gain = some b → s.findTerr b = some y → y.dying = none → exec (.cessionJoining tile) s =
        .next ((((s.freeTile tile).modTile tile (fun x => { x with moved := some (s.now - 1) })).join tile b).tryDissolve a))) ∧
    (∀ p, s.Arriving k p → let u := (s.accepted p).sendAck p
      (∀ a loss g n h y, p.body = .sizeReq a loss g n → nodeTile p.dst = some h → s.findTerr a = some y → y.handler = h →
        (s.maySize y loss = true →
          exec (.sizeRequest k) s = .next ((u.modTerr a (fun y => y.grant loss g n)).sendCtl h g a (.sizeGrant a loss true g n))) ∧
        (s.maySize y loss = false → exec (.sizeRequest k) s = .next (u.sendCtl h g a (.sizeGrant a loss false g n)))) ∧
      (∀ a loss ok g n, p.body = .sizeGrant a loss ok g n → exec (.sizeGrant k) s = .next (u.grantBack g a loss ok n)) ∧
      (∀ a loss g n, p.body = .sizeReturn a loss n → nodeTile p.src = some g →
        exec (.sizeGrantReturn k) s = .next (u.modTerr a (fun y => (y.ungrant loss g n).unorder g)))) ∧
    (∀ a loss n, ((∀ c, (s.tiles[tile]).claim = some c → c.start ≠ n) → s.grantBack tile a loss true n = s.returnGrant tile a loss n ∧
      s.grantBack tile a loss false n = s))

/-- At the handler tile upcalls reach the running slice or its queue, a freeze marks the territory and takes hold once nothing moves, a
thaw clears both, the waiting TFREEZEs end in the cycle of either, anchors are counted, forwarded and applied, and shape and map are read in
one snapshot. Where the spec leaves a point open it states the model's choice (log 55, 56). -/
def Obligations.HandlerTileServes : Prop :=
  ∀ (s : State) (k terr : Nat),
    (∀ y, s.findTerr terr = some y → y.mark = true → y.frz = false → s.still terr = true → exec (.freezeTakesHold terr) s =
      .next (((s.modTerr terr (fun y => { y with frz := true, waiting := [] })).evShape terr).endFreezes y.waiting)) ∧
    (∀ c id p, c.park = some p → p.why = .answer id → c.replay = none →
      Core.answered c id = { c with park := some { p with why := .fence .c } }) ∧
    (∀ p, s.Arriving k p → let u := (s.accepted p).sendAck p
      (∀ tr h y, p.body = .upcall terr tr → nodeTile p.dst = some h → y ∈ s.terrs → y.id = terr → y.handler = h →
        (s.tiles[h]).owner = some terr → exec (.upcallArrival k) s = .next (u.upcallAt h tr)) ∧
      (∀ w h t, p.who = some w → nodeTile p.dst = some h → nodeTile p.src = some t →
        (p.body = .freezeReq →
          ((s.terr! p.terr).frz = true → exec (.freezeMark k) s = .next (u.answerTo h p.terr (w, p.id, t) .done)) ∧
          ((s.terr! p.terr).frz = false → exec (.freezeMark k) s = .next (allTiles.foldl (fun s v => s.markClaim v p.terr)
            (u.modTerr p.terr (fun y => { y with mark := true, waiting := y.waiting ++ [(w, p.id, t)] }))))) ∧
        (p.body = .thawReq → exec (.thawRequest k) s = .next
          (((u.modTerr p.terr (fun y => { y with mark := false, frz := false, waiting := [] })).endFreezes (s.terr! p.terr).waiting).answerTo
            h p.terr (w, p.id, t) .done)) ∧
        (∀ lidx on, p.body = .anchorReq lidx on →
          (s.memberAt p.terr lidx = none →
            exec (.anchorRequest k) s = .next (u.answerTo h p.terr (w, p.id, t) (.fault (stalePeer lidx p.ver)))) ∧
          (∀ v, s.memberAt p.terr lidx = some v → (on = false ∨ s.heldAnchor p.terr v = true) →
            exec (.anchorRequest k) s = .next (u.send h.val v.val 5 (some w) p.terr (.anchorFwd t.val p.id p.ver on false))) ∧
          (∀ v, s.memberAt p.terr lidx = some v → on = true → s.heldAnchor p.terr v = false →
            (s.anchors p.terr + (s.terr! p.terr).anchPending < 16 → exec (.anchorRequest k) s =
              .next ((u.modTerr p.terr (fun y => { y with anchPending := y.anchPending + 1 })).send h.val v.val 5 (some w) p.terr
                (.anchorFwd t.val p.id p.ver true true))) ∧
            (16 ≤ s.anchors p.terr + (s.terr! p.terr).anchPending → exec (.anchorRequest k) s =
              .next (u.answerTo h p.terr (w, p.id, t) (.fault (cause 0x0B 0xFE 0xFFFFFFFF#64))))))) ∧
      (∀ w t home req ver on counted, p.who = some w → nodeTile p.dst = some t → p.body = .anchorFwd home req ver on counted →
        let v := u.modTerr p.terr (fun y => { y with anchPending := y.anchPending - (if counted then 1 else 0) })
        let back (s : State) (a : AnswerKind) : Out := .next (s.send t.val home 5 (some w) p.terr (.answer req a))
        ((s.tiles[t]).isMember p.terr = false ∨ s.leaving t = true →
          exec (.anchorApply k) s = back (v.bump t 2) (.fault (stalePeer (s.tiles[t]).lidx ver))) ∧
        ((s.tiles[t]).isMember p.terr = true → s.leaving t = false →
          (on = false → exec (.anchorApply k) s = back (v.modTile t (fun x => { x with anchT := false })) .done) ∧
          (on = true → exec (.anchorApply k) s = back (v.anchorOn t) .done))) ∧
      (∀ d off, p.body = .snapReq d (.shape off) → exec (.shapeSnapshot k) s = .next (u.send p.dst p.src 5 p.who p.terr
        (.snapAns p.id (if d = 0 then .flagsOnly else .scalar d (s.shapeWord p.terr)) (s.shapeRecord p.terr) off))) ∧
      (∀ d idx, p.body = .snapReq d (.map idx) → exec (.shapeSnapshot k) s = .next (u.send p.dst p.src 5 p.who p.terr
        (.snapAns p.id (if d = 0 then .flagsOnly else .scalar d (s.mapWord p.terr idx)) [] 0))))

/-- What reaches the module from outside: host RMA within what a session may reach, dropped packets, the errors that the scrub or a read finds,
power windows and temperatures, Parallax streams, whose image is whole or is no image, a reset, which keeps flash, the store and the boot
count, and a loss of power. Where the spec leaves a point open it states the model's choice: that the cycle counter is 0 after a reset is
log 5; the rest is log 4, 26, 27, 36 and 38. -/
def Obligations.TheModuleFromOutside : Prop :=
  ∀ (s : State) (sess terr va len k status page cor unc watts16 module16 : Nat) (bytes : List Byte) (i : Fin 32),
    (s.rmaAllowed sess terr va bytes.length = true → s.checkpointing terr = false → bytes ≠ [] →
      (∀ t, s.writeHbm terr va bytes = .ok t → exec (.rmaWrite sess terr va bytes) s = .next (t.rmaSay sess true [])) ∧
      ∀ tr, s.writeHbm terr va bytes = .error tr → exec (.rmaWrite sess terr va bytes) s = .next (s.rmaSay sess false [])) ∧
    (s.rmaAllowed sess terr va len = true →
      (∀ bs, s.readHbm terr va len = .ok bs → exec (.rmaRead sess terr va len) s = .next (s.rmaSay sess true bs)) ∧
      ∀ tr, s.readHbm terr va len = .error tr → exec (.rmaRead sess terr va len) s = .next (s.rmaSay sess false [])) ∧
    (s.rmaAllowed sess terr va len = false → exec (.rmaRead sess terr va len) s = .next (s.rmaSay sess false [])) ∧
    exec .unsupportedPacket s = .next (s.bumpDev 2 1) ∧
    (s.dev.scrub ≠ 0 → ∃ t : State, exec (.patrolScrub page cor unc) s = .next t ∧ t.mem = s.mem ∧
      t.dev.ctr[0] = s.dev.ctr[0] + BitVec.ofNat 64 cor ∧ t.dev.ctr[1] = s.dev.ctr[1] + BitVec.ofNat 64 unc) ∧
    (∃ t : State, exec (.islandPowerWindow i watts16 module16) s = .next t ∧ t = { s with dev := t.dev } ∧ t.dev.module16 = module16 ∧
      (t.dev.isl[i]).watts16 = watts16 ∧
      (module16 ≤ 16 * s.dev.modcap → 16 * s.dev.islandcap[i] < watts16 → 8 < (s.dev.isl[i]).clk → (t.dev.isl[i]).clk = (s.dev.isl[i]).clk - 1) ∧
      (module16 ≤ 16 * s.dev.modcap → 10 * watts16 < 9 * (16 * s.dev.islandcap[i]) → (t.dev.isl[i]).clk = min 16 ((s.dev.isl[i]).clk + 1)) ∧
      (16 * s.dev.modcap < module16 → s.dev.modWin = some (s.now / 17000) → (t.dev.isl[i]).clk = (s.dev.isl[i]).clk) ∧
      (16 * s.dev.modcap < module16 → s.dev.modWin ≠ some (s.now / 17000) →
        ∀ j : Fin 32, (t.dev.isl[j]).clk = if 8 < (s.dev.isl[j]).clk then (s.dev.isl[j]).clk - 1 else (s.dev.isl[j]).clk)) ∧
    ((s.dev.isl[i]).hot = false → exec (.thermalThrottle i) s = .next ((s.modIsland i (fun x => { x with hot := true })).bumpDev 4 1)) ∧
    exec (.thermalCooled i) s = .next (s.modIsland i (fun x => { x with hot := false })) ∧
    (∃ t : State, exec (.thermalShutdown i) s = .next t ∧ t.dev.power = .shutdown ∧ ∀ c : CoreId, (t.cores[c]).halted = (s.cores[c]).sl.isSome) ∧
    (∃ t : State, exec .deviceReset s = .next t ∧ t.mem = [] ∧ t.terrs = [] ∧ t.sessions = [] ∧ t.slices = [] ∧ t.now = 0 ∧ t.cores = State.reset.cores ∧
      t.dev.flash = s.dev.flash ∧ t.dev.svnMin = s.dev.svnMin ∧ t.dev.boots = s.dev.boots + 1 ∧ t.store = s.store ∧
      t.dev.pxpeers = s.dev.pxpeers ∧ t.dev.ops = s.dev.ops) ∧
    exec .powerLoss s = .next { s with dev := { s.dev with power := .off } } ∧
    exec (.linkLoss k) s = .next (s.pxDone k 2) ∧
    ((status = 0 ∨ status = 1 ∨ status = 3) → exec (.parallaxAck k status) s = .next (s.pxDone k status)) ∧
    (∀ p, s.pxIn[k]? = some p → p.stage = 0 →
      (p.fa ∉ s.dev.pxpeers ∨ s.dev.bootFail = true ∨ p.boff % 4096 ≠ 0 ∨ p.images = [] →
        exec (.parallaxStreamArrival k) s = .next (s.pxAnswer k p 1)) ∧
      (∀ last, p.fa ∈ s.dev.pxpeers → s.dev.bootFail = false → p.boff % 4096 = 0 → p.images.getLast? = some last →
        let im := s.streamImage p last
        (s.storeBytes < im.off + 4096 + im.len → exec (.parallaxStreamArrival k) s = .next (s.pxAnswer k p 3)) ∧
        (im.off + 4096 + im.len ≤ s.storeBytes → exec (.parallaxStreamArrival k) s =
          .next { s.zeroRecord p.boff with pxIn := (s.zeroRecord p.boff).pxIn.set k { p with stage := 1 } }))) ∧
    (∀ p last, s.pxIn[k]? = some p → p.images.getLast? = some last →
      let im := s.streamImage p last
      let s1 := s.overwrite (p.boff + 4096) im.bytes
      (p.stage = 1 → p.whole = true → s.pxStep k = some { s1 with pxIn := s1.pxIn.set k { p with images := [im], stage := 2 } }) ∧
      (p.stage = 1 → p.whole = false → s.pxStep k = some { s1 with pxIn := s1.pxIn.eraseIdx k }) ∧
      (p.stage = 2 → s.pxStep k = some ((s.commitImage last).pxAnswer k p 0))) ∧
    (∀ tile r, s.errors = .tile tile :: r → s.meetError = ({ s with errors := r } : State).bump tile 10) ∧
    ∀ r, s.errors = .hbm page cor unc :: r → s.meetError = ({ s with errors := r } : State).hbmErrors page cor unc

/-! ### Registers, results and traps -/

/-- A word that reads a pending register, or whose result would meet another on its register, takes the register's own trap, which names
it: every A-word whose guard holds, the C-words and lone words that check nothing before their registers, STL once it no longer waits, and the
branches and loop words where they may stand. Pending reads come first and registers are checked in operand order. Where the spec leaves a point
open it states the model's choice (log 31, 47). -/
def Obligations.RegisterFaults : Prop :=
  (∀ (s : State) (i : Instr) (reads : List RegId) (writes : List (RegId × Option Nat)), operandsOf i = some (reads, writes) →
    (∀ g, guardOf i = some g → s.guardOn g = true) →
    let traps (t : TrapRec) : Prop := exec i s = .next (s.preciseTrap t)
    let free : Word := Config.freeWord s.stepNo
    (∀ pre r post, reads = pre ++ r :: post → (∀ q ∈ pre, s.c.isPend q = false) → s.c.isPend r = true →
      traps (cause 0x03 (r.code free) 0)) ∧
    ((∀ r ∈ reads, s.c.isPend r = false) → ∀ pre w post, writes = pre ++ w :: post → (∀ v ∈ pre, s.c.collides v = false) →
      s.c.collides w = true → traps (cause 0x04 (w.1.code free) (landingInfo free w.2)))) ∧
  (∀ (i : Instr) (g : Guard), guardOf i = some g → (operandsOf i).isSome = true) ∧
  (∀ (s : State) (m n : Bool) (a d : Reg) (p : PReg) (d20 : BitVec 20) (l : Lvl) (count : BitVec 12) (fin : BitVec 10) (lp : LReg) (sz : MemSz)
    (sc : Scope) (disp : BitVec 9),
    let pending (id : Nat) : Out := .next (s.preciseTrap (cause 0x03 (BitVec.ofNat 64 id) 0))
    let meets (id : Nat) : Out := .next (s.preciseTrap (cause 0x04 (BitVec.ofNat 64 id) 1))
    (s.fenced s.cur sc = true → s.c.stlRefused sc = false → s.c.isPend (.scalar a) = true → exec (.stl m d a sz sc disp) s = pending a.val) ∧
    (s.ctl.delay = none →
      (s.c.isPend (.scalar a) = true → exec (.jmp m a) s = pending a.val ∧ exec (.callr m a) s = pending a.val ∧
        exec (.loopr m l a fin) s = pending a.val) ∧
      (s.c.isPend (.pred p) = true → exec (.brp m n p d20) s = pending (512 + p.val)) ∧
      (s.ownsControl = true → s.c.isPend (.scalar a) = false →
        ∀ pre (r : LReg) post, [lcId l, lbId l, leId l] = pre ++ r :: post → (∀ q ∈ pre, s.c.collides (.loopReg q, some 1) = false) →
          s.c.collides (.loopReg r, some 1) = true →
          exec (.loop m l count fin) s = meets (1024 + r.val) ∧ exec (.loopr m l a fin) s = meets (1024 + r.val))) ∧
    (s.c.isPend (.scalar a) = true → exec (.mvtl m lp a) s = pending a.val) ∧
    (s.ownsControl = true → s.c.isPend (.scalar a) = false → s.c.collides (.loopReg lp, some 1) = true →
      exec (.mvtl m lp a) s = meets (1024 + lp.val))) ∧
  (∀ (c : Core) (r : RegId) (n k : Nat) (free : Word) (x : Reg) (p : PReg) (l : LReg),
    (c.collides (r, some n) = true ↔ c.isPend r = true ∨ c.clash r n = true) ∧ (c.collides (r, none) = true ↔ c.isPend r = true) ∧
    (c.clash r n = true ↔ (∃ f ∈ c.flight, f.dist = n ∧ f.wr.reg = some r) ∨ ∃ a ∈ c.acc, a.2.lands = some (r, n + a.1)) ∧
    landingInfo free (some k) = BitVec.ofNat 64 k ∧ (RegId.scalar x).code free = BitVec.ofNat 64 x.val ∧
    (RegId.vector x).code free = BitVec.ofNat 64 (256 + x.val) ∧ (RegId.pred p).code free = BitVec.ofNat 64 (512 + p.val) ∧
    (RegId.loopReg l).code free = BitVec.ofNat 64 (1024 + l.val))

/-- A result in flight is one bundle nearer as each bundle of its core issues and lands as the last of them does; of several that land together
the last on a register wins: it takes the value, no other register changes, s0 and p0 take none, TRAPV, FPFLAGS and DISCSEL take the bits that MTS
writes, and the flags of all are ORed into FPFLAGS once the bundle has issued. When the park of a switch marker ends, every result delivered
during it lands on its register in the same way and no mark stays. Where the spec leaves a point open it states the model's choice (log 40). -/
def Obligations.ResultsLandAfterTheirLatency : Prop :=
  (∀ (s : State) (w : Wr) (n : Nat) (fl : BitVec 6), let t := s.landAt w n fl
    t = { s with cores := t.cores } ∧ (∀ k, k ≠ s.cur → t.cores[k] = s.cores[k]) ∧
      t.c = { s.c with flight := s.c.flight ++ [{ dist := n, wr := w, flags := fl }] }) ∧
  (∀ (c : Core) (pc : Word) (w : Wr) (n k : Nat) (fl : BitVec 6), c.flight = [{ dist := n, wr := w, flags := fl }] → c.acc = [] → 1 ≤ n →
    (k < n → (fun c : Core => c.age pc)^[k] c = { c with flight := [{ dist := n - k, wr := w, flags := fl }] }) ∧
    (fun c : Core => c.age pc)^[n] c = ({ c with flight := [] } : Core).land pc w) ∧
  (∀ (c : Core) (pc : Word), c.age pc = ({ c with
      flight := (c.flight.filter (fun f => 1 < f.dist)).map (fun f => { f with dist := f.dist - 1 })
      acc := c.acc.map (fun a => (a.1 + 1, a.2)) } : Core).landRegs pc (c.flight.filter (fun f => f.dist ≤ 1)) ∧
    c.dueNext = c.flight.filter (fun f => f.dist ≤ 1)) ∧
  (∀ (c : Core) (fs : List Flight) (fl : BitVec 6) (i : Nat), c.orFlags fl = { c with fpflags := c.fpflags ||| fl } ∧
    ((flagsOf fs).getLsbD i = true ↔ ∃ f ∈ fs, f.flags.getLsbD i = true)) ∧
  (∀ (c : Core) (pc : Word) (fs : List Flight), let t := c.landRegs pc fs
    let last (r : RegId) (w : Wr) : Prop := ∃ pre f post, fs = pre ++ f :: post ∧ f.wr = w ∧ w.reg = some r ∧ ∀ g ∈ post, g.wr.reg ≠ some r
    let kept (r : RegId) : Prop := ∀ f ∈ fs, f.wr.reg ≠ some r
    t = { c with
      sreg := t.sreg, vreg := t.vreg, preg := t.preg, lreg := t.lreg, leff := t.leff, trapv := t.trapv, fpflags := t.fpflags, discsel := t.discsel } ∧
    (∀ r x, last (.scalar r) (.scalar r x) → t.s r = x) ∧ (∀ r, kept (.scalar r) → t.s r = c.s r) ∧
    (∀ r x, last (.vector r) (.vector r x) → t.v r = x) ∧ (∀ r, kept (.vector r) → t.v r = c.v r) ∧
    (∀ r x, last (.pred r) (.pred r x) → t.p r = x) ∧ (∀ r, kept (.pred r) → t.p r = c.p r) ∧
    (∀ (r : LReg) x h, last (.loopReg r) (.loopReg r x h) → t.lreg[r] = x) ∧ (∀ r : LReg, kept (.loopReg r) → t.lreg[r] = c.lreg[r]) ∧
    (∀ x, last (.sys .trapv) (.sys .trapv x) → t.trapv = x &&& 0x1FFF8#64) ∧ (kept (.sys .trapv) → t.trapv = c.trapv) ∧
    (∀ x, last (.sys .fpflags) (.sys .fpflags x) → t.fpflags = x.setWidth 6) ∧ (kept (.sys .fpflags) → t.fpflags = c.fpflags) ∧
    (∀ x, last (.sys .discsel) (.sys .discsel x) → t.discsel = x.setWidth 8) ∧ (kept (.sys .discsel) → t.discsel = c.discsel)) ∧
  (∀ (c : Core) (pc : Word) (r q : Reg) (p u : PReg) (x : Word) (y : Vec) (b : Bool),
    c.s 0 = 0 ∧ c.p 0 = true ∧ c.land pc (.scalar 0 x) = c ∧ c.land pc (.pred 0 b) = c ∧
    (c.land pc (.scalar r x) = { c with sreg := (c.land pc (.scalar r x)).sreg }) ∧
    (c.land pc (.scalar r x)).s q = (if q = r ∧ r ≠ 0 then x else c.s q) ∧
    (c.land pc (.vector r y) = { c with vreg := (c.land pc (.vector r y)).vreg }) ∧
    (c.land pc (.vector r y)).v q = (if q = r then y else c.v q) ∧
    (c.land pc (.pred p b) = { c with preg := (c.land pc (.pred p b)).preg }) ∧
    (c.land pc (.pred p b)).p u = (if u = p ∧ p ≠ 0 then b else c.p u)) ∧
  (∀ (c : Core) (pc : Word) (r : SysReg) (l : LReg) (x : Word) (y : BitVec 32) (h : Bool),
    c.land pc (.sys .trapv x) = { c with trapv := x &&& 0x1FFF8#64 } ∧ c.land pc (.sys .fpflags x) = { c with fpflags := x.setWidth 6 } ∧
    c.land pc (.sys .discsel x) = { c with discsel := x.setWidth 8 } ∧
    (r ≠ .trapv → r ≠ .fpflags → r ≠ .discsel → c.land pc (.sys r x) = c) ∧
    (let t := c.land pc (.loopReg l y h)
     t = { c with lreg := t.lreg, leff := t.leff } ∧ ∀ q : LReg, t.lreg[q] = if q = l then y else c.lreg[q])) ∧
  (∀ (s : State) (core : CoreId) (marks : Bool), let c := s.cores[core]
    let w : List Flight := c.pend.filterMap (fun p => p.got.map (fun x => { dist := 0, wr := x.1, flags := x.2 }))
    let p : Park := { why := .marker, marks := marks }
    ((∃ q ∈ c.pend, q.got = none) → s.parkOver core p = none) ∧
    ((∀ q ∈ c.pend, q.got.isSome = true) → ∃ t : State, s.parkOver core p = some t ∧ t = { s with cores := t.cores, tiles := t.tiles } ∧
      (∀ k, k ≠ core → t.cores[k] = s.cores[k]) ∧ (∀ x, x ≠ tileOf core → t.tiles[x] = s.tiles[x]) ∧
      t.cores[core] = { (({ c with pend := [] } : Core).landRegs c.pc w).orFlags (flagsOf w) with park := none } ∧
      t.tiles[tileOf core] = { s.tiles[tileOf core] with
        locks := (s.tiles[tileOf core]).locks.filter (fun l => !(c.pend.map (·.id)).contains l.op) }))

/-- A trap of a word enters the handler on every core of its gang: TCAUSE, TPC and the informations are written, INH is set, issue goes
on at TRAPV, the interrupted stream is kept and nothing else changes; one taken while INH is set ends the slice. The return waits for what
the handler has in flight, gives the stream back and clears INH. Where the spec leaves a point open it
states the model's choice (log 15, 43, 62). -/
def Obligations.TrapEntryAndReturn : Prop :=
  (∀ (s : State) (t : TrapRec), let u := s.preciseTrap t
    let g := s.gang s.unit
    (s.c.inh = false → g.Nodup →
      u.issue = .trapped t ∧ u.mem = s.mem ∧ u.tiles = s.tiles ∧ u.slices = s.slices ∧ u.net = s.net ∧ u.outbox = s.outbox ∧
      (∀ c, c ∉ g → u.cores[c] = s.cores[c]) ∧
      ∀ c ∈ g, let k := (s.cores[c]).unstep
        let r := if c = s.cur then t else cause 0 0 0
        u.cores[c] = { k with
          tcause := 0x200#64 ||| (if r.async then 0x100#64 else 0#64) ||| r.code.setWidth 64, tpc := s.pcNow, tinfo0 := r.i0, tinfo1 := r.i1,
          pc := k.trapv, flight := [], pend := [], delay := none, owed := none, park := none, freeze := none, xfer := none, after := none, refused := [],
          replay := some { flight := k.flight, pend := k.pend, delay := k.delay, owed := k.owed, park := k.park, reqs := k.outst,
                           refused := k.refused } }) ∧
    (∀ x, s.c.inh = true → s.c.sl = some x →
      u = { ({ s with stepNo := s.stepNo + 1 } : State).stopSlice x (.nested t.code) with issue := .trapped t })) ∧
  (∀ (c : Core) (t : TrapRec) (tpc : Word), let h := c.takeTrap t tpc
    h.inh = true ∧ h.causeCode = t.code ∧ h.resumed.inh = false ∧ h.resumed.flight = c.flight ∧ h.resumed.pend = c.pend ∧
    h.resumed.delay = c.delay ∧ h.resumed.park = c.park ∧ h.resumed.owed = c.owed ∧ h.resumed.refused = c.refused ∧ h.resumed.replay = none ∧
    h.resumed.sreg = c.sreg ∧ h.resumed.vreg = c.vreg ∧ h.resumed.preg = c.preg) ∧
  (∀ (s : State) (core : CoreId), (s.cores[core]).dbgHeld = none →
    let k := s.cores[core]
    (k.flight = [] → k.pend = [] → s.returnCore core = s.modCore core Core.resumed) ∧
    (k.flight ≠ [] ∨ k.pend ≠ [] → s.returnCore core = s.modCore core (fun c =>
      { c with park := some { why := .returning (s.coreCycle (tileOf core) k.maxDist), marks := false } })))

/-! ### The whole machine -/

/-- Where issuing a bundle is the only move, a step first performs the local accesses that come before the bundle, then runs the instructions
that the 64 bits decode to, on a core whose results in flight have come a bundle nearer: word 0, then word 1, which does not see what word 0 made
pending. Then the control state moves on as its unit's transfers and end checks say; a trap enters the handler, a freeze leaves the bundle to be
tried again, a wait that comes before issue parks the core, and none of them keeps anything of the bundle. An attached gang issues one bundle on
each of its cores in the order of positions, whole or not at all: a trap of one core traps the gang, a freeze of one freezes it. Among several
moves a step makes one. Where the spec leaves a point open it states the model's choice (log 1, 3, 9, 11, 13, 37, 63). -/
def Obligations.StepRunsTheDecodedBundle : Prop :=
  (∀ (s : State) (u : CoreId) (w : BitVec 64), s.dev.power = .on → s.due = [] → s.moves = [.issue u] → s.issuers u = [u] →
    s.joiners u = [] → s.gang u = [u] → s.fetch u = .ok w →
    let pc := (s.cores[u]).pc
    let is := bundleWords (decodeBundle w.toNat)
    let a := s.performAccs [u]
    let h := (s.performFor [u] w).modCore u Core.hold
    let s1 : State := { h.modCore u (fun c => c.age pc) with cur := u }
    let ran (i : Instr) (n : Nat) (t : State) : State := if isEmulation i then t.emulWords n else t
    let done (t : State) : Out := .next ((t.modCore u (fun k => k.orFlags (flagsOf (h.cores[u]).dueNext))).bundleDone u [u])
    let trapped (r : TrapRec) : Out := .next ((a.trapGang [u] [(u, r)] pc).modCore u (fun c => { c with dbgSteps := 0 }))
    let frozen (f : Freeze) : Out := .next (s.modCore u (fun k => { k with freeze := some f }))
    let waits (p : Park) : Out := .next (a.modCore u (fun k => { k with park := some p }))
    (∀ i, is = [i] →
      (∀ t, exec i s1 = .next t → t.cur = u → t.issue = .issued → (t.c.pend.take s1.c.pend.length = s1.c.pend) → step s = done (ran i s1.stepNo t)) ∧
      (∀ t r, exec i s1 = .next t → t.issue = .trapped r → step s = trapped r) ∧
      (∀ t f, exec i s1 = .next t → t.issue = .stalled → (t.cores[u]).freeze = some f → step s = frozen f) ∧
      (∀ t p, exec i s1 = .next t → t.issue = .stalled → (t.cores[u]).freeze = none → (t.cores[u]).park = some p → step s = waits p)) ∧
    (∀ i, decodeBundle w.toNat = .lone i → is = [i]) ∧
    (∀ c b, decodeBundle w.toNat = .pair c b → is = [c, b]) ∧
    (∀ m l, decodeBundle w.toNat = .extension m l → is = if m then l ++ [.nopC true] else l) ∧
    (∀ w1, decodeBundle w.toNat = .illegal w1 → s1.pcNow = pc → step s = trapped (cause 0x01 pc (if w1 then 1 else 0))) ∧
    (∀ m w1 l, decodeBundle w.toNat = .extension m (.emulation w1 :: l) → Config.emulated s1.stepNo = none → s1.pcNow = pc →
      step s = trapped (cause 0x01 pc (if w1 then 1 else 0))) ∧
    (∀ c b l, is = c :: b :: l → l = [] ∨ l = [.nopC true] → ∀ t, exec c s1 = .next t → t.cur = u →
      let before := s1.c.pend
      let t' := (ran c s1.stepNo t).modCore u (fun k => { k with pend := before })
      let more (v : State) : State := (ran b t'.stepNo (v.modCore u (fun k => { k with pend := (ran c s1.stepNo t).c.pend ++ k.pend.drop before.length })))
      (∀ r, t.issue = .trapped r → step s = trapped r) ∧
      (∀ f v, t.issue = .stalled → (t.cores[u]).freeze = some f → exec b s1 = .next v → v.issue = .issued → step s = frozen f) ∧
      (∀ f v r, t.issue = .stalled → (t.cores[u]).freeze = some f → exec b s1 = .next v → v.issue = .trapped r → step s = trapped r) ∧
      (∀ p v, t.issue = .stalled → (t.cores[u]).freeze = none → (t.cores[u]).park = some p → exec b s1 = .next v → v.issue ≠ .stalled →
        step s = waits p) ∧
      (t.issue = .issued → (ran c s1.stepNo t).cur = u → t.c.pend.take before.length = before →
        (∀ v, exec b t' = .next v → v.cur = u → v.issue = .issued →
          (l = [] → step s = done (more v)) ∧ (l = [.nopC true] → (more v).cur = u → step s = done ((more v).after true))) ∧
        (∀ v r, exec b t' = .next v → v.issue = .trapped r → step s = trapped r) ∧
        (∀ v f, exec b t' = .next v → v.issue = .stalled → (v.cores[u]).freeze = some f →
          step s = frozen (f.after (s1.tiles[tileOf u]) ((ran c s1.stepNo t).tiles[tileOf u]))) ∧
        (∀ v p, exec b t' = .next v → v.issue = .stalled → (v.cores[u]).freeze = none → (v.cores[u]).park = some p → step s = waits p)))) ∧
  (∀ (s : State) (u : CoreId) (w : BitVec 64) (g : List CoreId) (i : Instr) (t : Nat → State) (o : Nat → Option TrapRec), s.dev.power = .on →
    s.due = [] → s.moves = [.issue u] → s.issuers u = g → s.joiners u = [] → s.gang u = g → g.Nodup → s.fetch u = .ok w →
    bundleWords (decodeBundle w.toNat) = [i] → isEmulation i = false →
    let pc := (s.cores[u]).pc
    let h := (s.performFor g w).modCores g Core.hold
    let at' (k : Nat) (c : CoreId) : State := { t k with cur := c }
    t 0 = h.modCores g (fun c => c.age pc) →
    let goes (k : Nat) (c : CoreId) : Prop := ∃ v, exec i (at' k c) = .next v ∧ v.issue = .issued ∧ v.cur = c ∧
      v.c.pend.take (at' k c).c.pend.length = (at' k c).c.pend ∧ o k = none ∧ t (k + 1) = v
    let traps (k : Nat) (c : CoreId) : Prop := ∃ v r, exec i (at' k c) = .next v ∧ v.issue = .trapped r ∧ o k = some r ∧ t (k + 1) = at' k c
    ((∀ k c, g[k]? = some c → goes k c) → step s = .next ((g.foldl (fun s c => s.modCore c (fun k =>
      k.orFlags (flagsOf (h.cores[c]).dueNext))) (t g.length)).bundleDone u g)) ∧
    ((∀ k c, g[k]? = some c → goes k c ∨ traps k c) → (∃ k < g.length, o k ≠ none) →
      step s = .next (((s.performAccs g).trapGang g (g.zipIdx.filterMap (fun e => (o e.2).map (fun r => (e.1, r)))) pc).modCores g
        (fun c => { c with dbgSteps := 0 }))) ∧
    (∀ j d v f, g[j]? = some d → (∀ k c, g[k]? = some c → k ≠ j → goes k c) → exec i (at' j d) = .next v → v.issue = .stalled →
      (v.cores[d]).freeze = some f → t (j + 1) = at' j d →
      step s = .next (s.modCore d (fun k => { k with freeze := some (f.after ((t 0).tiles[tileOf u]) ((t j).tiles[tileOf d])) })))) ∧
  (∀ (s : State) (g : List CoreId) (w : BitVec 64) (c : CoreId), g.Nodup → c ∈ g → (∀ d ∈ g, (s.cores[d]).pos ≤ 3) →
    let plain : Prop := (∀ i ∈ bundleWords (decodeBundle w.toNat), isPlain i = true) ∧
      ∀ d ∈ g, (s.cores[d]).dbgHalt = false ∧ (s.cores[d]).rendez = none
    ((s.performAccs g).cores[c]).acc = [] ∧ (¬plain → s.performFor g w = s.performAccs g) ∧
    (plain → ((s.performFor g w).cores[c]).acc = (s.cores[c]).acc.filter (fun a => decide (a.1 < (s.cores[c]).mayLag))) ∧
    (s.cores[c]).mayLag = (if (s.cores[c]).det then 0 else (s.cores[c]).pos) ∧
    (g = [c] → ∀ x, (s.cores[c]).acc = [x] → s.performAccs g = s.performAcc c)) ∧
  (∀ (s : State) (u : CoreId), (s.cores[u]).after = none → (∀ x, (s.cores[u]).xfer = some x → x.kind ≠ .rett) →
    s.bundleDone u [u] = s.modCore u (fun c => c.advance.issuedIn s.now (s.cycleOf u))) ∧
  (∀ (s : State) (m : Move), s.dev.power = .on → s.due = [] → s.moves = [m] → step s = s.makeMove m) ∧
  (∀ s : State, s.dev.power = .on → s.due = [] → 2 ≤ s.moves.length →
    ∃ m ∈ s.moves, step s = ({ s with stepNo := s.stepNo + 1 } : State).makeMove m) ∧
  (∀ (s : State) (i : Instr) (r : List Instr), s.dev.power = .on → s.due = i :: r → step s = exec i { s with due := r })

/-- The bundles the spec writes out decode to the instructions they stand for. -/
def Obligations.DecodingOfWrittenWords : Prop :=
  decodeBundle 0x14040000_08084004 = .pair (.mfs false 1 .tile) (.movi { neg := false, p := 0 } 2 0) ∧
  decodeBundle 0x001A5001_00000000 = .pair (.nopC false) (.add { neg := false, p := 0 } 13 5 0) ∧
  decodeBundle 0x00200000_81300000 = .lone (.liHbm false 6 0x200000#48) ∧
  decodeBundle 0xFFC00100_82380000 = .lone (.liPeer false 7 0xFFC00100#40) ∧
  decodeBundle 0x20194820_0D522002 = .pair (.ldp false 10 8 .i32 2) (.cmpi { neg := false, p := 0 } 3 5 .lt 32) ∧
  decodeBundle 0x04CA0001_00000000 = .pair (.nopC false) (.addi { neg := false, p := 3 } 5 1) ∧
  decodeBundle 0x16CA0000_00000000 = .pair (.nopC false) (.movi { neg := true, p := 3 } 5 0) ∧
  decodeBundle 0x00165081_40000000 = .pair (.nopC true) (.add { neg := false, p := 0 } 11 5 1) ∧
  decodeBundle 0x06004002 = .pair (.loop false 0 16 2) (.nopA { neg := false, p := 0 }) ∧
  decodeBundle 0x00200002 = .pair (.fence false .y) (.nopA { neg := false, p := 0 }) ∧
  decodeBundle 0x02300003 = .pair (.brp false false 3 3) (.nopA { neg := false, p := 0 })

/-- Every well-formed instruction that has an encoding decodes back from it: a C-word beside any A-word, an A-word beside any C-word, a
lone instruction from its 64 bits; and every A-word, C-word and lone word of the opcode table has one. -/
def Obligations.EncodedInstructionsDecodeBack : Prop :=
  (∀ (c a : Instr) (w v : Nat), c.wf = true → a.wf = true → encode c = .cword w → encode a = .aword v →
    w < 2 ^ 31 ∧ v < 2 ^ 32 ∧ decodeBundle (v * 2 ^ 32 + w) = .pair c a) ∧
  (∀ (i : Instr) (w : Nat), i.wf = true → encode i = .lone w → w < 2 ^ 64 ∧ decodeBundle w = .lone i) ∧
  (∀ (i : Instr) (g : Guard), guardOf i = some g → ∃ v, encode i = .aword v) ∧
  (∀ i : Instr, isCWord i = true → ∃ w, encode i = .cword w) ∧ (∀ i : Instr, isLone i = true → ∃ w, encode i = .lone w)

/-- A write of bytes in a canonical memory reads back, leaves every other byte alone and keeps the form, and so does clearing. Where the spec leaves a point open it
states the model's choice (log 4). -/
def Obligations.MemoryReadsBack : Prop :=
  ∀ (s : State) (k n : Nat) (bs : List Byte), s.Inv →
    (s.setBytes k bs).Inv ∧ SameOutside s (s.setBytes k bs) k bs.length ∧ (s.setBytes k bs).bytes k bs.length = bs ∧
    (s.clear k n).Inv ∧ SameOutside s (s.clear k n) k n ∧ (∀ a, k ≤ a → a < k + n → (s.clear k n).byte a = 0)

/-- Every step keeps memory in its canonical form. Where the spec leaves a point open it
states the model's choice (log 4). -/
def Obligations.StepKeepsMemoryCanonical : Prop :=
  ∀ s t : State, s.Inv → step s = .next t → t.Inv

/-- Right after reset: no territory, slice, session or message; every tile free but for those the fuses take out, at most 8; memory in its
canonical form; policies, caps and clocks at their reset values. That memory lists nothing, so that every byte reads zero, is the model's
choice (log 4), and so is that the machine's own registers read zero where the spec gives no value (log 7). -/
def Obligations.ResetState : Prop :=
  State.reset.Inv ∧ State.reset.mem = [] ∧ State.reset.terrs = [] ∧ State.reset.slices = [] ∧ State.reset.sessions = [] ∧
  State.reset.net = [] ∧ State.reset.outbox = [] ∧ State.reset.dev.power = .on ∧
  State.reset.dev.h = 16 ∧ State.reset.dev.w = 1700000 ∧ State.reset.dev.cool = 1700000 ∧ State.reset.dev.modcap = 1800 ∧
  (∀ i : Fin 32, State.reset.dev.islandcap[i] = 56 ∧ (State.reset.dev.isl[i]).clk = 16) ∧
  (∀ t : TileId, (State.reset.tiles[t]).isFree = !fusedOut t.val ∧ (State.reset.tiles[t]).ceding = none) ∧
  ((List.range 384).filter fusedOut).length ≤ 8 ∧
  ∀ c : CoreId, (State.reset.cores[c]).sl = none ∧ (∀ r, (State.reset.cores[c]).s r = 0) ∧ (∀ r, (State.reset.cores[c]).v r = 0)
end

