-- ==== Sys2Proof/Laws/Memory.lean ====
section
/-! SUPPORT. Sparse memory: reading after writing, and that every memory operation keeps the canonical form (log 4). -/

namespace Sys2Proof.Machine

/-! ### Keys from a bound on -/

theorem memWfFrom_mono {m : List Host.Cell} {lo hi : Nat} (h : memWfFrom hi m = true) (hl : lo ≤ hi) : memWfFrom lo m = true := by
  cases m with
  | nil => rfl
  | cons c r => simp_all [memWfFrom]; omega

/-- A key below the bound is unlisted. -/
theorem sget_below {m : List Host.Cell} {lo a : Nat} (h : memWfFrom lo m = true) (ha : a < lo) : sget unlisted m a = 0 := by
  cases m with
  | nil => rfl
  | cons c r =>
    obtain ⟨k, b⟩ := c
    simp only [memWfFrom, Bool.and_eq_true, decide_eq_true_eq] at h
    simp only [sget]
    rw [if_neg (by omega), if_pos (by omega)]
    rfl

/-! ### One byte -/

theorem memWfFrom_sset {m : List Host.Cell} {lo a : Nat} {x : Byte} (h : memWfFrom lo m = true) (ha : lo ≤ a) :
    memWfFrom lo (sset unlisted m a x) = true := by
  induction m generalizing lo with
  | nil =>
    simp only [sset]
    split
    · rfl
    · next hx => simpa [memWfFrom, ha, unlisted] using hx
  | cons c r ih =>
    obtain ⟨k, b⟩ := c
    simp only [memWfFrom, Bool.and_eq_true, decide_eq_true_eq] at h
    obtain ⟨⟨h1, h2⟩, h3⟩ := h
    simp only [sset]
    split
    · split
      · simp_all [memWfFrom]
      · next hx => simp_all [memWfFrom, unlisted]
    · split
      · subst k
        split
        · exact memWfFrom_mono h3 (by omega)
        · next hx => simp_all [memWfFrom, unlisted]
      · simp only [memWfFrom, Bool.and_eq_true, decide_eq_true_eq]
        exact ⟨⟨h1, h2⟩, ih h3 (by omega)⟩

/-- A byte reads as the last one written. -/
theorem sget_sset_self {m : List Host.Cell} {lo a : Nat} {x : Byte} (h : memWfFrom lo m = true) :
    sget unlisted (sset unlisted m a x) a = x := by
  induction m generalizing lo with
  | nil =>
    simp only [sset]
    split <;> simp_all [sget]
  | cons c r ih =>
    obtain ⟨k, b⟩ := c
    simp only [memWfFrom, Bool.and_eq_true, decide_eq_true_eq] at h
    simp only [sset]
    split
    · split
      · next h1 hx => simp only [sget]; rw [if_neg (by omega), if_pos h1, hx]
      · simp [sget]
    · split
      · next h1 h2 =>
        subst k
        split
        · next hx => rw [sget_below h.2 (by omega), hx]; rfl
        · simp [sget]
      · simp only [sget]
        rw [if_neg (by omega), if_neg (by omega)]
        exact ih h.2

/-- A write leaves every other byte alone. -/
theorem sget_sset_ne {m : List Host.Cell} {lo a k : Nat} {x : Byte} (h : memWfFrom lo m = true) (hk : k ≠ a) :
    sget unlisted (sset unlisted m a x) k = sget unlisted m k := by
  induction m generalizing lo with
  | nil =>
    simp only [sset]
    split
    · rfl
    · simp only [sget]; rw [if_neg (Ne.symm hk)]; split <;> rfl
  | cons c r ih =>
    obtain ⟨j, b⟩ := c
    simp only [memWfFrom, Bool.and_eq_true, decide_eq_true_eq] at h
    simp only [sset]
    split
    · split
      · rfl
      · simp only [sget]
        rw [if_neg (Ne.symm hk)]
        by_cases hka : k < a
        · rw [if_pos hka, if_neg (by omega), if_pos (by omega)]
        · rw [if_neg hka]
    · split
      · subst j
        split
        · simp only [sget]
          rw [if_neg (Ne.symm hk)]
          by_cases hka : k < a
          · rw [if_pos hka, sget_below h.2 (by omega)]; rfl
          · rw [if_neg hka]
        · simp only [sget]
          rw [if_neg (Ne.symm hk)]
          rw [if_neg (Ne.symm hk)]
      · simp only [sget]
        rw [ih h.2]

/-! ### Ranges -/

theorem Memory.wf_writeBytes {m : List Host.Cell} {k : Nat} {bs : List Byte} (h : Memory.wf m = true) :
    Memory.wf (writeBytes m k bs) = true := by
  induction bs generalizing m k with
  | nil => exact h
  | cons x xs ih => exact ih (memWfFrom_sset h (by omega))

theorem memWfFrom_filter {m : List Host.Cell} {lo : Nat} {p : Host.Cell → Bool} (h : memWfFrom lo m = true) :
    memWfFrom lo (m.filter p) = true := by
  induction m generalizing lo with
  | nil => rfl
  | cons c r ih =>
    obtain ⟨k, b⟩ := c
    simp only [memWfFrom, Bool.and_eq_true, decide_eq_true_eq] at h
    simp only [List.filter_cons]
    split
    · simp only [memWfFrom, Bool.and_eq_true, decide_eq_true_eq]
      exact ⟨h.1, ih h.2⟩
    · exact ih (memWfFrom_mono h.2 (by omega))

theorem Memory.wf_clearBytes {m : List Host.Cell} {k n : Nat} (h : Memory.wf m = true) : Memory.wf (clearBytes m k n) = true :=
  memWfFrom_filter h

/-- Writing bytes leaves what lies outside them alone. -/
theorem sget_writeBytes_ne {m : List Host.Cell} {k a : Nat} {bs : List Byte} (h : Memory.wf m = true)
    (ha : a < k ∨ k + bs.length ≤ a) : sget unlisted (writeBytes m k bs) a = sget unlisted m a := by
  induction bs generalizing m k with
  | nil => rfl
  | cons x xs ih =>
    simp only [List.length_cons] at ha
    simp only [writeBytes]
    rw [ih (memWfFrom_sset h (by omega)) (by omega), sget_sset_ne h (by omega)]

/-- The bytes written read back. -/
theorem sget_writeBytes {m : List Host.Cell} {k i : Nat} {bs : List Byte} (h : Memory.wf m = true) (hi : i < bs.length) :
    sget unlisted (writeBytes m k bs) (k + i) = bs[i] := by
  induction bs generalizing m k i with
  | nil => exact absurd hi (by simp)
  | cons x xs ih =>
    have h1 : Memory.wf (sset unlisted m k x) = true := memWfFrom_sset h (by omega)
    simp only [writeBytes]
    cases i with
    | zero => rw [sget_writeBytes_ne h1 (by omega)]; exact sget_sset_self h
    | succ j =>
      have := ih (k := k + 1) h1 (i := j) (by simpa using hi)
      simpa [Nat.add_comm, Nat.add_left_comm, Nat.add_assoc] using this

/-- Clearing reads as 0 inside the range and leaves the rest alone. -/
theorem sget_clearBytes {m : List Host.Cell} {lo k n a : Nat} (h : memWfFrom lo m = true) :
    sget unlisted (clearBytes m k n) a = if k ≤ a ∧ a < k + n then 0 else sget unlisted m a := by
  induction m generalizing lo with
  | nil => simp [clearBytes, sget, unlisted]
  | cons c r ih =>
    obtain ⟨j, b⟩ := c
    simp only [memWfFrom, Bool.and_eq_true, decide_eq_true_eq] at h
    have hr := ih h.2
    have hf : memWfFrom (j + 1) (clearBytes r k n) = true := memWfFrom_filter h.2
    unfold clearBytes at hr hf ⊢
    simp only [List.filter_cons]
    by_cases hj : j < k ∨ k + n ≤ j
    · rw [if_pos (by simpa using hj)]
      simp only [sget]
      by_cases e : j = a
      · rw [if_pos e, if_neg (by omega), if_pos e]
      · rw [if_neg e, if_neg e]
        by_cases l : a < j
        · rw [if_pos l, if_pos l]; split <;> rfl
        · rw [if_neg l, if_neg l]; exact hr
    · rw [if_neg (by simpa using hj), hr]
      simp only [sget]
      by_cases e : j = a
      · rw [if_pos (by omega), if_pos (by omega)]
      · rw [if_neg e]
        by_cases l : a < j
        · rw [if_pos l, sget_below h.2 (by omega)]; split <;> rfl
        · rw [if_neg l]

/-! ### Numbers and bytes -/

theorem leBytes_length (n x : Nat) : (leBytes n x).length = n := by
  induction n generalizing x with
  | zero => rfl
  | succ n ih => simp [leBytes, ih]

theorem leBytes_get (n x i : Nat) (hi : i < n) : (leBytes n x)[i]? = some (BitVec.ofNat 8 (x / 256 ^ i)) := by
  induction n generalizing x i with
  | zero => omega
  | succ n ih =>
    cases i with
    | zero => simp [leBytes]
    | succ j =>
      simp only [leBytes, List.getElem?_cons_succ]
      rw [ih _ _ (by omega), Nat.div_div_eq_div_mul, Nat.pow_succ, Nat.mul_comm]

theorem leNat_leBytes (n x : Nat) : leNat (leBytes n x) = x % 256 ^ n := by
  induction n generalizing x with
  | zero => simp [leBytes, leNat, Nat.mod_one]
  | succ n ih =>
    simp only [leBytes, leNat, ih, BitVec.toNat_ofNat]
    have h : (256 : Nat) ^ (n + 1) = 256 * 256 ^ n := by ring
    rw [h, Nat.mod_mul]

/-- After reset memory lists nothing. -/
theorem State.reset_mem : Memory.wf State.reset.mem = true := rfl

end Sys2Proof.Machine
end

