-- ==== Sys2Proof/Laws/State.lean ====
section
/-! SUPPORT. What each update of the state leaves alone, field by field, and what it changes. That an update leaves memory alone
stands in Laws/Canonical. -/

namespace Sys2Proof.Machine

/-! #### modCore -/

@[simp] theorem State.modCore_now (s : State) (c : CoreId) (f : Core → Core) : (s.modCore c f).now = s.now := rfl
@[simp] theorem State.modCore_cur (s : State) (c : CoreId) (f : Core → Core) : (s.modCore c f).cur = s.cur := rfl
@[simp] theorem State.modCore_stepNo (s : State) (c : CoreId) (f : Core → Core) : (s.modCore c f).stepNo = s.stepNo := rfl
@[simp] theorem State.modCore_issue (s : State) (c : CoreId) (f : Core → Core) : (s.modCore c f).issue = s.issue := rfl
@[simp] theorem State.modCore_tiles (s : State) (c : CoreId) (f : Core → Core) : (s.modCore c f).tiles = s.tiles := rfl
@[simp] theorem State.modCore_terrs (s : State) (c : CoreId) (f : Core → Core) : (s.modCore c f).terrs = s.terrs := rfl
@[simp] theorem State.modCore_ghosts (s : State) (c : CoreId) (f : Core → Core) : (s.modCore c f).ghosts = s.ghosts := rfl
@[simp] theorem State.modCore_slices (s : State) (c : CoreId) (f : Core → Core) : (s.modCore c f).slices = s.slices := rfl
@[simp] theorem State.modCore_launches (s : State) (c : CoreId) (f : Core → Core) : (s.modCore c f).launches = s.launches := rfl
@[simp] theorem State.modCore_codes (s : State) (c : CoreId) (f : Core → Core) : (s.modCore c f).codes = s.codes := rfl
@[simp] theorem State.modCore_net (s : State) (c : CoreId) (f : Core → Core) : (s.modCore c f).net = s.net := rfl
@[simp] theorem State.modCore_kept (s : State) (c : CoreId) (f : Core → Core) : (s.modCore c f).kept = s.kept := rfl
@[simp] theorem State.modCore_txSeq (s : State) (c : CoreId) (f : Core → Core) : (s.modCore c f).txSeq = s.txSeq := rfl
@[simp] theorem State.modCore_rxSeq (s : State) (c : CoreId) (f : Core → Core) : (s.modCore c f).rxSeq = s.rxSeq := rfl
@[simp] theorem State.modCore_sessions (s : State) (c : CoreId) (f : Core → Core) : (s.modCore c f).sessions = s.sessions := rfl
@[simp] theorem State.modCore_dev (s : State) (c : CoreId) (f : Core → Core) : (s.modCore c f).dev = s.dev := rfl
@[simp] theorem State.modCore_readings (s : State) (c : CoreId) (f : Core → Core) : (s.modCore c f).readings = s.readings := rfl
@[simp] theorem State.modCore_store (s : State) (c : CoreId) (f : Core → Core) : (s.modCore c f).store = s.store := rfl
@[simp] theorem State.modCore_pxOut (s : State) (c : CoreId) (f : Core → Core) : (s.modCore c f).pxOut = s.pxOut := rfl
@[simp] theorem State.modCore_pxIn (s : State) (c : CoreId) (f : Core → Core) : (s.modCore c f).pxIn = s.pxIn := rfl
@[simp] theorem State.modCore_inputs (s : State) (c : CoreId) (f : Core → Core) : (s.modCore c f).inputs = s.inputs := rfl
@[simp] theorem State.modCore_errors (s : State) (c : CoreId) (f : Core → Core) : (s.modCore c f).errors = s.errors := rfl
@[simp] theorem State.modCore_due (s : State) (c : CoreId) (f : Core → Core) : (s.modCore c f).due = s.due := rfl
@[simp] theorem State.modCore_outbox (s : State) (c : CoreId) (f : Core → Core) : (s.modCore c f).outbox = s.outbox := rfl

/-! #### modCur -/

@[simp] theorem State.modCur_now (s : State) (f : Core → Core) : (s.modCur f).now = s.now := rfl
@[simp] theorem State.modCur_cur (s : State) (f : Core → Core) : (s.modCur f).cur = s.cur := rfl
@[simp] theorem State.modCur_stepNo (s : State) (f : Core → Core) : (s.modCur f).stepNo = s.stepNo := rfl
@[simp] theorem State.modCur_issue (s : State) (f : Core → Core) : (s.modCur f).issue = s.issue := rfl
@[simp] theorem State.modCur_tiles (s : State) (f : Core → Core) : (s.modCur f).tiles = s.tiles := rfl
@[simp] theorem State.modCur_terrs (s : State) (f : Core → Core) : (s.modCur f).terrs = s.terrs := rfl
@[simp] theorem State.modCur_ghosts (s : State) (f : Core → Core) : (s.modCur f).ghosts = s.ghosts := rfl
@[simp] theorem State.modCur_slices (s : State) (f : Core → Core) : (s.modCur f).slices = s.slices := rfl
@[simp] theorem State.modCur_launches (s : State) (f : Core → Core) : (s.modCur f).launches = s.launches := rfl
@[simp] theorem State.modCur_codes (s : State) (f : Core → Core) : (s.modCur f).codes = s.codes := rfl
@[simp] theorem State.modCur_net (s : State) (f : Core → Core) : (s.modCur f).net = s.net := rfl
@[simp] theorem State.modCur_kept (s : State) (f : Core → Core) : (s.modCur f).kept = s.kept := rfl
@[simp] theorem State.modCur_txSeq (s : State) (f : Core → Core) : (s.modCur f).txSeq = s.txSeq := rfl
@[simp] theorem State.modCur_rxSeq (s : State) (f : Core → Core) : (s.modCur f).rxSeq = s.rxSeq := rfl
@[simp] theorem State.modCur_sessions (s : State) (f : Core → Core) : (s.modCur f).sessions = s.sessions := rfl
@[simp] theorem State.modCur_dev (s : State) (f : Core → Core) : (s.modCur f).dev = s.dev := rfl
@[simp] theorem State.modCur_readings (s : State) (f : Core → Core) : (s.modCur f).readings = s.readings := rfl
@[simp] theorem State.modCur_store (s : State) (f : Core → Core) : (s.modCur f).store = s.store := rfl
@[simp] theorem State.modCur_pxOut (s : State) (f : Core → Core) : (s.modCur f).pxOut = s.pxOut := rfl
@[simp] theorem State.modCur_pxIn (s : State) (f : Core → Core) : (s.modCur f).pxIn = s.pxIn := rfl
@[simp] theorem State.modCur_inputs (s : State) (f : Core → Core) : (s.modCur f).inputs = s.inputs := rfl
@[simp] theorem State.modCur_errors (s : State) (f : Core → Core) : (s.modCur f).errors = s.errors := rfl
@[simp] theorem State.modCur_due (s : State) (f : Core → Core) : (s.modCur f).due = s.due := rfl
@[simp] theorem State.modCur_outbox (s : State) (f : Core → Core) : (s.modCur f).outbox = s.outbox := rfl

/-! #### landAt -/

@[simp] theorem State.landAt_now (s : State) (w : Wr) (n : Nat) (fl : BitVec 6) : (s.landAt w n fl).now = s.now := rfl
@[simp] theorem State.landAt_cur (s : State) (w : Wr) (n : Nat) (fl : BitVec 6) : (s.landAt w n fl).cur = s.cur := rfl
@[simp] theorem State.landAt_stepNo (s : State) (w : Wr) (n : Nat) (fl : BitVec 6) : (s.landAt w n fl).stepNo = s.stepNo := rfl
@[simp] theorem State.landAt_issue (s : State) (w : Wr) (n : Nat) (fl : BitVec 6) : (s.landAt w n fl).issue = s.issue := rfl
@[simp] theorem State.landAt_tiles (s : State) (w : Wr) (n : Nat) (fl : BitVec 6) : (s.landAt w n fl).tiles = s.tiles := rfl
@[simp] theorem State.landAt_terrs (s : State) (w : Wr) (n : Nat) (fl : BitVec 6) : (s.landAt w n fl).terrs = s.terrs := rfl
@[simp] theorem State.landAt_ghosts (s : State) (w : Wr) (n : Nat) (fl : BitVec 6) : (s.landAt w n fl).ghosts = s.ghosts := rfl
@[simp] theorem State.landAt_slices (s : State) (w : Wr) (n : Nat) (fl : BitVec 6) : (s.landAt w n fl).slices = s.slices := rfl
@[simp] theorem State.landAt_launches (s : State) (w : Wr) (n : Nat) (fl : BitVec 6) : (s.landAt w n fl).launches = s.launches := rfl
@[simp] theorem State.landAt_codes (s : State) (w : Wr) (n : Nat) (fl : BitVec 6) : (s.landAt w n fl).codes = s.codes := rfl
@[simp] theorem State.landAt_net (s : State) (w : Wr) (n : Nat) (fl : BitVec 6) : (s.landAt w n fl).net = s.net := rfl
@[simp] theorem State.landAt_kept (s : State) (w : Wr) (n : Nat) (fl : BitVec 6) : (s.landAt w n fl).kept = s.kept := rfl
@[simp] theorem State.landAt_txSeq (s : State) (w : Wr) (n : Nat) (fl : BitVec 6) : (s.landAt w n fl).txSeq = s.txSeq := rfl
@[simp] theorem State.landAt_rxSeq (s : State) (w : Wr) (n : Nat) (fl : BitVec 6) : (s.landAt w n fl).rxSeq = s.rxSeq := rfl
@[simp] theorem State.landAt_sessions (s : State) (w : Wr) (n : Nat) (fl : BitVec 6) : (s.landAt w n fl).sessions = s.sessions := rfl
@[simp] theorem State.landAt_dev (s : State) (w : Wr) (n : Nat) (fl : BitVec 6) : (s.landAt w n fl).dev = s.dev := rfl
@[simp] theorem State.landAt_readings (s : State) (w : Wr) (n : Nat) (fl : BitVec 6) : (s.landAt w n fl).readings = s.readings := rfl
@[simp] theorem State.landAt_store (s : State) (w : Wr) (n : Nat) (fl : BitVec 6) : (s.landAt w n fl).store = s.store := rfl
@[simp] theorem State.landAt_pxOut (s : State) (w : Wr) (n : Nat) (fl : BitVec 6) : (s.landAt w n fl).pxOut = s.pxOut := rfl
@[simp] theorem State.landAt_pxIn (s : State) (w : Wr) (n : Nat) (fl : BitVec 6) : (s.landAt w n fl).pxIn = s.pxIn := rfl
@[simp] theorem State.landAt_inputs (s : State) (w : Wr) (n : Nat) (fl : BitVec 6) : (s.landAt w n fl).inputs = s.inputs := rfl
@[simp] theorem State.landAt_errors (s : State) (w : Wr) (n : Nat) (fl : BitVec 6) : (s.landAt w n fl).errors = s.errors := rfl
@[simp] theorem State.landAt_due (s : State) (w : Wr) (n : Nat) (fl : BitVec 6) : (s.landAt w n fl).due = s.due := rfl
@[simp] theorem State.landAt_outbox (s : State) (w : Wr) (n : Nat) (fl : BitVec 6) : (s.landAt w n fl).outbox = s.outbox := rfl

/-! #### pendOn -/

@[simp] theorem State.pendOn_now (s : State) (id : Nat) (r : Option RegId) : (s.pendOn id r).now = s.now := rfl
@[simp] theorem State.pendOn_cur (s : State) (id : Nat) (r : Option RegId) : (s.pendOn id r).cur = s.cur := rfl
@[simp] theorem State.pendOn_stepNo (s : State) (id : Nat) (r : Option RegId) : (s.pendOn id r).stepNo = s.stepNo := rfl
@[simp] theorem State.pendOn_issue (s : State) (id : Nat) (r : Option RegId) : (s.pendOn id r).issue = s.issue := rfl
@[simp] theorem State.pendOn_tiles (s : State) (id : Nat) (r : Option RegId) : (s.pendOn id r).tiles = s.tiles := rfl
@[simp] theorem State.pendOn_terrs (s : State) (id : Nat) (r : Option RegId) : (s.pendOn id r).terrs = s.terrs := rfl
@[simp] theorem State.pendOn_ghosts (s : State) (id : Nat) (r : Option RegId) : (s.pendOn id r).ghosts = s.ghosts := rfl
@[simp] theorem State.pendOn_slices (s : State) (id : Nat) (r : Option RegId) : (s.pendOn id r).slices = s.slices := rfl
@[simp] theorem State.pendOn_launches (s : State) (id : Nat) (r : Option RegId) : (s.pendOn id r).launches = s.launches := rfl
@[simp] theorem State.pendOn_codes (s : State) (id : Nat) (r : Option RegId) : (s.pendOn id r).codes = s.codes := rfl
@[simp] theorem State.pendOn_net (s : State) (id : Nat) (r : Option RegId) : (s.pendOn id r).net = s.net := rfl
@[simp] theorem State.pendOn_kept (s : State) (id : Nat) (r : Option RegId) : (s.pendOn id r).kept = s.kept := rfl
@[simp] theorem State.pendOn_txSeq (s : State) (id : Nat) (r : Option RegId) : (s.pendOn id r).txSeq = s.txSeq := rfl
@[simp] theorem State.pendOn_rxSeq (s : State) (id : Nat) (r : Option RegId) : (s.pendOn id r).rxSeq = s.rxSeq := rfl
@[simp] theorem State.pendOn_sessions (s : State) (id : Nat) (r : Option RegId) : (s.pendOn id r).sessions = s.sessions := rfl
@[simp] theorem State.pendOn_dev (s : State) (id : Nat) (r : Option RegId) : (s.pendOn id r).dev = s.dev := rfl
@[simp] theorem State.pendOn_readings (s : State) (id : Nat) (r : Option RegId) : (s.pendOn id r).readings = s.readings := rfl
@[simp] theorem State.pendOn_store (s : State) (id : Nat) (r : Option RegId) : (s.pendOn id r).store = s.store := rfl
@[simp] theorem State.pendOn_pxOut (s : State) (id : Nat) (r : Option RegId) : (s.pendOn id r).pxOut = s.pxOut := rfl
@[simp] theorem State.pendOn_pxIn (s : State) (id : Nat) (r : Option RegId) : (s.pendOn id r).pxIn = s.pxIn := rfl
@[simp] theorem State.pendOn_inputs (s : State) (id : Nat) (r : Option RegId) : (s.pendOn id r).inputs = s.inputs := rfl
@[simp] theorem State.pendOn_errors (s : State) (id : Nat) (r : Option RegId) : (s.pendOn id r).errors = s.errors := rfl
@[simp] theorem State.pendOn_due (s : State) (id : Nat) (r : Option RegId) : (s.pendOn id r).due = s.due := rfl
@[simp] theorem State.pendOn_outbox (s : State) (id : Nat) (r : Option RegId) : (s.pendOn id r).outbox = s.outbox := rfl

/-! #### setAcc -/

@[simp] theorem State.setAcc_now (s : State) (a : LocalAcc) : (s.setAcc a).now = s.now := rfl
@[simp] theorem State.setAcc_cur (s : State) (a : LocalAcc) : (s.setAcc a).cur = s.cur := rfl
@[simp] theorem State.setAcc_stepNo (s : State) (a : LocalAcc) : (s.setAcc a).stepNo = s.stepNo := rfl
@[simp] theorem State.setAcc_issue (s : State) (a : LocalAcc) : (s.setAcc a).issue = s.issue := rfl
@[simp] theorem State.setAcc_tiles (s : State) (a : LocalAcc) : (s.setAcc a).tiles = s.tiles := rfl
@[simp] theorem State.setAcc_terrs (s : State) (a : LocalAcc) : (s.setAcc a).terrs = s.terrs := rfl
@[simp] theorem State.setAcc_ghosts (s : State) (a : LocalAcc) : (s.setAcc a).ghosts = s.ghosts := rfl
@[simp] theorem State.setAcc_slices (s : State) (a : LocalAcc) : (s.setAcc a).slices = s.slices := rfl
@[simp] theorem State.setAcc_launches (s : State) (a : LocalAcc) : (s.setAcc a).launches = s.launches := rfl
@[simp] theorem State.setAcc_codes (s : State) (a : LocalAcc) : (s.setAcc a).codes = s.codes := rfl
@[simp] theorem State.setAcc_net (s : State) (a : LocalAcc) : (s.setAcc a).net = s.net := rfl
@[simp] theorem State.setAcc_kept (s : State) (a : LocalAcc) : (s.setAcc a).kept = s.kept := rfl
@[simp] theorem State.setAcc_txSeq (s : State) (a : LocalAcc) : (s.setAcc a).txSeq = s.txSeq := rfl
@[simp] theorem State.setAcc_rxSeq (s : State) (a : LocalAcc) : (s.setAcc a).rxSeq = s.rxSeq := rfl
@[simp] theorem State.setAcc_sessions (s : State) (a : LocalAcc) : (s.setAcc a).sessions = s.sessions := rfl
@[simp] theorem State.setAcc_dev (s : State) (a : LocalAcc) : (s.setAcc a).dev = s.dev := rfl
@[simp] theorem State.setAcc_readings (s : State) (a : LocalAcc) : (s.setAcc a).readings = s.readings := rfl
@[simp] theorem State.setAcc_store (s : State) (a : LocalAcc) : (s.setAcc a).store = s.store := rfl
@[simp] theorem State.setAcc_pxOut (s : State) (a : LocalAcc) : (s.setAcc a).pxOut = s.pxOut := rfl
@[simp] theorem State.setAcc_pxIn (s : State) (a : LocalAcc) : (s.setAcc a).pxIn = s.pxIn := rfl
@[simp] theorem State.setAcc_inputs (s : State) (a : LocalAcc) : (s.setAcc a).inputs = s.inputs := rfl
@[simp] theorem State.setAcc_errors (s : State) (a : LocalAcc) : (s.setAcc a).errors = s.errors := rfl
@[simp] theorem State.setAcc_due (s : State) (a : LocalAcc) : (s.setAcc a).due = s.due := rfl
@[simp] theorem State.setAcc_outbox (s : State) (a : LocalAcc) : (s.setAcc a).outbox = s.outbox := rfl

/-! #### modTile -/

@[simp] theorem State.modTile_now (s : State) (t : TileId) (f : Tile → Tile) : (s.modTile t f).now = s.now := rfl
@[simp] theorem State.modTile_cur (s : State) (t : TileId) (f : Tile → Tile) : (s.modTile t f).cur = s.cur := rfl
@[simp] theorem State.modTile_stepNo (s : State) (t : TileId) (f : Tile → Tile) : (s.modTile t f).stepNo = s.stepNo := rfl
@[simp] theorem State.modTile_issue (s : State) (t : TileId) (f : Tile → Tile) : (s.modTile t f).issue = s.issue := rfl
@[simp] theorem State.modTile_cores (s : State) (t : TileId) (f : Tile → Tile) : (s.modTile t f).cores = s.cores := rfl
@[simp] theorem State.modTile_terrs (s : State) (t : TileId) (f : Tile → Tile) : (s.modTile t f).terrs = s.terrs := rfl
@[simp] theorem State.modTile_ghosts (s : State) (t : TileId) (f : Tile → Tile) : (s.modTile t f).ghosts = s.ghosts := rfl
@[simp] theorem State.modTile_slices (s : State) (t : TileId) (f : Tile → Tile) : (s.modTile t f).slices = s.slices := rfl
@[simp] theorem State.modTile_launches (s : State) (t : TileId) (f : Tile → Tile) : (s.modTile t f).launches = s.launches := rfl
@[simp] theorem State.modTile_codes (s : State) (t : TileId) (f : Tile → Tile) : (s.modTile t f).codes = s.codes := rfl
@[simp] theorem State.modTile_net (s : State) (t : TileId) (f : Tile → Tile) : (s.modTile t f).net = s.net := rfl
@[simp] theorem State.modTile_kept (s : State) (t : TileId) (f : Tile → Tile) : (s.modTile t f).kept = s.kept := rfl
@[simp] theorem State.modTile_txSeq (s : State) (t : TileId) (f : Tile → Tile) : (s.modTile t f).txSeq = s.txSeq := rfl
@[simp] theorem State.modTile_rxSeq (s : State) (t : TileId) (f : Tile → Tile) : (s.modTile t f).rxSeq = s.rxSeq := rfl
@[simp] theorem State.modTile_sessions (s : State) (t : TileId) (f : Tile → Tile) : (s.modTile t f).sessions = s.sessions := rfl
@[simp] theorem State.modTile_dev (s : State) (t : TileId) (f : Tile → Tile) : (s.modTile t f).dev = s.dev := rfl
@[simp] theorem State.modTile_readings (s : State) (t : TileId) (f : Tile → Tile) : (s.modTile t f).readings = s.readings := rfl
@[simp] theorem State.modTile_store (s : State) (t : TileId) (f : Tile → Tile) : (s.modTile t f).store = s.store := rfl
@[simp] theorem State.modTile_pxOut (s : State) (t : TileId) (f : Tile → Tile) : (s.modTile t f).pxOut = s.pxOut := rfl
@[simp] theorem State.modTile_pxIn (s : State) (t : TileId) (f : Tile → Tile) : (s.modTile t f).pxIn = s.pxIn := rfl
@[simp] theorem State.modTile_inputs (s : State) (t : TileId) (f : Tile → Tile) : (s.modTile t f).inputs = s.inputs := rfl
@[simp] theorem State.modTile_errors (s : State) (t : TileId) (f : Tile → Tile) : (s.modTile t f).errors = s.errors := rfl
@[simp] theorem State.modTile_due (s : State) (t : TileId) (f : Tile → Tile) : (s.modTile t f).due = s.due := rfl
@[simp] theorem State.modTile_outbox (s : State) (t : TileId) (f : Tile → Tile) : (s.modTile t f).outbox = s.outbox := rfl

/-! #### modSlice -/

@[simp] theorem State.modSlice_now (s : State) (u : Nat) (f : Slice → Slice) : (s.modSlice u f).now = s.now := rfl
@[simp] theorem State.modSlice_cur (s : State) (u : Nat) (f : Slice → Slice) : (s.modSlice u f).cur = s.cur := rfl
@[simp] theorem State.modSlice_stepNo (s : State) (u : Nat) (f : Slice → Slice) : (s.modSlice u f).stepNo = s.stepNo := rfl
@[simp] theorem State.modSlice_issue (s : State) (u : Nat) (f : Slice → Slice) : (s.modSlice u f).issue = s.issue := rfl
@[simp] theorem State.modSlice_cores (s : State) (u : Nat) (f : Slice → Slice) : (s.modSlice u f).cores = s.cores := rfl
@[simp] theorem State.modSlice_tiles (s : State) (u : Nat) (f : Slice → Slice) : (s.modSlice u f).tiles = s.tiles := rfl
@[simp] theorem State.modSlice_terrs (s : State) (u : Nat) (f : Slice → Slice) : (s.modSlice u f).terrs = s.terrs := rfl
@[simp] theorem State.modSlice_ghosts (s : State) (u : Nat) (f : Slice → Slice) : (s.modSlice u f).ghosts = s.ghosts := rfl
@[simp] theorem State.modSlice_launches (s : State) (u : Nat) (f : Slice → Slice) : (s.modSlice u f).launches = s.launches := rfl
@[simp] theorem State.modSlice_codes (s : State) (u : Nat) (f : Slice → Slice) : (s.modSlice u f).codes = s.codes := rfl
@[simp] theorem State.modSlice_net (s : State) (u : Nat) (f : Slice → Slice) : (s.modSlice u f).net = s.net := rfl
@[simp] theorem State.modSlice_kept (s : State) (u : Nat) (f : Slice → Slice) : (s.modSlice u f).kept = s.kept := rfl
@[simp] theorem State.modSlice_txSeq (s : State) (u : Nat) (f : Slice → Slice) : (s.modSlice u f).txSeq = s.txSeq := rfl
@[simp] theorem State.modSlice_rxSeq (s : State) (u : Nat) (f : Slice → Slice) : (s.modSlice u f).rxSeq = s.rxSeq := rfl
@[simp] theorem State.modSlice_sessions (s : State) (u : Nat) (f : Slice → Slice) : (s.modSlice u f).sessions = s.sessions := rfl
@[simp] theorem State.modSlice_dev (s : State) (u : Nat) (f : Slice → Slice) : (s.modSlice u f).dev = s.dev := rfl
@[simp] theorem State.modSlice_readings (s : State) (u : Nat) (f : Slice → Slice) : (s.modSlice u f).readings = s.readings := rfl
@[simp] theorem State.modSlice_store (s : State) (u : Nat) (f : Slice → Slice) : (s.modSlice u f).store = s.store := rfl
@[simp] theorem State.modSlice_pxOut (s : State) (u : Nat) (f : Slice → Slice) : (s.modSlice u f).pxOut = s.pxOut := rfl
@[simp] theorem State.modSlice_pxIn (s : State) (u : Nat) (f : Slice → Slice) : (s.modSlice u f).pxIn = s.pxIn := rfl
@[simp] theorem State.modSlice_inputs (s : State) (u : Nat) (f : Slice → Slice) : (s.modSlice u f).inputs = s.inputs := rfl
@[simp] theorem State.modSlice_errors (s : State) (u : Nat) (f : Slice → Slice) : (s.modSlice u f).errors = s.errors := rfl
@[simp] theorem State.modSlice_due (s : State) (u : Nat) (f : Slice → Slice) : (s.modSlice u f).due = s.due := rfl
@[simp] theorem State.modSlice_outbox (s : State) (u : Nat) (f : Slice → Slice) : (s.modSlice u f).outbox = s.outbox := rfl

/-! #### modTerr -/

@[simp] theorem State.modTerr_now (s : State) (n : Nat) (f : Terr → Terr) : (s.modTerr n f).now = s.now := rfl
@[simp] theorem State.modTerr_cur (s : State) (n : Nat) (f : Terr → Terr) : (s.modTerr n f).cur = s.cur := rfl
@[simp] theorem State.modTerr_stepNo (s : State) (n : Nat) (f : Terr → Terr) : (s.modTerr n f).stepNo = s.stepNo := rfl
@[simp] theorem State.modTerr_issue (s : State) (n : Nat) (f : Terr → Terr) : (s.modTerr n f).issue = s.issue := rfl
@[simp] theorem State.modTerr_cores (s : State) (n : Nat) (f : Terr → Terr) : (s.modTerr n f).cores = s.cores := rfl
@[simp] theorem State.modTerr_tiles (s : State) (n : Nat) (f : Terr → Terr) : (s.modTerr n f).tiles = s.tiles := rfl
@[simp] theorem State.modTerr_ghosts (s : State) (n : Nat) (f : Terr → Terr) : (s.modTerr n f).ghosts = s.ghosts := rfl
@[simp] theorem State.modTerr_slices (s : State) (n : Nat) (f : Terr → Terr) : (s.modTerr n f).slices = s.slices := rfl
@[simp] theorem State.modTerr_launches (s : State) (n : Nat) (f : Terr → Terr) : (s.modTerr n f).launches = s.launches := rfl
@[simp] theorem State.modTerr_codes (s : State) (n : Nat) (f : Terr → Terr) : (s.modTerr n f).codes = s.codes := rfl
@[simp] theorem State.modTerr_net (s : State) (n : Nat) (f : Terr → Terr) : (s.modTerr n f).net = s.net := rfl
@[simp] theorem State.modTerr_kept (s : State) (n : Nat) (f : Terr → Terr) : (s.modTerr n f).kept = s.kept := rfl
@[simp] theorem State.modTerr_txSeq (s : State) (n : Nat) (f : Terr → Terr) : (s.modTerr n f).txSeq = s.txSeq := rfl
@[simp] theorem State.modTerr_rxSeq (s : State) (n : Nat) (f : Terr → Terr) : (s.modTerr n f).rxSeq = s.rxSeq := rfl
@[simp] theorem State.modTerr_sessions (s : State) (n : Nat) (f : Terr → Terr) : (s.modTerr n f).sessions = s.sessions := rfl
@[simp] theorem State.modTerr_dev (s : State) (n : Nat) (f : Terr → Terr) : (s.modTerr n f).dev = s.dev := rfl
@[simp] theorem State.modTerr_readings (s : State) (n : Nat) (f : Terr → Terr) : (s.modTerr n f).readings = s.readings := rfl
@[simp] theorem State.modTerr_store (s : State) (n : Nat) (f : Terr → Terr) : (s.modTerr n f).store = s.store := rfl
@[simp] theorem State.modTerr_pxOut (s : State) (n : Nat) (f : Terr → Terr) : (s.modTerr n f).pxOut = s.pxOut := rfl
@[simp] theorem State.modTerr_pxIn (s : State) (n : Nat) (f : Terr → Terr) : (s.modTerr n f).pxIn = s.pxIn := rfl
@[simp] theorem State.modTerr_inputs (s : State) (n : Nat) (f : Terr → Terr) : (s.modTerr n f).inputs = s.inputs := rfl
@[simp] theorem State.modTerr_errors (s : State) (n : Nat) (f : Terr → Terr) : (s.modTerr n f).errors = s.errors := rfl
@[simp] theorem State.modTerr_due (s : State) (n : Nat) (f : Terr → Terr) : (s.modTerr n f).due = s.due := rfl
@[simp] theorem State.modTerr_outbox (s : State) (n : Nat) (f : Terr → Terr) : (s.modTerr n f).outbox = s.outbox := rfl

/-! #### modSession -/

@[simp] theorem State.modSession_now (s : State) (n : Nat) (f : Session → Session) : (s.modSession n f).now = s.now := rfl
@[simp] theorem State.modSession_cur (s : State) (n : Nat) (f : Session → Session) : (s.modSession n f).cur = s.cur := rfl
@[simp] theorem State.modSession_stepNo (s : State) (n : Nat) (f : Session → Session) : (s.modSession n f).stepNo = s.stepNo := rfl
@[simp] theorem State.modSession_issue (s : State) (n : Nat) (f : Session → Session) : (s.modSession n f).issue = s.issue := rfl
@[simp] theorem State.modSession_cores (s : State) (n : Nat) (f : Session → Session) : (s.modSession n f).cores = s.cores := rfl
@[simp] theorem State.modSession_tiles (s : State) (n : Nat) (f : Session → Session) : (s.modSession n f).tiles = s.tiles := rfl
@[simp] theorem State.modSession_terrs (s : State) (n : Nat) (f : Session → Session) : (s.modSession n f).terrs = s.terrs := rfl
@[simp] theorem State.modSession_ghosts (s : State) (n : Nat) (f : Session → Session) : (s.modSession n f).ghosts = s.ghosts := rfl
@[simp] theorem State.modSession_slices (s : State) (n : Nat) (f : Session → Session) : (s.modSession n f).slices = s.slices := rfl
@[simp] theorem State.modSession_launches (s : State) (n : Nat) (f : Session → Session) : (s.modSession n f).launches = s.launches := rfl
@[simp] theorem State.modSession_codes (s : State) (n : Nat) (f : Session → Session) : (s.modSession n f).codes = s.codes := rfl
@[simp] theorem State.modSession_net (s : State) (n : Nat) (f : Session → Session) : (s.modSession n f).net = s.net := rfl
@[simp] theorem State.modSession_kept (s : State) (n : Nat) (f : Session → Session) : (s.modSession n f).kept = s.kept := rfl
@[simp] theorem State.modSession_txSeq (s : State) (n : Nat) (f : Session → Session) : (s.modSession n f).txSeq = s.txSeq := rfl
@[simp] theorem State.modSession_rxSeq (s : State) (n : Nat) (f : Session → Session) : (s.modSession n f).rxSeq = s.rxSeq := rfl
@[simp] theorem State.modSession_dev (s : State) (n : Nat) (f : Session → Session) : (s.modSession n f).dev = s.dev := rfl
@[simp] theorem State.modSession_readings (s : State) (n : Nat) (f : Session → Session) : (s.modSession n f).readings = s.readings := rfl
@[simp] theorem State.modSession_store (s : State) (n : Nat) (f : Session → Session) : (s.modSession n f).store = s.store := rfl
@[simp] theorem State.modSession_pxOut (s : State) (n : Nat) (f : Session → Session) : (s.modSession n f).pxOut = s.pxOut := rfl
@[simp] theorem State.modSession_pxIn (s : State) (n : Nat) (f : Session → Session) : (s.modSession n f).pxIn = s.pxIn := rfl
@[simp] theorem State.modSession_inputs (s : State) (n : Nat) (f : Session → Session) : (s.modSession n f).inputs = s.inputs := rfl
@[simp] theorem State.modSession_errors (s : State) (n : Nat) (f : Session → Session) : (s.modSession n f).errors = s.errors := rfl
@[simp] theorem State.modSession_due (s : State) (n : Nat) (f : Session → Session) : (s.modSession n f).due = s.due := rfl
@[simp] theorem State.modSession_outbox (s : State) (n : Nat) (f : Session → Session) : (s.modSession n f).outbox = s.outbox := rfl

/-! #### setBytes -/

@[simp] theorem State.setBytes_now (s : State) (k : Nat) (bs : List Byte) : (s.setBytes k bs).now = s.now := rfl
@[simp] theorem State.setBytes_cur (s : State) (k : Nat) (bs : List Byte) : (s.setBytes k bs).cur = s.cur := rfl
@[simp] theorem State.setBytes_stepNo (s : State) (k : Nat) (bs : List Byte) : (s.setBytes k bs).stepNo = s.stepNo := rfl
@[simp] theorem State.setBytes_issue (s : State) (k : Nat) (bs : List Byte) : (s.setBytes k bs).issue = s.issue := rfl
@[simp] theorem State.setBytes_cores (s : State) (k : Nat) (bs : List Byte) : (s.setBytes k bs).cores = s.cores := rfl
@[simp] theorem State.setBytes_tiles (s : State) (k : Nat) (bs : List Byte) : (s.setBytes k bs).tiles = s.tiles := rfl
@[simp] theorem State.setBytes_terrs (s : State) (k : Nat) (bs : List Byte) : (s.setBytes k bs).terrs = s.terrs := rfl
@[simp] theorem State.setBytes_ghosts (s : State) (k : Nat) (bs : List Byte) : (s.setBytes k bs).ghosts = s.ghosts := rfl
@[simp] theorem State.setBytes_slices (s : State) (k : Nat) (bs : List Byte) : (s.setBytes k bs).slices = s.slices := rfl
@[simp] theorem State.setBytes_launches (s : State) (k : Nat) (bs : List Byte) : (s.setBytes k bs).launches = s.launches := rfl
@[simp] theorem State.setBytes_codes (s : State) (k : Nat) (bs : List Byte) : (s.setBytes k bs).codes = s.codes := rfl
@[simp] theorem State.setBytes_net (s : State) (k : Nat) (bs : List Byte) : (s.setBytes k bs).net = s.net := rfl
@[simp] theorem State.setBytes_kept (s : State) (k : Nat) (bs : List Byte) : (s.setBytes k bs).kept = s.kept := rfl
@[simp] theorem State.setBytes_txSeq (s : State) (k : Nat) (bs : List Byte) : (s.setBytes k bs).txSeq = s.txSeq := rfl
@[simp] theorem State.setBytes_rxSeq (s : State) (k : Nat) (bs : List Byte) : (s.setBytes k bs).rxSeq = s.rxSeq := rfl
@[simp] theorem State.setBytes_sessions (s : State) (k : Nat) (bs : List Byte) : (s.setBytes k bs).sessions = s.sessions := rfl
@[simp] theorem State.setBytes_dev (s : State) (k : Nat) (bs : List Byte) : (s.setBytes k bs).dev = s.dev := rfl
@[simp] theorem State.setBytes_readings (s : State) (k : Nat) (bs : List Byte) : (s.setBytes k bs).readings = s.readings := rfl
@[simp] theorem State.setBytes_store (s : State) (k : Nat) (bs : List Byte) : (s.setBytes k bs).store = s.store := rfl
@[simp] theorem State.setBytes_pxOut (s : State) (k : Nat) (bs : List Byte) : (s.setBytes k bs).pxOut = s.pxOut := rfl
@[simp] theorem State.setBytes_pxIn (s : State) (k : Nat) (bs : List Byte) : (s.setBytes k bs).pxIn = s.pxIn := rfl
@[simp] theorem State.setBytes_inputs (s : State) (k : Nat) (bs : List Byte) : (s.setBytes k bs).inputs = s.inputs := rfl
@[simp] theorem State.setBytes_errors (s : State) (k : Nat) (bs : List Byte) : (s.setBytes k bs).errors = s.errors := rfl
@[simp] theorem State.setBytes_due (s : State) (k : Nat) (bs : List Byte) : (s.setBytes k bs).due = s.due := rfl
@[simp] theorem State.setBytes_outbox (s : State) (k : Nat) (bs : List Byte) : (s.setBytes k bs).outbox = s.outbox := rfl

/-! #### setFrame -/

@[simp] theorem State.setFrame_now (s : State) (off : Nat) (bs : List Byte) : (s.setFrame off bs).now = s.now := rfl
@[simp] theorem State.setFrame_cur (s : State) (off : Nat) (bs : List Byte) : (s.setFrame off bs).cur = s.cur := rfl
@[simp] theorem State.setFrame_stepNo (s : State) (off : Nat) (bs : List Byte) : (s.setFrame off bs).stepNo = s.stepNo := rfl
@[simp] theorem State.setFrame_issue (s : State) (off : Nat) (bs : List Byte) : (s.setFrame off bs).issue = s.issue := rfl
@[simp] theorem State.setFrame_cores (s : State) (off : Nat) (bs : List Byte) : (s.setFrame off bs).cores = s.cores := rfl
@[simp] theorem State.setFrame_tiles (s : State) (off : Nat) (bs : List Byte) : (s.setFrame off bs).tiles = s.tiles := rfl
@[simp] theorem State.setFrame_terrs (s : State) (off : Nat) (bs : List Byte) : (s.setFrame off bs).terrs = s.terrs := rfl
@[simp] theorem State.setFrame_ghosts (s : State) (off : Nat) (bs : List Byte) : (s.setFrame off bs).ghosts = s.ghosts := rfl
@[simp] theorem State.setFrame_slices (s : State) (off : Nat) (bs : List Byte) : (s.setFrame off bs).slices = s.slices := rfl
@[simp] theorem State.setFrame_launches (s : State) (off : Nat) (bs : List Byte) : (s.setFrame off bs).launches = s.launches := rfl
@[simp] theorem State.setFrame_codes (s : State) (off : Nat) (bs : List Byte) : (s.setFrame off bs).codes = s.codes := rfl
@[simp] theorem State.setFrame_net (s : State) (off : Nat) (bs : List Byte) : (s.setFrame off bs).net = s.net := rfl
@[simp] theorem State.setFrame_kept (s : State) (off : Nat) (bs : List Byte) : (s.setFrame off bs).kept = s.kept := rfl
@[simp] theorem State.setFrame_txSeq (s : State) (off : Nat) (bs : List Byte) : (s.setFrame off bs).txSeq = s.txSeq := rfl
@[simp] theorem State.setFrame_rxSeq (s : State) (off : Nat) (bs : List Byte) : (s.setFrame off bs).rxSeq = s.rxSeq := rfl
@[simp] theorem State.setFrame_sessions (s : State) (off : Nat) (bs : List Byte) : (s.setFrame off bs).sessions = s.sessions := rfl
@[simp] theorem State.setFrame_dev (s : State) (off : Nat) (bs : List Byte) : (s.setFrame off bs).dev = s.dev := rfl
@[simp] theorem State.setFrame_readings (s : State) (off : Nat) (bs : List Byte) : (s.setFrame off bs).readings = s.readings := rfl
@[simp] theorem State.setFrame_store (s : State) (off : Nat) (bs : List Byte) : (s.setFrame off bs).store = s.store := rfl
@[simp] theorem State.setFrame_pxOut (s : State) (off : Nat) (bs : List Byte) : (s.setFrame off bs).pxOut = s.pxOut := rfl
@[simp] theorem State.setFrame_pxIn (s : State) (off : Nat) (bs : List Byte) : (s.setFrame off bs).pxIn = s.pxIn := rfl
@[simp] theorem State.setFrame_inputs (s : State) (off : Nat) (bs : List Byte) : (s.setFrame off bs).inputs = s.inputs := rfl
@[simp] theorem State.setFrame_errors (s : State) (off : Nat) (bs : List Byte) : (s.setFrame off bs).errors = s.errors := rfl
@[simp] theorem State.setFrame_due (s : State) (off : Nat) (bs : List Byte) : (s.setFrame off bs).due = s.due := rfl
@[simp] theorem State.setFrame_outbox (s : State) (off : Nat) (bs : List Byte) : (s.setFrame off bs).outbox = s.outbox := rfl

/-! #### clear -/

@[simp] theorem State.clear_now (s : State) (k n : Nat) : (s.clear k n).now = s.now := rfl
@[simp] theorem State.clear_cur (s : State) (k n : Nat) : (s.clear k n).cur = s.cur := rfl
@[simp] theorem State.clear_stepNo (s : State) (k n : Nat) : (s.clear k n).stepNo = s.stepNo := rfl
@[simp] theorem State.clear_issue (s : State) (k n : Nat) : (s.clear k n).issue = s.issue := rfl
@[simp] theorem State.clear_cores (s : State) (k n : Nat) : (s.clear k n).cores = s.cores := rfl
@[simp] theorem State.clear_tiles (s : State) (k n : Nat) : (s.clear k n).tiles = s.tiles := rfl
@[simp] theorem State.clear_terrs (s : State) (k n : Nat) : (s.clear k n).terrs = s.terrs := rfl
@[simp] theorem State.clear_ghosts (s : State) (k n : Nat) : (s.clear k n).ghosts = s.ghosts := rfl
@[simp] theorem State.clear_slices (s : State) (k n : Nat) : (s.clear k n).slices = s.slices := rfl
@[simp] theorem State.clear_launches (s : State) (k n : Nat) : (s.clear k n).launches = s.launches := rfl
@[simp] theorem State.clear_codes (s : State) (k n : Nat) : (s.clear k n).codes = s.codes := rfl
@[simp] theorem State.clear_net (s : State) (k n : Nat) : (s.clear k n).net = s.net := rfl
@[simp] theorem State.clear_kept (s : State) (k n : Nat) : (s.clear k n).kept = s.kept := rfl
@[simp] theorem State.clear_txSeq (s : State) (k n : Nat) : (s.clear k n).txSeq = s.txSeq := rfl
@[simp] theorem State.clear_rxSeq (s : State) (k n : Nat) : (s.clear k n).rxSeq = s.rxSeq := rfl
@[simp] theorem State.clear_sessions (s : State) (k n : Nat) : (s.clear k n).sessions = s.sessions := rfl
@[simp] theorem State.clear_dev (s : State) (k n : Nat) : (s.clear k n).dev = s.dev := rfl
@[simp] theorem State.clear_readings (s : State) (k n : Nat) : (s.clear k n).readings = s.readings := rfl
@[simp] theorem State.clear_store (s : State) (k n : Nat) : (s.clear k n).store = s.store := rfl
@[simp] theorem State.clear_pxOut (s : State) (k n : Nat) : (s.clear k n).pxOut = s.pxOut := rfl
@[simp] theorem State.clear_pxIn (s : State) (k n : Nat) : (s.clear k n).pxIn = s.pxIn := rfl
@[simp] theorem State.clear_inputs (s : State) (k n : Nat) : (s.clear k n).inputs = s.inputs := rfl
@[simp] theorem State.clear_errors (s : State) (k n : Nat) : (s.clear k n).errors = s.errors := rfl
@[simp] theorem State.clear_due (s : State) (k n : Nat) : (s.clear k n).due = s.due := rfl
@[simp] theorem State.clear_outbox (s : State) (k n : Nat) : (s.clear k n).outbox = s.outbox := rfl

/-! #### takePacket -/

@[simp] theorem State.takePacket_now (s : State) (k : Nat) : (s.takePacket k).now = s.now := rfl
@[simp] theorem State.takePacket_cur (s : State) (k : Nat) : (s.takePacket k).cur = s.cur := rfl
@[simp] theorem State.takePacket_stepNo (s : State) (k : Nat) : (s.takePacket k).stepNo = s.stepNo := rfl
@[simp] theorem State.takePacket_issue (s : State) (k : Nat) : (s.takePacket k).issue = s.issue := rfl
@[simp] theorem State.takePacket_cores (s : State) (k : Nat) : (s.takePacket k).cores = s.cores := rfl
@[simp] theorem State.takePacket_tiles (s : State) (k : Nat) : (s.takePacket k).tiles = s.tiles := rfl
@[simp] theorem State.takePacket_terrs (s : State) (k : Nat) : (s.takePacket k).terrs = s.terrs := rfl
@[simp] theorem State.takePacket_ghosts (s : State) (k : Nat) : (s.takePacket k).ghosts = s.ghosts := rfl
@[simp] theorem State.takePacket_slices (s : State) (k : Nat) : (s.takePacket k).slices = s.slices := rfl
@[simp] theorem State.takePacket_launches (s : State) (k : Nat) : (s.takePacket k).launches = s.launches := rfl
@[simp] theorem State.takePacket_codes (s : State) (k : Nat) : (s.takePacket k).codes = s.codes := rfl
@[simp] theorem State.takePacket_kept (s : State) (k : Nat) : (s.takePacket k).kept = s.kept := rfl
@[simp] theorem State.takePacket_txSeq (s : State) (k : Nat) : (s.takePacket k).txSeq = s.txSeq := rfl
@[simp] theorem State.takePacket_rxSeq (s : State) (k : Nat) : (s.takePacket k).rxSeq = s.rxSeq := rfl
@[simp] theorem State.takePacket_sessions (s : State) (k : Nat) : (s.takePacket k).sessions = s.sessions := rfl
@[simp] theorem State.takePacket_dev (s : State) (k : Nat) : (s.takePacket k).dev = s.dev := rfl
@[simp] theorem State.takePacket_readings (s : State) (k : Nat) : (s.takePacket k).readings = s.readings := rfl
@[simp] theorem State.takePacket_store (s : State) (k : Nat) : (s.takePacket k).store = s.store := rfl
@[simp] theorem State.takePacket_pxOut (s : State) (k : Nat) : (s.takePacket k).pxOut = s.pxOut := rfl
@[simp] theorem State.takePacket_pxIn (s : State) (k : Nat) : (s.takePacket k).pxIn = s.pxIn := rfl
@[simp] theorem State.takePacket_inputs (s : State) (k : Nat) : (s.takePacket k).inputs = s.inputs := rfl
@[simp] theorem State.takePacket_errors (s : State) (k : Nat) : (s.takePacket k).errors = s.errors := rfl
@[simp] theorem State.takePacket_due (s : State) (k : Nat) : (s.takePacket k).due = s.due := rfl
@[simp] theorem State.takePacket_outbox (s : State) (k : Nat) : (s.takePacket k).outbox = s.outbox := rfl

/-! #### send -/

@[simp] theorem State.send_now (s : State) (src dst cls : Nat) (who : Option Who) (terr : Nat) (body : Msg) : (s.send src dst cls who terr body).now = s.now := rfl
@[simp] theorem State.send_cur (s : State) (src dst cls : Nat) (who : Option Who) (terr : Nat) (body : Msg) : (s.send src dst cls who terr body).cur = s.cur := rfl
@[simp] theorem State.send_stepNo (s : State) (src dst cls : Nat) (who : Option Who) (terr : Nat) (body : Msg) : (s.send src dst cls who terr body).stepNo = s.stepNo := rfl
@[simp] theorem State.send_issue (s : State) (src dst cls : Nat) (who : Option Who) (terr : Nat) (body : Msg) : (s.send src dst cls who terr body).issue = s.issue := rfl
@[simp] theorem State.send_cores (s : State) (src dst cls : Nat) (who : Option Who) (terr : Nat) (body : Msg) : (s.send src dst cls who terr body).cores = s.cores := rfl
@[simp] theorem State.send_tiles (s : State) (src dst cls : Nat) (who : Option Who) (terr : Nat) (body : Msg) : (s.send src dst cls who terr body).tiles = s.tiles := rfl
@[simp] theorem State.send_terrs (s : State) (src dst cls : Nat) (who : Option Who) (terr : Nat) (body : Msg) : (s.send src dst cls who terr body).terrs = s.terrs := rfl
@[simp] theorem State.send_ghosts (s : State) (src dst cls : Nat) (who : Option Who) (terr : Nat) (body : Msg) : (s.send src dst cls who terr body).ghosts = s.ghosts := rfl
@[simp] theorem State.send_slices (s : State) (src dst cls : Nat) (who : Option Who) (terr : Nat) (body : Msg) : (s.send src dst cls who terr body).slices = s.slices := rfl
@[simp] theorem State.send_launches (s : State) (src dst cls : Nat) (who : Option Who) (terr : Nat) (body : Msg) : (s.send src dst cls who terr body).launches = s.launches := rfl
@[simp] theorem State.send_codes (s : State) (src dst cls : Nat) (who : Option Who) (terr : Nat) (body : Msg) : (s.send src dst cls who terr body).codes = s.codes := rfl
@[simp] theorem State.send_rxSeq (s : State) (src dst cls : Nat) (who : Option Who) (terr : Nat) (body : Msg) : (s.send src dst cls who terr body).rxSeq = s.rxSeq := rfl
@[simp] theorem State.send_sessions (s : State) (src dst cls : Nat) (who : Option Who) (terr : Nat) (body : Msg) : (s.send src dst cls who terr body).sessions = s.sessions := rfl
@[simp] theorem State.send_readings (s : State) (src dst cls : Nat) (who : Option Who) (terr : Nat) (body : Msg) : (s.send src dst cls who terr body).readings = s.readings := rfl
@[simp] theorem State.send_store (s : State) (src dst cls : Nat) (who : Option Who) (terr : Nat) (body : Msg) : (s.send src dst cls who terr body).store = s.store := rfl
@[simp] theorem State.send_pxOut (s : State) (src dst cls : Nat) (who : Option Who) (terr : Nat) (body : Msg) : (s.send src dst cls who terr body).pxOut = s.pxOut := rfl
@[simp] theorem State.send_pxIn (s : State) (src dst cls : Nat) (who : Option Who) (terr : Nat) (body : Msg) : (s.send src dst cls who terr body).pxIn = s.pxIn := rfl
@[simp] theorem State.send_inputs (s : State) (src dst cls : Nat) (who : Option Who) (terr : Nat) (body : Msg) : (s.send src dst cls who terr body).inputs = s.inputs := rfl
@[simp] theorem State.send_errors (s : State) (src dst cls : Nat) (who : Option Who) (terr : Nat) (body : Msg) : (s.send src dst cls who terr body).errors = s.errors := rfl
@[simp] theorem State.send_due (s : State) (src dst cls : Nat) (who : Option Who) (terr : Nat) (body : Msg) : (s.send src dst cls who terr body).due = s.due := rfl
@[simp] theorem State.send_outbox (s : State) (src dst cls : Nat) (who : Option Who) (terr : Nat) (body : Msg) : (s.send src dst cls who terr body).outbox = s.outbox := rfl

/-! #### What an update changes -/

theorem vset_self {α : Type} {n : Nat} (v : Vector α n) (i : Fin n) (x : α) : (vset v i x)[i] = x := by
  simp [vset]

theorem vset_ne {α : Type} {n : Nat} (v : Vector α n) {i j : Fin n} (x : α) (h : j ≠ i) : (vset v i x)[j] = v[j] := by
  have : i.val ≠ j.val := fun e => h (Fin.ext e.symm)
  simp [vset, this]

theorem State.modCore_self (s : State) (c : CoreId) (f : Core → Core) : (s.modCore c f).cores[c] = f s.cores[c] := vset_self _ _ _

theorem State.modCore_ne (s : State) {c d : CoreId} (f : Core → Core) (h : d ≠ c) : (s.modCore c f).cores[d] = s.cores[d] :=
  vset_ne _ _ h

theorem State.modTile_self (s : State) (t : TileId) (f : Tile → Tile) : (s.modTile t f).tiles[t] = f s.tiles[t] := vset_self _ _ _

theorem State.modTile_ne (s : State) {t u : TileId} (f : Tile → Tile) (h : u ≠ t) : (s.modTile t f).tiles[u] = s.tiles[u] :=
  vset_ne _ _ h

/-- The issuing core after an update of it. -/
@[simp] theorem State.modCur_c (s : State) (f : Core → Core) : (s.modCur f).c = f s.c := vset_self _ _ _

/-- A result in flight is the last of its core's (02 R38). -/
theorem State.landAt_c (s : State) (w : Wr) (n : Nat) (fl : BitVec 6) :
    (s.landAt w n fl).c = { s.c with flight := s.c.flight ++ [{ dist := n, wr := w, flags := fl }] } := State.modCur_c _ _

/-- A pending result is the last of its core's (02 R40). -/
theorem State.pendOn_c (s : State) (id : Nat) (r : Option RegId) :
    (s.pendOn id r).c = { s.c with pend := s.c.pend ++ [{ id := id, reg := r, got := none }] } := State.modCur_c _ _

theorem State.setBytes_mem (s : State) (k : Nat) (bs : List Byte) : (s.setBytes k bs).mem = writeBytes s.mem k bs := rfl

/-- A byte written reads as written. -/
theorem State.byte_setBytes {s : State} {k i : Nat} {bs : List Byte} (h : Memory.wf s.mem = true) (hi : i < bs.length) :
    (s.setBytes k bs).byte (k + i) = bs[i] := by
  have := sget_writeBytes (k := k) h hi
  simpa [State.byte, State.setBytes, hi] using this

/-- A write leaves every other byte. -/
theorem State.byte_setBytes_ne {s : State} {k a : Nat} {bs : List Byte} (h : Memory.wf s.mem = true)
    (ha : a < k ∨ k + bs.length ≤ a) : (s.setBytes k bs).byte a = s.byte a := sget_writeBytes_ne h ha

end Sys2Proof.Machine
end

