-- ==== Sys2Proof/Laws/Words.lean ====
section
/-! SUPPORT. What the shapes of words answer: the register checks, A-words, C-words and lone words (one lemma for each shared shape). -/

namespace Sys2Proof.Machine

/-! ### Register checks -/

/-- With nothing pending and nothing to collide with, the register checks find no fault. -/
theorem State.checkRegs_ready {s : State} {reads : List RegId} {writes : List (RegId × Option Nat)} (h : s.Ready reads writes) :
    s.checkRegs reads writes = none := by
  unfold State.checkRegs
  rw [List.find?_eq_none.2 (by simpa using h.1), List.find?_eq_none.2 (by simpa using h.2)]

/-- The register checks find no fault only where nothing is pending and nothing collides. -/
theorem State.ready_of_checkRegs {s : State} {reads : List RegId} {writes : List (RegId × Option Nat)}
    (h : s.checkRegs reads writes = none) : s.Ready reads writes := by
  unfold State.checkRegs at h
  split at h
  · cases h
  · next hr =>
    split at h
    · cases h
    · next hw => exact ⟨by simpa using List.find?_eq_none.1 hr, by simpa using List.find?_eq_none.1 hw⟩

/-! ### A-words -/

/-- An A-word that executes and meets no register fault has its one result in flight. -/
theorem aluWord_ready {g : Guard} {reads : List RegId} {writes : List (RegId × Option Nat)} {w : Wr} {n : Nat} {fl : BitVec 6}
    {s : State} (hg : s.guardOn g = true) (h : s.Ready reads writes) : aluWord g reads writes w n fl s = .next (s.result w n fl) := by
  simp [aluWord, hg, s.checkRegs_ready h, finish, State.result, State.issued]

/-- An A-word whose guard is false changes nothing. -/
theorem aluWord_off {g : Guard} {reads : List RegId} {writes : List (RegId × Option Nat)} {w : Wr} {n : Nat} {fl : BitVec 6}
    {s : State} (hg : s.guardOn g = false) : aluWord g reads writes w n fl s = .next s.issued := by
  simp [aluWord, hg, finish, State.issued]

/-- An A-word that executes and meets a register fault traps precisely. -/
theorem aluWord_fault {g : Guard} {reads : List RegId} {writes : List (RegId × Option Nat)} {w : Wr} {n : Nat} {fl : BitVec 6}
    {s : State} {t : TrapRec} (hg : s.guardOn g = true) (h : s.checkRegs reads writes = some t) :
    aluWord g reads writes w n fl s = .next (s.preciseTrap t) := by
  simp [aluWord, hg, h, finish]

/-- All that an A-word can answer. -/
theorem aluWord_cases (g : Guard) (reads : List RegId) (writes : List (RegId × Option Nat)) (w : Wr) (n : Nat) (fl : BitVec 6)
    (s : State) : aluWord g reads writes w n fl s = .next s.issued ∨ aluWord g reads writes w n fl s = .next (s.result w n fl) ∨
      ∃ t, s.checkRegs reads writes = some t ∧ aluWord g reads writes w n fl s = .next (s.preciseTrap t) := by
  by_cases hg : s.guardOn g = true
  · cases h : s.checkRegs reads writes with
    | none => exact .inr (.inl (aluWord_ready hg (s.ready_of_checkRegs h)))
    | some t => exact .inr (.inr ⟨t, rfl, aluWord_fault hg h⟩)
  · exact .inl (aluWord_off (by simpa using hg))

/-! ### C-words and lone words -/

/-- A C-word that meets no register fault and whose own check passes has its effect, and its switch marker. -/
theorem cWord_ok {m : Bool} {reads : List RegId} {writes : List (RegId × Option Nat)} {k : State → Res} {s s' : State}
    (h : s.Ready reads writes) (hk : k s = .ok s') : cWord m reads writes k s = .next (s'.after m) := by
  simp [cWord, s.checkRegs_ready h, hk, finish, State.after, State.issued]

/-- A C-word whose own check fails traps precisely. -/
theorem cWord_trap {m : Bool} {reads : List RegId} {writes : List (RegId × Option Nat)} {k : State → Res} {s : State} {t : TrapRec}
    (h : s.Ready reads writes) (hk : k s = .trap t) : cWord m reads writes k s = .next (s.preciseTrap t) := by
  simp [cWord, s.checkRegs_ready h, hk, finish]

/-- A C-word that meets a register fault traps precisely. -/
theorem cWord_fault {m : Bool} {reads : List RegId} {writes : List (RegId × Option Nat)} {k : State → Res} {s : State} {t : TrapRec}
    (h : s.checkRegs reads writes = some t) : cWord m reads writes k s = .next (s.preciseTrap t) := by
  simp [cWord, h, finish]

/-- A C-word that must wait freezes its core. -/
theorem cWord_freeze {m : Bool} {reads : List RegId} {writes : List (RegId × Option Nat)} {k : State → Res} {s : State} {f : Freeze}
    (h : s.Ready reads writes) (hk : k s = .freeze f) :
    cWord m reads writes k s = .next { s.modCur (fun c => { c with freeze := some f }) with issue := .stalled } := by
  simp [cWord, s.checkRegs_ready h, hk, finish]

/-- Outside a delay bundle, the words that may not stand in one are C-words like any other. -/
theorem cWordNoDelay_eq {m : Bool} {reads : List RegId} {writes : List (RegId × Option Nat)} {k : State → Res} {s : State}
    (hd : s.ctl.delay = none) : cWordNoDelay m reads writes k s = cWord m reads writes k s := by
  simp [cWordNoDelay, hd]

/-- In a delay bundle they trap as illegal instructions. -/
theorem cWordNoDelay_delay {m : Bool} {reads : List RegId} {writes : List (RegId × Option Nat)} {k : State → Res} {s : State}
    (hd : s.ctl.delay.isSome = true) : cWordNoDelay m reads writes k s = .next (s.preciseTrap (cause 0x01 s.pcNow 0)) := by
  simp [cWordNoDelay, hd, finish]

/-- A C-word whose whole effect is a result. -/
theorem cResult_ready {m : Bool} {reads : List RegId} {writes : List (RegId × Option Nat)} {w : State → Wr} {n : Nat} {s : State}
    (h : s.Ready reads writes) : cResult m reads writes w n s = .next ((s.landAt (w s) n 0).after m) :=
  cWord_ok h rfl

/-- All that a C-word can answer: its effect, a precise trap, or a freeze. -/
theorem cWord_cases (m : Bool) (reads : List RegId) (writes : List (RegId × Option Nat)) (k : State → Res) (s : State) :
    (∃ s', k s = .ok s' ∧ cWord m reads writes k s = .next (s'.after m)) ∨
    (∃ t, cWord m reads writes k s = .next (s.preciseTrap t)) ∨
    ∃ f, k s = .freeze f ∧
      cWord m reads writes k s = .next { s.modCur (fun c => { c with freeze := some f }) with issue := .stalled } := by
  cases h : s.checkRegs reads writes with
  | some t => exact .inr (.inl ⟨t, cWord_fault h⟩)
  | none =>
    have hr := s.ready_of_checkRegs h
    cases hk : k s with
    | ok s' => exact .inl ⟨s', rfl, cWord_ok hr hk⟩
    | trap t => exact .inr (.inl ⟨t, cWord_trap hr hk⟩)
    | freeze f => exact .inr (.inr ⟨f, rfl, cWord_freeze hr hk⟩)

end Sys2Proof.Machine
end

