-- ==== Sys2Proof/Laws/Access.lean ====
section
/-! SUPPORT. When an access is performed: the checks of 04 R81 and R98 answer nothing on the addresses that State.InFrame and
State.IsFar describe; and the two steps that every mesh message and every host command share. -/

namespace Sys2Proof.Machine

/-- A word that reads and writes no register meets no register fault. -/
theorem State.ready_nil (s : State) : s.Ready [] [] := ⟨by simp, by simp⟩

/-- An address of the slice's own frame is its offset (04 R80). -/
theorem parseAddr_local {a : Word} {off : Nat} (h : parseAddr a = .local' off) : a.toNat = off ∧ off < 2 ^ 22 := by
  unfold parseAddr at h
  dsimp only at h
  split at h
  · split at h
    · next hx => injection h with h; omega
    · cases h
  all_goals first | (split at h <;> cases h) | cases h

/-- The checks of 04 R81 pass on an access that finds its frame. -/
theorem State.checkAccess_inFrame {s : State} {a : Word} {off n al : Nat} {st : Bool} {r : Reach} (hr : r ≠ .far)
    (h : s.InFrame a off n al st) : s.checkAccess r a n al = none := by
  obtain ⟨hp, ha, hf, hs, -⟩ := h
  have hacc : r.accepts (.local' off) = true := by cases r <;> simp_all [Reach.accepts]
  have hi : s.sl.fid.isNone = false := by cases hh : s.sl.fid <;> simp_all
  have hd : decide (s.sl.fsize < off + n) = false := decide_eq_false (by omega)
  unfold State.checkAccess
  simp only [hp, hacc, ha, hi, hd]
  rfl

/-- Both checks of an access pass where it finds its frame and no range lock refuses it. -/
theorem State.checkMem_inFrame {s : State} {a : Word} {off n al : Nat} {st : Bool} {r : Reach} (hr : r ≠ .far)
    (h : s.InFrame a off n al st) : s.checkMem r a n al st = none := by
  have h1 := State.checkAccess_inFrame hr h
  obtain ⟨hp, -, -, -, hl⟩ := h
  unfold State.checkMem State.checkLocks State.checkLock
  simp only [h1, hp]
  rw [hl]

/-- Both checks pass on a peer or HBM address that may leave the core. -/
theorem State.checkMem_far {s : State} {a : Word} {n al : Nat} {st : Bool} {r : Reach} (hr : r ≠ .near) (h : s.IsFar a n al st) :
    s.checkMem r a n al st = none := by
  obtain ⟨ha, h | ⟨va, hp⟩⟩ := h
  · obtain ⟨lidx, fid, off, hp, hf, hl⟩ := h
    have hacc : r.accepts (.peer lidx fid off) = true := by cases r <;> simp_all [Reach.accepts]
    have : (decide (fid = 255) && s.sl.fid.isNone) = false := by
      by_cases h : fid = 255
      · have := hf h
        cases hh : s.sl.fid <;> simp_all
      · simp [h]
    have hk : s.checkLocks a n st = none := by
      unfold State.checkLocks
      rw [hp]
      show (s.ownPeer lidx fid off).bind (fun p => s.checkLock a p n st) = none
      cases ho : s.ownPeer lidx fid off with
      | none => rfl
      | some p =>
        show s.checkLock a p n st = none
        unfold State.checkLock
        rw [hl p ho]
    simp [State.checkMem, State.checkAccess, hp, hacc, ha, this, hk]
  · have hacc : r.accepts (.hbm va) = true := by cases r <;> simp_all [Reach.accepts]
    simp [State.checkMem, State.checkAccess, State.checkLocks, hp, hacc, ha]

/-- A message in sequence is accepted and acted on (11 R247). -/
theorem State.arrive_next {s : State} {p : Packet} {act : State → State} (h : p.seq = lookupSeq s.rxSeq p.key) :
    s.arrive p act = act (s.accepted p) := by
  unfold State.arrive State.accepted
  dsimp only
  rw [if_pos h]

/-- A command that its session may run now, in a state its territory allows, answers what its own part answers (16 R296). -/
theorem State.runCmd_allowed {s : State} {h : Hdr} {code : Nat} {st : State → Bool} {nt : Bool} {k : State → CmdRes}
    (hm : s.MayRun h) (hs : st s = true) (ht : nt = true → (s.ownTerr h).isSome = true) :
    s.runCmd h code st nt k = match k s with
      | .bad st => .next (s.respond h code st .empty)
      | .done s' b => .next (s'.ran h code b)
      | .later s' f => .next (f (s'.accept h true)) := by
  obtain ⟨x, h1, h2, h3, h4, h5, h6⟩ := hm
  have h7 : (nt && (s.ownTerr h).isNone) = false := by
    cases nt
    · rfl
    · have := ht rfl
      cases hh : s.ownTerr h <;> simp_all
  unfold State.runCmd
  rw [h1]
  simp only [h2, h3, h4, h5, h6, hs, h7, State.ran]
  cases k s <;> simp

end Sys2Proof.Machine
end

