-- ==== Sys2Proof/Laws/Canonical.lean ====
section
/-! SUPPORT. For every operation on states that the meanings share: it leaves memory as it is (`_mem`), or keeps its canonical form
(`_wf`). No proof about memory needs to unfold one of them. -/

namespace Sys2Proof.Machine

open Sys2Proof

/-- A fold of steps none of which changes memory. -/
@[simp] theorem State.foldl_mem {α : Type} (f : State → α → State) (l : List α) (s : State) (h : ∀ s x, (f s x).mem = s.mem) : (l.foldl f s).mem = s.mem := by
  induction l generalizing s with
  | nil => rfl
  | cons a r ih => simp [ih, h]
/-- A fold of steps each of which keeps the canonical form. -/
@[simp] theorem State.foldl_wf {α : Type} (f : State → α → State) (l : List α) (s : State) (h : ∀ s x, Memory.wf s.mem = true → Memory.wf (f s x).mem = true) (hs : Memory.wf s.mem = true) :
    Memory.wf (l.foldl f s).mem = true := by
  induction l generalizing s with
  | nil => exact hs
  | cons a r ih => exact ih _ (h _ _ hs)
@[simp] theorem State.setBytes_wf (s : State) (k : Nat) (bs : List Byte) (h : Memory.wf s.mem = true) : Memory.wf (s.setBytes k bs).mem = true :=
  Memory.wf_writeBytes h
@[simp] theorem State.setFrame_wf (s : State) (k : Nat) (bs : List Byte) (h : Memory.wf s.mem = true) : Memory.wf (s.setFrame k bs).mem = true :=
  Memory.wf_writeBytes h
@[simp] theorem State.clear_wf (s : State) (k n : Nat) (h : Memory.wf s.mem = true) : Memory.wf (s.clear k n).mem = true :=
  Memory.wf_clearBytes h

/-! ### Shared operations -/

@[simp] theorem State.modCore_mem (s : State) (x1 : CoreId) (x2 : Core → Core) : (s.modCore x1 x2).mem = s.mem := by
  unfold State.modCore
  rfl

@[simp] theorem State.modCur_mem (s : State) (x1 : Core → Core) : (s.modCur x1).mem = s.mem := by
  unfold State.modCur
  rfl

@[simp] theorem State.modTile_mem (s : State) (x1 : TileId) (x2 : Tile → Tile) : (s.modTile x1 x2).mem = s.mem := by
  unfold State.modTile
  rfl

@[simp] theorem State.modSlice_mem (s : State) (x1 : Nat) (x2 : Slice → Slice) : (s.modSlice x1 x2).mem = s.mem := by
  unfold State.modSlice
  rfl

@[simp] theorem State.modTerr_mem (s : State) (x1 : Nat) (x2 : Terr → Terr) : (s.modTerr x1 x2).mem = s.mem := by
  unfold State.modTerr
  rfl

@[simp] theorem State.modOwn_mem (s : State) (x1 : Who) (x2 : Core → Core) : (s.modOwn x1 x2).mem = s.mem := by
  unfold State.modOwn
  (repeat' split) <;> simp

@[simp] theorem State.landAt_mem (s : State) (x1 : Wr) (x2 : Nat) (x3 : BitVec 6) : (s.landAt x1 x2 x3).mem = s.mem := by
  unfold State.landAt
  rfl

@[simp] theorem State.pendOn_mem (s : State) (x1 : Nat) (x2 : Option RegId) : (s.pendOn x1 x2).mem = s.mem := by
  unfold State.pendOn
  rfl

@[simp] theorem State.freePosted_mem (s : State) (x1 : Slice) : (s.freePosted x1).mem = s.mem := by
  unfold State.freePosted
  (repeat' split) <;> simp

@[simp] theorem State.cutCopies_mem (s : State) (x1 : Nat) : (s.cutCopies x1).mem = s.mem := by
  unfold State.cutCopies
  rfl

@[simp] theorem State.freeMatrixLocks_mem (s : State) (x1 : TileId) (x2 : List CoreId) : (s.freeMatrixLocks x1 x2).mem = s.mem := by
  unfold State.freeMatrixLocks
  rfl

@[simp] theorem State.cutEngines_mem (s : State) (x1 : Slice) (x2 : EndHow) : (s.cutEngines x1 x2).mem = s.mem := by
  unfold State.cutEngines
  (repeat' split) <;> simp

@[simp] theorem State.stopSlice_mem (s : State) (x1 : Nat) (x2 : EndHow) : (s.stopSlice x1 x2).mem = s.mem := by
  unfold State.stopSlice
  simp

@[simp] theorem State.trapGang_mem (s : State) (x1 : List CoreId) (x2 : List (CoreId × TrapRec)) (x3 : Word) : (s.trapGang x1 x2 x3).mem = s.mem := by
  unfold State.trapGang
  dsimp only
  (repeat' split) <;> simp

@[simp] theorem State.preciseTrap_mem (s : State) (x1 : TrapRec) : (s.preciseTrap x1).mem = s.mem := by
  unfold State.preciseTrap
  simp

@[simp] theorem State.mark_mem (s : State) (x1 : Bool) : (s.mark x1).mem = s.mem := by
  unfold State.mark
  (repeat' split) <;> simp

@[simp] theorem State.setXfer_mem (s : State) (x1 : Xfer) : (s.setXfer x1).mem = s.mem := by
  unfold State.setXfer
  (repeat' split) <;> simp

/-! ### The mesh -/

@[simp] theorem State.modSession_mem (s : State) (x1 : Nat) (x2 : Session → Session) : (s.modSession x1 x2).mem = s.mem := by
  unfold State.modSession
  rfl

@[simp] theorem State.bump_mem (s : State) (x1 : TileId) (x2 : Fin 16) : (s.bump x1 x2).mem = s.mem := by
  unfold State.bump
  (repeat' split) <;> simp

@[simp] theorem State.send_mem (s : State) (x1 : Nat) (x2 : Nat) (x3 : Nat) (x4 : Option Who) (x5 : Nat) (x6 : Msg) : (s.send x1 x2 x3 x4 x5 x6).mem = s.mem := by
  unfold State.send
  rfl

@[simp] theorem State.addOut_mem (s : State) (x1 : Who) (x2 : Nat) : (s.addOut x1 x2).mem = s.mem := by
  unfold State.addOut
  simp

@[simp] theorem State.doneOut_mem (s : State) (x1 : Who) (x2 : Nat) : (s.doneOut x1 x2).mem = s.mem := by
  unfold State.doneOut
  simp

@[simp] theorem State.takePacket_mem (s : State) (x1 : Nat) : (s.takePacket x1).mem = s.mem := by
  unfold State.takePacket
  rfl

@[simp] theorem State.sendAck_mem (s : State) (x1 : Packet) : (s.sendAck x1).mem = s.mem := by
  unfold State.sendAck
  rfl

@[simp] theorem State.bumpNode_mem (s : State) (x1 : Nat) (x2 : Fin 16) : (s.bumpNode x1 x2).mem = s.mem := by
  unfold State.bumpNode
  (repeat' split) <;> simp

@[simp] theorem State.forget_mem (s : State) (x1 : Nat) : (s.forget x1).mem = s.mem := by
  unfold State.forget
  rfl

@[simp] theorem State.resend_mem (s : State) (x1 : Nat × Nat × Nat) : (s.resend x1).mem = s.mem := by
  unfold State.resend
  simp

@[simp] theorem State.markDirty_mem (s : State) (x1 : Nat) (x2 : Nat) : (s.markDirty x1 x2).mem = s.mem := by
  unfold State.markDirty
  rfl

@[simp] theorem State.refuseNow_mem (s : State) (x1 : Who) (x2 : Nat) (x3 : TrapRec) (x4 : Bool) : (s.refuseNow x1 x2 x3 x4).mem = s.mem := by
  unfold State.refuseNow
  simp

@[simp] theorem State.noReplay_mem (s : State) : (s.noReplay).mem = s.mem := by
  unfold State.noReplay
  (repeat' split) <;> simp

@[simp] theorem State.farAccess_mem (s : State) (x1 : Word) (x2 : Bool) (x3 : Option RegId) (x4 : Place → Msg) : (s.farAccess x1 x2 x3 x4).mem = s.mem := by
  unfold State.farAccess
  dsimp only
  (repeat' split) <;> simp

/-! ### Memory words and requests -/

@[simp] theorem State.setAcc_mem (s : State) (x1 : LocalAcc) : (s.setAcc x1).mem = s.mem := by
  unfold State.setAcc
  rfl

@[simp] theorem State.inFlight_mem (s : State) (x1 : CoreId) (x2 : Wr) (x3 : Nat) (x4 : BitVec 6) : (s.inFlight x1 x2 x3 x4).mem = s.mem := by
  unfold State.inFlight
  rfl

@[simp] theorem State.reach_wf (s : State) (x1 : CoreId) (x2 : Nat) (x3 : LocalAcc) (h : Memory.wf s.mem = true) : Memory.wf (s.reach x1 x2 x3).mem = true := by
  cases x3 with
  | store ws => exact State.foldl_wf _ _ _ (fun _ _ hs => State.setBytes_wf _ _ _ hs) h
  | atom k d op ty x cmp => simpa [State.reach] using State.setBytes_wf s k _ h
  | _ => simpa [State.reach] using h

@[simp] theorem State.performFrom_wf (s : State) (x1 : Nat) (x2 : CoreId) (h : Memory.wf s.mem = true) : Memory.wf (s.performFrom x1 x2).mem = true :=
  State.foldl_wf _ _ _ (fun _ _ hs => State.reach_wf _ _ _ _ hs) (by simpa using h)

@[simp] theorem State.performAcc_wf (s : State) (x1 : CoreId) (h : Memory.wf s.mem = true) : Memory.wf (s.performAcc x1).mem = true := by
  unfold State.performAcc
  split
  · exact h
  · exact State.reach_wf _ _ _ _ (by simpa using h)

@[simp] theorem State.performOld_wf (s : State) (x1 : Core → Nat) (x2 : List CoreId) (h : Memory.wf s.mem = true) : Memory.wf (s.performOld x1 x2).mem = true :=
  State.foldl_wf _ _ _ (fun _ _ hs => State.foldl_wf _ _ _ (fun _ _ ht => by split <;> simp [ht]) hs) h

@[simp] theorem State.performAccs_wf (s : State) (x1 : List CoreId) (h : Memory.wf s.mem = true) : Memory.wf (s.performAccs x1).mem = true :=
  State.performOld_wf _ _ _ h

@[simp] theorem State.performFor_wf (s : State) (x1 : List CoreId) (x2 : BitVec 64) (h : Memory.wf s.mem = true) : Memory.wf (s.performFor x1 x2).mem = true := by
  unfold State.performFor
  split <;> simp [h]

@[simp] theorem State.parkOn_mem (s : State) (x1 : ParkWhy) : (s.parkOn x1).mem = s.mem := by
  unfold State.parkOn
  rfl

@[simp] theorem State.pendNow_mem (s : State) (x1 : Option RegId) (x2 : Wr) : (s.pendNow x1 x2).mem = s.mem := by
  unfold State.pendNow
  rfl

@[simp] theorem State.storeAny_mem (s : State) (x1 : Word) (x2 : List Byte) : (s.storeAny x1 x2).mem = s.mem := by
  unfold State.storeAny
  (repeat' split) <;> simp

@[simp] theorem State.waitFirst_mem (s : State) (x1 : ParkWhy) : (s.waitFirst x1).mem = s.mem := by
  unfold State.waitFirst
  rfl

@[simp] theorem State.answer_mem (s : State) (x1 : Packet) (x2 : Msg) : (s.answer x1 x2).mem = s.mem := by
  unfold State.answer
  rfl

@[simp] theorem State.dropVote_mem (s : State) (x1 : Nat) (x2 : Nat) : (s.dropVote x1 x2).mem = s.mem := by
  unfold State.dropVote
  (repeat' split) <;> simp

/-! ### The measurement chain -/

@[simp] theorem State.evCode_mem (s : State) (x1 : Nat) (x2 : CodeBody) : (s.evCode x1 x2).mem = s.mem := by
  unfold State.evCode
  rfl

@[simp] theorem State.evArgs_mem (s : State) (x1 : Nat) (x2 : List Byte) : (s.evArgs x1 x2).mem = s.mem := by
  unfold State.evArgs
  rfl

@[simp] theorem State.evShape_mem (s : State) (x1 : Nat) : (s.evShape x1).mem = s.mem := by
  unfold State.evShape
  rfl

@[simp] theorem State.evResult_mem (s : State) (x1 : Nat) (x2 : Except TrapRec (List Byte)) : (s.evResult x1 x2).mem = s.mem := by
  unfold State.evResult
  (repeat' split) <;> simp

/-! ### Messages and chains -/

@[simp] theorem State.sendMsg_mem (s : State) (x1 : Nat) (x2 : Nat) (x3 : BitVec 16) (x4 : List Byte) : (s.sendMsg x1 x2 x3 x4).mem = s.mem := by
  unfold State.sendMsg
  dsimp only
  (repeat' split) <;> simp

@[simp] theorem State.startFill_mem (s : State) (x1 : TileId) (x2 : Fill) : (s.startFill x1 x2).mem = s.mem := by
  unfold State.startFill
  rfl

@[simp] theorem State.writeFill_wf (s : State) (x1 : Nat) (x2 : Fill) (x3 : List Nat) (h : Memory.wf s.mem = true) :
    Memory.wf (s.writeFill x1 x2 x3).mem = true :=
  State.foldl_wf _ _ _ (fun _ _ hs => State.setBytes_wf _ _ _ hs) h

@[simp] theorem State.fillStep_wf (s : State) (x1 : TileId) (x2 : Nat) (h : Memory.wf s.mem = true) : Memory.wf (s.fillStep x1 x2).mem = true := by
  unfold State.fillStep
  dsimp only
  (repeat' split) <;> simp [h]

@[simp] theorem State.postRecv_wf (s : State) (x1 : Reg) (x2 : Nat) (x3 : Nat) (x4 : Word) (h : Memory.wf s.mem = true) : Memory.wf (s.postRecv x1 x2 x3 x4).mem = true := by
  unfold State.postRecv
  dsimp only
  (repeat' split) <;> simp [h]

@[simp] theorem State.causeLeader_mem (s : State) (x1 : Nat) (x2 : TrapRec) : (s.causeLeader x1 x2).mem = s.mem := by
  unfold State.causeLeader
  simp

@[simp] theorem State.matchArrival_wf (s : State) (x1 : TileId) (x2 : Slice) (x3 : Nat) (x4 : BitVec 16) (x5 : List Byte) (h : Memory.wf s.mem = true) : Memory.wf (s.matchArrival x1 x2 x3 x4 x5).mem = true := by
  unfold State.matchArrival
  dsimp only
  (repeat' split) <;> simp [h]

@[simp] theorem State.freeHops_mem (s : State) (x1 : Nat) (x2 : Nat) (x3 : Nat) (x4 : List (TileId × Nat)) : (s.freeHops x1 x2 x3 x4).mem = s.mem := by
  unfold State.freeHops
  simp

@[simp] theorem State.reserveAgain_mem (s : State) (x1 : Who) (x2 : Chain) : (s.reserveAgain x1 x2).mem = s.mem := by
  unfold State.reserveAgain
  dsimp only
  (repeat' split) <;> simp

@[simp] theorem State.askAgain_mem (s : State) (x1 : CoreId) : (s.askAgain x1).mem = s.mem := by
  unfold State.askAgain
  (repeat' split) <;> simp

@[simp] theorem State.chainDone_wf (s : State) (x1 : Who) (x2 : Slice) (x3 : TileId) (x4 : ChainAsk) (x5 : Bool) (h : Memory.wf s.mem = true) : Memory.wf (s.chainDone x1 x2 x3 x4 x5).mem = true := by
  unfold State.chainDone
  (repeat' split) <;> simp [h]

@[simp] theorem State.chainWrite_wf (s : State) (x1 : Nat) (x2 : List Byte) (h : Memory.wf s.mem = true) : Memory.wf (s.chainWrite x1 x2).mem = true := by
  unfold State.chainWrite
  simp [h]

@[simp] theorem State.payloadAt_wf (s : State) (x1 : Packet) (x2 : Who) (x3 : Chain) (x4 : Nat) (x5 : TileId) (x6 : Nat) (x7 : List Byte) (x8 : BitVec 32) (h : Memory.wf s.mem = true) : Memory.wf (s.payloadAt x1 x2 x3 x4 x5 x6 x7 x8).mem = true := by
  unfold State.payloadAt
  (repeat' split) <;> simp [h]

/-! ### Control words -/

@[simp] theorem State.transfer_mem (s : State) (x1 : XferKind) (x2 : Word) : (s.transfer x1 x2).mem = s.mem := by
  unfold State.transfer
  rfl

@[simp] theorem State.raiseAfter_mem (s : State) (x1 : BitVec 8) (x2 : BitVec 18) : (s.raiseAfter x1 x2).mem = s.mem := by
  unfold State.raiseAfter
  rfl

@[simp] theorem State.evacuate_mem (s : State) : (s.evacuate).mem = s.mem := by
  unfold State.evacuate
  (repeat' split) <;> simp

@[simp] theorem State.emulStore_wf (s : State) (x1 : Word) (x2 : Byte) (h : Memory.wf s.mem = true) :
    Memory.wf (s.emulStore x1 x2).mem = true := by
  unfold State.emulStore
  dsimp only
  (repeat' split) <;> simp [h]

@[simp] theorem State.emulate_wf (s : State) (x1 : Nat) (x2 : List (Nat × BitVec 1024)) (h : Memory.wf s.mem = true) :
    Memory.wf (s.emulate x1 x2).mem = true := by
  have h1 := State.foldl_wf (fun s w => State.landAt s w 1 0) (x2.map emulatedWr ++ (Config.emulatedSys x1).map emulatedSysWr) s
    (fun _ _ hs => by simpa using hs) h
  have h2 := State.foldl_wf (fun s (e : BitVec 64 × BitVec 8) => State.emulStore s e.1 e.2) (Config.emulatedStores x1) _
    (fun _ _ hs => State.emulStore_wf _ _ _ hs) h1
  unfold State.emulate
  dsimp only
  (repeat' split)
  all_goals exact h2

/-! ### Barriers and votes -/

@[simp] theorem State.modCores_mem (s : State) (x1 : List CoreId) (x2 : Core → Core) : (s.modCores x1 x2).mem = s.mem := by
  unfold State.modCores
  simp

@[simp] theorem State.modBar_mem (s : State) (x1 : TileId) (x2 : Bar) (x3 : Barrier → Barrier) : (s.modBar x1 x2 x3).mem = s.mem := by
  unfold State.modBar
  rfl

@[simp] theorem State.sendCtl_mem (s : State) (x1 : TileId) (x2 : TileId) (x3 : Nat) (x4 : Msg) : (s.sendCtl x1 x2 x3 x4).mem = s.mem := by
  unfold State.sendCtl
  rfl

@[simp] theorem State.barFree_mem (s : State) (x1 : TileId) (x2 : Nat) (x3 : Bar) : (s.barFree x1 x2 x3).mem = s.mem := by
  unfold State.barFree
  (repeat' split) <;> simp

@[simp] theorem State.passFail_mem (s : State) (x1 : TileId) (x2 : Nat) (x3 : Bar) (x4 : Option (BarCfg × TileId)) (x5 : List BarCfg) : (s.passFail x1 x2 x3 x4 x5).mem = s.mem :=
  State.foldl_mem _ _ _ (fun _ _ => State.foldl_mem _ _ _ (fun _ _ => by simp))

@[simp] theorem State.barFail_mem (s : State) (x1 : TileId) (x2 : Nat) (x3 : Bar) (x4 : Option (BarCfg × TileId)) : (s.barFail x1 x2 x3 x4).mem = s.mem := by
  unfold State.barFail
  dsimp only
  (repeat' split) <;> simp

@[simp] theorem State.barUpN_mem (n : Nat) (s : State) (x2 : TileId) (x3 : Nat) (x4 : Bar) : (State.barUpN n s x2 x3 x4).mem = s.mem := by
  induction n generalizing s with
  | zero => rfl
  | succ n ih =>
    unfold State.barUpN
    dsimp only
    (repeat' split) <;> simp [ih]

@[simp] theorem State.barUp_mem (s : State) (x1 : TileId) (x2 : Nat) (x3 : Bar) : (s.barUp x1 x2 x3).mem = s.mem := by
  unfold State.barUp
  simp

@[simp] theorem State.barCount_mem (s : State) (x1 : CoreId) (x2 : Bar) (x3 : Bool) : (s.barCount x1 x2 x3).mem = s.mem := by
  unfold State.barCount
  dsimp only
  (repeat' split) <;> simp

@[simp] theorem State.barReach_mem (s : State) (x1 : TileId) (x2 : Nat) (x3 : Bar) (x4 : BarCfg) (x5 : TileId) : (s.barReach x1 x2 x3 x4 x5).mem = s.mem := by
  unfold State.barReach
  dsimp only
  (repeat' split) <;> simp

@[simp] theorem State.barInvalidate_mem (s : State) (x1 : Nat) (x2 : TileId) : (s.barInvalidate x1 x2).mem = s.mem := by
  unfold State.barInvalidate
  dsimp only
  rw [State.foldl_mem _ _ _ (fun s t => State.foldl_mem _ _ _ (fun s id => by (try dsimp only); (repeat' split) <;> simp))]

@[simp] theorem State.voteDone_mem (s : State) (x1 : Nat) (x2 : Nat) : (s.voteDone x1 x2).mem = s.mem := by
  unfold State.voteDone
  (repeat' split) <;> simp

@[simp] theorem State.voteLeave_mem (s : State) (x1 : Nat) (x2 : TileId) : (s.voteLeave x1 x2).mem = s.mem := by
  unfold State.voteLeave
  simp

/-! ### Rings -/

@[simp] theorem State.modRing_mem (s : State) (x1 : Nat) (x2 : Nat) (x3 : RingSt → RingSt) : (s.modRing x1 x2 x3).mem = s.mem := by
  unfold State.modRing
  rfl

@[simp] theorem State.trapBack_mem (s : State) (x1 : CoreId) (x2 : Back) (x3 : TrapRec) : (s.trapBack x1 x2 x3).mem = s.mem := by
  unfold State.trapBack
  simp

@[simp] theorem State.markRun_mem (s : State) (x1 : Nat) (x2 : Nat) (x3 : Nat) : (s.markRun x1 x2 x3).mem = s.mem := by
  unfold State.markRun
  simp

@[simp] theorem State.ctlSend_mem (s : State) (x1 : Slice) (x2 : Sub) (x3 : Nat) (x4 : Msg) : (s.ctlSend x1 x2 x3 x4).mem = s.mem := by
  unfold State.ctlSend
  rfl

@[simp] theorem State.modSub_mem (s : State) (x1 : Nat) (x2 : Nat) (x3 : Sub → Sub) : (s.modSub x1 x2 x3).mem = s.mem := by
  unfold State.modSub
  rfl

@[simp] theorem State.sendSegs_mem (s : State) (x1 : Slice) (x2 : Nat) (x3 : Sub) (x4 : List Seg) : (s.sendSegs x1 x2 x3 x4).mem = s.mem := by
  unfold State.sendSegs
  simp

@[simp] theorem State.slotBack_mem (s : State) (x1 : Nat) (x2 : Nat) (x3 : Nat) (x4 : List Byte) : (s.slotBack x1 x2 x3 x4).mem = s.mem := by
  unfold State.slotBack
  (repeat' split) <;> simp

theorem State.hbmStores_wf (rs : List (Nat × Nat)) (p : State × List Byte) (h : Memory.wf p.1.mem = true) :
    Memory.wf ((rs.foldl (fun (acc : State × List Byte) r => (acc.1.setBytes r.1 (acc.2.take r.2), acc.2.drop r.2)) p).1).mem = true := by
  induction rs generalizing p with
  | nil => exact h
  | cons r rs ih => exact ih _ (State.setBytes_wf _ _ _ h)
/-- A write to HBM that answers a state keeps the canonical form. -/
theorem State.writeHbm_wf {s t : State} {terr va : Nat} {bs : List Byte} (e : s.writeHbm terr va bs = .ok t)
    (h : Memory.wf s.mem = true) : Memory.wf t.mem = true := by
  unfold State.writeHbm at e
  split at e
  · cases e
  · cases e
    simpa using State.hbmStores_wf _ (s, bs) h
@[simp] theorem State.performRow_wf (s : State) (x1 : Packet) (h : Memory.wf s.mem = true) : Memory.wf (s.performRow x1).mem = true := by
  unfold State.performRow
  (repeat' split) <;> simp [h]

/-! ### The copy engine -/

@[simp] theorem State.reuseTag_mem (s : State) (x1 : Fin 16) : (s.reuseTag x1).mem = s.mem := by
  unfold State.reuseTag
  (repeat' split) <;> simp

@[simp] theorem State.acceptCopy_mem (s : State) (x1 : Word) (x2 : Word) (x3 : Nat) (x4 : Fin 16) (x5 : Option Nat) : (s.acceptCopy x1 x2 x3 x4 x5).mem = s.mem := by
  unfold State.acceptCopy
  simp

@[simp] theorem State.modCopy_mem (s : State) (x1 : TileId) (x2 : Nat) (x3 : Copy → Copy) : (s.modCopy x1 x2 x3).mem = s.mem := by
  unfold State.modCopy
  rfl

@[simp] theorem State.beatWrite_wf (s : State) (x1 : TileId) (x2 : Copy) (x3 : Nat) (x4 : List Byte) (h : Memory.wf s.mem = true) : Memory.wf (s.beatWrite x1 x2 x3 x4).mem = true := by
  unfold State.beatWrite
  dsimp only
  (repeat' split) <;> simp [h]

@[simp] theorem State.freeSource_mem (s : State) (x1 : TileId) (x2 : Nat) : (s.freeSource x1 x2).mem = s.mem := by
  unfold State.freeSource
  (repeat' split) <;> simp

@[simp] theorem State.beatAsk_mem (s : State) (x1 : TileId) (x2 : Copy) : (s.beatAsk x1 x2).mem = s.mem := by
  unfold State.beatAsk
  simp

@[simp] theorem State.frontOut_wf (s : State) (x1 : TileId) (x2 : Copy) (h : Memory.wf s.mem = true) : Memory.wf (s.frontOut x1 x2).mem = true := by
  unfold State.frontOut
  dsimp only
  split <;> simp [h]

@[simp] theorem State.issueBeat_wf (s : State) (x1 : TileId) (x2 : Copy) (h : Memory.wf s.mem = true) : Memory.wf (s.issueBeat x1 x2).mem = true := by
  unfold State.issueBeat
  dsimp only
  split <;> simp [h]

@[simp] theorem State.endCopy_mem (s : State) (x1 : TileId) (x2 : Copy) (x3 : Tag) : (s.endCopy x1 x2 x3).mem = s.mem := by
  unfold State.endCopy
  (repeat' split) <;> simp

@[simp] theorem State.settleCopy_mem (s : State) (x1 : TileId) (x2 : Copy) : (s.settleCopy x1 x2).mem = s.mem := by
  unfold State.settleCopy
  (repeat' split) <;> simp

/-! ### The matrix unit -/

@[simp] theorem State.queueEntry_mem (s : State) (x1 : MKind) (x2 : Fin 8) (x3 : BitVec 16) (x4 : Bool) (x5 : Bool) (x6 : Option (Nat × Nat × Bool)) : (s.queueEntry x1 x2 x3 x4 x5 x6).mem = s.mem := by
  unfold State.queueEntry
  rfl

@[simp] theorem State.queueMmul_mem (s : State) (x1 : Word) (x2 : Fin 8) (x3 : BitVec 16) (x4 : Fin 2) (x5 : AFmt) (x6 : Bool) (x7 : Nat) (x8 : Word) (x9 : Bool) : (s.queueMmul x1 x2 x3 x4 x5 x6 x7 x8 x9).mem = s.mem := by
  unfold State.queueMmul
  rfl

@[simp] theorem State.startCopym_mem (s : State) (x1 : CopymRec) (x2 : Fin 16) : (s.startCopym x1 x2).mem = s.mem := by
  unfold State.startCopym
  simp

@[simp] theorem State.readNext_mem (s : State) (x1 : CoreId) (x2 : MEntry) : (s.readNext x1 x2).mem = s.mem := by
  unfold State.readNext
  dsimp only
  (repeat' split) <;> simp

@[simp] theorem State.askPiece_mem (s : State) (x1 : CoreId) (x2 : MEntry) (x3 : Seg) : (s.askPiece x1 x2 x3).mem = s.mem := by
  unfold State.askPiece
  simp

@[simp] theorem State.goOn_mem (s : State) (x1 : CoreId) (x2 : MEntry) : (s.goOn x1 x2).mem = s.mem := by
  unfold State.goOn
  split <;> simp

@[simp] theorem State.startEntry_mem (s : State) (x1 : CoreId) (x2 : MEntry) : (s.startEntry x1 x2).mem = s.mem := by
  unfold State.startEntry
  dsimp only
  (repeat' split) <;> simp

@[simp] theorem State.loadBank_mem (s : State) (x1 : CoreId) (x2 : Fin 2) (x3 : WFmt) (x4 : Word) (x5 : List Seg) (x6 : Option (Nat × TrapRec)) : (s.loadBank x1 x2 x3 x4 x5 x6).mem = s.mem := by
  unfold State.loadBank
  dsimp only
  (repeat' split) <;> simp

@[simp] theorem State.completeEntry_wf (s : State) (x1 : CoreId) (x2 : MEntry) (h : Memory.wf s.mem = true) : Memory.wf (s.completeEntry x1 x2).mem = true := by
  unfold State.completeEntry
  (repeat' split) <;> simp [h]

/-! ### The Orrery -/

@[simp] theorem State.modOrr_mem (s : State) (x1 : CoreId) (x2 : Orrery → Orrery) : (s.modOrr x1 x2).mem = s.mem := by
  unfold State.modOrr
  rfl

@[simp] theorem State.chooseLate_mem (s : State) (x1 : CoreId) : (s.chooseLate x1).mem = s.mem := by
  unfold State.chooseLate
  (repeat' split) <;> simp

@[simp] theorem State.tapHand_mem (s : State) (x1 : CoreId) (x2 : Fin 16) : (s.tapHand x1 x2).mem = s.mem := by
  unfold State.tapHand
  rfl

@[simp] theorem State.tapFlush_wf (s : State) (x1 : CoreId) (x2 : Fin 16) (h : Memory.wf s.mem = true) : Memory.wf (s.tapFlush x1 x2).mem = true := by
  unfold State.tapFlush
  dsimp only
  (repeat' split) <;> simp [h]

@[simp] theorem State.haltDom_wf (s : State) (x1 : CoreId) (x2 : Fin 4) (h : Memory.wf s.mem = true) :
    Memory.wf (s.haltDom x1 x2).mem = true := by
  unfold State.haltDom
  dsimp only
  split
  · exact State.foldl_wf _ _ _ (fun _ _ hs => by (try dsimp only); split <;> simp [hs]) (by simpa using h)
  · exact h

@[simp] theorem State.stopDoms_mem (s : State) (x1 : CoreId) : (s.stopDoms x1).mem = s.mem := by
  unfold State.stopDoms
  rfl

@[simp] theorem State.haltDoms_wf (s : State) (x1 : CoreId) (x2 : List (Fin 4)) (h : Memory.wf s.mem = true) :
    Memory.wf (s.haltDoms x1 x2).mem = true :=
  State.foldl_wf _ _ _ (fun _ _ hs => State.haltDom_wf _ _ _ hs) h

@[simp] theorem State.setTap_wf (s : State) (x1 : Fin 16) (x2 : Tap) (h : Memory.wf s.mem = true) : Memory.wf (s.setTap x1 x2).mem = true := by
  unfold State.setTap
  dsimp only
  (repeat' split) <;> simp [h]

@[simp] theorem State.portTake_mem (s : State) (x1 : CoreId) (x2 : Fin 16) : (s.portTake x1 x2).mem = s.mem := by
  unfold State.portTake
  dsimp only
  (repeat' split) <;> simp

@[simp] theorem State.tapAct_wf (s : State) (x1 : CoreId) (x2 : Fin 16) (x3 : Nat → ℤ) (h : Memory.wf s.mem = true) : Memory.wf (s.tapAct x1 x2 x3).mem = true := by
  unfold State.tapAct
  dsimp only
  (repeat' split) <;> simp [h]

@[simp] theorem State.causeFor_mem (s : State) (x1 : CoreId) (x2 : TrapRec) : (s.causeFor x1 x2).mem = s.mem := by
  unfold State.causeFor
  rfl

@[simp] theorem State.overrun_wf (s : State) (x1 : CoreId) (x2 : Over) (h : Memory.wf s.mem = true) : Memory.wf (s.overrun x1 x2).mem = true := by
  unfold State.overrun
  simp [h]

@[simp] theorem State.orrStep_wf (s : State) (x1 : CoreId) (x2 : List (Fin 4)) (h : Memory.wf s.mem = true) :
    Memory.wf (s.orrStep x1 x2).mem = true := by
  unfold State.orrStep
  dsimp only
  split
  · exact State.overrun_wf _ _ _ h
  · rw [State.modOrr_mem]
    refine State.foldl_wf _ _ _ (fun s k hs => ?_) ?_
    · split
      · exact State.tapAct_wf _ _ _ _ hs
      · exact hs
    · simp [h]

@[simp] theorem State.afterTick_mem (s : State) (x1 : CoreId) : (s.afterTick x1).mem = s.mem := by
  unfold State.afterTick
  dsimp only
  (repeat' split) <;> simp

@[simp] theorem State.settleTick_mem (s : State) (x1 : CoreId) : (s.settleTick x1).mem = s.mem := by
  unfold State.settleTick
  (repeat' split) <;> simp

@[simp] theorem State.orrTick_wf (s : State) (x1 : CoreId) (h : Memory.wf s.mem = true) : Memory.wf (s.orrTick x1).mem = true := by
  unfold State.orrTick
  dsimp only
  (repeat' split) <;> simp [h]

@[simp] theorem State.orrPark_mem (s : State) (x1 : Nat) (x2 : Bool) : (s.orrPark x1 x2).mem = s.mem := by
  unfold State.orrPark
  rfl

/-! ### Slices -/

@[simp] theorem State.newArrival_mem (s : State) (x1 : Nat) : (s.newArrival x1).mem = s.mem := by
  unfold State.newArrival
  rfl

@[simp] theorem State.giveFrame_mem (s : State) (x1 : Nat) (x2 : TileId) : (s.giveFrame x1 x2).mem = s.mem := by
  unfold State.giveFrame
  dsimp only
  (repeat' split) <;> simp

@[simp] theorem State.place_mem (s : State) (x1 : Nat) (x2 : TileId) : (s.place x1 x2).mem = s.mem := by
  unfold State.place
  simp

@[simp] theorem State.rehome_mem (s : State) (x1 : Nat) (x2 : TileId) : (s.rehome x1 x2).mem = s.mem := by
  unfold State.rehome
  dsimp only
  (repeat' split) <;> simp

@[simp] theorem State.causeAll_mem (s : State) (x1 : Slice) (x2 : TrapRec) : (s.causeAll x1 x2).mem = s.mem := by
  unfold State.causeAll
  simp

@[simp] theorem State.upcallAt_mem (s : State) (x1 : TileId) (x2 : TrapRec) : (s.upcallAt x1 x2).mem = s.mem := by
  unfold State.upcallAt
  (repeat' split) <;> simp

@[simp] theorem State.sendUpcall_mem (s : State) (x1 : TileId) (x2 : Nat) (x3 : TrapRec) : (s.sendUpcall x1 x2 x3).mem = s.mem := by
  unfold State.sendUpcall
  rfl

@[simp] theorem State.startOn_wf (s : State) (x1 : Slice) (x2 : Nat) (x3 : TileId) (x4 : List CoreId) (h : Memory.wf s.mem = true) :
    Memory.wf (s.startOn x1 x2 x3 x4).mem = true := by
  unfold State.startOn
  exact State.foldl_wf _ _ _ (fun _ _ hs => by (try dsimp only); split <;> simp [hs]) h

@[simp] theorem State.giveUpcalls_mem (s : State) (x1 : TileId) (x2 : Nat) : (s.giveUpcalls x1 x2).mem = s.mem := by
  unfold State.giveUpcalls
  simp

@[simp] theorem State.modLaunch_mem (s : State) (x1 : Nat) (x2 : Launch → Launch) : (s.modLaunch x1 x2).mem = s.mem := by
  unfold State.modLaunch
  rfl

@[simp] theorem State.addSlice_mem (s : State) (x1 : Slice) : (s.addSlice x1).mem = s.mem := by
  unfold State.addSlice
  rfl

@[simp] theorem State.noteEnd_mem (s : State) (x1 : Slice) : (s.noteEnd x1).mem = s.mem := by
  unfold State.noteEnd
  rfl

@[simp] theorem State.dropSlice_mem (s : State) (x1 : Slice) : (s.dropSlice x1).mem = s.mem := by
  unfold State.dropSlice
  rfl

@[simp] theorem State.dropMessages_mem (s : State) (x1 : Slice) (x2 : TileId) : (s.dropMessages x1 x2).mem = s.mem := by
  unfold State.dropMessages
  simp

@[simp] theorem State.dropChains_mem (s : State) (x1 : Slice) (x2 : TileId) : (s.dropChains x1 x2).mem = s.mem := by
  unfold State.dropChains
  exact State.foldl_mem _ _ _ (fun _ _ => by (try dsimp only); split <;> simp)

@[simp] theorem State.release_mem (s : State) (x1 : Slice) (x2 : TileId) : (s.release x1 x2).mem = s.mem := by
  unfold State.release
  simp

@[simp] theorem State.requeue_mem (s : State) (x1 : Slice) (x2 : TileId) : (s.requeue x1 x2).mem = s.mem := by
  unfold State.requeue
  (repeat' split) <;> simp

@[simp] theorem State.returnGrant_mem (s : State) (x1 : TileId) (x2 : Nat) (x3 : Bool) (x4 : Nat) : (s.returnGrant x1 x2 x3 x4).mem = s.mem := by
  unfold State.returnGrant
  (repeat' split) <;> simp

@[simp] theorem State.returnGrants_mem (s : State) (x1 : TileId) (x2 : Claim) : (s.returnGrants x1 x2).mem = s.mem := by
  unfold State.returnGrants
  (repeat' split) <;> simp

@[simp] theorem State.abandon_mem (s : State) (x1 : TileId) : (s.abandon x1).mem = s.mem := by
  unfold State.abandon
  (repeat' split) <;> simp

@[simp] theorem State.clearTile_wf (s : State) (x1 : TileId) (h : Memory.wf s.mem = true) : Memory.wf (s.clearTile x1).mem = true := by
  unfold State.clearTile
  simp [h]

@[simp] theorem State.freeTile_mem (s : State) (x1 : TileId) : (s.freeTile x1).mem = s.mem := by
  unfold State.freeTile
  rfl

@[simp] theorem State.zeroPages_wf (s : State) (x1 : List Page) (h : Memory.wf s.mem = true) : Memory.wf (s.zeroPages x1).mem = true :=
  State.foldl_wf _ _ _ (fun _ _ hs => State.clear_wf _ _ _ hs) h

@[simp] theorem State.unmapAll_wf (s : State) (x1 : Nat) (h : Memory.wf s.mem = true) : Memory.wf (s.unmapAll x1).mem = true := by
  unfold State.unmapAll
  simp [h]

@[simp] theorem State.forceLaunches_mem (s : State) (x1 : Nat) (x2 : Nat) : (s.forceLaunches x1 x2).mem = s.mem := by
  unfold State.forceLaunches
  rfl

@[simp] theorem State.respond_mem (s : State) (x1 : Hdr) (x2 : Nat) (x3 : Nat) (x4 : Body) : (s.respond x1 x2 x3 x4).mem = s.mem := by
  unfold State.respond
  rfl

@[simp] theorem State.idle_mem (s : State) (x1 : Nat) : (s.idle x1).mem = s.mem := by
  unfold State.idle
  rfl

@[simp] theorem State.calmTiles_mem (s : State) (x1 : Nat) : (s.calmTiles x1).mem = s.mem :=
  State.foldl_mem _ _ _ (fun _ _ => by split <;> simp)

@[simp] theorem State.giveUp_mem (s : State) (x1 : Nat) : (s.giveUp x1).mem = s.mem := by
  unfold State.giveUp
  dsimp only
  (repeat' split) <;> simp

@[simp] theorem State.endIdle_mem (s : State) (x1 : Slice) (x2 : EndHow) : (s.endIdle x1 x2).mem = s.mem := by
  unfold State.endIdle
  rfl

@[simp] theorem State.endSlices_mem (s : State) (x1 : Nat) (x2 : EndHow) : (s.endSlices x1 x2).mem = s.mem := by
  unfold State.endSlices
  dsimp only
  rw [State.foldl_mem _ _ _ (fun _ _ => by (try dsimp only); (repeat' split) <;> simp)]
  simp

theorem State.zeroParts_wf (lo hi : Nat) (l : List Page) (s : State) (h : Memory.wf s.mem = true) : Memory.wf (l.foldl (fun s p =>
    let a := max lo (p.vpn * 2097152)
    let b := min hi ((p.vpn + 1) * 2097152)
    if a < b then s.clear (hbmKey (p.ppn * 2097152 + (a - p.vpn * 2097152))) (b - a) else s) s).mem = true := by
  refine State.foldl_wf _ _ _ (fun s p hs => ?_) h
  dsimp only
  split
  · exact State.clear_wf _ _ _ hs
  · exact hs
@[simp] theorem State.zeroWindow_wf (s : State) (x1 : Nat) (h : Memory.wf s.mem = true) : Memory.wf (s.zeroWindow x1).mem = true :=
  State.zeroParts_wf _ _ _ s h

@[simp] theorem State.stopped_mem (s : State) (x1 : Option Nat) : (s.stopped x1).mem = s.mem := by
  unfold State.stopped
  (repeat' split) <;> simp

@[simp] theorem State.abandonFor_mem (s : State) (x1 : Nat) (x2 : TileId) : (s.abandonFor x1 x2).mem = s.mem := by
  unfold State.abandonFor
  split <;> simp

@[simp] theorem State.dissolved_wf (s : State) (x1 : Terr) (x2 : Dying) (h : Memory.wf s.mem = true) : Memory.wf (s.dissolved x1 x2).mem = true := by
  unfold State.dissolved
  dsimp only
  have h1 := State.foldl_wf (fun s t => (State.clearTile s t).freeTile t) (s.members x1.id)
    ((allTiles.filter (fun t => (s.tiles[t]).joinsTo x1.id)).foldl (fun s t => s.modTile t Tile.orphan) s)
    (fun _ _ hs => by simp [hs]) (by simpa using h)
  have h2 := State.unmapAll_wf _ x1.id h1
  have h3 (z : State) : (allTiles.foldl (fun s t => s.abandonFor x1.id t) z).mem = z.mem :=
    State.foldl_mem _ _ _ (fun _ _ => State.abandonFor_mem _ _ _)
  simp only [State.stopped_mem]
  split
  · rw [State.idle_mem, State.respond_mem, h3]
    exact h2
  · rw [h3]
    exact h2

@[simp] theorem State.unlocked_wf (s : State) (x1 : Terr) (x2 : Dying) (h : Memory.wf s.mem = true) : Memory.wf (s.unlocked x1 x2).mem = true := by
  unfold State.unlocked
  dsimp only
  simp only [State.stopped_mem, State.modTerr_mem]
  exact State.zeroWindow_wf _ _ (State.foldl_wf _ _ _ (fun _ _ hs => State.clearTile_wf _ _ hs) h)

@[simp] theorem State.tryDissolve_wf (s : State) (x1 : Nat) (h : Memory.wf s.mem = true) : Memory.wf (s.tryDissolve x1).mem = true := by
  unfold State.tryDissolve
  (repeat' split) <;> simp [h]

@[simp] theorem State.sealDone_wf (s : State) (x1 : Slice) (x2 : Except TrapRec (List Byte)) (h : Memory.wf s.mem = true) : Memory.wf (s.sealDone x1 x2).mem = true := by
  unfold State.sealDone
  (repeat' split) <;> simp [h]

@[simp] theorem State.tryHalted_mem (s : State) (x1 : Nat) : (s.tryHalted x1).mem = s.mem := by
  unfold State.tryHalted
  (repeat' split) <;> simp

@[simp] theorem State.parkChain_mem (s : State) (x1 : TileId) (x2 : CoreId) : (s.parkChain x1 x2).mem = s.mem := by
  unfold State.parkChain
  (repeat' split) <;> simp

/-! ### Territories -/

@[simp] theorem State.askSizes_mem (s : State) (x1 : TileId) (x2 : Claim) : (s.askSizes x1 x2).mem = s.mem := by
  unfold State.askSizes
  (repeat' split) <;> simp

@[simp] theorem State.grantBack_mem (s : State) (x1 : TileId) (x2 : Nat) (x3 : Bool) (x4 : Bool) (x5 : Nat) : (s.grantBack x1 x2 x3 x4 x5).mem = s.mem := by
  unfold State.grantBack
  (repeat' split) <;> simp

@[simp] theorem State.leave_mem (s : State) (x1 : TileId) (x2 : Nat) (x3 : Option Nat) (x4 : Nat) : (s.leave x1 x2 x3 x4).mem = s.mem := by
  unfold State.leave
  simp

@[simp] theorem State.delSlice_mem (s : State) (x1 : Nat) : (s.delSlice x1).mem = s.mem := by
  unfold State.delSlice
  rfl

@[simp] theorem State.imageKeeps_mem (s : State) (x1 : TileId) (x2 : Cession) : (s.imageKeeps x1 x2).mem = s.mem := by
  unfold State.imageKeeps
  simp

@[simp] theorem State.join_mem (s : State) (x1 : TileId) (x2 : Nat) : (s.join x1 x2).mem = s.mem := by
  unfold State.join
  rfl

@[simp] theorem State.answerTo_mem (s : State) (x1 : TileId) (x2 : Nat) (x3 : Who × Nat × TileId) (x4 : AnswerKind) : (s.answerTo x1 x2 x3 x4).mem = s.mem := by
  unfold State.answerTo
  rfl

@[simp] theorem State.markClaim_mem (s : State) (x1 : TileId) (x2 : Nat) : (s.markClaim x1 x2).mem = s.mem := by
  unfold State.markClaim
  dsimp only
  (repeat' split) <;> simp

@[simp] theorem State.endFreezes_mem (s : State) (x1 : List (Who × Nat × TileId)) : (s.endFreezes x1).mem = s.mem := by
  unfold State.endFreezes
  simp

@[simp] theorem State.anchorOn_mem (s : State) (x1 : TileId) : (s.anchorOn x1).mem = s.mem := by
  unfold State.anchorOn
  simp

@[simp] theorem State.snapBack_wf (s : State) (x1 : TileId) (x2 : Who) (x3 : Nat) (x4 : Wr) (x5 : List Byte) (x6 : Nat) (h : Memory.wf s.mem = true) : Memory.wf (s.snapBack x1 x2 x3 x4 x5 x6).mem = true := by
  unfold State.snapBack
  dsimp only
  (repeat' split) <;> simp [h]

@[simp] theorem State.askHandler_mem (s : State) (x1 : Msg) : (s.askHandler x1).mem = s.mem := by
  unfold State.askHandler
  rfl

/-! ### Commands -/

@[simp] theorem State.accept_mem (s : State) (x1 : Hdr) (x2 : Bool) : (s.accept x1 x2).mem = s.mem := by
  unfold State.accept
  rfl

@[simp] theorem State.takePieces_mem (s : State) (x1 : List Page) : (s.takePieces x1).mem = s.mem := by
  unfold State.takePieces
  rfl

@[simp] theorem State.queueOrHold_mem (s : State) (x1 : Nat) (x2 : TileId) : (s.queueOrHold x1 x2).mem = s.mem := by
  unfold State.queueOrHold
  dsimp only
  (repeat' split) <;> simp

@[simp] theorem State.makeSlices_mem (s : State) (x1 : Hdr) (x2 : LaunchBody) (x3 : CodeObj) (x4 : Nat × Nat × Nat) (x5 : Option Nat) : (s.makeSlices x1 x2 x3 x4 x5).mem = s.mem := by
  unfold State.makeSlices
  simp

@[simp] theorem State.haltTerr_mem (s : State) (x1 : Nat) : (s.haltTerr x1).mem = s.mem := by
  unfold State.haltTerr
  simp

@[simp] theorem State.resumeCore_mem (s : State) (x1 : Bool) (x2 : CoreId) : (s.resumeCore x1 x2).mem = s.mem := by
  unfold State.resumeCore
  (repeat' split) <;> simp

@[simp] theorem State.cedeFresh_mem (s : State) (x1 : Nat) (x2 : TileId) : (s.cedeFresh x1 x2).mem = s.mem := by
  unfold State.cedeFresh
  (repeat' split) <;> simp

@[simp] theorem State.resumeTerr_mem (s : State) (x1 : Nat) : (s.resumeTerr x1).mem = s.mem := by
  unfold State.resumeTerr
  dsimp only
  rw [State.foldl_mem _ _ _ (fun _ _ => by simp), State.modTerr_mem, State.calmTiles_mem, State.foldl_mem _ _ _ (fun _ _ => State.cedeFresh_mem _ _ _)]

@[simp] theorem State.dbgSet_mem (s : State) (x1 : Slice) (x2 : Bool) (x3 : Nat) : (s.dbgSet x1 x2 x3).mem = s.mem := by
  unfold State.dbgSet
  simp

/-! ### Attestation -/

@[simp] theorem State.countReceipt_mem (s : State) : (s.countReceipt).mem = s.mem := by
  unfold State.countReceipt
  rfl

@[simp] theorem State.ifError_wf (s : State) (x1 : Nat) (h : Memory.wf s.mem = true) : Memory.wf (s.ifError x1).mem = true := by
  unfold State.ifError
  simp [h]

@[simp] theorem State.spdmSay_mem (s : State) (x1 : Nat) (x2 : Nat) (x3 : List Byte) : (s.spdmSay x1 x2 x3).mem = s.mem := by
  unfold State.spdmSay
  rfl

@[simp] theorem State.tick_mem (s : State) : (s.tick).mem = s.mem := by
  unfold State.tick
  rfl

@[simp] theorem State.tdispSay_mem (s : State) (x1 : Nat) (x2 : Nat) (x3 : Bool) (x4 : List Byte) : (s.tdispSay x1 x2 x3 x4).mem = s.mem := by
  unfold State.tdispSay
  rfl

@[simp] theorem State.lockIface_mem (s : State) (x1 : Terr) : (s.lockIface x1).mem = s.mem := by
  unfold State.lockIface
  rfl

@[simp] theorem State.endForUpdate_wf (s : State) (x1 : Nat) (h : Memory.wf s.mem = true) : Memory.wf (s.endForUpdate x1).mem = true := by
  unfold State.endForUpdate
  (repeat' split) <;> simp [h]

@[simp] theorem State.updated_wf (s : State) (h : Memory.wf s.mem = true) : Memory.wf s.updated.mem = true := by
  unfold State.updated
  split
  · exact h
  · rfl

/-! ### Images -/

@[simp] theorem State.putCells_wf (s : State) (x1 : Nat) (x2 : List (Nat × Byte)) (h : Memory.wf s.mem = true) :
    Memory.wf (s.putCells x1 x2).mem = true := by
  show Memory.wf (x2.foldl (fun m c => sset unlisted m (x1 + c.1) c.2) s.mem) = true
  obtain ⟨m, hm⟩ : ∃ m, m = s.mem := ⟨_, rfl⟩
  rw [← hm] at h ⊢
  clear hm
  induction x2 generalizing m with
  | nil => exact h
  | cons c r ih => exact ih _ (memWfFrom_sset h (by omega))

@[simp] theorem State.overwrite_mem (s : State) (x1 : Nat) (x2 : List Byte) : (s.overwrite x1 x2).mem = s.mem := by
  unfold State.overwrite
  rfl

@[simp] theorem State.zeroRecord_mem (s : State) (x1 : Nat) : (s.zeroRecord x1).mem = s.mem := by
  unfold State.zeroRecord
  rfl

@[simp] theorem State.commitImage_mem (s : State) (x1 : Image) : (s.commitImage x1).mem = s.mem := by
  unfold State.commitImage
  rfl

@[simp] theorem State.startStream_mem (s : State) (x1 : Nat) (x2 : Nat) (x3 : Nat) (x4 : Nat) (x5 : Nat) (x6 : Option Nat) : (s.startStream x1 x2 x3 x4 x5 x6).mem = s.mem := by
  unfold State.startStream
  rfl

@[simp] theorem State.endImaged_mem (s : State) (x1 : Image) : (s.endImaged x1).mem = s.mem := by
  unfold State.endImaged
  exact State.foldl_mem _ _ _ (fun _ _ => by (repeat' split) <;> simp)

@[simp] theorem State.finishSave_mem (s : State) (x1 : Nat) (x2 : Saving) (x3 : Image) : (s.finishSave x1 x2 x3).mem = s.mem := by
  unfold State.finishSave
  dsimp only
  split
  · split <;> simp only [State.startStream_mem, State.idle_mem, State.respond_mem] <;> (repeat' split) <;> simp
  · simp only [State.idle_mem, State.respond_mem]
    (repeat' split) <;> simp

@[simp] theorem State.beginSave_mem (s : State) (x1 : Saving) : (s.beginSave x1).mem = s.mem := by
  unfold State.beginSave
  rfl

@[simp] theorem State.putPages_wf (s : State) (x1 : Nat) (x2 : List (Nat × List (Nat × Byte))) (h : Memory.wf s.mem = true) :
    Memory.wf (s.putPages x1 x2).mem = true := by
  unfold State.putPages
  exact State.foldl_wf _ _ _ (fun _ _ hs => by (try dsimp only); split <;> simp [hs]) h

@[simp] theorem State.putSection_wf (s : State) (x1 : Moved) (x2 : Section) (h : Memory.wf s.mem = true) : Memory.wf (s.putSection x1 x2).mem = true := by
  unfold State.putSection
  simp [h]

@[simp] theorem State.cedeTo_mem (s : State) (x1 : Nat) (x2 : TileId) (x3 : Nat) : (s.cedeTo x1 x2 x3).mem = s.mem := by
  unfold State.cedeTo
  simp

@[simp] theorem State.restored_wf (s : State) (x1 : Hdr) (x2 : Image) (x3 : List (Nat × List (Nat × Byte))) (x4 : List TileId)
    (h : Memory.wf s.mem = true) : Memory.wf (s.restored x1 x2 x3 x4).mem = true := by
  have h2 (l : List (Nat × TileId)) (s1 : State) (h1 : s1.mem = s.mem) :
      Memory.wf (l.foldl (fun s e => s.cedeTo x1.terr e.2 e.1) s1).mem = true := by
    rw [State.foldl_mem _ _ _ (fun _ _ => State.cedeTo_mem _ _ _ _), h1]
    exact h
  have h3 (v : Moved) (l : List Section) (s2 : State) (hs : Memory.wf s2.mem = true) :
      Memory.wf (l.foldl (fun s x => s.putSection v x) s2).mem = true :=
    State.foldl_wf _ _ _ (fun _ _ hs => State.putSection_wf _ _ _ hs) hs
  unfold State.restored
  dsimp only
  split
  · rw [State.foldl_mem _ _ _ (fun _ _ => State.markClaim_mem _ _ _), State.modSession_mem]
    exact State.putPages_wf _ _ _ (h3 _ _ _ (h2 _ _ rfl))
  · rw [State.modSession_mem]
    exact State.putPages_wf _ _ _ (h3 _ _ _ (h2 _ _ rfl))

@[simp] theorem State.pxDone_mem (s : State) (x1 : Nat) (x2 : Nat) : (s.pxDone x1 x2).mem = s.mem := by
  unfold State.pxDone
  (repeat' split) <;> simp

@[simp] theorem State.pxAnswer_mem (s : State) (x1 : Nat) (x2 : PxIn) (x3 : Nat) : (s.pxAnswer x1 x2 x3).mem = s.mem := by
  unfold State.pxAnswer
  rfl

/-! ### The module -/

@[simp] theorem State.rmaSay_mem (s : State) (x1 : Nat) (x2 : Bool) (x3 : List Byte) : (s.rmaSay x1 x2 x3).mem = s.mem := by
  unfold State.rmaSay
  rfl

@[simp] theorem State.bumpDev_mem (s : State) (x1 : Fin 5) (x2 : Nat) : (s.bumpDev x1 x2).mem = s.mem := by
  unfold State.bumpDev
  rfl

@[simp] theorem State.startReading_mem (s : State) (x1 : Hdr) (x2 : Nat) (x3 : List Probe) : (s.startReading x1 x2 x3).mem = s.mem := by
  unfold State.startReading
  rfl

@[simp] theorem State.readPiece_mem (s : State) (x1 : Nat) (x2 : Nat) : (s.readPiece x1 x2).mem = s.mem := by
  unfold State.readPiece
  dsimp only
  (repeat' split) <;> simp

@[simp] theorem State.fence_mem (s : State) (x1 : TileId) : (s.fence x1).mem = s.mem := by
  unfold State.fence
  simp

@[simp] theorem State.hbmErrors_mem (s : State) (x1 : Nat) (x2 : Nat) (x3 : Nat) : (s.hbmErrors x1 x2 x3).mem = s.mem := by
  unfold State.hbmErrors
  simp

@[simp] theorem State.meetError_mem (s : State) : (s.meetError).mem = s.mem := by
  unfold State.meetError
  (repeat' split) <;> simp

@[simp] theorem State.stepDown_mem (s : State) (x1 : Fin 32) : (s.stepDown x1).mem = s.mem := by
  unfold State.stepDown
  (repeat' split) <;> simp

@[simp] theorem State.modIsland_mem (s : State) (x1 : Fin 32) (x2 : Island → Island) : (s.modIsland x1 x2).mem = s.mem := by
  unfold State.modIsland
  rfl

/-! ### Issue -/

@[simp] theorem State.settle_mem (s : State) (x1 : CoreId) : (s.settle x1).mem = s.mem := by
  unfold State.settle
  rfl

@[simp] theorem State.landRest_mem (s : State) (x1 : CoreId) : (s.landRest x1).mem = s.mem := by
  unfold State.landRest
  rfl

@[simp] theorem State.returnCore_mem (s : State) (x1 : CoreId) : (s.returnCore x1).mem = s.mem := by
  unfold State.returnCore
  dsimp only
  (repeat' split) <;> simp

@[simp] theorem State.returnAll_mem (s : State) (x1 : CoreId) (x2 : List CoreId) : (s.returnAll x1 x2).mem = s.mem := by
  unfold State.returnAll
  dsimp only
  (repeat' split) <;> simp

@[simp] theorem State.raiseCauses_mem (s : State) (x1 : CoreId) (x2 : List CoreId) (x3 : List (CoreId × TrapRec)) : (s.raiseCauses x1 x2 x3).mem = s.mem := by
  unfold State.raiseCauses
  dsimp only
  (repeat' split) <;> simp

@[simp] theorem State.bundleDone_mem (s : State) (x1 : CoreId) (x2 : List CoreId) : (s.bundleDone x1 x2).mem = s.mem := by
  unfold State.bundleDone
  dsimp only
  (repeat' split) <;> simp

@[simp] theorem State.trapBundle_mem (s : State) (x1 : List CoreId) (x2 : List (CoreId × TrapRec)) (x3 : Word) : (s.trapBundle x1 x2 x3).mem = s.mem := by
  unfold State.trapBundle
  simp

@[simp] theorem State.leaveSlice_mem (s : State) (x1 : Slice) (x2 : EndHow) : (s.leaveSlice x1 x2).mem = s.mem := by
  unfold State.leaveSlice
  simp

@[simp] theorem State.waitAgain_mem (s : State) (x1 : Slice) (x2 : TileId) : (s.waitAgain x1 x2).mem = s.mem := by
  unfold State.waitAgain
  (repeat' split) <;> simp

@[simp] theorem State.yieldSlice_wf (s : State) (x1 : Slice) (x2 : TileId) (h : Memory.wf s.mem = true) :
    Memory.wf (s.yieldSlice x1 x2).mem = true := by
  have h1 := State.foldl_wf (fun s c => (State.settle s c).stopDoms c) x1.cores s (fun _ _ hs => by simp [hs]) h
  unfold State.yieldSlice
  dsimp only
  rw [State.waitAgain_mem, State.modSlice_mem]
  split <;> simpa using h1

@[simp] theorem State.trapAtPark_mem (s : State) (x1 : CoreId) (x2 : TrapRec) : (s.trapAtPark x1 x2).mem = s.mem := by
  unfold State.trapAtPark
  dsimp only
  (repeat' split) <;> simp

@[simp] theorem State.causeAtPark_mem (s : State) (x1 : CoreId) (x2 : TrapRec) (x3 : Core → Core) : (s.causeAtPark x1 x2 x3).mem = s.mem := by
  unfold State.causeAtPark
  (repeat' split) <;> simp

@[simp] theorem State.endWith_mem (s : State) (x1 : CoreId) (x2 : Core × Option TrapRec) : (s.endWith x1 x2).mem = s.mem := by
  unfold State.endWith
  (repeat' split) <;> simp

@[simp] theorem State.takeRefusal_mem (s : State) (x1 : CoreId) (x2 : Park) (x3 : Nat × TrapRec × Bool) : (s.takeRefusal x1 x2 x3).mem = s.mem := by
  unfold State.takeRefusal
  dsimp only
  (repeat' split) <;> simp

/-! ### Time -/

@[simp] theorem State.chargeAll_mem (s : State) : (s.chargeAll).mem = s.mem := by
  unfold State.chargeAll
  rfl

@[simp] theorem State.settleAnchors_mem (s : State) (x1 : Terr) : (s.settleAnchors x1).mem = s.mem := by
  unfold State.settleAnchors
  split
  · rfl
  · exact State.foldl_mem _ _ _ (fun _ _ => by split <;> simp)

@[simp] theorem State.settlePolicy_mem (s : State) : s.settlePolicy.mem = s.mem :=
  State.foldl_mem _ _ _ (fun _ _ => State.settleAnchors_mem _ _)

@[simp] theorem State.advance_mem (s : State) : (s.advance).mem = s.mem := by
  unfold State.advance
  dsimp only
  (repeat' split) <;> simp

@[simp] theorem State.withPower_mem (s : State) : (s.withPower).mem = s.mem := by
  unfold State.withPower
  rfl

end Sys2Proof.Machine
end

