-- ==== Sys2Proof/Laws/Dispatch.lean ====
section
/-! SUPPORT. The meaning that exec gives each constructor, one lemma for each arm. -/

namespace Sys2Proof.Machine

@[simp] theorem exec_nopC (m : Bool) (s : State) :
    exec (.nopC m) s = execNopC m s := rfl

@[simp] theorem exec_ret (m : Bool) (s : State) :
    exec (.ret m) s = execRet m s := rfl

@[simp] theorem exec_rett (m : Bool) (s : State) :
    exec (.rett m) s = execRett m s := rfl

@[simp] theorem exec_upret (m : Bool) (s : State) :
    exec (.upret m) s = execUpret m s := rfl

@[simp] theorem exec_exit (m : Bool) (s : State) :
    exec (.exit m) s = execExit m s := rfl

@[simp] theorem exec_yld (m : Bool) (s : State) :
    exec (.yld m) s = execYld m s := rfl

@[simp] theorem exec_trap (m : Bool) (imm : BitVec 18) (s : State) :
    exec (.trap m imm) s = execTrap m imm s := rfl

@[simp] theorem exec_bkpt (m : Bool) (imm : BitVec 18) (s : State) :
    exec (.bkpt m imm) s = execBkpt m imm s := rfl

@[simp] theorem exec_fence (m : Bool) (sc : Scope) (s : State) :
    exec (.fence m sc) s = execFence m sc s := rfl

@[simp] theorem exec_fencesc (m : Bool) (sc : Scope) (s : State) :
    exec (.fencesc m sc) s = execFencesc m sc s := rfl

@[simp] theorem exec_br (m : Bool) (disp : BitVec 24) (s : State) :
    exec (.br m disp) s = execBr m disp s := rfl

@[simp] theorem exec_brp (m : Bool) (n : Bool) (p : PReg) (disp : BitVec 20) (s : State) :
    exec (.brp m n p disp) s = execBrp m n p disp s := rfl

@[simp] theorem exec_call (m : Bool) (disp : BitVec 24) (s : State) :
    exec (.call m disp) s = execCall m disp s := rfl

@[simp] theorem exec_detach (m : Bool) (disp : BitVec 24) (s : State) :
    exec (.detach m disp) s = execDetach m disp s := rfl

@[simp] theorem exec_attach (m : Bool) (disp : BitVec 24) (s : State) :
    exec (.attach m disp) s = execAttach m disp s := rfl

@[simp] theorem exec_loop (m : Bool) (lvl : Lvl) (count : BitVec 12) (fin : BitVec 10) (s : State) :
    exec (.loop m lvl count fin) s = execLoop m lvl count fin s := rfl

@[simp] theorem exec_loopr (m : Bool) (lvl : Lvl) (a : Reg) (fin : BitVec 10) (s : State) :
    exec (.loopr m lvl a fin) s = execLoopr m lvl a fin s := rfl

@[simp] theorem exec_jmp (m : Bool) (a : Reg) (s : State) :
    exec (.jmp m a) s = execJmp m a s := rfl

@[simp] theorem exec_callr (m : Bool) (a : Reg) (s : State) :
    exec (.callr m a) s = execCallr m a s := rfl

@[simp] theorem exec_mvtl (m : Bool) (lp : LReg) (a : Reg) (s : State) :
    exec (.mvtl m lp a) s = execMvtl m lp a s := rfl

@[simp] theorem exec_mvfl (m : Bool) (d : Reg) (lp : LReg) (s : State) :
    exec (.mvfl m d lp) s = execMvfl m d lp s := rfl

@[simp] theorem exec_mfs (m : Bool) (d : Reg) (r : SysReg) (s : State) :
    exec (.mfs m d r) s = execMfs m d r s := rfl

@[simp] theorem exec_mts (m : Bool) (r : SysReg) (a : Reg) (s : State) :
    exec (.mts m r a) s = execMts m r a s := rfl

@[simp] theorem exec_disc (m : Bool) (d : Reg) (n : Fin 32) (s : State) :
    exec (.disc m d n) s = execDisc m d n s := rfl

@[simp] theorem exec_cycle (m : Bool) (d : Reg) (s : State) :
    exec (.cycle m d) s = execCycle m d s := rfl

@[simp] theorem exec_seal (m : Bool) (a : Reg) (b : Reg) (s : State) :
    exec (.seal m a b) s = execSeal m a b s := rfl

@[simp] theorem exec_spawn (m : Bool) (d : Reg) (a : Reg) (s : State) :
    exec (.spawn m d a) s = execSpawn m d a s := rfl

@[simp] theorem exec_ld (m : Bool) (d : Reg) (a : Reg) (sz : MemSz) (disp : BitVec 11) (s : State) :
    exec (.ld m d a sz disp) s = execLd m d a sz disp s := rfl

@[simp] theorem exec_st (m : Bool) (d : Reg) (a : Reg) (sz : MemSz) (disp : BitVec 11) (s : State) :
    exec (.st m d a sz disp) s = execSt m d a sz disp s := rfl

@[simp] theorem exec_lda (m : Bool) (d : Reg) (a : Reg) (sz : MemSz) (sc : Scope) (disp : BitVec 9) (s : State) :
    exec (.lda m d a sz sc disp) s = execLda m d a sz sc disp s := rfl

@[simp] theorem exec_stl (m : Bool) (d : Reg) (a : Reg) (sz : MemSz) (sc : Scope) (disp : BitVec 9) (s : State) :
    exec (.stl m d a sz sc disp) s = execStl m d a sz sc disp s := rfl

@[simp] theorem exec_ldp (m : Bool) (d : Reg) (a : Reg) (sz : MemSz) (disp : BitVec 11) (s : State) :
    exec (.ldp m d a sz disp) s = execLdp m d a sz disp s := rfl

@[simp] theorem exec_stp (m : Bool) (d : Reg) (a : Reg) (sz : MemSz) (disp : BitVec 11) (s : State) :
    exec (.stp m d a sz disp) s = execStp m d a sz disp s := rfl

@[simp] theorem exec_vld (m : Bool) (d : Reg) (a : Reg) (disp : BitVec 11) (s : State) :
    exec (.vld m d a disp) s = execVld m d a disp s := rfl

@[simp] theorem exec_vst (m : Bool) (d : Reg) (a : Reg) (disp : BitVec 11) (s : State) :
    exec (.vst m d a disp) s = execVst m d a disp s := rfl

@[simp] theorem exec_vldp (m : Bool) (d : Reg) (a : Reg) (disp : BitVec 11) (s : State) :
    exec (.vldp m d a disp) s = execVldp m d a disp s := rfl

@[simp] theorem exec_vstp (m : Bool) (d : Reg) (a : Reg) (disp : BitVec 11) (s : State) :
    exec (.vstp m d a disp) s = execVstp m d a disp s := rfl

@[simp] theorem exec_vlds (m : Bool) (d : Reg) (a : Reg) (b : Reg) (sz : MemSz) (s : State) :
    exec (.vlds m d a b sz) s = execVlds m d a b sz s := rfl

@[simp] theorem exec_vsts (m : Bool) (d : Reg) (a : Reg) (b : Reg) (sz : MemSz) (s : State) :
    exec (.vsts m d a b sz) s = execVsts m d a b sz s := rfl

@[simp] theorem exec_vgath (m : Bool) (d : Reg) (a : Reg) (b : Reg) (sz : MemSz) (s : State) :
    exec (.vgath m d a b sz) s = execVgath m d a b sz s := rfl

@[simp] theorem exec_vscat (m : Bool) (d : Reg) (a : Reg) (b : Reg) (sz : MemSz) (s : State) :
    exec (.vscat m d a b sz) s = execVscat m d a b sz s := rfl

@[simp] theorem exec_atom (m : Bool) (d : Reg) (a : Reg) (b : Reg) (op : AtomOp) (ty : AtomTy) (s : State) :
    exec (.atom m d a b op ty) s = execAtom m d a b op ty s := rfl

@[simp] theorem exec_atomp (m : Bool) (d : Reg) (a : Reg) (b : Reg) (op : AtomOp) (ty : AtomTy) (s : State) :
    exec (.atomp m d a b op ty) s = execAtomp m d a b op ty s := rfl

@[simp] theorem exec_bar (m : Bool) (id : Bar) (s : State) :
    exec (.bar m id) s = execBar m id s := rfl

@[simp] theorem exec_barq (m : Bool) (d : Reg) (id : Bar) (s : State) :
    exec (.barq m d id) s = execBarq m d id s := rfl

@[simp] theorem exec_vote (m : Bool) (d : Reg) (a : Reg) (op : VoteOp) (s : State) :
    exec (.vote m d a op) s = execVote m d a op s := rfl

@[simp] theorem exec_rsub (m : Bool) (a : Reg) (ring : Ring) (s : State) :
    exec (.rsub m a ring) s = execRsub m a ring s := rfl

@[simp] theorem exec_rget (m : Bool) (d : Reg) (ring : Ring) (s : State) :
    exec (.rget m d ring) s = execRget m d ring s := rfl

@[simp] theorem exec_rput (m : Bool) (ring : Ring) (s : State) :
    exec (.rput m ring) s = execRput m ring s := rfl

@[simp] theorem exec_rrel (m : Bool) (ring : Ring) (s : State) :
    exec (.rrel m ring) s = execRrel m ring s := rfl

@[simp] theorem exec_barcfg (m : Bool) (id : Fin 4) (x0 : BitVec 5) (y0 : BitVec 4) (x1 : BitVec 5) (y1 : BitVec 4) (cnt : BitVec 2) (s : State) :
    exec (.barcfg m id x0 y0 x1 y1 cnt) s = execBarcfg m id x0 y0 x1 y1 cnt s := rfl

@[simp] theorem exec_msend (m : Bool) (a : Reg) (b : Reg) (s : State) :
    exec (.msend m a b) s = execMsend m a b s := rfl

@[simp] theorem exec_mrecv (m : Bool) (d : Reg) (a : Reg) (b : Reg) (s : State) :
    exec (.mrecv m d a b) s = execMrecv m d a b s := rfl

@[simp] theorem exec_mprobe (m : Bool) (d : Reg) (b : Reg) (s : State) :
    exec (.mprobe m d b) s = execMprobe m d b s := rfl

@[simp] theorem exec_mcast (m : Bool) (a : Reg) (s : State) :
    exec (.mcast m a) s = execMcast m a s := rfl

@[simp] theorem exec_mres (m : Bool) (a : Reg) (s : State) :
    exec (.mres m a) s = execMres m a s := rfl

@[simp] theorem exec_nopA (g : Guard) (s : State) :
    exec (.nopA g) s = execNopA g s := rfl

@[simp] theorem exec_add (g : Guard) (d : Reg) (a : Reg) (b : Reg) (s : State) :
    exec (.add g d a b) s = execAdd g d a b s := rfl

@[simp] theorem exec_sub (g : Guard) (d : Reg) (a : Reg) (b : Reg) (s : State) :
    exec (.sub g d a b) s = execSub g d a b s := rfl

@[simp] theorem exec_mul (g : Guard) (d : Reg) (a : Reg) (b : Reg) (s : State) :
    exec (.mul g d a b) s = execMul g d a b s := rfl

@[simp] theorem exec_mulh (g : Guard) (d : Reg) (a : Reg) (b : Reg) (s : State) :
    exec (.mulh g d a b) s = execMulh g d a b s := rfl

@[simp] theorem exec_mulhu (g : Guard) (d : Reg) (a : Reg) (b : Reg) (s : State) :
    exec (.mulhu g d a b) s = execMulhu g d a b s := rfl

@[simp] theorem exec_div (g : Guard) (d : Reg) (a : Reg) (b : Reg) (s : State) :
    exec (.div g d a b) s = execDiv g d a b s := rfl

@[simp] theorem exec_divu (g : Guard) (d : Reg) (a : Reg) (b : Reg) (s : State) :
    exec (.divu g d a b) s = execDivu g d a b s := rfl

@[simp] theorem exec_rem (g : Guard) (d : Reg) (a : Reg) (b : Reg) (s : State) :
    exec (.rem g d a b) s = execRem g d a b s := rfl

@[simp] theorem exec_remu (g : Guard) (d : Reg) (a : Reg) (b : Reg) (s : State) :
    exec (.remu g d a b) s = execRemu g d a b s := rfl

@[simp] theorem exec_and (g : Guard) (d : Reg) (a : Reg) (b : Reg) (s : State) :
    exec (.and g d a b) s = execAnd g d a b s := rfl

@[simp] theorem exec_or (g : Guard) (d : Reg) (a : Reg) (b : Reg) (s : State) :
    exec (.or g d a b) s = execOr g d a b s := rfl

@[simp] theorem exec_xor (g : Guard) (d : Reg) (a : Reg) (b : Reg) (s : State) :
    exec (.xor g d a b) s = execXor g d a b s := rfl

@[simp] theorem exec_andn (g : Guard) (d : Reg) (a : Reg) (b : Reg) (s : State) :
    exec (.andn g d a b) s = execAndn g d a b s := rfl

@[simp] theorem exec_shl (g : Guard) (d : Reg) (a : Reg) (b : Reg) (s : State) :
    exec (.shl g d a b) s = execShl g d a b s := rfl

@[simp] theorem exec_shr (g : Guard) (d : Reg) (a : Reg) (b : Reg) (s : State) :
    exec (.shr g d a b) s = execShr g d a b s := rfl

@[simp] theorem exec_sra (g : Guard) (d : Reg) (a : Reg) (b : Reg) (s : State) :
    exec (.sra g d a b) s = execSra g d a b s := rfl

@[simp] theorem exec_rotr (g : Guard) (d : Reg) (a : Reg) (b : Reg) (s : State) :
    exec (.rotr g d a b) s = execRotr g d a b s := rfl

@[simp] theorem exec_clz (g : Guard) (d : Reg) (a : Reg) (s : State) :
    exec (.clz g d a) s = execClz g d a s := rfl

@[simp] theorem exec_ctz (g : Guard) (d : Reg) (a : Reg) (s : State) :
    exec (.ctz g d a) s = execCtz g d a s := rfl

@[simp] theorem exec_popc (g : Guard) (d : Reg) (a : Reg) (s : State) :
    exec (.popc g d a) s = execPopc g d a s := rfl

@[simp] theorem exec_min (g : Guard) (d : Reg) (a : Reg) (b : Reg) (s : State) :
    exec (.min g d a b) s = execMin g d a b s := rfl

@[simp] theorem exec_max (g : Guard) (d : Reg) (a : Reg) (b : Reg) (s : State) :
    exec (.max g d a b) s = execMax g d a b s := rfl

@[simp] theorem exec_minu (g : Guard) (d : Reg) (a : Reg) (b : Reg) (s : State) :
    exec (.minu g d a b) s = execMinu g d a b s := rfl

@[simp] theorem exec_maxu (g : Guard) (d : Reg) (a : Reg) (b : Reg) (s : State) :
    exec (.maxu g d a b) s = execMaxu g d a b s := rfl

@[simp] theorem exec_mov (g : Guard) (d : Reg) (a : Reg) (s : State) :
    exec (.mov g d a) s = execMov g d a s := rfl

@[simp] theorem exec_extb (g : Guard) (d : Reg) (a : Reg) (s : State) :
    exec (.extb g d a) s = execExtb g d a s := rfl

@[simp] theorem exec_exth (g : Guard) (d : Reg) (a : Reg) (s : State) :
    exec (.exth g d a) s = execExth g d a s := rfl

@[simp] theorem exec_lea (g : Guard) (d : Reg) (a : Reg) (b : Reg) (k : Fin 4) (s : State) :
    exec (.lea g d a b k) s = execLea g d a b k s := rfl

@[simp] theorem exec_addi (g : Guard) (d : Reg) (imm : BitVec 16) (s : State) :
    exec (.addi g d imm) s = execAddi g d imm s := rfl

@[simp] theorem exec_andi (g : Guard) (d : Reg) (imm : BitVec 16) (s : State) :
    exec (.andi g d imm) s = execAndi g d imm s := rfl

@[simp] theorem exec_ori (g : Guard) (d : Reg) (imm : BitVec 16) (s : State) :
    exec (.ori g d imm) s = execOri g d imm s := rfl

@[simp] theorem exec_xori (g : Guard) (d : Reg) (imm : BitVec 16) (s : State) :
    exec (.xori g d imm) s = execXori g d imm s := rfl

@[simp] theorem exec_movi (g : Guard) (d : Reg) (imm : BitVec 16) (s : State) :
    exec (.movi g d imm) s = execMovi g d imm s := rfl

@[simp] theorem exec_shli (g : Guard) (d : Reg) (a : Reg) (sh : BitVec 6) (s : State) :
    exec (.shli g d a sh) s = execShli g d a sh s := rfl

@[simp] theorem exec_shri (g : Guard) (d : Reg) (a : Reg) (sh : BitVec 6) (s : State) :
    exec (.shri g d a sh) s = execShri g d a sh s := rfl

@[simp] theorem exec_srai (g : Guard) (d : Reg) (a : Reg) (sh : BitVec 6) (s : State) :
    exec (.srai g d a sh) s = execSrai g d a sh s := rfl

@[simp] theorem exec_cmp (g : Guard) (pd : PReg) (a : Reg) (b : Reg) (cond : Cond) (s : State) :
    exec (.cmp g pd a b cond) s = execCmp g pd a b cond s := rfl

@[simp] theorem exec_cmpi (g : Guard) (pd : PReg) (a : Reg) (cond : Cond) (imm : BitVec 10) (s : State) :
    exec (.cmpi g pd a cond imm) s = execCmpi g pd a cond imm s := rfl

@[simp] theorem exec_pand (g : Guard) (pd : PReg) (pa : PReg) (pb : PReg) (s : State) :
    exec (.pand g pd pa pb) s = execPand g pd pa pb s := rfl

@[simp] theorem exec_por (g : Guard) (pd : PReg) (pa : PReg) (pb : PReg) (s : State) :
    exec (.por g pd pa pb) s = execPor g pd pa pb s := rfl

@[simp] theorem exec_pxor (g : Guard) (pd : PReg) (pa : PReg) (pb : PReg) (s : State) :
    exec (.pxor g pd pa pb) s = execPxor g pd pa pb s := rfl

@[simp] theorem exec_pnot (g : Guard) (pd : PReg) (pa : PReg) (s : State) :
    exec (.pnot g pd pa) s = execPnot g pd pa s := rfl

@[simp] theorem exec_sel (g : Guard) (d : Reg) (a : Reg) (b : Reg) (pc : PReg) (s : State) :
    exec (.sel g d a b pc) s = execSel g d a b pc s := rfl

@[simp] theorem exec_tadr (g : Guard) (d : Reg) (a : Reg) (imm : BitVec 12) (s : State) :
    exec (.tadr g d a imm) s = execTadr g d a imm s := rfl

@[simp] theorem exec_vadd (g : Guard) (d : Reg) (a : Reg) (b : Reg) (ty : ETy) (s : State) :
    exec (.vadd g d a b ty) s = execVadd g d a b ty s := rfl

@[simp] theorem exec_vsub (g : Guard) (d : Reg) (a : Reg) (b : Reg) (ty : ETy) (s : State) :
    exec (.vsub g d a b ty) s = execVsub g d a b ty s := rfl

@[simp] theorem exec_vmul (g : Guard) (d : Reg) (a : Reg) (b : Reg) (ty : ETy) (s : State) :
    exec (.vmul g d a b ty) s = execVmul g d a b ty s := rfl

@[simp] theorem exec_vdiv (g : Guard) (d : Reg) (a : Reg) (b : Reg) (ty : ETy) (s : State) :
    exec (.vdiv g d a b ty) s = execVdiv g d a b ty s := rfl

@[simp] theorem exec_vmin (g : Guard) (d : Reg) (a : Reg) (b : Reg) (ty : ETy) (s : State) :
    exec (.vmin g d a b ty) s = execVmin g d a b ty s := rfl

@[simp] theorem exec_vmax (g : Guard) (d : Reg) (a : Reg) (b : Reg) (ty : ETy) (s : State) :
    exec (.vmax g d a b ty) s = execVmax g d a b ty s := rfl

@[simp] theorem exec_vminn (g : Guard) (d : Reg) (a : Reg) (b : Reg) (ty : ETy) (s : State) :
    exec (.vminn g d a b ty) s = execVminn g d a b ty s := rfl

@[simp] theorem exec_vmaxn (g : Guard) (d : Reg) (a : Reg) (b : Reg) (ty : ETy) (s : State) :
    exec (.vmaxn g d a b ty) s = execVmaxn g d a b ty s := rfl

@[simp] theorem exec_vsqrt (g : Guard) (d : Reg) (a : Reg) (ty : ETy) (s : State) :
    exec (.vsqrt g d a ty) s = execVsqrt g d a ty s := rfl

@[simp] theorem exec_vrcp (g : Guard) (d : Reg) (a : Reg) (ty : ETy) (s : State) :
    exec (.vrcp g d a ty) s = execVrcp g d a ty s := rfl

@[simp] theorem exec_vrsq (g : Guard) (d : Reg) (a : Reg) (ty : ETy) (s : State) :
    exec (.vrsq g d a ty) s = execVrsq g d a ty s := rfl

@[simp] theorem exec_vexp2 (g : Guard) (d : Reg) (a : Reg) (ty : ETy) (s : State) :
    exec (.vexp2 g d a ty) s = execVexp2 g d a ty s := rfl

@[simp] theorem exec_vlog2 (g : Guard) (d : Reg) (a : Reg) (ty : ETy) (s : State) :
    exec (.vlog2 g d a ty) s = execVlog2 g d a ty s := rfl

@[simp] theorem exec_vabs (g : Guard) (d : Reg) (a : Reg) (ty : ETy) (s : State) :
    exec (.vabs g d a ty) s = execVabs g d a ty s := rfl

@[simp] theorem exec_vneg (g : Guard) (d : Reg) (a : Reg) (ty : ETy) (s : State) :
    exec (.vneg g d a ty) s = execVneg g d a ty s := rfl

@[simp] theorem exec_vand (g : Guard) (d : Reg) (a : Reg) (b : Reg) (s : State) :
    exec (.vand g d a b) s = execVand g d a b s := rfl

@[simp] theorem exec_vor (g : Guard) (d : Reg) (a : Reg) (b : Reg) (s : State) :
    exec (.vor g d a b) s = execVor g d a b s := rfl

@[simp] theorem exec_vxor (g : Guard) (d : Reg) (a : Reg) (b : Reg) (s : State) :
    exec (.vxor g d a b) s = execVxor g d a b s := rfl

@[simp] theorem exec_vnot (g : Guard) (d : Reg) (a : Reg) (s : State) :
    exec (.vnot g d a) s = execVnot g d a s := rfl

@[simp] theorem exec_vshl (g : Guard) (d : Reg) (a : Reg) (b : Reg) (ty : ETy) (s : State) :
    exec (.vshl g d a b ty) s = execVshl g d a b ty s := rfl

@[simp] theorem exec_vshr (g : Guard) (d : Reg) (a : Reg) (b : Reg) (ty : ETy) (s : State) :
    exec (.vshr g d a b ty) s = execVshr g d a b ty s := rfl

@[simp] theorem exec_vsra (g : Guard) (d : Reg) (a : Reg) (b : Reg) (ty : ETy) (s : State) :
    exec (.vsra g d a b ty) s = execVsra g d a b ty s := rfl

@[simp] theorem exec_vfma (g : Guard) (d : Reg) (a : Reg) (b : Reg) (c : Reg) (f : FTy) (s : State) :
    exec (.vfma g d a b c f) s = execVfma g d a b c f s := rfl

@[simp] theorem exec_vfms (g : Guard) (d : Reg) (a : Reg) (b : Reg) (c : Reg) (f : FTy) (s : State) :
    exec (.vfms g d a b c f) s = execVfms g d a b c f s := rfl

@[simp] theorem exec_vfnma (g : Guard) (d : Reg) (a : Reg) (b : Reg) (c : Reg) (f : FTy) (s : State) :
    exec (.vfnma g d a b c f) s = execVfnma g d a b c f s := rfl

@[simp] theorem exec_vcmp (g : Guard) (d : Reg) (a : Reg) (b : Reg) (ty : ETy) (cond : VCond) (s : State) :
    exec (.vcmp g d a b ty cond) s = execVcmp g d a b ty cond s := rfl

@[simp] theorem exec_vsel (g : Guard) (d : Reg) (a : Reg) (b : Reg) (c : Reg) (s : State) :
    exec (.vsel g d a b c) s = execVsel g d a b c s := rfl

@[simp] theorem exec_vcvt (g : Guard) (d : Reg) (a : Reg) (dt : ETy) (st : ETy) (rm : Rm) (sat : Bool) (s : State) :
    exec (.vcvt g d a dt st rm sat) s = execVcvt g d a dt st rm sat s := rfl

@[simp] theorem exec_vcvtSr (g : Guard) (d : Reg) (a : Reg) (b : Reg) (dt : SrTy) (st : FTy) (sat : Bool) (s : State) :
    exec (.vcvtSr g d a b dt st sat) s = execVcvtSr g d a b dt st sat s := rfl

@[simp] theorem exec_vredadd (g : Guard) (d : Reg) (a : Reg) (n : Fin 32) (ty : ETy) (s : State) :
    exec (.vredadd g d a n ty) s = execVredadd g d a n ty s := rfl

@[simp] theorem exec_vredmax (g : Guard) (d : Reg) (a : Reg) (n : Fin 32) (ty : ETy) (s : State) :
    exec (.vredmax g d a n ty) s = execVredmax g d a n ty s := rfl

@[simp] theorem exec_vredmin (g : Guard) (d : Reg) (a : Reg) (n : Fin 32) (ty : ETy) (s : State) :
    exec (.vredmin g d a n ty) s = execVredmin g d a n ty s := rfl

@[simp] theorem exec_vperm (g : Guard) (d : Reg) (a : Reg) (b : Reg) (ty : ETy) (s : State) :
    exec (.vperm g d a b ty) s = execVperm g d a b ty s := rfl

@[simp] theorem exec_vbcast (g : Guard) (d : Reg) (a : Reg) (ty : ETy) (s : State) :
    exec (.vbcast g d a ty) s = execVbcast g d a ty s := rfl

@[simp] theorem exec_vslide (g : Guard) (d : Reg) (a : Reg) (b : Reg) (ty : ETy) (s : State) :
    exec (.vslide g d a b ty) s = execVslide g d a b ty s := rfl

@[simp] theorem exec_viota (g : Guard) (d : Reg) (ty : ETy) (s : State) :
    exec (.viota g d ty) s = execViota g d ty s := rfl

@[simp] theorem exec_vmovs (g : Guard) (d : Reg) (a : Reg) (b : Reg) (ty : ETy) (s : State) :
    exec (.vmovs g d a b ty) s = execVmovs g d a b ty s := rfl

@[simp] theorem exec_vext (g : Guard) (d : Reg) (a : Reg) (b : Reg) (ty : ETy) (s : State) :
    exec (.vext g d a b ty) s = execVext g d a b ty s := rfl

@[simp] theorem exec_vsat (g : Guard) (d : Reg) (a : Reg) (k : Fin 32) (ty : ETy) (s : State) :
    exec (.vsat g d a k ty) s = execVsat g d a k ty s := rfl

@[simp] theorem exec_vclamp (g : Guard) (d : Reg) (a : Reg) (b : Reg) (ty : ETy) (s : State) :
    exec (.vclamp g d a b ty) s = execVclamp g d a b ty s := rfl

@[simp] theorem exec_vpack (g : Guard) (d : Reg) (a : Reg) (b : Reg) (ty : ETy) (s : State) :
    exec (.vpack g d a b ty) s = execVpack g d a b ty s := rfl

@[simp] theorem exec_vunpk (g : Guard) (d : Reg) (a : Reg) (h : Bool) (ty : ETy) (s : State) :
    exec (.vunpk g d a h ty) s = execVunpk g d a h ty s := rfl

@[simp] theorem exec_vqmx (g : Guard) (d : Reg) (a : Reg) (ty : ETy) (s : State) :
    exec (.vqmx g d a ty) s = execVqmx g d a ty s := rfl

@[simp] theorem exec_vdqmx (g : Guard) (d : Reg) (a : Reg) (ty : ETy) (s : State) :
    exec (.vdqmx g d a ty) s = execVdqmx g d a ty s := rfl

@[simp] theorem exec_liSigned (m : Bool) (d : Reg) (p : BitVec 51) (s : State) :
    exec (.liSigned m d p) s = execLiSigned m d p s := rfl

@[simp] theorem exec_liHbm (m : Bool) (d : Reg) (p : BitVec 48) (s : State) :
    exec (.liHbm m d p) s = execLiHbm m d p s := rfl

@[simp] theorem exec_liPeer (m : Bool) (d : Reg) (p : BitVec 40) (s : State) :
    exec (.liPeer m d p) s = execLiPeer m d p s := rfl

@[simp] theorem exec_liShifted (m : Bool) (d : Reg) (p : BitVec 51) (s : State) :
    exec (.liShifted m d p) s = execLiShifted m d p s := rfl

@[simp] theorem exec_rwait (m : Bool) (ring : Fin 16) (n : BitVec 9) (limit : BitVec 32) (s : State) :
    exec (.rwait m ring n limit) s = execRwait m ring n limit s := rfl

@[simp] theorem exec_copy (m : Bool) (a : Reg) (b : Reg) (c : Reg) (tag : Fin 16) (s : State) :
    exec (.copy m a b c tag) s = execCopy m a b c tag s := rfl

@[simp] theorem exec_copym (m : Bool) (a : Reg) (tag : Fin 16) (s : State) :
    exec (.copym m a tag) s = execCopym m a tag s := rfl

@[simp] theorem exec_cwait (m : Bool) (mask : BitVec 16) (s : State) :
    exec (.cwait m mask) s = execCwait m mask s := rfl

@[simp] theorem exec_cquery (m : Bool) (d : Reg) (s : State) :
    exec (.cquery m d) s = execCquery m d s := rfl

@[simp] theorem exec_mlw (m : Bool) (a : Reg) (bank : Fin 2) (fmt : BitVec 3) (s : State) :
    exec (.mlw m a bank fmt) s = execMlw m a bank fmt s := rfl

@[simp] theorem exec_mfmt (m : Bool) (stream : Fin 4) (fmt : BitVec 3) (s : State) :
    exec (.mfmt m stream fmt) s = execMfmt m stream fmt s := rfl

@[simp] theorem exec_mmul (m : Bool) (a : Reg) (b : Reg) (c : Reg) (acc : Fin 8) (bank : Fin 2) (stream : Fin 4) (f32 : Bool) (m1 : BitVec 2) (s : State) :
    exec (.mmul m a b c acc bank stream f32 m1) s = execMmul m a b c acc bank stream f32 m1 s := rfl

@[simp] theorem exec_mout (m : Bool) (a : Reg) (cnt : BitVec 6) (s : State) :
    exec (.mout m a cnt) s = execMout m a cnt s := rfl

@[simp] theorem exec_mdrain (m : Bool) (a : Reg) (b : Reg) (acc : Fin 8) (cnt : BitVec 10) (s : State) :
    exec (.mdrain m a b acc cnt) s = execMdrain m a b acc cnt s := rfl

@[simp] theorem exec_mver (m : Bool) (d : Reg) (acc : Fin 8) (s : State) :
    exec (.mver m d acc) s = execMver m d acc s := rfl

@[simp] theorem exec_mzero (m : Bool) (b : Reg) (acc : Fin 8) (s : State) :
    exec (.mzero m b acc) s = execMzero m b acc s := rfl

@[simp] theorem exec_mwait (m : Bool) (b : Reg) (acc : Fin 8) (s : State) :
    exec (.mwait m b acc) s = execMwait m b acc s := rfl

@[simp] theorem exec_opatch (m : Bool) (a : Reg) (cnt : BitVec 9) (s : State) :
    exec (.opatch m a cnt) s = execOpatch m a cnt s := rfl

@[simp] theorem exec_oclk (m : Bool) (dom : Fin 4) (n : BitVec 13) (s : State) :
    exec (.oclk m dom n) s = execOclk m dom n s := rfl

@[simp] theorem exec_osetY (m : Bool) (a : Reg) (cell : BitVec 10) (s : State) :
    exec (.osetY m a cell) s = execOsetY m a cell s := rfl

@[simp] theorem exec_osetRes (m : Bool) (a : Reg) (cell : BitVec 10) (s : State) :
    exec (.osetRes m a cell) s = execOsetRes m a cell s := rfl

@[simp] theorem exec_osetPort (m : Bool) (a : Reg) (port : BitVec 10) (s : State) :
    exec (.osetPort m a port) s = execOsetPort m a port s := rfl

@[simp] theorem exec_osetBind (m : Bool) (port : BitVec 10) (ring : Fin 16) (unb : Bool) (s : State) :
    exec (.osetBind m port ring unb) s = execOsetBind m port ring unb s := rfl

@[simp] theorem exec_ogetY (m : Bool) (d : Reg) (cell : BitVec 10) (s : State) :
    exec (.ogetY m d cell) s = execOgetY m d cell s := rfl

@[simp] theorem exec_ogetRes (m : Bool) (d : Reg) (cell : BitVec 10) (s : State) :
    exec (.ogetRes m d cell) s = execOgetRes m d cell s := rfl

@[simp] theorem exec_ogetTap (m : Bool) (d : Reg) (tap : BitVec 10) (s : State) :
    exec (.ogetTap m d tap) s = execOgetTap m d tap s := rfl

@[simp] theorem exec_ogetDom (m : Bool) (d : Reg) (dom : BitVec 10) (s : State) :
    exec (.ogetDom m d dom) s = execOgetDom m d dom s := rfl

@[simp] theorem exec_ostep (m : Bool) (mask : BitVec 4) (s : State) :
    exec (.ostep m mask) s = execOstep m mask s := rfl

@[simp] theorem exec_orun (m : Bool) (a : Reg) (mask : BitVec 4) (s : State) :
    exec (.orun m a mask) s = execOrun m a mask s := rfl

@[simp] theorem exec_ohalt (m : Bool) (mask : BitVec 4) (s : State) :
    exec (.ohalt m mask) s = execOhalt m mask s := rfl

@[simp] theorem exec_osave (m : Bool) (a : Reg) (s : State) :
    exec (.osave m a) s = execOsave m a s := rfl

@[simp] theorem exec_orst (m : Bool) (a : Reg) (s : State) :
    exec (.orst m a) s = execOrst m a s := rfl

@[simp] theorem exec_otap (m : Bool) (a : Reg) (tap : Fin 16) (s : State) :
    exec (.otap m a tap) s = execOtap m a tap s := rfl

@[simp] theorem exec_tshape (m : Bool) (d : Reg) (a : Reg) (s : State) :
    exec (.tshape m d a) s = execTshape m d a s := rfl

@[simp] theorem exec_tmap (m : Bool) (d : Reg) (a : Reg) (s : State) :
    exec (.tmap m d a) s = execTmap m d a s := rfl

@[simp] theorem exec_tpress (m : Bool) (a : Reg) (s : State) :
    exec (.tpress m a) s = execTpress m a s := rfl

@[simp] theorem exec_tanchor (m : Bool) (a : Reg) (on : Bool) (s : State) :
    exec (.tanchor m a on) s = execTanchor m a on s := rfl

@[simp] theorem exec_tfreeze (m : Bool) (s : State) :
    exec (.tfreeze m) s = execTfreeze m s := rfl

@[simp] theorem exec_tthaw (m : Bool) (s : State) :
    exec (.tthaw m) s = execTthaw m s := rfl

@[simp] theorem exec_tevac (m : Bool) (s : State) :
    exec (.tevac m) s = execTevac m s := rfl

@[simp] theorem exec_illegalInstruction (w1 : Bool) (s : State) :
    exec (.illegalInstruction w1) s = execIllegalInstruction w1 s := rfl

@[simp] theorem exec_emulation (w1 : Bool) (s : State) :
    exec (.emulation w1) s = execEmulation w1 s := rfl

@[simp] theorem exec_chainRelease (k : Nat) (s : State) :
    exec (.chainRelease k) s = execChainRelease k s := rfl

@[simp] theorem exec_sizeGrantReturn (k : Nat) (s : State) :
    exec (.sizeGrantReturn k) s = execSizeGrantReturn k s := rfl

@[simp] theorem exec_handlerTileAnswer (k : Nat) (s : State) :
    exec (.handlerTileAnswer k) s = execHandlerTileAnswer k s := rfl

@[simp] theorem exec_spawnPlacement (core : CoreId) (s : State) :
    exec (.spawnPlacement core) s = execSpawnPlacement core s := rfl

@[simp] theorem exec_variableLatencyResponse (k : Nat) (s : State) :
    exec (.variableLatencyResponse k) s = execVariableLatencyResponse k s := rfl

@[simp] theorem exec_freezeRelease (core : CoreId) (s : State) :
    exec (.freezeRelease core) s = execFreezeRelease core s := rfl

@[simp] theorem exec_asyncTrapEntry (core : CoreId) (s : State) :
    exec (.asyncTrapEntry core) s = execAsyncTrapEntry core s := rfl

@[simp] theorem exec_dispatch (tile : TileId) (s : State) :
    exec (.dispatch tile) s = execDispatch tile s := rfl

@[simp] theorem exec_heldSlicePlacement (sl : Nat) (s : State) :
    exec (.heldSlicePlacement sl) s = execHeldSlicePlacement sl s := rfl

@[simp] theorem exec_budgetExhausted (sl : Nat) (s : State) :
    exec (.budgetExhausted sl) s = execBudgetExhausted sl s := rfl

@[simp] theorem exec_budgetGraceExpiry (sl : Nat) (s : State) :
    exec (.budgetGraceExpiry sl) s = execBudgetGraceExpiry sl s := rfl

@[simp] theorem exec_sliceLate (sl : Nat) (s : State) :
    exec (.sliceLate sl) s = execSliceLate sl s := rfl

@[simp] theorem exec_sliceCompletion (sl : Nat) (s : State) :
    exec (.sliceCompletion sl) s = execSliceCompletion sl s := rfl

@[simp] theorem exec_resultRead (sl : Nat) (s : State) :
    exec (.resultRead sl) s = execResultRead sl s := rfl

@[simp] theorem exec_launchCompletion (la : Nat) (s : State) :
    exec (.launchCompletion la) s = execLaunchCompletion la s := rfl

@[simp] theorem exec_peerRequestArrival (k : Nat) (s : State) :
    exec (.peerRequestArrival k) s = execPeerRequestArrival k s := rfl

@[simp] theorem exec_hbmAccess (k : Nat) (s : State) :
    exec (.hbmAccess k) s = execHbmAccess k s := rfl

@[simp] theorem exec_refusalArrival (k : Nat) (s : State) :
    exec (.refusalArrival k) s = execRefusalArrival k s := rfl

@[simp] theorem exec_ackArrival (k : Nat) (s : State) :
    exec (.ackArrival k) s = execAckArrival k s := rfl

@[simp] theorem exec_retransmitTimeout (k : Nat) (s : State) :
    exec (.retransmitTimeout k) s = execRetransmitTimeout k s := rfl

@[simp] theorem exec_messageArrival (k : Nat) (s : State) :
    exec (.messageArrival k) s = execMessageArrival k s := rfl

@[simp] theorem exec_chainReservation (k : Nat) (s : State) :
    exec (.chainReservation k) s = execChainReservation k s := rfl

@[simp] theorem exec_chainAnswer (k : Nat) (s : State) :
    exec (.chainAnswer k) s = execChainAnswer k s := rfl

@[simp] theorem exec_chainPayload (k : Nat) (s : State) :
    exec (.chainPayload k) s = execChainPayload k s := rfl

@[simp] theorem exec_barrierArrival (k : Nat) (s : State) :
    exec (.barrierArrival k) s = execBarrierArrival k s := rfl

@[simp] theorem exec_barrierRelease (k : Nat) (s : State) :
    exec (.barrierRelease k) s = execBarrierRelease k s := rfl

@[simp] theorem exec_voteContribution (k : Nat) (s : State) :
    exec (.voteContribution k) s = execVoteContribution k s := rfl

@[simp] theorem exec_copyBeat (tile : TileId) (k : Nat) (s : State) :
    exec (.copyBeat tile k) s = execCopyBeat tile k s := rfl

@[simp] theorem exec_copyComplete (tile : TileId) (k : Nat) (s : State) :
    exec (.copyComplete tile k) s = execCopyComplete tile k s := rfl

@[simp] theorem exec_copyFailure (k : Nat) (s : State) :
    exec (.copyFailure k) s = execCopyFailure k s := rfl

@[simp] theorem exec_matrixStart (core : CoreId) (k : Nat) (s : State) :
    exec (.matrixStart core k) s = execMatrixStart core k s := rfl

@[simp] theorem exec_matrixComplete (core : CoreId) (k : Nat) (s : State) :
    exec (.matrixComplete core k) s = execMatrixComplete core k s := rfl

@[simp] theorem exec_streamPush (sl : Nat) (ring : Nat) (s : State) :
    exec (.streamPush sl ring) s = execStreamPush sl ring s := rfl

@[simp] theorem exec_streamPull (sl : Nat) (ring : Nat) (s : State) :
    exec (.streamPull sl ring) s = execStreamPull sl ring s := rfl

@[simp] theorem exec_loopCountBlockReady (sl : Nat) (ring : Nat) (s : State) :
    exec (.loopCountBlockReady sl ring) s = execLoopCountBlockReady sl ring s := rfl

@[simp] theorem exec_rwaitTimeout (core : CoreId) (s : State) :
    exec (.rwaitTimeout core) s = execRwaitTimeout core s := rfl

@[simp] theorem exec_orreryTick (core : CoreId) (s : State) :
    exec (.orreryTick core) s = execOrreryTick core s := rfl

@[simp] theorem exec_orreryCountEnd (core : CoreId) (dom : Fin 4) (s : State) :
    exec (.orreryCountEnd core dom) s = execOrreryCountEnd core dom s := rfl

@[simp] theorem exec_epochEnd (s : State) :
    exec .epochEnd s = execEpochEnd s := rfl

@[simp] theorem exec_phaseStart (tile : TileId) (s : State) :
    exec (.phaseStart tile) s = execPhaseStart tile s := rfl

@[simp] theorem exec_sizeRequest (k : Nat) (s : State) :
    exec (.sizeRequest k) s = execSizeRequest k s := rfl

@[simp] theorem exec_sizeGrant (k : Nat) (s : State) :
    exec (.sizeGrant k) s = execSizeGrant k s := rfl

@[simp] theorem exec_moveCommit (tile : TileId) (s : State) :
    exec (.moveCommit tile) s = execMoveCommit tile s := rfl

@[simp] theorem exec_evacuationExpiry (tile : TileId) (s : State) :
    exec (.evacuationExpiry tile) s = execEvacuationExpiry tile s := rfl

@[simp] theorem exec_cessionClearing (tile : TileId) (s : State) :
    exec (.cessionClearing tile) s = execCessionClearing tile s := rfl

@[simp] theorem exec_cessionJoining (tile : TileId) (s : State) :
    exec (.cessionJoining tile) s = execCessionJoining tile s := rfl

@[simp] theorem exec_upcallArrival (k : Nat) (s : State) :
    exec (.upcallArrival k) s = execUpcallArrival k s := rfl

@[simp] theorem exec_freezeMark (k : Nat) (s : State) :
    exec (.freezeMark k) s = execFreezeMark k s := rfl

@[simp] theorem exec_freezeTakesHold (terr : Nat) (s : State) :
    exec (.freezeTakesHold terr) s = execFreezeTakesHold terr s := rfl

@[simp] theorem exec_thawRequest (k : Nat) (s : State) :
    exec (.thawRequest k) s = execThawRequest k s := rfl

@[simp] theorem exec_anchorRequest (k : Nat) (s : State) :
    exec (.anchorRequest k) s = execAnchorRequest k s := rfl

@[simp] theorem exec_anchorApply (k : Nat) (s : State) :
    exec (.anchorApply k) s = execAnchorApply k s := rfl

@[simp] theorem exec_shapeSnapshot (k : Nat) (s : State) :
    exec (.shapeSnapshot k) s = execShapeSnapshot k s := rfl

@[simp] theorem exec_preemptionHalt (core : CoreId) (s : State) :
    exec (.preemptionHalt core) s = execPreemptionHalt core s := rfl

@[simp] theorem exec_quiescenceComplete (tile : TileId) (s : State) :
    exec (.quiescenceComplete tile) s = execQuiescenceComplete tile s := rfl

@[simp] theorem exec_replayAbort (sl : Nat) (s : State) :
    exec (.replayAbort sl) s = execReplayAbort sl s := rfl

@[simp] theorem exec_patrolScrub (page : Nat) (corrected : Nat) (uncorrectable : Nat) (s : State) :
    exec (.patrolScrub page corrected uncorrectable) s = execPatrolScrub page corrected uncorrectable s := rfl

@[simp] theorem exec_islandPowerWindow (isl : Fin 32) (watts16 : Nat) (module16 : Nat) (s : State) :
    exec (.islandPowerWindow isl watts16 module16) s = execIslandPowerWindow isl watts16 module16 s := rfl

@[simp] theorem exec_thermalThrottle (isl : Fin 32) (s : State) :
    exec (.thermalThrottle isl) s = execThermalThrottle isl s := rfl

@[simp] theorem exec_thermalCooled (isl : Fin 32) (s : State) :
    exec (.thermalCooled isl) s = execThermalCooled isl s := rfl

@[simp] theorem exec_thermalShutdown (isl : Fin 32) (s : State) :
    exec (.thermalShutdown isl) s = execThermalShutdown isl s := rfl

@[simp] theorem exec_deviceReset (s : State) :
    exec .deviceReset s = execDeviceReset s := rfl

@[simp] theorem exec_powerLoss (s : State) :
    exec .powerLoss s = execPowerLoss s := rfl

@[simp] theorem exec_spdmSessionEnd (sess : Nat) (s : State) :
    exec (.spdmSessionEnd sess) s = execSpdmSessionEnd sess s := rfl

@[simp] theorem exec_linkLoss (k : Nat) (s : State) :
    exec (.linkLoss k) s = execLinkLoss k s := rfl

@[simp] theorem exec_parallaxStreamArrival (k : Nat) (s : State) :
    exec (.parallaxStreamArrival k) s = execParallaxStreamArrival k s := rfl

@[simp] theorem exec_parallaxAck (k : Nat) (status : Nat) (s : State) :
    exec (.parallaxAck k status) s = execParallaxAck k status s := rfl

@[simp] theorem exec_rmaWrite (sess : Nat) (terr : Nat) (va : Nat) (bytes : List (BitVec 8)) (s : State) :
    exec (.rmaWrite sess terr va bytes) s = execRmaWrite sess terr va bytes s := rfl

@[simp] theorem exec_rmaRead (sess : Nat) (terr : Nat) (va : Nat) (len : Nat) (s : State) :
    exec (.rmaRead sess terr va len) s = execRmaRead sess terr va len s := rfl

@[simp] theorem exec_unsupportedPacket (s : State) :
    exec .unsupportedPacket s = execUnsupportedPacket s := rfl

@[simp] theorem exec_create (h : Hdr) (tiles : List (Nat × Nat)) (minA : Nat) (maxB : Nat) (s : State) :
    exec (.create h tiles minA maxB) s = execCreate h tiles minA maxB s := rfl

@[simp] theorem exec_dissolve (h : Hdr) (s : State) :
    exec (.dissolve h) s = execDissolve h s := rfl

@[simp] theorem exec_policy (h : Hdr) (id : Nat) (value : Nat) (s : State) :
    exec (.policy h id value) s = execPolicy h id value s := rfl

@[simp] theorem exec_policySetAnchor (h : Hdr) (value : Nat) (s : State) :
    exec (.policySetAnchor h value) s = execPolicySetAnchor h value s := rfl

@[simp] theorem exec_policyClearAnchor (h : Hdr) (value : Nat) (s : State) :
    exec (.policyClearAnchor h value) s = execPolicyClearAnchor h value s := rfl

@[simp] theorem exec_pxpeers (h : Hdr) (value : Nat) (s : State) :
    exec (.pxpeers h value) s = execPxpeers h value s := rfl

@[simp] theorem exec_ops (h : Hdr) (value : Nat) (s : State) :
    exec (.ops h value) s = execOps h value s := rfl

@[simp] theorem exec_mapPages (h : Hdr) (va : Nat) (len : Nat) (psize : Nat) (perm : Nat) (s : State) :
    exec (.mapPages h va len psize perm) s = execMapPages h va len psize perm s := rfl

@[simp] theorem exec_unmap (h : Hdr) (va : Nat) (len : Nat) (s : State) :
    exec (.unmap h va len) s = execUnmap h va len s := rfl

@[simp] theorem exec_protect (h : Hdr) (va : Nat) (len : Nat) (perm : Nat) (s : State) :
    exec (.protect h va len perm) s = execProtect h va len perm s := rfl

@[simp] theorem exec_loadCode (h : Hdr) (body : CodeBody) (dimg : Nat) (s : State) :
    exec (.loadCode h body dimg) s = execLoadCode h body dimg s := rfl

@[simp] theorem exec_launch (h : Hdr) (body : LaunchBody) (s : State) :
    exec (.launch h body) s = execLaunch h body s := rfl

@[simp] theorem exec_preempt (h : Hdr) (s : State) :
    exec (.preempt h) s = execPreempt h s := rfl

@[simp] theorem exec_save (h : Hdr) (off : Nat) (full : Bool) (s : State) :
    exec (.save h off full) s = execSave h off full s := rfl

@[simp] theorem exec_restore (h : Hdr) (off : Nat) (s : State) :
    exec (.restore h off) s = execRestore h off s := rfl

@[simp] theorem exec_resume (h : Hdr) (s : State) :
    exec (.resume h) s = execResume h s := rfl

@[simp] theorem exec_debugClaim (h : Hdr) (sl : Nat) (s : State) :
    exec (.debugClaim h sl) s = execDebugClaim h sl s := rfl

@[simp] theorem exec_debugRelease (h : Hdr) (sl : Nat) (s : State) :
    exec (.debugRelease h sl) s = execDebugRelease h sl s := rfl

@[simp] theorem exec_debugHalt (h : Hdr) (sl : Nat) (s : State) :
    exec (.debugHalt h sl) s = execDebugHalt h sl s := rfl

@[simp] theorem exec_debugRead (h : Hdr) (sl : Nat) (s : State) :
    exec (.debugRead h sl) s = execDebugRead h sl s := rfl

@[simp] theorem exec_debugWrite (h : Hdr) (sl : Nat) (pos : Nat) (wr : DbgWrite) (s : State) :
    exec (.debugWrite h sl pos wr) s = execDebugWrite h sl pos wr s := rfl

@[simp] theorem exec_debugStep (h : Hdr) (sl : Nat) (s : State) :
    exec (.debugStep h sl) s = execDebugStep h sl s := rfl

@[simp] theorem exec_debugGo (h : Hdr) (sl : Nat) (s : State) :
    exec (.debugGo h sl) s = execDebugGo h sl s := rfl

@[simp] theorem exec_fwwrite (h : Hdr) (off : Nat) (bytes : List (BitVec 8)) (s : State) :
    exec (.fwwrite h off bytes) s = execFwwrite h off bytes s := rfl

@[simp] theorem exec_fwactivate (h : Hdr) (force : Bool) (s : State) :
    exec (.fwactivate h force) s = execFwactivate h force s := rfl

@[simp] theorem exec_fwcommit (h : Hdr) (s : State) :
    exec (.fwcommit h) s = execFwcommit h s := rfl

@[simp] theorem exec_openSession (h : Hdr) (fa : BitVec 128) (nonce : List (BitVec 8)) (s : State) :
    exec (.openSession h fa nonce) s = execOpenSession h fa nonce s := rfl

@[simp] theorem exec_close (h : Hdr) (s : State) :
    exec (.close h) s = execClose h s := rfl

@[simp] theorem exec_receipt (h : Hdr) (s : State) :
    exec (.receipt h) s = execReceipt h s := rfl

@[simp] theorem exec_evlog (h : Hdr) (first : Nat) (count : Nat) (s : State) :
    exec (.evlog h first count) s = execEvlog h first count s := rfl

@[simp] theorem exec_epadd (h : Hdr) (idx : Nat) (fa : BitVec 128) (job : Nat) (ports : BitVec 8) (s : State) :
    exec (.epadd h idx fa job ports) s = execEpadd h idx fa job ports s := rfl

@[simp] theorem exec_epdel (h : Hdr) (idx : Nat) (s : State) :
    exec (.epdel h idx) s = execEpdel h idx s := rfl

@[simp] theorem exec_ifRead (h : Hdr) (reg : Nat) (s : State) :
    exec (.ifRead h reg) s = execIfRead h reg s := rfl

@[simp] theorem exec_ifWrite (h : Hdr) (reg : Nat) (value : BitVec 64) (s : State) :
    exec (.ifWrite h reg value) s = execIfWrite h reg value s := rfl

@[simp] theorem exec_getCertificate (sess : Nat) (slot : Nat) (s : State) :
    exec (.getCertificate sess slot) s = execGetCertificate sess slot s := rfl

@[simp] theorem exec_challenge (sess : Nat) (nonce : List (BitVec 8)) (s : State) :
    exec (.challenge sess nonce) s = execChallenge sess nonce s := rfl

@[simp] theorem exec_getMeasurements (sess : Nat) (index : Nat) (s : State) :
    exec (.getMeasurements sess index) s = execGetMeasurements sess index s := rfl

@[simp] theorem exec_getDeviceInterfaceReport (sess : Nat) (terr : Nat) (s : State) :
    exec (.getDeviceInterfaceReport sess terr) s = execGetDeviceInterfaceReport sess terr s := rfl

@[simp] theorem exec_lockInterfaceRequest (sess : Nat) (terr : Nat) (s : State) :
    exec (.lockInterfaceRequest sess terr) s = execLockInterfaceRequest sess terr s := rfl

@[simp] theorem exec_startInterfaceRequest (sess : Nat) (terr : Nat) (nonce : List (BitVec 8)) (s : State) :
    exec (.startInterfaceRequest sess terr nonce) s = execStartInterfaceRequest sess terr nonce s := rfl

@[simp] theorem exec_stopInterfaceRequest (sess : Nat) (terr : Nat) (s : State) :
    exec (.stopInterfaceRequest sess terr) s = execStopInterfaceRequest sess terr s := rfl

@[simp] theorem exec_createIndexed (h : Hdr) (version : Nat) (tiles : List (Nat × Nat × Nat)) (minA : Nat) (maxB : Nat) (s : State) :
    exec (.createIndexed h version tiles minA maxB) s = execCreateIndexed h version tiles minA maxB s := rfl

@[simp] theorem exec_dirty (h : Hdr) (first : Nat) (count : Nat) (s : State) :
    exec (.dirty h first count) s = execDirty h first count s := rfl

@[simp] theorem exec_checkpoint (h : Hdr) (body : CkptBody) (s : State) :
    exec (.checkpoint h body) s = execCheckpoint h body s := rfl

@[simp] theorem exec_pxsend (h : Hdr) (off : Nat) (buddy : Nat) (boff : Nat) (bpoff : Option Nat) (s : State) :
    exec (.pxsend h off buddy boff bpoff) s = execPxsend h off buddy boff bpoff s := rfl

@[simp] theorem exec_loadpages (h : Hdr) (off : Nat) (s : State) :
    exec (.loadpages h off) s = execLoadpages h off s := rfl

@[simp] theorem exec_counters (h : Hdr) (first : Nat) (count : Nat) (s : State) :
    exec (.counters h first count) s = execCounters h first count s := rfl

@[simp] theorem exec_telemetry (h : Hdr) (s : State) :
    exec (.telemetry h) s = execTelemetry h s := rfl

@[simp] theorem exec_fenceTile (h : Hdr) (x : Nat) (y : Nat) (s : State) :
    exec (.fenceTile h x y) s = execFenceTile h x y s := rfl

@[simp] theorem exec_spdmSessionStart (sess : SpdmOffer) (s : State) :
    exec (.spdmSessionStart sess) s = execSpdmSessionStart sess s := rfl

@[simp] theorem exec_unknownCommand (h : Hdr) (code : Nat) (s : State) :
    exec (.unknownCommand h code) s = execUnknownCommand h code s := rfl

end Sys2Proof.Machine
end

