-- ==== Sys2Proof/Laws/Encoding.lean ====
section
/-! SUPPORT. What the fields of an encoded word read as: bounds of the codes, the inverse of each code, and the parts of
a C-word, an A-word and a lone bundle. -/

namespace Sys2Proof

theorem bitN_lt (b : Bool) : bitN b < 2 := by cases b <;> decide

theorem bit_of {w i : Nat} {b : Bool} (h : w / 2 ^ i % 2 = bitN b) : bit w i = b := by
  cases b <;> simp_all [bit, bitN]

@[simp] theorem finOf_val {n : Nat} [NeZero n] (x : Fin n) : finOf n x.val = some x := by
  simp [finOf, x.isLt, Fin.ofNat, Nat.mod_eq_of_lt]

@[simp] theorem flagOf_bitN (b : Bool) : flagOf (bitN b) = some b := by cases b <;> rfl

theorem MemSz.code_lt (x : MemSz) : x.code < 8 := by cases x <;> decide

@[simp] theorem MemSz.ofCode_code (x : MemSz) : MemSz.ofCode x.code = some x := by cases x <;> rfl

theorem ETy.code_lt (x : ETy) : x.code < 12 := by cases x <;> decide

@[simp] theorem ETy.ofCode_code (x : ETy) : ETy.ofCode x.code = some x := by cases x <;> rfl

theorem Scope.code_lt (x : Scope) : x.code < 4 := by cases x <;> decide

@[simp] theorem Scope.ofCode_code (x : Scope) : Scope.ofCode x.code = some x := by cases x <;> rfl

theorem Cond.code_lt (x : Cond) : x.code < 10 := by cases x <;> decide

@[simp] theorem Cond.ofCode_code (x : Cond) : Cond.ofCode x.code = some x := by cases x <;> rfl

theorem VCond.code_lt (x : VCond) : x.code < 6 := by cases x <;> decide

@[simp] theorem VCond.ofCode_code (x : VCond) : VCond.ofCode x.code = some x := by cases x <;> rfl

theorem AtomOp.code_lt (x : AtomOp) : x.code < 8 := by cases x <;> decide

@[simp] theorem AtomOp.ofCode_code (x : AtomOp) : AtomOp.ofCode x.code = some x := by cases x <;> rfl

theorem AtomTy.code_lt (x : AtomTy) : x.code < 3 := by cases x <;> decide

@[simp] theorem AtomTy.ofCode_code (x : AtomTy) : AtomTy.ofCode x.code = some x := by cases x <;> rfl

theorem Rm.code_lt (x : Rm) : x.code < 4 := by cases x <;> decide

@[simp] theorem Rm.ofCode_code (x : Rm) : Rm.ofCode x.code = some x := by cases x <;> rfl

theorem VoteOp.code_lt (x : VoteOp) : x.code < 3 := by cases x <;> decide

@[simp] theorem VoteOp.ofCode_code (x : VoteOp) : VoteOp.ofCode x.code = some x := by cases x <;> rfl

theorem FTy.code_lt (x : FTy) : x.code < 3 := by cases x <;> decide

@[simp] theorem FTy.ofCode_code (x : FTy) : FTy.ofCode x.code = some x := by cases x <;> rfl

theorem SrTy.code_lt (x : SrTy) : x.code < 4 := by cases x <;> decide

@[simp] theorem SrTy.ofCode_code (x : SrTy) : SrTy.ofCode x.code = some x := by cases x <;> rfl

theorem SysReg.code_lt (x : SysReg) : x.code < 17 := by cases x <;> decide

@[simp] theorem SysReg.ofCode_code (x : SysReg) : SysReg.ofCode x.code = some x := by cases x <;> rfl

theorem WFmt.code_lt (x : WFmt) : x.code < 4 := by cases x <;> decide

@[simp] theorem WFmt.ofCode_code (x : WFmt) : WFmt.ofCode x.code = some x := by cases x <;> rfl

theorem AFmt.code_lt (x : AFmt) : x.code < 5 := by cases x <;> decide

@[simp] theorem AFmt.ofCode_code (x : AFmt) : AFmt.ofCode x.code = some x := by cases x <;> rfl

/-- A field of the low part of a word is that part's. -/
theorem fld_low {w low x k hi lo : Nat} (hw : w = x * 2 ^ k + low) (hk : hi < k) (h : lo ≤ hi) :
    fld w hi lo = fld low hi lo := by
  subst hw
  simp only [fld]
  have h1 : (2 : Nat) ^ k = 2 ^ lo * (2 ^ (hi - lo + 1) * 2 ^ (k - hi - 1)) := by
    rw [← Nat.pow_add, ← Nat.pow_add]; congr 1; omega
  have h2 : x * 2 ^ k + low = low + 2 ^ lo * (2 ^ (hi - lo + 1) * (2 ^ (k - hi - 1) * x)) := by rw [h1]; ring
  rw [h2, Nat.add_mul_div_left _ _ (Nat.two_pow_pos lo), Nat.add_mul_mod_self_left]

/-- Where the parts of an A-word stand: its major, its guard and the 22 bits below (08 R158). -/
theorem aWord (g : Guard) (maj low w : Nat) (hl : low < 4194304) (hm : maj < 64)
    (hw : w = maj * 67108864 + guardBits g + low) :
    w < 2 ^ 32 ∧ fld w 31 26 = maj ∧ bit w 25 = g.neg ∧ fld w 24 22 = g.p.val ∧
      ∀ hi lo, lo ≤ hi → hi ≤ 21 → fld w hi lo = fld low hi lo := by
  obtain ⟨n, p⟩ := g
  have hn := bitN_lt n
  have hp := p.isLt
  simp only [guardBits] at hw
  refine ⟨by omega, by simp only [fld]; omega, bit_of (b := n) (by omega), by simp only [fld]; omega, ?_⟩
  · intro hi lo h1 h
    exact fld_low (low := low) (k := 22) (x := maj * 16 + bitN n * 8 + p.val) (by rw [hw]; norm_num; ring) (by omega) h1

/-- Where the parts of a C-word stand: the S bit, the major and the 24 bits below (08 R157). -/
theorem cWord (m : Bool) (maj low w : Nat) (hl : low < 16777216) (hm : maj < 64)
    (hw : w = maj * 16777216 + sBit m + low) :
    w < 2 ^ 31 ∧ fld w 29 24 = maj ∧ bit w 30 = m ∧ ∀ hi lo, lo ≤ hi → hi ≤ 23 → fld w hi lo = fld low hi lo := by
  have hn := bitN_lt m
  simp only [sBit] at hw
  refine ⟨by omega, by simp only [fld]; omega, bit_of (by omega), ?_⟩
  intro hi lo h1 h
  exact fld_low (low := low) (k := 24) (x := maj + bitN m * 64) (by rw [hw]; norm_num; ring) (by omega) h1

/-- Where the parts of a lone bundle stand: those of its C-word, and the extension word above (08 R159). -/
theorem lWord (m : Bool) (maj low ext w : Nat) (hl : low < 16777216) (hm : maj < 51) (hx : ext < 4294967296)
    (hw : w = maj * 16777216 + loneBits m + low + ext * 4294967296) :
    (w < 2 ^ 64 ∧ bit (w % 2 ^ 32) 31 = true ∧ fld (w % 2 ^ 32) 29 24 < 51) ∧ fld w 29 24 = maj ∧ bit w 30 = m ∧
      (∀ hi lo, lo ≤ hi → hi ≤ 23 → fld w hi lo = fld low hi lo) ∧
      ∀ hi lo, lo ≤ hi → 32 ≤ lo → fld w hi lo = fld ext (hi - 32) (lo - 32) := by
  have hn := bitN_lt m
  simp only [loneBits] at hw
  have hmaj : fld w 29 24 = maj := by simp only [fld]; omega
  refine ⟨⟨by omega, bit_of (b := true) (by simp only [bitN, if_true]; omega), by simp only [fld] at *; omega⟩, hmaj, bit_of (by omega), ?_, ?_⟩
  · intro hi lo h1 h
    exact fld_low (low := low) (k := 24) (x := maj + bitN m * 64 + 128 + ext * 256) (by rw [hw]; norm_num; ring) (by omega) h1
  · intro hi lo h1 h
    have h3 : w / 2 ^ lo = ext / 2 ^ (lo - 32) := by
      have : (2 : Nat) ^ lo = 2 ^ 32 * 2 ^ (lo - 32) := by rw [← Nat.pow_add]; congr 1; omega
      rw [this, ← Nat.div_div_eq_div_mul]
      congr 1
      omega
    have h2 : hi - 32 - (lo - 32) = hi - lo := by omega
    simp only [fld, h3, h2]

end Sys2Proof
end

