-- ==== Sys2Proof/Laws/PerInstr.lean ====
section
/-! SUPPORT. The round trip of encoder and decoder, one lemma for each constructor of Instr: what `encode` writes for a
well-formed instruction is read back as that instruction. -/

namespace Sys2Proof.Laws

/-- The word that encodes a well-formed instruction decodes to it. -/
def RoundTrip.Statement (i : Instr) : Prop := i.wf = true → match encode i with
  | .cword w => w < 2 ^ 31 ∧ decodeC w = some i
  | .aword w => w < 2 ^ 32 ∧ decodeA w = some i
  | .lone w => (w < 2 ^ 64 ∧ bit (w % 2 ^ 32) 31 = true ∧ fld (w % 2 ^ 32) 29 24 < 51) ∧ decodeL w = some i
  | .event => True

theorem RoundTrip.nopC (m : Bool) : RoundTrip.Statement (.nopC m) := by
  intro hwf
  rw [show encode (.nopC m) = .cword (put 0 0 (sBit m)) from rfl]
  obtain ⟨w, hw⟩ : ∃ w, w = put 0 0 (sBit m) := ⟨_, rfl⟩
  rw [← hw]
  obtain ⟨h0, hm, hb, hf⟩ := cWord m 0 0 w (by omega) (by omega) (by rw [hw]; simp only [put, sBit]; omega)
  refine ⟨h0, ?_⟩
  have h1 : fld w 17 0 = 0 := by rw [hf _ _ (by decide) (by decide)]; simp only [fld]; omega
  have h2 : fld w 23 18 = 0 := by rw [hf _ _ (by decide) (by decide)]; simp only [fld]; omega
  simp [decodeC, rawC, decC0, hm, hb, h1, h2, hwf, Option.filter]

theorem RoundTrip.ret (m : Bool) : RoundTrip.Statement (.ret m) := by
  intro hwf
  rw [show encode (.ret m) = .cword (put 262144 0 (sBit m)) from rfl]
  obtain ⟨w, hw⟩ : ∃ w, w = put 262144 0 (sBit m) := ⟨_, rfl⟩
  rw [← hw]
  obtain ⟨h0, hm, hb, hf⟩ := cWord m 0 (262144) w (by omega) (by omega) (by rw [hw]; simp only [put, sBit]; omega)
  refine ⟨h0, ?_⟩
  have h1 : fld w 17 0 = 0 := by rw [hf _ _ (by decide) (by decide)]; simp only [fld]; omega
  have h2 : fld w 23 18 = 1 := by rw [hf _ _ (by decide) (by decide)]; simp only [fld]; omega
  simp [decodeC, rawC, decC0, hm, hb, h1, h2, hwf, Option.filter]

theorem RoundTrip.rett (m : Bool) : RoundTrip.Statement (.rett m) := by
  intro hwf
  rw [show encode (.rett m) = .cword (put 524288 0 (sBit m)) from rfl]
  obtain ⟨w, hw⟩ : ∃ w, w = put 524288 0 (sBit m) := ⟨_, rfl⟩
  rw [← hw]
  obtain ⟨h0, hm, hb, hf⟩ := cWord m 0 (524288) w (by omega) (by omega) (by rw [hw]; simp only [put, sBit]; omega)
  refine ⟨h0, ?_⟩
  have h1 : fld w 17 0 = 0 := by rw [hf _ _ (by decide) (by decide)]; simp only [fld]; omega
  have h2 : fld w 23 18 = 2 := by rw [hf _ _ (by decide) (by decide)]; simp only [fld]; omega
  simp [decodeC, rawC, decC0, hm, hb, h1, h2, hwf, Option.filter]

theorem RoundTrip.upret (m : Bool) : RoundTrip.Statement (.upret m) := by
  intro hwf
  rw [show encode (.upret m) = .cword (put 786432 0 (sBit m)) from rfl]
  obtain ⟨w, hw⟩ : ∃ w, w = put 786432 0 (sBit m) := ⟨_, rfl⟩
  rw [← hw]
  obtain ⟨h0, hm, hb, hf⟩ := cWord m 0 (786432) w (by omega) (by omega) (by rw [hw]; simp only [put, sBit]; omega)
  refine ⟨h0, ?_⟩
  have h1 : fld w 17 0 = 0 := by rw [hf _ _ (by decide) (by decide)]; simp only [fld]; omega
  have h2 : fld w 23 18 = 3 := by rw [hf _ _ (by decide) (by decide)]; simp only [fld]; omega
  simp [decodeC, rawC, decC0, hm, hb, h1, h2, hwf, Option.filter]

theorem RoundTrip.exit (m : Bool) : RoundTrip.Statement (.exit m) := by
  intro hwf
  rw [show encode (.exit m) = .cword (put 1048576 0 (sBit m)) from rfl]
  obtain ⟨w, hw⟩ : ∃ w, w = put 1048576 0 (sBit m) := ⟨_, rfl⟩
  rw [← hw]
  obtain ⟨h0, hm, hb, hf⟩ := cWord m 0 (1048576) w (by omega) (by omega) (by rw [hw]; simp only [put, sBit]; omega)
  refine ⟨h0, ?_⟩
  have h1 : fld w 17 0 = 0 := by rw [hf _ _ (by decide) (by decide)]; simp only [fld]; omega
  have h2 : fld w 23 18 = 4 := by rw [hf _ _ (by decide) (by decide)]; simp only [fld]; omega
  simp [decodeC, rawC, decC0, hm, hb, h1, h2, hwf, Option.filter]

theorem RoundTrip.yld (m : Bool) : RoundTrip.Statement (.yld m) := by
  intro hwf
  rw [show encode (.yld m) = .cword (put 1310720 0 (sBit m)) from rfl]
  obtain ⟨w, hw⟩ : ∃ w, w = put 1310720 0 (sBit m) := ⟨_, rfl⟩
  rw [← hw]
  obtain ⟨h0, hm, hb, hf⟩ := cWord m 0 (1310720) w (by omega) (by omega) (by rw [hw]; simp only [put, sBit]; omega)
  refine ⟨h0, ?_⟩
  have h1 : fld w 17 0 = 0 := by rw [hf _ _ (by decide) (by decide)]; simp only [fld]; omega
  have h2 : fld w 23 18 = 5 := by rw [hf _ _ (by decide) (by decide)]; simp only [fld]; omega
  simp [decodeC, rawC, decC0, hm, hb, h1, h2, hwf, Option.filter]

theorem RoundTrip.trap (m : Bool) (imm : BitVec 18) : RoundTrip.Statement (.trap m imm) := by
  intro hwf
  have := imm.isLt
  rw [show encode (.trap m imm) = .cword (put (imm.toNat) 0 (put 1572864 0 (sBit m))) from rfl]
  obtain ⟨w, hw⟩ : ∃ w, w = put (imm.toNat) 0 (put 1572864 0 (sBit m)) := ⟨_, rfl⟩
  rw [← hw]
  obtain ⟨h0, hm, hb, hf⟩ := cWord m 0 (imm.toNat + 1572864) w (by omega) (by omega) (by rw [hw]; simp only [put, sBit]; omega)
  refine ⟨h0, ?_⟩
  have h1 : fld w 17 0 = imm.toNat := by rw [hf _ _ (by decide) (by decide)]; simp only [fld]; omega
  have h2 : fld w 23 18 = 6 := by rw [hf _ _ (by decide) (by decide)]; simp only [fld]; omega
  simp [decodeC, rawC, decC0, hm, hb, h1, h2, hwf, Option.filter]

theorem RoundTrip.bkpt (m : Bool) (imm : BitVec 18) : RoundTrip.Statement (.bkpt m imm) := by
  intro hwf
  have := imm.isLt
  rw [show encode (.bkpt m imm) = .cword (put (imm.toNat) 0 (put 1835008 0 (sBit m))) from rfl]
  obtain ⟨w, hw⟩ : ∃ w, w = put (imm.toNat) 0 (put 1835008 0 (sBit m)) := ⟨_, rfl⟩
  rw [← hw]
  obtain ⟨h0, hm, hb, hf⟩ := cWord m 0 (imm.toNat + 1835008) w (by omega) (by omega) (by rw [hw]; simp only [put, sBit]; omega)
  refine ⟨h0, ?_⟩
  have h1 : fld w 17 0 = imm.toNat := by rw [hf _ _ (by decide) (by decide)]; simp only [fld]; omega
  have h2 : fld w 23 18 = 7 := by rw [hf _ _ (by decide) (by decide)]; simp only [fld]; omega
  simp [decodeC, rawC, decC0, hm, hb, h1, h2, hwf, Option.filter]

theorem RoundTrip.fence (m : Bool) (sc : Scope) : RoundTrip.Statement (.fence m sc) := by
  intro hwf
  have := sc.code_lt
  rw [show encode (.fence m sc) = .cword (put (sc.code) 0 (put 2097152 0 (sBit m))) from rfl]
  obtain ⟨w, hw⟩ : ∃ w, w = put (sc.code) 0 (put 2097152 0 (sBit m)) := ⟨_, rfl⟩
  rw [← hw]
  obtain ⟨h0, hm, hb, hf⟩ := cWord m 0 (sc.code + 2097152) w (by omega) (by omega) (by rw [hw]; simp only [put, sBit]; omega)
  refine ⟨h0, ?_⟩
  have h1 : fld w 1 0 = sc.code := by rw [hf _ _ (by decide) (by decide)]; simp only [fld]; omega
  have h2 : fld w 17 2 = 0 := by rw [hf _ _ (by decide) (by decide)]; simp only [fld]; omega
  have h3 : fld w 23 18 = 8 := by rw [hf _ _ (by decide) (by decide)]; simp only [fld]; omega
  simp [decodeC, rawC, decC0, hm, hb, h1, h2, h3, hwf, Option.filter]

theorem RoundTrip.fencesc (m : Bool) (sc : Scope) : RoundTrip.Statement (.fencesc m sc) := by
  intro hwf
  have := sc.code_lt
  rw [show encode (.fencesc m sc) = .cword (put (sc.code) 0 (put 2359296 0 (sBit m))) from rfl]
  obtain ⟨w, hw⟩ : ∃ w, w = put (sc.code) 0 (put 2359296 0 (sBit m)) := ⟨_, rfl⟩
  rw [← hw]
  obtain ⟨h0, hm, hb, hf⟩ := cWord m 0 (sc.code + 2359296) w (by omega) (by omega) (by rw [hw]; simp only [put, sBit]; omega)
  refine ⟨h0, ?_⟩
  have h1 : fld w 1 0 = sc.code := by rw [hf _ _ (by decide) (by decide)]; simp only [fld]; omega
  have h2 : fld w 17 2 = 0 := by rw [hf _ _ (by decide) (by decide)]; simp only [fld]; omega
  have h3 : fld w 23 18 = 9 := by rw [hf _ _ (by decide) (by decide)]; simp only [fld]; omega
  simp [decodeC, rawC, decC0, hm, hb, h1, h2, h3, hwf, Option.filter]

theorem RoundTrip.br (m : Bool) (disp : BitVec 24) : RoundTrip.Statement (.br m disp) := by
  intro hwf
  have := disp.isLt
  rw [show encode (.br m disp) = .cword (put (disp.toNat) 0 (put 16777216 0 (sBit m))) from rfl]
  obtain ⟨w, hw⟩ : ∃ w, w = put (disp.toNat) 0 (put 16777216 0 (sBit m)) := ⟨_, rfl⟩
  rw [← hw]
  obtain ⟨h0, hm, hb, hf⟩ := cWord m 1 (disp.toNat) w (by omega) (by omega) (by rw [hw]; simp only [put, sBit]; omega)
  refine ⟨h0, ?_⟩
  have h1 : fld w 23 0 = disp.toNat := by rw [hf _ _ (by decide) (by decide)]; simp only [fld]; omega
  simp [decodeC, rawC, decC1, hm, hb, h1, hwf, Option.filter]

theorem RoundTrip.brp (m : Bool) (n : Bool) (p : PReg) (disp : BitVec 20) : RoundTrip.Statement (.brp m n p disp) := by
  intro hwf
  have := bitN_lt n
  have := p.isLt
  have := disp.isLt
  rw [show encode (.brp m n p disp) = .cword (put (disp.toNat) 0 (put (p.val) 20 (put (bitN n) 23 (put 33554432 0 (sBit m))))) from rfl]
  obtain ⟨w, hw⟩ : ∃ w, w = put (disp.toNat) 0 (put (p.val) 20 (put (bitN n) 23 (put 33554432 0 (sBit m)))) := ⟨_, rfl⟩
  rw [← hw]
  obtain ⟨h0, hm, hb, hf⟩ := cWord m 2 (disp.toNat + p.val * 1048576 + bitN n * 8388608) w (by omega) (by omega) (by rw [hw]; simp only [put, sBit]; omega)
  refine ⟨h0, ?_⟩
  have h1 : fld w 19 0 = disp.toNat := by rw [hf _ _ (by decide) (by decide)]; simp only [fld]; omega
  have h2 : fld w 22 20 = p.val := by rw [hf _ _ (by decide) (by decide)]; simp only [fld]; omega
  have h3 : bit w 23 = n := bit_of (by have := hf 23 23 (by decide) (by decide); simp only [fld] at this; omega)
  simp [decodeC, rawC, decC2, hm, hb, h1, h2, h3, hwf, Option.filter]

theorem RoundTrip.call (m : Bool) (disp : BitVec 24) : RoundTrip.Statement (.call m disp) := by
  intro hwf
  have := disp.isLt
  rw [show encode (.call m disp) = .cword (put (disp.toNat) 0 (put 50331648 0 (sBit m))) from rfl]
  obtain ⟨w, hw⟩ : ∃ w, w = put (disp.toNat) 0 (put 50331648 0 (sBit m)) := ⟨_, rfl⟩
  rw [← hw]
  obtain ⟨h0, hm, hb, hf⟩ := cWord m 3 (disp.toNat) w (by omega) (by omega) (by rw [hw]; simp only [put, sBit]; omega)
  refine ⟨h0, ?_⟩
  have h1 : fld w 23 0 = disp.toNat := by rw [hf _ _ (by decide) (by decide)]; simp only [fld]; omega
  simp [decodeC, rawC, decC3, hm, hb, h1, hwf, Option.filter]

theorem RoundTrip.detach (m : Bool) (disp : BitVec 24) : RoundTrip.Statement (.detach m disp) := by
  intro hwf
  have := disp.isLt
  rw [show encode (.detach m disp) = .cword (put (disp.toNat) 0 (put 67108864 0 (sBit m))) from rfl]
  obtain ⟨w, hw⟩ : ∃ w, w = put (disp.toNat) 0 (put 67108864 0 (sBit m)) := ⟨_, rfl⟩
  rw [← hw]
  obtain ⟨h0, hm, hb, hf⟩ := cWord m 4 (disp.toNat) w (by omega) (by omega) (by rw [hw]; simp only [put, sBit]; omega)
  refine ⟨h0, ?_⟩
  have h1 : fld w 23 0 = disp.toNat := by rw [hf _ _ (by decide) (by decide)]; simp only [fld]; omega
  simp [decodeC, rawC, decC4, hm, hb, h1, hwf, Option.filter]

theorem RoundTrip.attach (m : Bool) (disp : BitVec 24) : RoundTrip.Statement (.attach m disp) := by
  intro hwf
  have := disp.isLt
  rw [show encode (.attach m disp) = .cword (put (disp.toNat) 0 (put 83886080 0 (sBit m))) from rfl]
  obtain ⟨w, hw⟩ : ∃ w, w = put (disp.toNat) 0 (put 83886080 0 (sBit m)) := ⟨_, rfl⟩
  rw [← hw]
  obtain ⟨h0, hm, hb, hf⟩ := cWord m 5 (disp.toNat) w (by omega) (by omega) (by rw [hw]; simp only [put, sBit]; omega)
  refine ⟨h0, ?_⟩
  have h1 : fld w 23 0 = disp.toNat := by rw [hf _ _ (by decide) (by decide)]; simp only [fld]; omega
  simp [decodeC, rawC, decC5, hm, hb, h1, hwf, Option.filter]

theorem RoundTrip.loop (m : Bool) (lvl : Lvl) (count : BitVec 12) (fin : BitVec 10) : RoundTrip.Statement (.loop m lvl count fin) := by
  intro hwf
  have := lvl.isLt
  have := count.isLt
  have := fin.isLt
  rw [show encode (.loop m lvl count fin) = .cword (put (fin.toNat) 0 (put (count.toNat) 10 (put (lvl.val) 22 (put 100663296 0 (sBit m))))) from rfl]
  obtain ⟨w, hw⟩ : ∃ w, w = put (fin.toNat) 0 (put (count.toNat) 10 (put (lvl.val) 22 (put 100663296 0 (sBit m)))) := ⟨_, rfl⟩
  rw [← hw]
  obtain ⟨h0, hm, hb, hf⟩ := cWord m 6 (fin.toNat + count.toNat * 1024 + lvl.val * 4194304) w (by omega) (by omega) (by rw [hw]; simp only [put, sBit]; omega)
  refine ⟨h0, ?_⟩
  have h1 : fld w 9 0 = fin.toNat := by rw [hf _ _ (by decide) (by decide)]; simp only [fld]; omega
  have h2 : fld w 21 10 = count.toNat := by rw [hf _ _ (by decide) (by decide)]; simp only [fld]; omega
  have h3 : fld w 23 22 = lvl.val := by rw [hf _ _ (by decide) (by decide)]; simp only [fld]; omega
  simp [decodeC, rawC, decC6, hm, hb, h1, h2, h3, hwf, Option.filter]

theorem RoundTrip.loopr (m : Bool) (lvl : Lvl) (a : Reg) (fin : BitVec 10) : RoundTrip.Statement (.loopr m lvl a fin) := by
  intro hwf
  have := lvl.isLt
  have := a.isLt
  have := fin.isLt
  rw [show encode (.loopr m lvl a fin) = .cword (put (fin.toNat) 0 (put (a.val) 17 (put (lvl.val) 22 (put 117440512 0 (sBit m))))) from rfl]
  obtain ⟨w, hw⟩ : ∃ w, w = put (fin.toNat) 0 (put (a.val) 17 (put (lvl.val) 22 (put 117440512 0 (sBit m)))) := ⟨_, rfl⟩
  rw [← hw]
  obtain ⟨h0, hm, hb, hf⟩ := cWord m 7 (fin.toNat + a.val * 131072 + lvl.val * 4194304) w (by omega) (by omega) (by rw [hw]; simp only [put, sBit]; omega)
  refine ⟨h0, ?_⟩
  have h1 : fld w 9 0 = fin.toNat := by rw [hf _ _ (by decide) (by decide)]; simp only [fld]; omega
  have h2 : fld w 16 10 = 0 := by rw [hf _ _ (by decide) (by decide)]; simp only [fld]; omega
  have h3 : fld w 21 17 = a.val := by rw [hf _ _ (by decide) (by decide)]; simp only [fld]; omega
  have h4 : fld w 23 22 = lvl.val := by rw [hf _ _ (by decide) (by decide)]; simp only [fld]; omega
  simp [decodeC, rawC, decC7, hm, hb, h1, h2, h3, h4, hwf, Option.filter]

theorem RoundTrip.jmp (m : Bool) (a : Reg) : RoundTrip.Statement (.jmp m a) := by
  intro hwf
  have := a.isLt
  rw [show encode (.jmp m a) = .cword (put (a.val) 14 (put 134217728 0 (sBit m))) from rfl]
  obtain ⟨w, hw⟩ : ∃ w, w = put (a.val) 14 (put 134217728 0 (sBit m)) := ⟨_, rfl⟩
  rw [← hw]
  obtain ⟨h0, hm, hb, hf⟩ := cWord m 8 (a.val * 16384) w (by omega) (by omega) (by rw [hw]; simp only [put, sBit]; omega)
  refine ⟨h0, ?_⟩
  have h1 : fld w 5 0 = 0 := by rw [hf _ _ (by decide) (by decide)]; simp only [fld]; omega
  have h2 : fld w 8 6 = 0 := by rw [hf _ _ (by decide) (by decide)]; simp only [fld]; omega
  have h3 : fld w 13 9 = 0 := by rw [hf _ _ (by decide) (by decide)]; simp only [fld]; omega
  have h4 : fld w 18 14 = a.val := by rw [hf _ _ (by decide) (by decide)]; simp only [fld]; omega
  have h5 : fld w 23 19 = 0 := by rw [hf _ _ (by decide) (by decide)]; simp only [fld]; omega
  simp [decodeC, rawC, decC8, hm, hb, h1, h2, h3, h4, h5, hwf, Option.filter]

theorem RoundTrip.callr (m : Bool) (a : Reg) : RoundTrip.Statement (.callr m a) := by
  intro hwf
  have := a.isLt
  rw [show encode (.callr m a) = .cword (put (a.val) 14 (put 134217729 0 (sBit m))) from rfl]
  obtain ⟨w, hw⟩ : ∃ w, w = put (a.val) 14 (put 134217729 0 (sBit m)) := ⟨_, rfl⟩
  rw [← hw]
  obtain ⟨h0, hm, hb, hf⟩ := cWord m 8 (a.val * 16384 + 1) w (by omega) (by omega) (by rw [hw]; simp only [put, sBit]; omega)
  refine ⟨h0, ?_⟩
  have h1 : fld w 5 0 = 1 := by rw [hf _ _ (by decide) (by decide)]; simp only [fld]; omega
  have h2 : fld w 8 6 = 0 := by rw [hf _ _ (by decide) (by decide)]; simp only [fld]; omega
  have h3 : fld w 13 9 = 0 := by rw [hf _ _ (by decide) (by decide)]; simp only [fld]; omega
  have h4 : fld w 18 14 = a.val := by rw [hf _ _ (by decide) (by decide)]; simp only [fld]; omega
  have h5 : fld w 23 19 = 0 := by rw [hf _ _ (by decide) (by decide)]; simp only [fld]; omega
  simp [decodeC, rawC, decC8, hm, hb, h1, h2, h3, h4, h5, hwf, Option.filter]

theorem RoundTrip.mvtl (m : Bool) (lp : LReg) (a : Reg) : RoundTrip.Statement (.mvtl m lp a) := by
  intro hwf
  have := lp.isLt
  have := a.isLt
  rw [show encode (.mvtl m lp a) = .cword (put (a.val) 14 (put (lp.val) 19 (put 134217730 0 (sBit m)))) from rfl]
  obtain ⟨w, hw⟩ : ∃ w, w = put (a.val) 14 (put (lp.val) 19 (put 134217730 0 (sBit m))) := ⟨_, rfl⟩
  rw [← hw]
  obtain ⟨h0, hm, hb, hf⟩ := cWord m 8 (a.val * 16384 + lp.val * 524288 + 2) w (by omega) (by omega) (by rw [hw]; simp only [put, sBit]; omega)
  refine ⟨h0, ?_⟩
  have h1 : fld w 5 0 = 2 := by rw [hf _ _ (by decide) (by decide)]; simp only [fld]; omega
  have h2 : fld w 8 6 = 0 := by rw [hf _ _ (by decide) (by decide)]; simp only [fld]; omega
  have h3 : fld w 13 9 = 0 := by rw [hf _ _ (by decide) (by decide)]; simp only [fld]; omega
  have h4 : fld w 18 14 = a.val := by rw [hf _ _ (by decide) (by decide)]; simp only [fld]; omega
  have h5 : fld w 23 19 = lp.val := by rw [hf _ _ (by decide) (by decide)]; simp only [fld]; omega
  simp [decodeC, rawC, decC8, hm, hb, h1, h2, h3, h4, h5, hwf, Option.filter]

theorem RoundTrip.mvfl (m : Bool) (d : Reg) (lp : LReg) : RoundTrip.Statement (.mvfl m d lp) := by
  intro hwf
  have := d.isLt
  have := lp.isLt
  rw [show encode (.mvfl m d lp) = .cword (put (lp.val) 14 (put (d.val) 19 (put 134217731 0 (sBit m)))) from rfl]
  obtain ⟨w, hw⟩ : ∃ w, w = put (lp.val) 14 (put (d.val) 19 (put 134217731 0 (sBit m))) := ⟨_, rfl⟩
  rw [← hw]
  obtain ⟨h0, hm, hb, hf⟩ := cWord m 8 (lp.val * 16384 + d.val * 524288 + 3) w (by omega) (by omega) (by rw [hw]; simp only [put, sBit]; omega)
  refine ⟨h0, ?_⟩
  have h1 : fld w 5 0 = 3 := by rw [hf _ _ (by decide) (by decide)]; simp only [fld]; omega
  have h2 : fld w 8 6 = 0 := by rw [hf _ _ (by decide) (by decide)]; simp only [fld]; omega
  have h3 : fld w 13 9 = 0 := by rw [hf _ _ (by decide) (by decide)]; simp only [fld]; omega
  have h4 : fld w 18 14 = lp.val := by rw [hf _ _ (by decide) (by decide)]; simp only [fld]; omega
  have h5 : fld w 23 19 = d.val := by rw [hf _ _ (by decide) (by decide)]; simp only [fld]; omega
  simp [decodeC, rawC, decC8, hm, hb, h1, h2, h3, h4, h5, hwf, Option.filter]

theorem RoundTrip.mfs (m : Bool) (d : Reg) (r : SysReg) : RoundTrip.Statement (.mfs m d r) := by
  intro hwf
  have := d.isLt
  have := r.code_lt
  rw [show encode (.mfs m d r) = .cword (put (r.code) 14 (put (d.val) 19 (put 134217732 0 (sBit m)))) from rfl]
  obtain ⟨w, hw⟩ : ∃ w, w = put (r.code) 14 (put (d.val) 19 (put 134217732 0 (sBit m))) := ⟨_, rfl⟩
  rw [← hw]
  obtain ⟨h0, hm, hb, hf⟩ := cWord m 8 (r.code * 16384 + d.val * 524288 + 4) w (by omega) (by omega) (by rw [hw]; simp only [put, sBit]; omega)
  refine ⟨h0, ?_⟩
  have h1 : fld w 5 0 = 4 := by rw [hf _ _ (by decide) (by decide)]; simp only [fld]; omega
  have h2 : fld w 8 6 = 0 := by rw [hf _ _ (by decide) (by decide)]; simp only [fld]; omega
  have h3 : fld w 13 9 = 0 := by rw [hf _ _ (by decide) (by decide)]; simp only [fld]; omega
  have h4 : fld w 18 14 = r.code := by rw [hf _ _ (by decide) (by decide)]; simp only [fld]; omega
  have h5 : fld w 23 19 = d.val := by rw [hf _ _ (by decide) (by decide)]; simp only [fld]; omega
  simp [decodeC, rawC, decC8, hm, hb, h1, h2, h3, h4, h5, hwf, Option.filter]

theorem RoundTrip.mts (m : Bool) (r : SysReg) (a : Reg) : RoundTrip.Statement (.mts m r a) := by
  intro hwf
  have := r.code_lt
  have := a.isLt
  rw [show encode (.mts m r a) = .cword (put (a.val) 14 (put (r.code) 19 (put 134217733 0 (sBit m)))) from rfl]
  obtain ⟨w, hw⟩ : ∃ w, w = put (a.val) 14 (put (r.code) 19 (put 134217733 0 (sBit m))) := ⟨_, rfl⟩
  rw [← hw]
  obtain ⟨h0, hm, hb, hf⟩ := cWord m 8 (a.val * 16384 + r.code * 524288 + 5) w (by omega) (by omega) (by rw [hw]; simp only [put, sBit]; omega)
  refine ⟨h0, ?_⟩
  have h1 : fld w 5 0 = 5 := by rw [hf _ _ (by decide) (by decide)]; simp only [fld]; omega
  have h2 : fld w 8 6 = 0 := by rw [hf _ _ (by decide) (by decide)]; simp only [fld]; omega
  have h3 : fld w 13 9 = 0 := by rw [hf _ _ (by decide) (by decide)]; simp only [fld]; omega
  have h4 : fld w 18 14 = a.val := by rw [hf _ _ (by decide) (by decide)]; simp only [fld]; omega
  have h5 : fld w 23 19 = r.code := by rw [hf _ _ (by decide) (by decide)]; simp only [fld]; omega
  simp [decodeC, rawC, decC8, hm, hb, h1, h2, h3, h4, h5, hwf, Option.filter]

theorem RoundTrip.disc (m : Bool) (d : Reg) (n : Fin 32) : RoundTrip.Statement (.disc m d n) := by
  intro hwf
  have := d.isLt
  have := n.isLt
  rw [show encode (.disc m d n) = .cword (put (n.val) 14 (put (d.val) 19 (put 134217734 0 (sBit m)))) from rfl]
  obtain ⟨w, hw⟩ : ∃ w, w = put (n.val) 14 (put (d.val) 19 (put 134217734 0 (sBit m))) := ⟨_, rfl⟩
  rw [← hw]
  obtain ⟨h0, hm, hb, hf⟩ := cWord m 8 (n.val * 16384 + d.val * 524288 + 6) w (by omega) (by omega) (by rw [hw]; simp only [put, sBit]; omega)
  refine ⟨h0, ?_⟩
  have h1 : fld w 5 0 = 6 := by rw [hf _ _ (by decide) (by decide)]; simp only [fld]; omega
  have h2 : fld w 8 6 = 0 := by rw [hf _ _ (by decide) (by decide)]; simp only [fld]; omega
  have h3 : fld w 13 9 = 0 := by rw [hf _ _ (by decide) (by decide)]; simp only [fld]; omega
  have h4 : fld w 18 14 = n.val := by rw [hf _ _ (by decide) (by decide)]; simp only [fld]; omega
  have h5 : fld w 23 19 = d.val := by rw [hf _ _ (by decide) (by decide)]; simp only [fld]; omega
  simp [decodeC, rawC, decC8, hm, hb, h1, h2, h3, h4, h5, hwf, Option.filter]

theorem RoundTrip.cycle (m : Bool) (d : Reg) : RoundTrip.Statement (.cycle m d) := by
  intro hwf
  have := d.isLt
  rw [show encode (.cycle m d) = .cword (put (d.val) 19 (put 134217735 0 (sBit m))) from rfl]
  obtain ⟨w, hw⟩ : ∃ w, w = put (d.val) 19 (put 134217735 0 (sBit m)) := ⟨_, rfl⟩
  rw [← hw]
  obtain ⟨h0, hm, hb, hf⟩ := cWord m 8 (d.val * 524288 + 7) w (by omega) (by omega) (by rw [hw]; simp only [put, sBit]; omega)
  refine ⟨h0, ?_⟩
  have h1 : fld w 5 0 = 7 := by rw [hf _ _ (by decide) (by decide)]; simp only [fld]; omega
  have h2 : fld w 8 6 = 0 := by rw [hf _ _ (by decide) (by decide)]; simp only [fld]; omega
  have h3 : fld w 13 9 = 0 := by rw [hf _ _ (by decide) (by decide)]; simp only [fld]; omega
  have h4 : fld w 18 14 = 0 := by rw [hf _ _ (by decide) (by decide)]; simp only [fld]; omega
  have h5 : fld w 23 19 = d.val := by rw [hf _ _ (by decide) (by decide)]; simp only [fld]; omega
  simp [decodeC, rawC, decC8, hm, hb, h1, h2, h3, h4, h5, hwf, Option.filter]

theorem RoundTrip.seal (m : Bool) (a : Reg) (b : Reg) : RoundTrip.Statement (.seal m a b) := by
  intro hwf
  have := a.isLt
  have := b.isLt
  rw [show encode (.seal m a b) = .cword (put (b.val) 9 (put (a.val) 14 (put 134217736 0 (sBit m)))) from rfl]
  obtain ⟨w, hw⟩ : ∃ w, w = put (b.val) 9 (put (a.val) 14 (put 134217736 0 (sBit m))) := ⟨_, rfl⟩
  rw [← hw]
  obtain ⟨h0, hm, hb, hf⟩ := cWord m 8 (b.val * 512 + a.val * 16384 + 8) w (by omega) (by omega) (by rw [hw]; simp only [put, sBit]; omega)
  refine ⟨h0, ?_⟩
  have h1 : fld w 5 0 = 8 := by rw [hf _ _ (by decide) (by decide)]; simp only [fld]; omega
  have h2 : fld w 8 6 = 0 := by rw [hf _ _ (by decide) (by decide)]; simp only [fld]; omega
  have h3 : fld w 13 9 = b.val := by rw [hf _ _ (by decide) (by decide)]; simp only [fld]; omega
  have h4 : fld w 18 14 = a.val := by rw [hf _ _ (by decide) (by decide)]; simp only [fld]; omega
  have h5 : fld w 23 19 = 0 := by rw [hf _ _ (by decide) (by decide)]; simp only [fld]; omega
  simp [decodeC, rawC, decC8, hm, hb, h1, h2, h3, h4, h5, hwf, Option.filter]

theorem RoundTrip.spawn (m : Bool) (d : Reg) (a : Reg) : RoundTrip.Statement (.spawn m d a) := by
  intro hwf
  have := d.isLt
  have := a.isLt
  rw [show encode (.spawn m d a) = .cword (put (a.val) 14 (put (d.val) 19 (put 134217737 0 (sBit m)))) from rfl]
  obtain ⟨w, hw⟩ : ∃ w, w = put (a.val) 14 (put (d.val) 19 (put 134217737 0 (sBit m))) := ⟨_, rfl⟩
  rw [← hw]
  obtain ⟨h0, hm, hb, hf⟩ := cWord m 8 (a.val * 16384 + d.val * 524288 + 9) w (by omega) (by omega) (by rw [hw]; simp only [put, sBit]; omega)
  refine ⟨h0, ?_⟩
  have h1 : fld w 5 0 = 9 := by rw [hf _ _ (by decide) (by decide)]; simp only [fld]; omega
  have h2 : fld w 8 6 = 0 := by rw [hf _ _ (by decide) (by decide)]; simp only [fld]; omega
  have h3 : fld w 13 9 = 0 := by rw [hf _ _ (by decide) (by decide)]; simp only [fld]; omega
  have h4 : fld w 18 14 = a.val := by rw [hf _ _ (by decide) (by decide)]; simp only [fld]; omega
  have h5 : fld w 23 19 = d.val := by rw [hf _ _ (by decide) (by decide)]; simp only [fld]; omega
  simp [decodeC, rawC, decC8, hm, hb, h1, h2, h3, h4, h5, hwf, Option.filter]

theorem RoundTrip.ld (m : Bool) (d : Reg) (a : Reg) (sz : MemSz) (disp : BitVec 11) : RoundTrip.Statement (.ld m d a sz disp) := by
  intro hwf
  have := d.isLt
  have := a.isLt
  have := sz.code_lt
  have := disp.isLt
  rw [show encode (.ld m d a sz disp) = .cword (put (disp.toNat) 0 (put (sz.code) 11 (put (a.val) 14 (put (d.val) 19 (put 150994944 0 (sBit m)))))) from rfl]
  obtain ⟨w, hw⟩ : ∃ w, w = put (disp.toNat) 0 (put (sz.code) 11 (put (a.val) 14 (put (d.val) 19 (put 150994944 0 (sBit m))))) := ⟨_, rfl⟩
  rw [← hw]
  obtain ⟨h0, hm, hb, hf⟩ := cWord m 9 (disp.toNat + sz.code * 2048 + a.val * 16384 + d.val * 524288) w (by omega) (by omega) (by rw [hw]; simp only [put, sBit]; omega)
  refine ⟨h0, ?_⟩
  have h1 : fld w 10 0 = disp.toNat := by rw [hf _ _ (by decide) (by decide)]; simp only [fld]; omega
  have h2 : fld w 13 11 = sz.code := by rw [hf _ _ (by decide) (by decide)]; simp only [fld]; omega
  have h3 : fld w 18 14 = a.val := by rw [hf _ _ (by decide) (by decide)]; simp only [fld]; omega
  have h4 : fld w 23 19 = d.val := by rw [hf _ _ (by decide) (by decide)]; simp only [fld]; omega
  simp [decodeC, rawC, decC9, hm, hb, h1, h2, h3, h4, hwf, Option.filter]

theorem RoundTrip.st (m : Bool) (d : Reg) (a : Reg) (sz : MemSz) (disp : BitVec 11) : RoundTrip.Statement (.st m d a sz disp) := by
  intro hwf
  have := d.isLt
  have := a.isLt
  have := sz.code_lt
  have := disp.isLt
  rw [show encode (.st m d a sz disp) = .cword (put (disp.toNat) 0 (put (sz.code) 11 (put (a.val) 14 (put (d.val) 19 (put 167772160 0 (sBit m)))))) from rfl]
  obtain ⟨w, hw⟩ : ∃ w, w = put (disp.toNat) 0 (put (sz.code) 11 (put (a.val) 14 (put (d.val) 19 (put 167772160 0 (sBit m))))) := ⟨_, rfl⟩
  rw [← hw]
  obtain ⟨h0, hm, hb, hf⟩ := cWord m 10 (disp.toNat + sz.code * 2048 + a.val * 16384 + d.val * 524288) w (by omega) (by omega) (by rw [hw]; simp only [put, sBit]; omega)
  refine ⟨h0, ?_⟩
  have h1 : fld w 10 0 = disp.toNat := by rw [hf _ _ (by decide) (by decide)]; simp only [fld]; omega
  have h2 : fld w 13 11 = sz.code := by rw [hf _ _ (by decide) (by decide)]; simp only [fld]; omega
  have h3 : fld w 18 14 = a.val := by rw [hf _ _ (by decide) (by decide)]; simp only [fld]; omega
  have h4 : fld w 23 19 = d.val := by rw [hf _ _ (by decide) (by decide)]; simp only [fld]; omega
  simp [decodeC, rawC, decC10, hm, hb, h1, h2, h3, h4, hwf, Option.filter]

theorem RoundTrip.lda (m : Bool) (d : Reg) (a : Reg) (sz : MemSz) (sc : Scope) (disp : BitVec 9) : RoundTrip.Statement (.lda m d a sz sc disp) := by
  intro hwf
  have := d.isLt
  have := a.isLt
  have := sz.code_lt
  have := sc.code_lt
  have := disp.isLt
  rw [show encode (.lda m d a sz sc disp) = .cword (put (disp.toNat) 0 (put (sc.code) 9 (put (sz.code) 11 (put (a.val) 14 (put (d.val) 19 (put 184549376 0 (sBit m))))))) from rfl]
  obtain ⟨w, hw⟩ : ∃ w, w = put (disp.toNat) 0 (put (sc.code) 9 (put (sz.code) 11 (put (a.val) 14 (put (d.val) 19 (put 184549376 0 (sBit m)))))) := ⟨_, rfl⟩
  rw [← hw]
  obtain ⟨h0, hm, hb, hf⟩ := cWord m 11 (disp.toNat + sc.code * 512 + sz.code * 2048 + a.val * 16384 + d.val * 524288) w (by omega) (by omega) (by rw [hw]; simp only [put, sBit]; omega)
  refine ⟨h0, ?_⟩
  have h1 : fld w 8 0 = disp.toNat := by rw [hf _ _ (by decide) (by decide)]; simp only [fld]; omega
  have h2 : fld w 10 9 = sc.code := by rw [hf _ _ (by decide) (by decide)]; simp only [fld]; omega
  have h3 : fld w 13 11 = sz.code := by rw [hf _ _ (by decide) (by decide)]; simp only [fld]; omega
  have h4 : fld w 18 14 = a.val := by rw [hf _ _ (by decide) (by decide)]; simp only [fld]; omega
  have h5 : fld w 23 19 = d.val := by rw [hf _ _ (by decide) (by decide)]; simp only [fld]; omega
  simp [decodeC, rawC, decC11, hm, hb, h1, h2, h3, h4, h5, hwf, Option.filter]

theorem RoundTrip.stl (m : Bool) (d : Reg) (a : Reg) (sz : MemSz) (sc : Scope) (disp : BitVec 9) : RoundTrip.Statement (.stl m d a sz sc disp) := by
  intro hwf
  have := d.isLt
  have := a.isLt
  have := sz.code_lt
  have := sc.code_lt
  have := disp.isLt
  rw [show encode (.stl m d a sz sc disp) = .cword (put (disp.toNat) 0 (put (sc.code) 9 (put (sz.code) 11 (put (a.val) 14 (put (d.val) 19 (put 201326592 0 (sBit m))))))) from rfl]
  obtain ⟨w, hw⟩ : ∃ w, w = put (disp.toNat) 0 (put (sc.code) 9 (put (sz.code) 11 (put (a.val) 14 (put (d.val) 19 (put 201326592 0 (sBit m)))))) := ⟨_, rfl⟩
  rw [← hw]
  obtain ⟨h0, hm, hb, hf⟩ := cWord m 12 (disp.toNat + sc.code * 512 + sz.code * 2048 + a.val * 16384 + d.val * 524288) w (by omega) (by omega) (by rw [hw]; simp only [put, sBit]; omega)
  refine ⟨h0, ?_⟩
  have h1 : fld w 8 0 = disp.toNat := by rw [hf _ _ (by decide) (by decide)]; simp only [fld]; omega
  have h2 : fld w 10 9 = sc.code := by rw [hf _ _ (by decide) (by decide)]; simp only [fld]; omega
  have h3 : fld w 13 11 = sz.code := by rw [hf _ _ (by decide) (by decide)]; simp only [fld]; omega
  have h4 : fld w 18 14 = a.val := by rw [hf _ _ (by decide) (by decide)]; simp only [fld]; omega
  have h5 : fld w 23 19 = d.val := by rw [hf _ _ (by decide) (by decide)]; simp only [fld]; omega
  simp [decodeC, rawC, decC12, hm, hb, h1, h2, h3, h4, h5, hwf, Option.filter]

theorem RoundTrip.ldp (m : Bool) (d : Reg) (a : Reg) (sz : MemSz) (disp : BitVec 11) : RoundTrip.Statement (.ldp m d a sz disp) := by
  intro hwf
  have := d.isLt
  have := a.isLt
  have := sz.code_lt
  have := disp.isLt
  rw [show encode (.ldp m d a sz disp) = .cword (put (disp.toNat) 0 (put (sz.code) 11 (put (a.val) 14 (put (d.val) 19 (put 218103808 0 (sBit m)))))) from rfl]
  obtain ⟨w, hw⟩ : ∃ w, w = put (disp.toNat) 0 (put (sz.code) 11 (put (a.val) 14 (put (d.val) 19 (put 218103808 0 (sBit m))))) := ⟨_, rfl⟩
  rw [← hw]
  obtain ⟨h0, hm, hb, hf⟩ := cWord m 13 (disp.toNat + sz.code * 2048 + a.val * 16384 + d.val * 524288) w (by omega) (by omega) (by rw [hw]; simp only [put, sBit]; omega)
  refine ⟨h0, ?_⟩
  have h1 : fld w 10 0 = disp.toNat := by rw [hf _ _ (by decide) (by decide)]; simp only [fld]; omega
  have h2 : fld w 13 11 = sz.code := by rw [hf _ _ (by decide) (by decide)]; simp only [fld]; omega
  have h3 : fld w 18 14 = a.val := by rw [hf _ _ (by decide) (by decide)]; simp only [fld]; omega
  have h4 : fld w 23 19 = d.val := by rw [hf _ _ (by decide) (by decide)]; simp only [fld]; omega
  simp [decodeC, rawC, decC13, hm, hb, h1, h2, h3, h4, hwf, Option.filter]

theorem RoundTrip.stp (m : Bool) (d : Reg) (a : Reg) (sz : MemSz) (disp : BitVec 11) : RoundTrip.Statement (.stp m d a sz disp) := by
  intro hwf
  have := d.isLt
  have := a.isLt
  have := sz.code_lt
  have := disp.isLt
  rw [show encode (.stp m d a sz disp) = .cword (put (disp.toNat) 0 (put (sz.code) 11 (put (a.val) 14 (put (d.val) 19 (put 234881024 0 (sBit m)))))) from rfl]
  obtain ⟨w, hw⟩ : ∃ w, w = put (disp.toNat) 0 (put (sz.code) 11 (put (a.val) 14 (put (d.val) 19 (put 234881024 0 (sBit m))))) := ⟨_, rfl⟩
  rw [← hw]
  obtain ⟨h0, hm, hb, hf⟩ := cWord m 14 (disp.toNat + sz.code * 2048 + a.val * 16384 + d.val * 524288) w (by omega) (by omega) (by rw [hw]; simp only [put, sBit]; omega)
  refine ⟨h0, ?_⟩
  have h1 : fld w 10 0 = disp.toNat := by rw [hf _ _ (by decide) (by decide)]; simp only [fld]; omega
  have h2 : fld w 13 11 = sz.code := by rw [hf _ _ (by decide) (by decide)]; simp only [fld]; omega
  have h3 : fld w 18 14 = a.val := by rw [hf _ _ (by decide) (by decide)]; simp only [fld]; omega
  have h4 : fld w 23 19 = d.val := by rw [hf _ _ (by decide) (by decide)]; simp only [fld]; omega
  simp [decodeC, rawC, decC14, hm, hb, h1, h2, h3, h4, hwf, Option.filter]

theorem RoundTrip.vld (m : Bool) (d : Reg) (a : Reg) (disp : BitVec 11) : RoundTrip.Statement (.vld m d a disp) := by
  intro hwf
  have := d.isLt
  have := a.isLt
  have := disp.isLt
  rw [show encode (.vld m d a disp) = .cword (put (disp.toNat) 0 (put (a.val) 14 (put (d.val) 19 (put 251658240 0 (sBit m))))) from rfl]
  obtain ⟨w, hw⟩ : ∃ w, w = put (disp.toNat) 0 (put (a.val) 14 (put (d.val) 19 (put 251658240 0 (sBit m)))) := ⟨_, rfl⟩
  rw [← hw]
  obtain ⟨h0, hm, hb, hf⟩ := cWord m 15 (disp.toNat + a.val * 16384 + d.val * 524288) w (by omega) (by omega) (by rw [hw]; simp only [put, sBit]; omega)
  refine ⟨h0, ?_⟩
  have h1 : fld w 10 0 = disp.toNat := by rw [hf _ _ (by decide) (by decide)]; simp only [fld]; omega
  have h2 : fld w 13 11 = 0 := by rw [hf _ _ (by decide) (by decide)]; simp only [fld]; omega
  have h3 : fld w 18 14 = a.val := by rw [hf _ _ (by decide) (by decide)]; simp only [fld]; omega
  have h4 : fld w 23 19 = d.val := by rw [hf _ _ (by decide) (by decide)]; simp only [fld]; omega
  simp [decodeC, rawC, decC15, hm, hb, h1, h2, h3, h4, hwf, Option.filter]

theorem RoundTrip.vst (m : Bool) (d : Reg) (a : Reg) (disp : BitVec 11) : RoundTrip.Statement (.vst m d a disp) := by
  intro hwf
  have := d.isLt
  have := a.isLt
  have := disp.isLt
  rw [show encode (.vst m d a disp) = .cword (put (disp.toNat) 0 (put (a.val) 14 (put (d.val) 19 (put 268435456 0 (sBit m))))) from rfl]
  obtain ⟨w, hw⟩ : ∃ w, w = put (disp.toNat) 0 (put (a.val) 14 (put (d.val) 19 (put 268435456 0 (sBit m)))) := ⟨_, rfl⟩
  rw [← hw]
  obtain ⟨h0, hm, hb, hf⟩ := cWord m 16 (disp.toNat + a.val * 16384 + d.val * 524288) w (by omega) (by omega) (by rw [hw]; simp only [put, sBit]; omega)
  refine ⟨h0, ?_⟩
  have h1 : fld w 10 0 = disp.toNat := by rw [hf _ _ (by decide) (by decide)]; simp only [fld]; omega
  have h2 : fld w 13 11 = 0 := by rw [hf _ _ (by decide) (by decide)]; simp only [fld]; omega
  have h3 : fld w 18 14 = a.val := by rw [hf _ _ (by decide) (by decide)]; simp only [fld]; omega
  have h4 : fld w 23 19 = d.val := by rw [hf _ _ (by decide) (by decide)]; simp only [fld]; omega
  simp [decodeC, rawC, decC16, hm, hb, h1, h2, h3, h4, hwf, Option.filter]

theorem RoundTrip.vldp (m : Bool) (d : Reg) (a : Reg) (disp : BitVec 11) : RoundTrip.Statement (.vldp m d a disp) := by
  intro hwf
  have := d.isLt
  have := a.isLt
  have := disp.isLt
  rw [show encode (.vldp m d a disp) = .cword (put (disp.toNat) 0 (put (a.val) 14 (put (d.val) 19 (put 285212672 0 (sBit m))))) from rfl]
  obtain ⟨w, hw⟩ : ∃ w, w = put (disp.toNat) 0 (put (a.val) 14 (put (d.val) 19 (put 285212672 0 (sBit m)))) := ⟨_, rfl⟩
  rw [← hw]
  obtain ⟨h0, hm, hb, hf⟩ := cWord m 17 (disp.toNat + a.val * 16384 + d.val * 524288) w (by omega) (by omega) (by rw [hw]; simp only [put, sBit]; omega)
  refine ⟨h0, ?_⟩
  have h1 : fld w 10 0 = disp.toNat := by rw [hf _ _ (by decide) (by decide)]; simp only [fld]; omega
  have h2 : fld w 13 11 = 0 := by rw [hf _ _ (by decide) (by decide)]; simp only [fld]; omega
  have h3 : fld w 18 14 = a.val := by rw [hf _ _ (by decide) (by decide)]; simp only [fld]; omega
  have h4 : fld w 23 19 = d.val := by rw [hf _ _ (by decide) (by decide)]; simp only [fld]; omega
  simp [decodeC, rawC, decC17, hm, hb, h1, h2, h3, h4, hwf, Option.filter]

theorem RoundTrip.vstp (m : Bool) (d : Reg) (a : Reg) (disp : BitVec 11) : RoundTrip.Statement (.vstp m d a disp) := by
  intro hwf
  have := d.isLt
  have := a.isLt
  have := disp.isLt
  rw [show encode (.vstp m d a disp) = .cword (put (disp.toNat) 0 (put (a.val) 14 (put (d.val) 19 (put 301989888 0 (sBit m))))) from rfl]
  obtain ⟨w, hw⟩ : ∃ w, w = put (disp.toNat) 0 (put (a.val) 14 (put (d.val) 19 (put 301989888 0 (sBit m)))) := ⟨_, rfl⟩
  rw [← hw]
  obtain ⟨h0, hm, hb, hf⟩ := cWord m 18 (disp.toNat + a.val * 16384 + d.val * 524288) w (by omega) (by omega) (by rw [hw]; simp only [put, sBit]; omega)
  refine ⟨h0, ?_⟩
  have h1 : fld w 10 0 = disp.toNat := by rw [hf _ _ (by decide) (by decide)]; simp only [fld]; omega
  have h2 : fld w 13 11 = 0 := by rw [hf _ _ (by decide) (by decide)]; simp only [fld]; omega
  have h3 : fld w 18 14 = a.val := by rw [hf _ _ (by decide) (by decide)]; simp only [fld]; omega
  have h4 : fld w 23 19 = d.val := by rw [hf _ _ (by decide) (by decide)]; simp only [fld]; omega
  simp [decodeC, rawC, decC18, hm, hb, h1, h2, h3, h4, hwf, Option.filter]

theorem RoundTrip.vlds (m : Bool) (d : Reg) (a : Reg) (b : Reg) (sz : MemSz) : RoundTrip.Statement (.vlds m d a b sz) := by
  intro hwf
  have := d.isLt
  have := a.isLt
  have := b.isLt
  have := sz.code_lt
  rw [show encode (.vlds m d a b sz) = .cword (put (sz.code) 6 (put (b.val) 9 (put (a.val) 14 (put (d.val) 19 (put 318767104 0 (sBit m)))))) from rfl]
  obtain ⟨w, hw⟩ : ∃ w, w = put (sz.code) 6 (put (b.val) 9 (put (a.val) 14 (put (d.val) 19 (put 318767104 0 (sBit m))))) := ⟨_, rfl⟩
  rw [← hw]
  obtain ⟨h0, hm, hb, hf⟩ := cWord m 19 (sz.code * 64 + b.val * 512 + a.val * 16384 + d.val * 524288) w (by omega) (by omega) (by rw [hw]; simp only [put, sBit]; omega)
  refine ⟨h0, ?_⟩
  have h1 : fld w 5 0 = 0 := by rw [hf _ _ (by decide) (by decide)]; simp only [fld]; omega
  have h2 : fld w 8 6 = sz.code := by rw [hf _ _ (by decide) (by decide)]; simp only [fld]; omega
  have h3 : fld w 13 9 = b.val := by rw [hf _ _ (by decide) (by decide)]; simp only [fld]; omega
  have h4 : fld w 18 14 = a.val := by rw [hf _ _ (by decide) (by decide)]; simp only [fld]; omega
  have h5 : fld w 23 19 = d.val := by rw [hf _ _ (by decide) (by decide)]; simp only [fld]; omega
  simp [decodeC, rawC, decC19, hm, hb, h1, h2, h3, h4, h5, hwf, Option.filter]

theorem RoundTrip.vsts (m : Bool) (d : Reg) (a : Reg) (b : Reg) (sz : MemSz) : RoundTrip.Statement (.vsts m d a b sz) := by
  intro hwf
  have := d.isLt
  have := a.isLt
  have := b.isLt
  have := sz.code_lt
  rw [show encode (.vsts m d a b sz) = .cword (put (sz.code) 6 (put (b.val) 9 (put (a.val) 14 (put (d.val) 19 (put 318767105 0 (sBit m)))))) from rfl]
  obtain ⟨w, hw⟩ : ∃ w, w = put (sz.code) 6 (put (b.val) 9 (put (a.val) 14 (put (d.val) 19 (put 318767105 0 (sBit m))))) := ⟨_, rfl⟩
  rw [← hw]
  obtain ⟨h0, hm, hb, hf⟩ := cWord m 19 (sz.code * 64 + b.val * 512 + a.val * 16384 + d.val * 524288 + 1) w (by omega) (by omega) (by rw [hw]; simp only [put, sBit]; omega)
  refine ⟨h0, ?_⟩
  have h1 : fld w 5 0 = 1 := by rw [hf _ _ (by decide) (by decide)]; simp only [fld]; omega
  have h2 : fld w 8 6 = sz.code := by rw [hf _ _ (by decide) (by decide)]; simp only [fld]; omega
  have h3 : fld w 13 9 = b.val := by rw [hf _ _ (by decide) (by decide)]; simp only [fld]; omega
  have h4 : fld w 18 14 = a.val := by rw [hf _ _ (by decide) (by decide)]; simp only [fld]; omega
  have h5 : fld w 23 19 = d.val := by rw [hf _ _ (by decide) (by decide)]; simp only [fld]; omega
  simp [decodeC, rawC, decC19, hm, hb, h1, h2, h3, h4, h5, hwf, Option.filter]

theorem RoundTrip.vgath (m : Bool) (d : Reg) (a : Reg) (b : Reg) (sz : MemSz) : RoundTrip.Statement (.vgath m d a b sz) := by
  intro hwf
  have := d.isLt
  have := a.isLt
  have := b.isLt
  have := sz.code_lt
  rw [show encode (.vgath m d a b sz) = .cword (put (sz.code) 6 (put (b.val) 9 (put (a.val) 14 (put (d.val) 19 (put 318767106 0 (sBit m)))))) from rfl]
  obtain ⟨w, hw⟩ : ∃ w, w = put (sz.code) 6 (put (b.val) 9 (put (a.val) 14 (put (d.val) 19 (put 318767106 0 (sBit m))))) := ⟨_, rfl⟩
  rw [← hw]
  obtain ⟨h0, hm, hb, hf⟩ := cWord m 19 (sz.code * 64 + b.val * 512 + a.val * 16384 + d.val * 524288 + 2) w (by omega) (by omega) (by rw [hw]; simp only [put, sBit]; omega)
  refine ⟨h0, ?_⟩
  have h1 : fld w 5 0 = 2 := by rw [hf _ _ (by decide) (by decide)]; simp only [fld]; omega
  have h2 : fld w 8 6 = sz.code := by rw [hf _ _ (by decide) (by decide)]; simp only [fld]; omega
  have h3 : fld w 13 9 = b.val := by rw [hf _ _ (by decide) (by decide)]; simp only [fld]; omega
  have h4 : fld w 18 14 = a.val := by rw [hf _ _ (by decide) (by decide)]; simp only [fld]; omega
  have h5 : fld w 23 19 = d.val := by rw [hf _ _ (by decide) (by decide)]; simp only [fld]; omega
  simp [decodeC, rawC, decC19, hm, hb, h1, h2, h3, h4, h5, hwf, Option.filter]

theorem RoundTrip.vscat (m : Bool) (d : Reg) (a : Reg) (b : Reg) (sz : MemSz) : RoundTrip.Statement (.vscat m d a b sz) := by
  intro hwf
  have := d.isLt
  have := a.isLt
  have := b.isLt
  have := sz.code_lt
  rw [show encode (.vscat m d a b sz) = .cword (put (sz.code) 6 (put (b.val) 9 (put (a.val) 14 (put (d.val) 19 (put 318767107 0 (sBit m)))))) from rfl]
  obtain ⟨w, hw⟩ : ∃ w, w = put (sz.code) 6 (put (b.val) 9 (put (a.val) 14 (put (d.val) 19 (put 318767107 0 (sBit m))))) := ⟨_, rfl⟩
  rw [← hw]
  obtain ⟨h0, hm, hb, hf⟩ := cWord m 19 (sz.code * 64 + b.val * 512 + a.val * 16384 + d.val * 524288 + 3) w (by omega) (by omega) (by rw [hw]; simp only [put, sBit]; omega)
  refine ⟨h0, ?_⟩
  have h1 : fld w 5 0 = 3 := by rw [hf _ _ (by decide) (by decide)]; simp only [fld]; omega
  have h2 : fld w 8 6 = sz.code := by rw [hf _ _ (by decide) (by decide)]; simp only [fld]; omega
  have h3 : fld w 13 9 = b.val := by rw [hf _ _ (by decide) (by decide)]; simp only [fld]; omega
  have h4 : fld w 18 14 = a.val := by rw [hf _ _ (by decide) (by decide)]; simp only [fld]; omega
  have h5 : fld w 23 19 = d.val := by rw [hf _ _ (by decide) (by decide)]; simp only [fld]; omega
  simp [decodeC, rawC, decC19, hm, hb, h1, h2, h3, h4, h5, hwf, Option.filter]

theorem RoundTrip.atom (m : Bool) (d : Reg) (a : Reg) (b : Reg) (op : AtomOp) (ty : AtomTy) : RoundTrip.Statement (.atom m d a b op ty) := by
  intro hwf
  have := d.isLt
  have := a.isLt
  have := b.isLt
  have := op.code_lt
  have := ty.code_lt
  rw [show encode (.atom m d a b op ty) = .cword (put (ty.code) 4 (put (op.code) 6 (put (b.val) 9 (put (a.val) 14 (put (d.val) 19 (put 335544320 0 (sBit m))))))) from rfl]
  obtain ⟨w, hw⟩ : ∃ w, w = put (ty.code) 4 (put (op.code) 6 (put (b.val) 9 (put (a.val) 14 (put (d.val) 19 (put 335544320 0 (sBit m)))))) := ⟨_, rfl⟩
  rw [← hw]
  obtain ⟨h0, hm, hb, hf⟩ := cWord m 20 (ty.code * 16 + op.code * 64 + b.val * 512 + a.val * 16384 + d.val * 524288) w (by omega) (by omega) (by rw [hw]; simp only [put, sBit]; omega)
  refine ⟨h0, ?_⟩
  have h1 : fld w 3 0 = 0 := by rw [hf _ _ (by decide) (by decide)]; simp only [fld]; omega
  have h2 : fld w 5 4 = ty.code := by rw [hf _ _ (by decide) (by decide)]; simp only [fld]; omega
  have h3 : fld w 8 6 = op.code := by rw [hf _ _ (by decide) (by decide)]; simp only [fld]; omega
  have h4 : fld w 13 9 = b.val := by rw [hf _ _ (by decide) (by decide)]; simp only [fld]; omega
  have h5 : fld w 18 14 = a.val := by rw [hf _ _ (by decide) (by decide)]; simp only [fld]; omega
  have h6 : fld w 23 19 = d.val := by rw [hf _ _ (by decide) (by decide)]; simp only [fld]; omega
  simp [decodeC, rawC, decC20, hm, hb, h1, h2, h3, h4, h5, h6, hwf, Option.filter]

theorem RoundTrip.atomp (m : Bool) (d : Reg) (a : Reg) (b : Reg) (op : AtomOp) (ty : AtomTy) : RoundTrip.Statement (.atomp m d a b op ty) := by
  intro hwf
  have := d.isLt
  have := a.isLt
  have := b.isLt
  have := op.code_lt
  have := ty.code_lt
  rw [show encode (.atomp m d a b op ty) = .cword (put (ty.code) 4 (put (op.code) 6 (put (b.val) 9 (put (a.val) 14 (put (d.val) 19 (put 352321536 0 (sBit m))))))) from rfl]
  obtain ⟨w, hw⟩ : ∃ w, w = put (ty.code) 4 (put (op.code) 6 (put (b.val) 9 (put (a.val) 14 (put (d.val) 19 (put 352321536 0 (sBit m)))))) := ⟨_, rfl⟩
  rw [← hw]
  obtain ⟨h0, hm, hb, hf⟩ := cWord m 21 (ty.code * 16 + op.code * 64 + b.val * 512 + a.val * 16384 + d.val * 524288) w (by omega) (by omega) (by rw [hw]; simp only [put, sBit]; omega)
  refine ⟨h0, ?_⟩
  have h1 : fld w 3 0 = 0 := by rw [hf _ _ (by decide) (by decide)]; simp only [fld]; omega
  have h2 : fld w 5 4 = ty.code := by rw [hf _ _ (by decide) (by decide)]; simp only [fld]; omega
  have h3 : fld w 8 6 = op.code := by rw [hf _ _ (by decide) (by decide)]; simp only [fld]; omega
  have h4 : fld w 13 9 = b.val := by rw [hf _ _ (by decide) (by decide)]; simp only [fld]; omega
  have h5 : fld w 18 14 = a.val := by rw [hf _ _ (by decide) (by decide)]; simp only [fld]; omega
  have h6 : fld w 23 19 = d.val := by rw [hf _ _ (by decide) (by decide)]; simp only [fld]; omega
  simp [decodeC, rawC, decC21, hm, hb, h1, h2, h3, h4, h5, h6, hwf, Option.filter]

theorem RoundTrip.bar (m : Bool) (id : Bar) : RoundTrip.Statement (.bar m id) := by
  intro hwf
  have := id.isLt
  rw [show encode (.bar m id) = .cword (put (id.val) 6 (put 369098752 0 (sBit m))) from rfl]
  obtain ⟨w, hw⟩ : ∃ w, w = put (id.val) 6 (put 369098752 0 (sBit m)) := ⟨_, rfl⟩
  rw [← hw]
  obtain ⟨h0, hm, hb, hf⟩ := cWord m 22 (id.val * 64) w (by omega) (by omega) (by rw [hw]; simp only [put, sBit]; omega)
  refine ⟨h0, ?_⟩
  have h1 : fld w 5 0 = 0 := by rw [hf _ _ (by decide) (by decide)]; simp only [fld]; omega
  have h2 : fld w 8 6 = id.val := by rw [hf _ _ (by decide) (by decide)]; simp only [fld]; omega
  have h3 : fld w 13 9 = 0 := by rw [hf _ _ (by decide) (by decide)]; simp only [fld]; omega
  have h4 : fld w 18 14 = 0 := by rw [hf _ _ (by decide) (by decide)]; simp only [fld]; omega
  have h5 : fld w 23 19 = 0 := by rw [hf _ _ (by decide) (by decide)]; simp only [fld]; omega
  simp [decodeC, rawC, decC22, hm, hb, h1, h2, h3, h4, h5, hwf, Option.filter]

theorem RoundTrip.barq (m : Bool) (d : Reg) (id : Bar) : RoundTrip.Statement (.barq m d id) := by
  intro hwf
  have := d.isLt
  have := id.isLt
  rw [show encode (.barq m d id) = .cword (put (id.val) 6 (put (d.val) 19 (put 369098753 0 (sBit m)))) from rfl]
  obtain ⟨w, hw⟩ : ∃ w, w = put (id.val) 6 (put (d.val) 19 (put 369098753 0 (sBit m))) := ⟨_, rfl⟩
  rw [← hw]
  obtain ⟨h0, hm, hb, hf⟩ := cWord m 22 (id.val * 64 + d.val * 524288 + 1) w (by omega) (by omega) (by rw [hw]; simp only [put, sBit]; omega)
  refine ⟨h0, ?_⟩
  have h1 : fld w 5 0 = 1 := by rw [hf _ _ (by decide) (by decide)]; simp only [fld]; omega
  have h2 : fld w 8 6 = id.val := by rw [hf _ _ (by decide) (by decide)]; simp only [fld]; omega
  have h3 : fld w 13 9 = 0 := by rw [hf _ _ (by decide) (by decide)]; simp only [fld]; omega
  have h4 : fld w 18 14 = 0 := by rw [hf _ _ (by decide) (by decide)]; simp only [fld]; omega
  have h5 : fld w 23 19 = d.val := by rw [hf _ _ (by decide) (by decide)]; simp only [fld]; omega
  simp [decodeC, rawC, decC22, hm, hb, h1, h2, h3, h4, h5, hwf, Option.filter]

theorem RoundTrip.vote (m : Bool) (d : Reg) (a : Reg) (op : VoteOp) : RoundTrip.Statement (.vote m d a op) := by
  intro hwf
  have := d.isLt
  have := a.isLt
  have := op.code_lt
  rw [show encode (.vote m d a op) = .cword (put (op.code) 6 (put (a.val) 14 (put (d.val) 19 (put 369098754 0 (sBit m))))) from rfl]
  obtain ⟨w, hw⟩ : ∃ w, w = put (op.code) 6 (put (a.val) 14 (put (d.val) 19 (put 369098754 0 (sBit m)))) := ⟨_, rfl⟩
  rw [← hw]
  obtain ⟨h0, hm, hb, hf⟩ := cWord m 22 (op.code * 64 + a.val * 16384 + d.val * 524288 + 2) w (by omega) (by omega) (by rw [hw]; simp only [put, sBit]; omega)
  refine ⟨h0, ?_⟩
  have h1 : fld w 5 0 = 2 := by rw [hf _ _ (by decide) (by decide)]; simp only [fld]; omega
  have h2 : fld w 8 6 = op.code := by rw [hf _ _ (by decide) (by decide)]; simp only [fld]; omega
  have h3 : fld w 13 9 = 0 := by rw [hf _ _ (by decide) (by decide)]; simp only [fld]; omega
  have h4 : fld w 18 14 = a.val := by rw [hf _ _ (by decide) (by decide)]; simp only [fld]; omega
  have h5 : fld w 23 19 = d.val := by rw [hf _ _ (by decide) (by decide)]; simp only [fld]; omega
  simp [decodeC, rawC, decC22, hm, hb, h1, h2, h3, h4, h5, hwf, Option.filter]

theorem RoundTrip.rsub (m : Bool) (a : Reg) (ring : Ring) : RoundTrip.Statement (.rsub m a ring) := by
  intro hwf
  have := a.isLt
  have := ring.isLt
  rw [show encode (.rsub m a ring) = .cword (put (ring.val) 9 (put (a.val) 14 (put 369098755 0 (sBit m)))) from rfl]
  obtain ⟨w, hw⟩ : ∃ w, w = put (ring.val) 9 (put (a.val) 14 (put 369098755 0 (sBit m))) := ⟨_, rfl⟩
  rw [← hw]
  obtain ⟨h0, hm, hb, hf⟩ := cWord m 22 (ring.val * 512 + a.val * 16384 + 3) w (by omega) (by omega) (by rw [hw]; simp only [put, sBit]; omega)
  refine ⟨h0, ?_⟩
  have h1 : fld w 5 0 = 3 := by rw [hf _ _ (by decide) (by decide)]; simp only [fld]; omega
  have h2 : fld w 8 6 = 0 := by rw [hf _ _ (by decide) (by decide)]; simp only [fld]; omega
  have h3 : fld w 13 9 = ring.val := by rw [hf _ _ (by decide) (by decide)]; simp only [fld]; omega
  have h4 : fld w 18 14 = a.val := by rw [hf _ _ (by decide) (by decide)]; simp only [fld]; omega
  have h5 : fld w 23 19 = 0 := by rw [hf _ _ (by decide) (by decide)]; simp only [fld]; omega
  simp [decodeC, rawC, decC22, hm, hb, h1, h2, h3, h4, h5, hwf, Option.filter]

theorem RoundTrip.rget (m : Bool) (d : Reg) (ring : Ring) : RoundTrip.Statement (.rget m d ring) := by
  intro hwf
  have := d.isLt
  have := ring.isLt
  rw [show encode (.rget m d ring) = .cword (put (ring.val) 9 (put (d.val) 19 (put 369098756 0 (sBit m)))) from rfl]
  obtain ⟨w, hw⟩ : ∃ w, w = put (ring.val) 9 (put (d.val) 19 (put 369098756 0 (sBit m))) := ⟨_, rfl⟩
  rw [← hw]
  obtain ⟨h0, hm, hb, hf⟩ := cWord m 22 (ring.val * 512 + d.val * 524288 + 4) w (by omega) (by omega) (by rw [hw]; simp only [put, sBit]; omega)
  refine ⟨h0, ?_⟩
  have h1 : fld w 5 0 = 4 := by rw [hf _ _ (by decide) (by decide)]; simp only [fld]; omega
  have h2 : fld w 8 6 = 0 := by rw [hf _ _ (by decide) (by decide)]; simp only [fld]; omega
  have h3 : fld w 13 9 = ring.val := by rw [hf _ _ (by decide) (by decide)]; simp only [fld]; omega
  have h4 : fld w 18 14 = 0 := by rw [hf _ _ (by decide) (by decide)]; simp only [fld]; omega
  have h5 : fld w 23 19 = d.val := by rw [hf _ _ (by decide) (by decide)]; simp only [fld]; omega
  simp [decodeC, rawC, decC22, hm, hb, h1, h2, h3, h4, h5, hwf, Option.filter]

theorem RoundTrip.rput (m : Bool) (ring : Ring) : RoundTrip.Statement (.rput m ring) := by
  intro hwf
  have := ring.isLt
  rw [show encode (.rput m ring) = .cword (put (ring.val) 9 (put 369098757 0 (sBit m))) from rfl]
  obtain ⟨w, hw⟩ : ∃ w, w = put (ring.val) 9 (put 369098757 0 (sBit m)) := ⟨_, rfl⟩
  rw [← hw]
  obtain ⟨h0, hm, hb, hf⟩ := cWord m 22 (ring.val * 512 + 5) w (by omega) (by omega) (by rw [hw]; simp only [put, sBit]; omega)
  refine ⟨h0, ?_⟩
  have h1 : fld w 5 0 = 5 := by rw [hf _ _ (by decide) (by decide)]; simp only [fld]; omega
  have h2 : fld w 8 6 = 0 := by rw [hf _ _ (by decide) (by decide)]; simp only [fld]; omega
  have h3 : fld w 13 9 = ring.val := by rw [hf _ _ (by decide) (by decide)]; simp only [fld]; omega
  have h4 : fld w 18 14 = 0 := by rw [hf _ _ (by decide) (by decide)]; simp only [fld]; omega
  have h5 : fld w 23 19 = 0 := by rw [hf _ _ (by decide) (by decide)]; simp only [fld]; omega
  simp [decodeC, rawC, decC22, hm, hb, h1, h2, h3, h4, h5, hwf, Option.filter]

theorem RoundTrip.rrel (m : Bool) (ring : Ring) : RoundTrip.Statement (.rrel m ring) := by
  intro hwf
  have := ring.isLt
  rw [show encode (.rrel m ring) = .cword (put (ring.val) 9 (put 369098758 0 (sBit m))) from rfl]
  obtain ⟨w, hw⟩ : ∃ w, w = put (ring.val) 9 (put 369098758 0 (sBit m)) := ⟨_, rfl⟩
  rw [← hw]
  obtain ⟨h0, hm, hb, hf⟩ := cWord m 22 (ring.val * 512 + 6) w (by omega) (by omega) (by rw [hw]; simp only [put, sBit]; omega)
  refine ⟨h0, ?_⟩
  have h1 : fld w 5 0 = 6 := by rw [hf _ _ (by decide) (by decide)]; simp only [fld]; omega
  have h2 : fld w 8 6 = 0 := by rw [hf _ _ (by decide) (by decide)]; simp only [fld]; omega
  have h3 : fld w 13 9 = ring.val := by rw [hf _ _ (by decide) (by decide)]; simp only [fld]; omega
  have h4 : fld w 18 14 = 0 := by rw [hf _ _ (by decide) (by decide)]; simp only [fld]; omega
  have h5 : fld w 23 19 = 0 := by rw [hf _ _ (by decide) (by decide)]; simp only [fld]; omega
  simp [decodeC, rawC, decC22, hm, hb, h1, h2, h3, h4, h5, hwf, Option.filter]

theorem RoundTrip.barcfg (m : Bool) (id : Fin 4) (x0 : BitVec 5) (y0 : BitVec 4) (x1 : BitVec 5) (y1 : BitVec 4) (cnt : BitVec 2) : RoundTrip.Statement (.barcfg m id x0 y0 x1 y1 cnt) := by
  intro hwf
  have := id.isLt
  have := x0.isLt
  have := y0.isLt
  have := x1.isLt
  have := y1.isLt
  have := cnt.isLt
  rw [show encode (.barcfg m id x0 y0 x1 y1 cnt) = .cword (put (cnt.toNat) 2 (put (y1.toNat) 4 (put (x1.toNat) 8 (put (y0.toNat) 13 (put (x0.toNat) 17 (put (id.val) 22 (put 385875968 0 (sBit m)))))))) from rfl]
  obtain ⟨w, hw⟩ : ∃ w, w = put (cnt.toNat) 2 (put (y1.toNat) 4 (put (x1.toNat) 8 (put (y0.toNat) 13 (put (x0.toNat) 17 (put (id.val) 22 (put 385875968 0 (sBit m))))))) := ⟨_, rfl⟩
  rw [← hw]
  obtain ⟨h0, hm, hb, hf⟩ := cWord m 23 (cnt.toNat * 4 + y1.toNat * 16 + x1.toNat * 256 + y0.toNat * 8192 + x0.toNat * 131072 + id.val * 4194304) w (by omega) (by omega) (by rw [hw]; simp only [put, sBit]; omega)
  refine ⟨h0, ?_⟩
  have h1 : fld w 1 0 = 0 := by rw [hf _ _ (by decide) (by decide)]; simp only [fld]; omega
  have h2 : fld w 3 2 = cnt.toNat := by rw [hf _ _ (by decide) (by decide)]; simp only [fld]; omega
  have h3 : fld w 7 4 = y1.toNat := by rw [hf _ _ (by decide) (by decide)]; simp only [fld]; omega
  have h4 : fld w 12 8 = x1.toNat := by rw [hf _ _ (by decide) (by decide)]; simp only [fld]; omega
  have h5 : fld w 16 13 = y0.toNat := by rw [hf _ _ (by decide) (by decide)]; simp only [fld]; omega
  have h6 : fld w 21 17 = x0.toNat := by rw [hf _ _ (by decide) (by decide)]; simp only [fld]; omega
  have h7 : fld w 23 22 = id.val := by rw [hf _ _ (by decide) (by decide)]; simp only [fld]; omega
  simp [decodeC, rawC, decC23, hm, hb, h1, h2, h3, h4, h5, h6, h7, hwf, Option.filter]

theorem RoundTrip.msend (m : Bool) (a : Reg) (b : Reg) : RoundTrip.Statement (.msend m a b) := by
  intro hwf
  have := a.isLt
  have := b.isLt
  rw [show encode (.msend m a b) = .cword (put (b.val) 9 (put (a.val) 14 (put 402653184 0 (sBit m)))) from rfl]
  obtain ⟨w, hw⟩ : ∃ w, w = put (b.val) 9 (put (a.val) 14 (put 402653184 0 (sBit m))) := ⟨_, rfl⟩
  rw [← hw]
  obtain ⟨h0, hm, hb, hf⟩ := cWord m 24 (b.val * 512 + a.val * 16384) w (by omega) (by omega) (by rw [hw]; simp only [put, sBit]; omega)
  refine ⟨h0, ?_⟩
  have h1 : fld w 5 0 = 0 := by rw [hf _ _ (by decide) (by decide)]; simp only [fld]; omega
  have h2 : fld w 8 6 = 0 := by rw [hf _ _ (by decide) (by decide)]; simp only [fld]; omega
  have h3 : fld w 13 9 = b.val := by rw [hf _ _ (by decide) (by decide)]; simp only [fld]; omega
  have h4 : fld w 18 14 = a.val := by rw [hf _ _ (by decide) (by decide)]; simp only [fld]; omega
  have h5 : fld w 23 19 = 0 := by rw [hf _ _ (by decide) (by decide)]; simp only [fld]; omega
  simp [decodeC, rawC, decC24, hm, hb, h1, h2, h3, h4, h5, hwf, Option.filter]

theorem RoundTrip.mrecv (m : Bool) (d : Reg) (a : Reg) (b : Reg) : RoundTrip.Statement (.mrecv m d a b) := by
  intro hwf
  have := d.isLt
  have := a.isLt
  have := b.isLt
  rw [show encode (.mrecv m d a b) = .cword (put (b.val) 9 (put (a.val) 14 (put (d.val) 19 (put 402653185 0 (sBit m))))) from rfl]
  obtain ⟨w, hw⟩ : ∃ w, w = put (b.val) 9 (put (a.val) 14 (put (d.val) 19 (put 402653185 0 (sBit m)))) := ⟨_, rfl⟩
  rw [← hw]
  obtain ⟨h0, hm, hb, hf⟩ := cWord m 24 (b.val * 512 + a.val * 16384 + d.val * 524288 + 1) w (by omega) (by omega) (by rw [hw]; simp only [put, sBit]; omega)
  refine ⟨h0, ?_⟩
  have h1 : fld w 5 0 = 1 := by rw [hf _ _ (by decide) (by decide)]; simp only [fld]; omega
  have h2 : fld w 8 6 = 0 := by rw [hf _ _ (by decide) (by decide)]; simp only [fld]; omega
  have h3 : fld w 13 9 = b.val := by rw [hf _ _ (by decide) (by decide)]; simp only [fld]; omega
  have h4 : fld w 18 14 = a.val := by rw [hf _ _ (by decide) (by decide)]; simp only [fld]; omega
  have h5 : fld w 23 19 = d.val := by rw [hf _ _ (by decide) (by decide)]; simp only [fld]; omega
  simp [decodeC, rawC, decC24, hm, hb, h1, h2, h3, h4, h5, hwf, Option.filter]

theorem RoundTrip.mprobe (m : Bool) (d : Reg) (b : Reg) : RoundTrip.Statement (.mprobe m d b) := by
  intro hwf
  have := d.isLt
  have := b.isLt
  rw [show encode (.mprobe m d b) = .cword (put (b.val) 9 (put (d.val) 19 (put 402653186 0 (sBit m)))) from rfl]
  obtain ⟨w, hw⟩ : ∃ w, w = put (b.val) 9 (put (d.val) 19 (put 402653186 0 (sBit m))) := ⟨_, rfl⟩
  rw [← hw]
  obtain ⟨h0, hm, hb, hf⟩ := cWord m 24 (b.val * 512 + d.val * 524288 + 2) w (by omega) (by omega) (by rw [hw]; simp only [put, sBit]; omega)
  refine ⟨h0, ?_⟩
  have h1 : fld w 5 0 = 2 := by rw [hf _ _ (by decide) (by decide)]; simp only [fld]; omega
  have h2 : fld w 8 6 = 0 := by rw [hf _ _ (by decide) (by decide)]; simp only [fld]; omega
  have h3 : fld w 13 9 = b.val := by rw [hf _ _ (by decide) (by decide)]; simp only [fld]; omega
  have h4 : fld w 18 14 = 0 := by rw [hf _ _ (by decide) (by decide)]; simp only [fld]; omega
  have h5 : fld w 23 19 = d.val := by rw [hf _ _ (by decide) (by decide)]; simp only [fld]; omega
  simp [decodeC, rawC, decC24, hm, hb, h1, h2, h3, h4, h5, hwf, Option.filter]

theorem RoundTrip.mcast (m : Bool) (a : Reg) : RoundTrip.Statement (.mcast m a) := by
  intro hwf
  have := a.isLt
  rw [show encode (.mcast m a) = .cword (put (a.val) 14 (put 402653187 0 (sBit m))) from rfl]
  obtain ⟨w, hw⟩ : ∃ w, w = put (a.val) 14 (put 402653187 0 (sBit m)) := ⟨_, rfl⟩
  rw [← hw]
  obtain ⟨h0, hm, hb, hf⟩ := cWord m 24 (a.val * 16384 + 3) w (by omega) (by omega) (by rw [hw]; simp only [put, sBit]; omega)
  refine ⟨h0, ?_⟩
  have h1 : fld w 5 0 = 3 := by rw [hf _ _ (by decide) (by decide)]; simp only [fld]; omega
  have h2 : fld w 8 6 = 0 := by rw [hf _ _ (by decide) (by decide)]; simp only [fld]; omega
  have h3 : fld w 13 9 = 0 := by rw [hf _ _ (by decide) (by decide)]; simp only [fld]; omega
  have h4 : fld w 18 14 = a.val := by rw [hf _ _ (by decide) (by decide)]; simp only [fld]; omega
  have h5 : fld w 23 19 = 0 := by rw [hf _ _ (by decide) (by decide)]; simp only [fld]; omega
  simp [decodeC, rawC, decC24, hm, hb, h1, h2, h3, h4, h5, hwf, Option.filter]

theorem RoundTrip.mres (m : Bool) (a : Reg) : RoundTrip.Statement (.mres m a) := by
  intro hwf
  have := a.isLt
  rw [show encode (.mres m a) = .cword (put (a.val) 14 (put 402653188 0 (sBit m))) from rfl]
  obtain ⟨w, hw⟩ : ∃ w, w = put (a.val) 14 (put 402653188 0 (sBit m)) := ⟨_, rfl⟩
  rw [← hw]
  obtain ⟨h0, hm, hb, hf⟩ := cWord m 24 (a.val * 16384 + 4) w (by omega) (by omega) (by rw [hw]; simp only [put, sBit]; omega)
  refine ⟨h0, ?_⟩
  have h1 : fld w 5 0 = 4 := by rw [hf _ _ (by decide) (by decide)]; simp only [fld]; omega
  have h2 : fld w 8 6 = 0 := by rw [hf _ _ (by decide) (by decide)]; simp only [fld]; omega
  have h3 : fld w 13 9 = 0 := by rw [hf _ _ (by decide) (by decide)]; simp only [fld]; omega
  have h4 : fld w 18 14 = a.val := by rw [hf _ _ (by decide) (by decide)]; simp only [fld]; omega
  have h5 : fld w 23 19 = 0 := by rw [hf _ _ (by decide) (by decide)]; simp only [fld]; omega
  simp [decodeC, rawC, decC24, hm, hb, h1, h2, h3, h4, h5, hwf, Option.filter]

theorem RoundTrip.nopA (g : Guard) : RoundTrip.Statement (.nopA g) := by
  intro hwf
  rw [show encode (.nopA g) = .aword (put 0 0 (guardBits g)) from rfl]
  obtain ⟨w, hw⟩ : ∃ w, w = put 0 0 (guardBits g) := ⟨_, rfl⟩
  rw [← hw]
  obtain ⟨h0, hm, hg, hp, hf⟩ := aWord g 0 0 w (by omega) (by omega) (by rw [hw]; simp only [put, guardBits]; omega)
  refine ⟨h0, ?_⟩
  have h1 : fld w 6 0 = 0 := by rw [hf _ _ (by decide) (by decide)]; simp only [fld]; omega
  have h2 : fld w 21 7 = 0 := by rw [hf _ _ (by decide) (by decide)]; simp only [fld]; omega
  simp [decodeA, rawA, decA0, hm, hg, hp, h1, h2, hwf, Option.filter]

theorem RoundTrip.add (g : Guard) (d : Reg) (a : Reg) (b : Reg) : RoundTrip.Statement (.add g d a b) := by
  intro hwf
  have := d.isLt
  have := a.isLt
  have := b.isLt
  rw [show encode (.add g d a b) = .aword (put (b.val) 7 (put (a.val) 12 (put (d.val) 17 (put 1 0 (guardBits g))))) from rfl]
  obtain ⟨w, hw⟩ : ∃ w, w = put (b.val) 7 (put (a.val) 12 (put (d.val) 17 (put 1 0 (guardBits g)))) := ⟨_, rfl⟩
  rw [← hw]
  obtain ⟨h0, hm, hg, hp, hf⟩ := aWord g 0 (b.val * 128 + a.val * 4096 + d.val * 131072 + 1) w (by omega) (by omega) (by rw [hw]; simp only [put, guardBits]; omega)
  refine ⟨h0, ?_⟩
  have h1 : fld w 6 0 = 1 := by rw [hf _ _ (by decide) (by decide)]; simp only [fld]; omega
  have h2 : fld w 11 7 = b.val := by rw [hf _ _ (by decide) (by decide)]; simp only [fld]; omega
  have h3 : fld w 16 12 = a.val := by rw [hf _ _ (by decide) (by decide)]; simp only [fld]; omega
  have h4 : fld w 21 17 = d.val := by rw [hf _ _ (by decide) (by decide)]; simp only [fld]; omega
  simp [decodeA, rawA, decA0, hm, hg, hp, h1, h2, h3, h4, hwf, Option.filter]

theorem RoundTrip.sub (g : Guard) (d : Reg) (a : Reg) (b : Reg) : RoundTrip.Statement (.sub g d a b) := by
  intro hwf
  have := d.isLt
  have := a.isLt
  have := b.isLt
  rw [show encode (.sub g d a b) = .aword (put (b.val) 7 (put (a.val) 12 (put (d.val) 17 (put 2 0 (guardBits g))))) from rfl]
  obtain ⟨w, hw⟩ : ∃ w, w = put (b.val) 7 (put (a.val) 12 (put (d.val) 17 (put 2 0 (guardBits g)))) := ⟨_, rfl⟩
  rw [← hw]
  obtain ⟨h0, hm, hg, hp, hf⟩ := aWord g 0 (b.val * 128 + a.val * 4096 + d.val * 131072 + 2) w (by omega) (by omega) (by rw [hw]; simp only [put, guardBits]; omega)
  refine ⟨h0, ?_⟩
  have h1 : fld w 6 0 = 2 := by rw [hf _ _ (by decide) (by decide)]; simp only [fld]; omega
  have h2 : fld w 11 7 = b.val := by rw [hf _ _ (by decide) (by decide)]; simp only [fld]; omega
  have h3 : fld w 16 12 = a.val := by rw [hf _ _ (by decide) (by decide)]; simp only [fld]; omega
  have h4 : fld w 21 17 = d.val := by rw [hf _ _ (by decide) (by decide)]; simp only [fld]; omega
  simp [decodeA, rawA, decA0, hm, hg, hp, h1, h2, h3, h4, hwf, Option.filter]

theorem RoundTrip.mul (g : Guard) (d : Reg) (a : Reg) (b : Reg) : RoundTrip.Statement (.mul g d a b) := by
  intro hwf
  have := d.isLt
  have := a.isLt
  have := b.isLt
  rw [show encode (.mul g d a b) = .aword (put (b.val) 7 (put (a.val) 12 (put (d.val) 17 (put 3 0 (guardBits g))))) from rfl]
  obtain ⟨w, hw⟩ : ∃ w, w = put (b.val) 7 (put (a.val) 12 (put (d.val) 17 (put 3 0 (guardBits g)))) := ⟨_, rfl⟩
  rw [← hw]
  obtain ⟨h0, hm, hg, hp, hf⟩ := aWord g 0 (b.val * 128 + a.val * 4096 + d.val * 131072 + 3) w (by omega) (by omega) (by rw [hw]; simp only [put, guardBits]; omega)
  refine ⟨h0, ?_⟩
  have h1 : fld w 6 0 = 3 := by rw [hf _ _ (by decide) (by decide)]; simp only [fld]; omega
  have h2 : fld w 11 7 = b.val := by rw [hf _ _ (by decide) (by decide)]; simp only [fld]; omega
  have h3 : fld w 16 12 = a.val := by rw [hf _ _ (by decide) (by decide)]; simp only [fld]; omega
  have h4 : fld w 21 17 = d.val := by rw [hf _ _ (by decide) (by decide)]; simp only [fld]; omega
  simp [decodeA, rawA, decA0, hm, hg, hp, h1, h2, h3, h4, hwf, Option.filter]

theorem RoundTrip.mulh (g : Guard) (d : Reg) (a : Reg) (b : Reg) : RoundTrip.Statement (.mulh g d a b) := by
  intro hwf
  have := d.isLt
  have := a.isLt
  have := b.isLt
  rw [show encode (.mulh g d a b) = .aword (put (b.val) 7 (put (a.val) 12 (put (d.val) 17 (put 4 0 (guardBits g))))) from rfl]
  obtain ⟨w, hw⟩ : ∃ w, w = put (b.val) 7 (put (a.val) 12 (put (d.val) 17 (put 4 0 (guardBits g)))) := ⟨_, rfl⟩
  rw [← hw]
  obtain ⟨h0, hm, hg, hp, hf⟩ := aWord g 0 (b.val * 128 + a.val * 4096 + d.val * 131072 + 4) w (by omega) (by omega) (by rw [hw]; simp only [put, guardBits]; omega)
  refine ⟨h0, ?_⟩
  have h1 : fld w 6 0 = 4 := by rw [hf _ _ (by decide) (by decide)]; simp only [fld]; omega
  have h2 : fld w 11 7 = b.val := by rw [hf _ _ (by decide) (by decide)]; simp only [fld]; omega
  have h3 : fld w 16 12 = a.val := by rw [hf _ _ (by decide) (by decide)]; simp only [fld]; omega
  have h4 : fld w 21 17 = d.val := by rw [hf _ _ (by decide) (by decide)]; simp only [fld]; omega
  simp [decodeA, rawA, decA0, hm, hg, hp, h1, h2, h3, h4, hwf, Option.filter]

theorem RoundTrip.mulhu (g : Guard) (d : Reg) (a : Reg) (b : Reg) : RoundTrip.Statement (.mulhu g d a b) := by
  intro hwf
  have := d.isLt
  have := a.isLt
  have := b.isLt
  rw [show encode (.mulhu g d a b) = .aword (put (b.val) 7 (put (a.val) 12 (put (d.val) 17 (put 5 0 (guardBits g))))) from rfl]
  obtain ⟨w, hw⟩ : ∃ w, w = put (b.val) 7 (put (a.val) 12 (put (d.val) 17 (put 5 0 (guardBits g)))) := ⟨_, rfl⟩
  rw [← hw]
  obtain ⟨h0, hm, hg, hp, hf⟩ := aWord g 0 (b.val * 128 + a.val * 4096 + d.val * 131072 + 5) w (by omega) (by omega) (by rw [hw]; simp only [put, guardBits]; omega)
  refine ⟨h0, ?_⟩
  have h1 : fld w 6 0 = 5 := by rw [hf _ _ (by decide) (by decide)]; simp only [fld]; omega
  have h2 : fld w 11 7 = b.val := by rw [hf _ _ (by decide) (by decide)]; simp only [fld]; omega
  have h3 : fld w 16 12 = a.val := by rw [hf _ _ (by decide) (by decide)]; simp only [fld]; omega
  have h4 : fld w 21 17 = d.val := by rw [hf _ _ (by decide) (by decide)]; simp only [fld]; omega
  simp [decodeA, rawA, decA0, hm, hg, hp, h1, h2, h3, h4, hwf, Option.filter]

theorem RoundTrip.div (g : Guard) (d : Reg) (a : Reg) (b : Reg) : RoundTrip.Statement (.div g d a b) := by
  intro hwf
  have := d.isLt
  have := a.isLt
  have := b.isLt
  rw [show encode (.div g d a b) = .aword (put (b.val) 7 (put (a.val) 12 (put (d.val) 17 (put 6 0 (guardBits g))))) from rfl]
  obtain ⟨w, hw⟩ : ∃ w, w = put (b.val) 7 (put (a.val) 12 (put (d.val) 17 (put 6 0 (guardBits g)))) := ⟨_, rfl⟩
  rw [← hw]
  obtain ⟨h0, hm, hg, hp, hf⟩ := aWord g 0 (b.val * 128 + a.val * 4096 + d.val * 131072 + 6) w (by omega) (by omega) (by rw [hw]; simp only [put, guardBits]; omega)
  refine ⟨h0, ?_⟩
  have h1 : fld w 6 0 = 6 := by rw [hf _ _ (by decide) (by decide)]; simp only [fld]; omega
  have h2 : fld w 11 7 = b.val := by rw [hf _ _ (by decide) (by decide)]; simp only [fld]; omega
  have h3 : fld w 16 12 = a.val := by rw [hf _ _ (by decide) (by decide)]; simp only [fld]; omega
  have h4 : fld w 21 17 = d.val := by rw [hf _ _ (by decide) (by decide)]; simp only [fld]; omega
  simp [decodeA, rawA, decA0, hm, hg, hp, h1, h2, h3, h4, hwf, Option.filter]

theorem RoundTrip.divu (g : Guard) (d : Reg) (a : Reg) (b : Reg) : RoundTrip.Statement (.divu g d a b) := by
  intro hwf
  have := d.isLt
  have := a.isLt
  have := b.isLt
  rw [show encode (.divu g d a b) = .aword (put (b.val) 7 (put (a.val) 12 (put (d.val) 17 (put 7 0 (guardBits g))))) from rfl]
  obtain ⟨w, hw⟩ : ∃ w, w = put (b.val) 7 (put (a.val) 12 (put (d.val) 17 (put 7 0 (guardBits g)))) := ⟨_, rfl⟩
  rw [← hw]
  obtain ⟨h0, hm, hg, hp, hf⟩ := aWord g 0 (b.val * 128 + a.val * 4096 + d.val * 131072 + 7) w (by omega) (by omega) (by rw [hw]; simp only [put, guardBits]; omega)
  refine ⟨h0, ?_⟩
  have h1 : fld w 6 0 = 7 := by rw [hf _ _ (by decide) (by decide)]; simp only [fld]; omega
  have h2 : fld w 11 7 = b.val := by rw [hf _ _ (by decide) (by decide)]; simp only [fld]; omega
  have h3 : fld w 16 12 = a.val := by rw [hf _ _ (by decide) (by decide)]; simp only [fld]; omega
  have h4 : fld w 21 17 = d.val := by rw [hf _ _ (by decide) (by decide)]; simp only [fld]; omega
  simp [decodeA, rawA, decA0, hm, hg, hp, h1, h2, h3, h4, hwf, Option.filter]

theorem RoundTrip.rem (g : Guard) (d : Reg) (a : Reg) (b : Reg) : RoundTrip.Statement (.rem g d a b) := by
  intro hwf
  have := d.isLt
  have := a.isLt
  have := b.isLt
  rw [show encode (.rem g d a b) = .aword (put (b.val) 7 (put (a.val) 12 (put (d.val) 17 (put 8 0 (guardBits g))))) from rfl]
  obtain ⟨w, hw⟩ : ∃ w, w = put (b.val) 7 (put (a.val) 12 (put (d.val) 17 (put 8 0 (guardBits g)))) := ⟨_, rfl⟩
  rw [← hw]
  obtain ⟨h0, hm, hg, hp, hf⟩ := aWord g 0 (b.val * 128 + a.val * 4096 + d.val * 131072 + 8) w (by omega) (by omega) (by rw [hw]; simp only [put, guardBits]; omega)
  refine ⟨h0, ?_⟩
  have h1 : fld w 6 0 = 8 := by rw [hf _ _ (by decide) (by decide)]; simp only [fld]; omega
  have h2 : fld w 11 7 = b.val := by rw [hf _ _ (by decide) (by decide)]; simp only [fld]; omega
  have h3 : fld w 16 12 = a.val := by rw [hf _ _ (by decide) (by decide)]; simp only [fld]; omega
  have h4 : fld w 21 17 = d.val := by rw [hf _ _ (by decide) (by decide)]; simp only [fld]; omega
  simp [decodeA, rawA, decA0, hm, hg, hp, h1, h2, h3, h4, hwf, Option.filter]

theorem RoundTrip.remu (g : Guard) (d : Reg) (a : Reg) (b : Reg) : RoundTrip.Statement (.remu g d a b) := by
  intro hwf
  have := d.isLt
  have := a.isLt
  have := b.isLt
  rw [show encode (.remu g d a b) = .aword (put (b.val) 7 (put (a.val) 12 (put (d.val) 17 (put 9 0 (guardBits g))))) from rfl]
  obtain ⟨w, hw⟩ : ∃ w, w = put (b.val) 7 (put (a.val) 12 (put (d.val) 17 (put 9 0 (guardBits g)))) := ⟨_, rfl⟩
  rw [← hw]
  obtain ⟨h0, hm, hg, hp, hf⟩ := aWord g 0 (b.val * 128 + a.val * 4096 + d.val * 131072 + 9) w (by omega) (by omega) (by rw [hw]; simp only [put, guardBits]; omega)
  refine ⟨h0, ?_⟩
  have h1 : fld w 6 0 = 9 := by rw [hf _ _ (by decide) (by decide)]; simp only [fld]; omega
  have h2 : fld w 11 7 = b.val := by rw [hf _ _ (by decide) (by decide)]; simp only [fld]; omega
  have h3 : fld w 16 12 = a.val := by rw [hf _ _ (by decide) (by decide)]; simp only [fld]; omega
  have h4 : fld w 21 17 = d.val := by rw [hf _ _ (by decide) (by decide)]; simp only [fld]; omega
  simp [decodeA, rawA, decA0, hm, hg, hp, h1, h2, h3, h4, hwf, Option.filter]

theorem RoundTrip.and (g : Guard) (d : Reg) (a : Reg) (b : Reg) : RoundTrip.Statement (.and g d a b) := by
  intro hwf
  have := d.isLt
  have := a.isLt
  have := b.isLt
  rw [show encode (.and g d a b) = .aword (put (b.val) 7 (put (a.val) 12 (put (d.val) 17 (put 10 0 (guardBits g))))) from rfl]
  obtain ⟨w, hw⟩ : ∃ w, w = put (b.val) 7 (put (a.val) 12 (put (d.val) 17 (put 10 0 (guardBits g)))) := ⟨_, rfl⟩
  rw [← hw]
  obtain ⟨h0, hm, hg, hp, hf⟩ := aWord g 0 (b.val * 128 + a.val * 4096 + d.val * 131072 + 10) w (by omega) (by omega) (by rw [hw]; simp only [put, guardBits]; omega)
  refine ⟨h0, ?_⟩
  have h1 : fld w 6 0 = 10 := by rw [hf _ _ (by decide) (by decide)]; simp only [fld]; omega
  have h2 : fld w 11 7 = b.val := by rw [hf _ _ (by decide) (by decide)]; simp only [fld]; omega
  have h3 : fld w 16 12 = a.val := by rw [hf _ _ (by decide) (by decide)]; simp only [fld]; omega
  have h4 : fld w 21 17 = d.val := by rw [hf _ _ (by decide) (by decide)]; simp only [fld]; omega
  simp [decodeA, rawA, decA0, hm, hg, hp, h1, h2, h3, h4, hwf, Option.filter]

theorem RoundTrip.or (g : Guard) (d : Reg) (a : Reg) (b : Reg) : RoundTrip.Statement (.or g d a b) := by
  intro hwf
  have := d.isLt
  have := a.isLt
  have := b.isLt
  rw [show encode (.or g d a b) = .aword (put (b.val) 7 (put (a.val) 12 (put (d.val) 17 (put 11 0 (guardBits g))))) from rfl]
  obtain ⟨w, hw⟩ : ∃ w, w = put (b.val) 7 (put (a.val) 12 (put (d.val) 17 (put 11 0 (guardBits g)))) := ⟨_, rfl⟩
  rw [← hw]
  obtain ⟨h0, hm, hg, hp, hf⟩ := aWord g 0 (b.val * 128 + a.val * 4096 + d.val * 131072 + 11) w (by omega) (by omega) (by rw [hw]; simp only [put, guardBits]; omega)
  refine ⟨h0, ?_⟩
  have h1 : fld w 6 0 = 11 := by rw [hf _ _ (by decide) (by decide)]; simp only [fld]; omega
  have h2 : fld w 11 7 = b.val := by rw [hf _ _ (by decide) (by decide)]; simp only [fld]; omega
  have h3 : fld w 16 12 = a.val := by rw [hf _ _ (by decide) (by decide)]; simp only [fld]; omega
  have h4 : fld w 21 17 = d.val := by rw [hf _ _ (by decide) (by decide)]; simp only [fld]; omega
  simp [decodeA, rawA, decA0, hm, hg, hp, h1, h2, h3, h4, hwf, Option.filter]

theorem RoundTrip.xor (g : Guard) (d : Reg) (a : Reg) (b : Reg) : RoundTrip.Statement (.xor g d a b) := by
  intro hwf
  have := d.isLt
  have := a.isLt
  have := b.isLt
  rw [show encode (.xor g d a b) = .aword (put (b.val) 7 (put (a.val) 12 (put (d.val) 17 (put 12 0 (guardBits g))))) from rfl]
  obtain ⟨w, hw⟩ : ∃ w, w = put (b.val) 7 (put (a.val) 12 (put (d.val) 17 (put 12 0 (guardBits g)))) := ⟨_, rfl⟩
  rw [← hw]
  obtain ⟨h0, hm, hg, hp, hf⟩ := aWord g 0 (b.val * 128 + a.val * 4096 + d.val * 131072 + 12) w (by omega) (by omega) (by rw [hw]; simp only [put, guardBits]; omega)
  refine ⟨h0, ?_⟩
  have h1 : fld w 6 0 = 12 := by rw [hf _ _ (by decide) (by decide)]; simp only [fld]; omega
  have h2 : fld w 11 7 = b.val := by rw [hf _ _ (by decide) (by decide)]; simp only [fld]; omega
  have h3 : fld w 16 12 = a.val := by rw [hf _ _ (by decide) (by decide)]; simp only [fld]; omega
  have h4 : fld w 21 17 = d.val := by rw [hf _ _ (by decide) (by decide)]; simp only [fld]; omega
  simp [decodeA, rawA, decA0, hm, hg, hp, h1, h2, h3, h4, hwf, Option.filter]

theorem RoundTrip.andn (g : Guard) (d : Reg) (a : Reg) (b : Reg) : RoundTrip.Statement (.andn g d a b) := by
  intro hwf
  have := d.isLt
  have := a.isLt
  have := b.isLt
  rw [show encode (.andn g d a b) = .aword (put (b.val) 7 (put (a.val) 12 (put (d.val) 17 (put 13 0 (guardBits g))))) from rfl]
  obtain ⟨w, hw⟩ : ∃ w, w = put (b.val) 7 (put (a.val) 12 (put (d.val) 17 (put 13 0 (guardBits g)))) := ⟨_, rfl⟩
  rw [← hw]
  obtain ⟨h0, hm, hg, hp, hf⟩ := aWord g 0 (b.val * 128 + a.val * 4096 + d.val * 131072 + 13) w (by omega) (by omega) (by rw [hw]; simp only [put, guardBits]; omega)
  refine ⟨h0, ?_⟩
  have h1 : fld w 6 0 = 13 := by rw [hf _ _ (by decide) (by decide)]; simp only [fld]; omega
  have h2 : fld w 11 7 = b.val := by rw [hf _ _ (by decide) (by decide)]; simp only [fld]; omega
  have h3 : fld w 16 12 = a.val := by rw [hf _ _ (by decide) (by decide)]; simp only [fld]; omega
  have h4 : fld w 21 17 = d.val := by rw [hf _ _ (by decide) (by decide)]; simp only [fld]; omega
  simp [decodeA, rawA, decA0, hm, hg, hp, h1, h2, h3, h4, hwf, Option.filter]

theorem RoundTrip.shl (g : Guard) (d : Reg) (a : Reg) (b : Reg) : RoundTrip.Statement (.shl g d a b) := by
  intro hwf
  have := d.isLt
  have := a.isLt
  have := b.isLt
  rw [show encode (.shl g d a b) = .aword (put (b.val) 7 (put (a.val) 12 (put (d.val) 17 (put 14 0 (guardBits g))))) from rfl]
  obtain ⟨w, hw⟩ : ∃ w, w = put (b.val) 7 (put (a.val) 12 (put (d.val) 17 (put 14 0 (guardBits g)))) := ⟨_, rfl⟩
  rw [← hw]
  obtain ⟨h0, hm, hg, hp, hf⟩ := aWord g 0 (b.val * 128 + a.val * 4096 + d.val * 131072 + 14) w (by omega) (by omega) (by rw [hw]; simp only [put, guardBits]; omega)
  refine ⟨h0, ?_⟩
  have h1 : fld w 6 0 = 14 := by rw [hf _ _ (by decide) (by decide)]; simp only [fld]; omega
  have h2 : fld w 11 7 = b.val := by rw [hf _ _ (by decide) (by decide)]; simp only [fld]; omega
  have h3 : fld w 16 12 = a.val := by rw [hf _ _ (by decide) (by decide)]; simp only [fld]; omega
  have h4 : fld w 21 17 = d.val := by rw [hf _ _ (by decide) (by decide)]; simp only [fld]; omega
  simp [decodeA, rawA, decA0, hm, hg, hp, h1, h2, h3, h4, hwf, Option.filter]

theorem RoundTrip.shr (g : Guard) (d : Reg) (a : Reg) (b : Reg) : RoundTrip.Statement (.shr g d a b) := by
  intro hwf
  have := d.isLt
  have := a.isLt
  have := b.isLt
  rw [show encode (.shr g d a b) = .aword (put (b.val) 7 (put (a.val) 12 (put (d.val) 17 (put 15 0 (guardBits g))))) from rfl]
  obtain ⟨w, hw⟩ : ∃ w, w = put (b.val) 7 (put (a.val) 12 (put (d.val) 17 (put 15 0 (guardBits g)))) := ⟨_, rfl⟩
  rw [← hw]
  obtain ⟨h0, hm, hg, hp, hf⟩ := aWord g 0 (b.val * 128 + a.val * 4096 + d.val * 131072 + 15) w (by omega) (by omega) (by rw [hw]; simp only [put, guardBits]; omega)
  refine ⟨h0, ?_⟩
  have h1 : fld w 6 0 = 15 := by rw [hf _ _ (by decide) (by decide)]; simp only [fld]; omega
  have h2 : fld w 11 7 = b.val := by rw [hf _ _ (by decide) (by decide)]; simp only [fld]; omega
  have h3 : fld w 16 12 = a.val := by rw [hf _ _ (by decide) (by decide)]; simp only [fld]; omega
  have h4 : fld w 21 17 = d.val := by rw [hf _ _ (by decide) (by decide)]; simp only [fld]; omega
  simp [decodeA, rawA, decA0, hm, hg, hp, h1, h2, h3, h4, hwf, Option.filter]

theorem RoundTrip.sra (g : Guard) (d : Reg) (a : Reg) (b : Reg) : RoundTrip.Statement (.sra g d a b) := by
  intro hwf
  have := d.isLt
  have := a.isLt
  have := b.isLt
  rw [show encode (.sra g d a b) = .aword (put (b.val) 7 (put (a.val) 12 (put (d.val) 17 (put 16 0 (guardBits g))))) from rfl]
  obtain ⟨w, hw⟩ : ∃ w, w = put (b.val) 7 (put (a.val) 12 (put (d.val) 17 (put 16 0 (guardBits g)))) := ⟨_, rfl⟩
  rw [← hw]
  obtain ⟨h0, hm, hg, hp, hf⟩ := aWord g 0 (b.val * 128 + a.val * 4096 + d.val * 131072 + 16) w (by omega) (by omega) (by rw [hw]; simp only [put, guardBits]; omega)
  refine ⟨h0, ?_⟩
  have h1 : fld w 6 0 = 16 := by rw [hf _ _ (by decide) (by decide)]; simp only [fld]; omega
  have h2 : fld w 11 7 = b.val := by rw [hf _ _ (by decide) (by decide)]; simp only [fld]; omega
  have h3 : fld w 16 12 = a.val := by rw [hf _ _ (by decide) (by decide)]; simp only [fld]; omega
  have h4 : fld w 21 17 = d.val := by rw [hf _ _ (by decide) (by decide)]; simp only [fld]; omega
  simp [decodeA, rawA, decA0, hm, hg, hp, h1, h2, h3, h4, hwf, Option.filter]

theorem RoundTrip.rotr (g : Guard) (d : Reg) (a : Reg) (b : Reg) : RoundTrip.Statement (.rotr g d a b) := by
  intro hwf
  have := d.isLt
  have := a.isLt
  have := b.isLt
  rw [show encode (.rotr g d a b) = .aword (put (b.val) 7 (put (a.val) 12 (put (d.val) 17 (put 17 0 (guardBits g))))) from rfl]
  obtain ⟨w, hw⟩ : ∃ w, w = put (b.val) 7 (put (a.val) 12 (put (d.val) 17 (put 17 0 (guardBits g)))) := ⟨_, rfl⟩
  rw [← hw]
  obtain ⟨h0, hm, hg, hp, hf⟩ := aWord g 0 (b.val * 128 + a.val * 4096 + d.val * 131072 + 17) w (by omega) (by omega) (by rw [hw]; simp only [put, guardBits]; omega)
  refine ⟨h0, ?_⟩
  have h1 : fld w 6 0 = 17 := by rw [hf _ _ (by decide) (by decide)]; simp only [fld]; omega
  have h2 : fld w 11 7 = b.val := by rw [hf _ _ (by decide) (by decide)]; simp only [fld]; omega
  have h3 : fld w 16 12 = a.val := by rw [hf _ _ (by decide) (by decide)]; simp only [fld]; omega
  have h4 : fld w 21 17 = d.val := by rw [hf _ _ (by decide) (by decide)]; simp only [fld]; omega
  simp [decodeA, rawA, decA0, hm, hg, hp, h1, h2, h3, h4, hwf, Option.filter]

theorem RoundTrip.clz (g : Guard) (d : Reg) (a : Reg) : RoundTrip.Statement (.clz g d a) := by
  intro hwf
  have := d.isLt
  have := a.isLt
  rw [show encode (.clz g d a) = .aword (put (a.val) 12 (put (d.val) 17 (put 18 0 (guardBits g)))) from rfl]
  obtain ⟨w, hw⟩ : ∃ w, w = put (a.val) 12 (put (d.val) 17 (put 18 0 (guardBits g))) := ⟨_, rfl⟩
  rw [← hw]
  obtain ⟨h0, hm, hg, hp, hf⟩ := aWord g 0 (a.val * 4096 + d.val * 131072 + 18) w (by omega) (by omega) (by rw [hw]; simp only [put, guardBits]; omega)
  refine ⟨h0, ?_⟩
  have h1 : fld w 6 0 = 18 := by rw [hf _ _ (by decide) (by decide)]; simp only [fld]; omega
  have h2 : fld w 11 7 = 0 := by rw [hf _ _ (by decide) (by decide)]; simp only [fld]; omega
  have h3 : fld w 16 12 = a.val := by rw [hf _ _ (by decide) (by decide)]; simp only [fld]; omega
  have h4 : fld w 21 17 = d.val := by rw [hf _ _ (by decide) (by decide)]; simp only [fld]; omega
  simp [decodeA, rawA, decA0, hm, hg, hp, h1, h2, h3, h4, hwf, Option.filter]

theorem RoundTrip.ctz (g : Guard) (d : Reg) (a : Reg) : RoundTrip.Statement (.ctz g d a) := by
  intro hwf
  have := d.isLt
  have := a.isLt
  rw [show encode (.ctz g d a) = .aword (put (a.val) 12 (put (d.val) 17 (put 19 0 (guardBits g)))) from rfl]
  obtain ⟨w, hw⟩ : ∃ w, w = put (a.val) 12 (put (d.val) 17 (put 19 0 (guardBits g))) := ⟨_, rfl⟩
  rw [← hw]
  obtain ⟨h0, hm, hg, hp, hf⟩ := aWord g 0 (a.val * 4096 + d.val * 131072 + 19) w (by omega) (by omega) (by rw [hw]; simp only [put, guardBits]; omega)
  refine ⟨h0, ?_⟩
  have h1 : fld w 6 0 = 19 := by rw [hf _ _ (by decide) (by decide)]; simp only [fld]; omega
  have h2 : fld w 11 7 = 0 := by rw [hf _ _ (by decide) (by decide)]; simp only [fld]; omega
  have h3 : fld w 16 12 = a.val := by rw [hf _ _ (by decide) (by decide)]; simp only [fld]; omega
  have h4 : fld w 21 17 = d.val := by rw [hf _ _ (by decide) (by decide)]; simp only [fld]; omega
  simp [decodeA, rawA, decA0, hm, hg, hp, h1, h2, h3, h4, hwf, Option.filter]

theorem RoundTrip.popc (g : Guard) (d : Reg) (a : Reg) : RoundTrip.Statement (.popc g d a) := by
  intro hwf
  have := d.isLt
  have := a.isLt
  rw [show encode (.popc g d a) = .aword (put (a.val) 12 (put (d.val) 17 (put 20 0 (guardBits g)))) from rfl]
  obtain ⟨w, hw⟩ : ∃ w, w = put (a.val) 12 (put (d.val) 17 (put 20 0 (guardBits g))) := ⟨_, rfl⟩
  rw [← hw]
  obtain ⟨h0, hm, hg, hp, hf⟩ := aWord g 0 (a.val * 4096 + d.val * 131072 + 20) w (by omega) (by omega) (by rw [hw]; simp only [put, guardBits]; omega)
  refine ⟨h0, ?_⟩
  have h1 : fld w 6 0 = 20 := by rw [hf _ _ (by decide) (by decide)]; simp only [fld]; omega
  have h2 : fld w 11 7 = 0 := by rw [hf _ _ (by decide) (by decide)]; simp only [fld]; omega
  have h3 : fld w 16 12 = a.val := by rw [hf _ _ (by decide) (by decide)]; simp only [fld]; omega
  have h4 : fld w 21 17 = d.val := by rw [hf _ _ (by decide) (by decide)]; simp only [fld]; omega
  simp [decodeA, rawA, decA0, hm, hg, hp, h1, h2, h3, h4, hwf, Option.filter]

theorem RoundTrip.min (g : Guard) (d : Reg) (a : Reg) (b : Reg) : RoundTrip.Statement (.min g d a b) := by
  intro hwf
  have := d.isLt
  have := a.isLt
  have := b.isLt
  rw [show encode (.min g d a b) = .aword (put (b.val) 7 (put (a.val) 12 (put (d.val) 17 (put 21 0 (guardBits g))))) from rfl]
  obtain ⟨w, hw⟩ : ∃ w, w = put (b.val) 7 (put (a.val) 12 (put (d.val) 17 (put 21 0 (guardBits g)))) := ⟨_, rfl⟩
  rw [← hw]
  obtain ⟨h0, hm, hg, hp, hf⟩ := aWord g 0 (b.val * 128 + a.val * 4096 + d.val * 131072 + 21) w (by omega) (by omega) (by rw [hw]; simp only [put, guardBits]; omega)
  refine ⟨h0, ?_⟩
  have h1 : fld w 6 0 = 21 := by rw [hf _ _ (by decide) (by decide)]; simp only [fld]; omega
  have h2 : fld w 11 7 = b.val := by rw [hf _ _ (by decide) (by decide)]; simp only [fld]; omega
  have h3 : fld w 16 12 = a.val := by rw [hf _ _ (by decide) (by decide)]; simp only [fld]; omega
  have h4 : fld w 21 17 = d.val := by rw [hf _ _ (by decide) (by decide)]; simp only [fld]; omega
  simp [decodeA, rawA, decA0, hm, hg, hp, h1, h2, h3, h4, hwf, Option.filter]

theorem RoundTrip.max (g : Guard) (d : Reg) (a : Reg) (b : Reg) : RoundTrip.Statement (.max g d a b) := by
  intro hwf
  have := d.isLt
  have := a.isLt
  have := b.isLt
  rw [show encode (.max g d a b) = .aword (put (b.val) 7 (put (a.val) 12 (put (d.val) 17 (put 22 0 (guardBits g))))) from rfl]
  obtain ⟨w, hw⟩ : ∃ w, w = put (b.val) 7 (put (a.val) 12 (put (d.val) 17 (put 22 0 (guardBits g)))) := ⟨_, rfl⟩
  rw [← hw]
  obtain ⟨h0, hm, hg, hp, hf⟩ := aWord g 0 (b.val * 128 + a.val * 4096 + d.val * 131072 + 22) w (by omega) (by omega) (by rw [hw]; simp only [put, guardBits]; omega)
  refine ⟨h0, ?_⟩
  have h1 : fld w 6 0 = 22 := by rw [hf _ _ (by decide) (by decide)]; simp only [fld]; omega
  have h2 : fld w 11 7 = b.val := by rw [hf _ _ (by decide) (by decide)]; simp only [fld]; omega
  have h3 : fld w 16 12 = a.val := by rw [hf _ _ (by decide) (by decide)]; simp only [fld]; omega
  have h4 : fld w 21 17 = d.val := by rw [hf _ _ (by decide) (by decide)]; simp only [fld]; omega
  simp [decodeA, rawA, decA0, hm, hg, hp, h1, h2, h3, h4, hwf, Option.filter]

theorem RoundTrip.minu (g : Guard) (d : Reg) (a : Reg) (b : Reg) : RoundTrip.Statement (.minu g d a b) := by
  intro hwf
  have := d.isLt
  have := a.isLt
  have := b.isLt
  rw [show encode (.minu g d a b) = .aword (put (b.val) 7 (put (a.val) 12 (put (d.val) 17 (put 23 0 (guardBits g))))) from rfl]
  obtain ⟨w, hw⟩ : ∃ w, w = put (b.val) 7 (put (a.val) 12 (put (d.val) 17 (put 23 0 (guardBits g)))) := ⟨_, rfl⟩
  rw [← hw]
  obtain ⟨h0, hm, hg, hp, hf⟩ := aWord g 0 (b.val * 128 + a.val * 4096 + d.val * 131072 + 23) w (by omega) (by omega) (by rw [hw]; simp only [put, guardBits]; omega)
  refine ⟨h0, ?_⟩
  have h1 : fld w 6 0 = 23 := by rw [hf _ _ (by decide) (by decide)]; simp only [fld]; omega
  have h2 : fld w 11 7 = b.val := by rw [hf _ _ (by decide) (by decide)]; simp only [fld]; omega
  have h3 : fld w 16 12 = a.val := by rw [hf _ _ (by decide) (by decide)]; simp only [fld]; omega
  have h4 : fld w 21 17 = d.val := by rw [hf _ _ (by decide) (by decide)]; simp only [fld]; omega
  simp [decodeA, rawA, decA0, hm, hg, hp, h1, h2, h3, h4, hwf, Option.filter]

theorem RoundTrip.maxu (g : Guard) (d : Reg) (a : Reg) (b : Reg) : RoundTrip.Statement (.maxu g d a b) := by
  intro hwf
  have := d.isLt
  have := a.isLt
  have := b.isLt
  rw [show encode (.maxu g d a b) = .aword (put (b.val) 7 (put (a.val) 12 (put (d.val) 17 (put 24 0 (guardBits g))))) from rfl]
  obtain ⟨w, hw⟩ : ∃ w, w = put (b.val) 7 (put (a.val) 12 (put (d.val) 17 (put 24 0 (guardBits g)))) := ⟨_, rfl⟩
  rw [← hw]
  obtain ⟨h0, hm, hg, hp, hf⟩ := aWord g 0 (b.val * 128 + a.val * 4096 + d.val * 131072 + 24) w (by omega) (by omega) (by rw [hw]; simp only [put, guardBits]; omega)
  refine ⟨h0, ?_⟩
  have h1 : fld w 6 0 = 24 := by rw [hf _ _ (by decide) (by decide)]; simp only [fld]; omega
  have h2 : fld w 11 7 = b.val := by rw [hf _ _ (by decide) (by decide)]; simp only [fld]; omega
  have h3 : fld w 16 12 = a.val := by rw [hf _ _ (by decide) (by decide)]; simp only [fld]; omega
  have h4 : fld w 21 17 = d.val := by rw [hf _ _ (by decide) (by decide)]; simp only [fld]; omega
  simp [decodeA, rawA, decA0, hm, hg, hp, h1, h2, h3, h4, hwf, Option.filter]

theorem RoundTrip.mov (g : Guard) (d : Reg) (a : Reg) : RoundTrip.Statement (.mov g d a) := by
  intro hwf
  have := d.isLt
  have := a.isLt
  rw [show encode (.mov g d a) = .aword (put (a.val) 12 (put (d.val) 17 (put 25 0 (guardBits g)))) from rfl]
  obtain ⟨w, hw⟩ : ∃ w, w = put (a.val) 12 (put (d.val) 17 (put 25 0 (guardBits g))) := ⟨_, rfl⟩
  rw [← hw]
  obtain ⟨h0, hm, hg, hp, hf⟩ := aWord g 0 (a.val * 4096 + d.val * 131072 + 25) w (by omega) (by omega) (by rw [hw]; simp only [put, guardBits]; omega)
  refine ⟨h0, ?_⟩
  have h1 : fld w 6 0 = 25 := by rw [hf _ _ (by decide) (by decide)]; simp only [fld]; omega
  have h2 : fld w 11 7 = 0 := by rw [hf _ _ (by decide) (by decide)]; simp only [fld]; omega
  have h3 : fld w 16 12 = a.val := by rw [hf _ _ (by decide) (by decide)]; simp only [fld]; omega
  have h4 : fld w 21 17 = d.val := by rw [hf _ _ (by decide) (by decide)]; simp only [fld]; omega
  simp [decodeA, rawA, decA0, hm, hg, hp, h1, h2, h3, h4, hwf, Option.filter]

theorem RoundTrip.extb (g : Guard) (d : Reg) (a : Reg) : RoundTrip.Statement (.extb g d a) := by
  intro hwf
  have := d.isLt
  have := a.isLt
  rw [show encode (.extb g d a) = .aword (put (a.val) 12 (put (d.val) 17 (put 26 0 (guardBits g)))) from rfl]
  obtain ⟨w, hw⟩ : ∃ w, w = put (a.val) 12 (put (d.val) 17 (put 26 0 (guardBits g))) := ⟨_, rfl⟩
  rw [← hw]
  obtain ⟨h0, hm, hg, hp, hf⟩ := aWord g 0 (a.val * 4096 + d.val * 131072 + 26) w (by omega) (by omega) (by rw [hw]; simp only [put, guardBits]; omega)
  refine ⟨h0, ?_⟩
  have h1 : fld w 6 0 = 26 := by rw [hf _ _ (by decide) (by decide)]; simp only [fld]; omega
  have h2 : fld w 11 7 = 0 := by rw [hf _ _ (by decide) (by decide)]; simp only [fld]; omega
  have h3 : fld w 16 12 = a.val := by rw [hf _ _ (by decide) (by decide)]; simp only [fld]; omega
  have h4 : fld w 21 17 = d.val := by rw [hf _ _ (by decide) (by decide)]; simp only [fld]; omega
  simp [decodeA, rawA, decA0, hm, hg, hp, h1, h2, h3, h4, hwf, Option.filter]

theorem RoundTrip.exth (g : Guard) (d : Reg) (a : Reg) : RoundTrip.Statement (.exth g d a) := by
  intro hwf
  have := d.isLt
  have := a.isLt
  rw [show encode (.exth g d a) = .aword (put (a.val) 12 (put (d.val) 17 (put 27 0 (guardBits g)))) from rfl]
  obtain ⟨w, hw⟩ : ∃ w, w = put (a.val) 12 (put (d.val) 17 (put 27 0 (guardBits g))) := ⟨_, rfl⟩
  rw [← hw]
  obtain ⟨h0, hm, hg, hp, hf⟩ := aWord g 0 (a.val * 4096 + d.val * 131072 + 27) w (by omega) (by omega) (by rw [hw]; simp only [put, guardBits]; omega)
  refine ⟨h0, ?_⟩
  have h1 : fld w 6 0 = 27 := by rw [hf _ _ (by decide) (by decide)]; simp only [fld]; omega
  have h2 : fld w 11 7 = 0 := by rw [hf _ _ (by decide) (by decide)]; simp only [fld]; omega
  have h3 : fld w 16 12 = a.val := by rw [hf _ _ (by decide) (by decide)]; simp only [fld]; omega
  have h4 : fld w 21 17 = d.val := by rw [hf _ _ (by decide) (by decide)]; simp only [fld]; omega
  simp [decodeA, rawA, decA0, hm, hg, hp, h1, h2, h3, h4, hwf, Option.filter]

theorem RoundTrip.lea (g : Guard) (d : Reg) (a : Reg) (b : Reg) (k : Fin 4) : RoundTrip.Statement (.lea g d a b k) := by
  intro hwf
  have := d.isLt
  have := a.isLt
  have := b.isLt
  have := k.isLt
  rw [show encode (.lea g d a b k) = .aword (put (k.val) 0 (put (b.val) 7 (put (a.val) 12 (put (d.val) 17 (put 28 0 (guardBits g)))))) from rfl]
  obtain ⟨w, hw⟩ : ∃ w, w = put (k.val) 0 (put (b.val) 7 (put (a.val) 12 (put (d.val) 17 (put 28 0 (guardBits g))))) := ⟨_, rfl⟩
  rw [← hw]
  obtain ⟨h0, hm, hg, hp, hf⟩ := aWord g 0 (k.val + b.val * 128 + a.val * 4096 + d.val * 131072 + 28) w (by omega) (by omega) (by rw [hw]; simp only [put, guardBits]; omega)
  refine ⟨h0, ?_⟩
  have h1 : fld w 1 0 = k.val := by rw [hf _ _ (by decide) (by decide)]; simp only [fld]; omega
  have h2 : fld w 6 0 = k.val + 28 := by rw [hf _ _ (by decide) (by decide)]; simp only [fld]; omega
  have h3 : fld w 6 2 = 7 := by rw [hf _ _ (by decide) (by decide)]; simp only [fld]; omega
  have h4 : fld w 11 7 = b.val := by rw [hf _ _ (by decide) (by decide)]; simp only [fld]; omega
  have h5 : fld w 16 12 = a.val := by rw [hf _ _ (by decide) (by decide)]; simp only [fld]; omega
  have h6 : fld w 21 17 = d.val := by rw [hf _ _ (by decide) (by decide)]; simp only [fld]; omega
  simp [decodeA, rawA, decA0, hm, hg, hp, h1, h2, h3, h4, h5, h6, hwf, Option.filter]

theorem RoundTrip.addi (g : Guard) (d : Reg) (imm : BitVec 16) : RoundTrip.Statement (.addi g d imm) := by
  intro hwf
  have := d.isLt
  have := imm.isLt
  rw [show encode (.addi g d imm) = .aword (put (imm.toNat) 0 (put (d.val) 17 (put 67108864 0 (guardBits g)))) from rfl]
  obtain ⟨w, hw⟩ : ∃ w, w = put (imm.toNat) 0 (put (d.val) 17 (put 67108864 0 (guardBits g))) := ⟨_, rfl⟩
  rw [← hw]
  obtain ⟨h0, hm, hg, hp, hf⟩ := aWord g 1 (imm.toNat + d.val * 131072) w (by omega) (by omega) (by rw [hw]; simp only [put, guardBits]; omega)
  refine ⟨h0, ?_⟩
  have h1 : fld w 15 0 = imm.toNat := by rw [hf _ _ (by decide) (by decide)]; simp only [fld]; omega
  have h2 : fld w 16 16 = 0 := by rw [hf _ _ (by decide) (by decide)]; simp only [fld]; omega
  have h3 : fld w 21 17 = d.val := by rw [hf _ _ (by decide) (by decide)]; simp only [fld]; omega
  simp [decodeA, rawA, decA1, hm, hg, hp, h1, h2, h3, hwf, Option.filter]

theorem RoundTrip.andi (g : Guard) (d : Reg) (imm : BitVec 16) : RoundTrip.Statement (.andi g d imm) := by
  intro hwf
  have := d.isLt
  have := imm.isLt
  rw [show encode (.andi g d imm) = .aword (put (imm.toNat) 0 (put (d.val) 17 (put 134217728 0 (guardBits g)))) from rfl]
  obtain ⟨w, hw⟩ : ∃ w, w = put (imm.toNat) 0 (put (d.val) 17 (put 134217728 0 (guardBits g))) := ⟨_, rfl⟩
  rw [← hw]
  obtain ⟨h0, hm, hg, hp, hf⟩ := aWord g 2 (imm.toNat + d.val * 131072) w (by omega) (by omega) (by rw [hw]; simp only [put, guardBits]; omega)
  refine ⟨h0, ?_⟩
  have h1 : fld w 15 0 = imm.toNat := by rw [hf _ _ (by decide) (by decide)]; simp only [fld]; omega
  have h2 : fld w 16 16 = 0 := by rw [hf _ _ (by decide) (by decide)]; simp only [fld]; omega
  have h3 : fld w 21 17 = d.val := by rw [hf _ _ (by decide) (by decide)]; simp only [fld]; omega
  simp [decodeA, rawA, decA2, hm, hg, hp, h1, h2, h3, hwf, Option.filter]

theorem RoundTrip.ori (g : Guard) (d : Reg) (imm : BitVec 16) : RoundTrip.Statement (.ori g d imm) := by
  intro hwf
  have := d.isLt
  have := imm.isLt
  rw [show encode (.ori g d imm) = .aword (put (imm.toNat) 0 (put (d.val) 17 (put 201326592 0 (guardBits g)))) from rfl]
  obtain ⟨w, hw⟩ : ∃ w, w = put (imm.toNat) 0 (put (d.val) 17 (put 201326592 0 (guardBits g))) := ⟨_, rfl⟩
  rw [← hw]
  obtain ⟨h0, hm, hg, hp, hf⟩ := aWord g 3 (imm.toNat + d.val * 131072) w (by omega) (by omega) (by rw [hw]; simp only [put, guardBits]; omega)
  refine ⟨h0, ?_⟩
  have h1 : fld w 15 0 = imm.toNat := by rw [hf _ _ (by decide) (by decide)]; simp only [fld]; omega
  have h2 : fld w 16 16 = 0 := by rw [hf _ _ (by decide) (by decide)]; simp only [fld]; omega
  have h3 : fld w 21 17 = d.val := by rw [hf _ _ (by decide) (by decide)]; simp only [fld]; omega
  simp [decodeA, rawA, decA3, hm, hg, hp, h1, h2, h3, hwf, Option.filter]

theorem RoundTrip.xori (g : Guard) (d : Reg) (imm : BitVec 16) : RoundTrip.Statement (.xori g d imm) := by
  intro hwf
  have := d.isLt
  have := imm.isLt
  rw [show encode (.xori g d imm) = .aword (put (imm.toNat) 0 (put (d.val) 17 (put 268435456 0 (guardBits g)))) from rfl]
  obtain ⟨w, hw⟩ : ∃ w, w = put (imm.toNat) 0 (put (d.val) 17 (put 268435456 0 (guardBits g))) := ⟨_, rfl⟩
  rw [← hw]
  obtain ⟨h0, hm, hg, hp, hf⟩ := aWord g 4 (imm.toNat + d.val * 131072) w (by omega) (by omega) (by rw [hw]; simp only [put, guardBits]; omega)
  refine ⟨h0, ?_⟩
  have h1 : fld w 15 0 = imm.toNat := by rw [hf _ _ (by decide) (by decide)]; simp only [fld]; omega
  have h2 : fld w 16 16 = 0 := by rw [hf _ _ (by decide) (by decide)]; simp only [fld]; omega
  have h3 : fld w 21 17 = d.val := by rw [hf _ _ (by decide) (by decide)]; simp only [fld]; omega
  simp [decodeA, rawA, decA4, hm, hg, hp, h1, h2, h3, hwf, Option.filter]

theorem RoundTrip.movi (g : Guard) (d : Reg) (imm : BitVec 16) : RoundTrip.Statement (.movi g d imm) := by
  intro hwf
  have := d.isLt
  have := imm.isLt
  rw [show encode (.movi g d imm) = .aword (put (imm.toNat) 0 (put (d.val) 17 (put 335544320 0 (guardBits g)))) from rfl]
  obtain ⟨w, hw⟩ : ∃ w, w = put (imm.toNat) 0 (put (d.val) 17 (put 335544320 0 (guardBits g))) := ⟨_, rfl⟩
  rw [← hw]
  obtain ⟨h0, hm, hg, hp, hf⟩ := aWord g 5 (imm.toNat + d.val * 131072) w (by omega) (by omega) (by rw [hw]; simp only [put, guardBits]; omega)
  refine ⟨h0, ?_⟩
  have h1 : fld w 15 0 = imm.toNat := by rw [hf _ _ (by decide) (by decide)]; simp only [fld]; omega
  have h2 : fld w 16 16 = 0 := by rw [hf _ _ (by decide) (by decide)]; simp only [fld]; omega
  have h3 : fld w 21 17 = d.val := by rw [hf _ _ (by decide) (by decide)]; simp only [fld]; omega
  simp [decodeA, rawA, decA5, hm, hg, hp, h1, h2, h3, hwf, Option.filter]

theorem RoundTrip.shli (g : Guard) (d : Reg) (a : Reg) (sh : BitVec 6) : RoundTrip.Statement (.shli g d a sh) := by
  intro hwf
  have := d.isLt
  have := a.isLt
  have := sh.isLt
  rw [show encode (.shli g d a sh) = .aword (put (sh.toNat) 6 (put (a.val) 12 (put (d.val) 17 (put 402653184 0 (guardBits g))))) from rfl]
  obtain ⟨w, hw⟩ : ∃ w, w = put (sh.toNat) 6 (put (a.val) 12 (put (d.val) 17 (put 402653184 0 (guardBits g)))) := ⟨_, rfl⟩
  rw [← hw]
  obtain ⟨h0, hm, hg, hp, hf⟩ := aWord g 6 (sh.toNat * 64 + a.val * 4096 + d.val * 131072) w (by omega) (by omega) (by rw [hw]; simp only [put, guardBits]; omega)
  refine ⟨h0, ?_⟩
  have h1 : fld w 5 0 = 0 := by rw [hf _ _ (by decide) (by decide)]; simp only [fld]; omega
  have h2 : fld w 11 6 = sh.toNat := by rw [hf _ _ (by decide) (by decide)]; simp only [fld]; omega
  have h3 : fld w 16 12 = a.val := by rw [hf _ _ (by decide) (by decide)]; simp only [fld]; omega
  have h4 : fld w 21 17 = d.val := by rw [hf _ _ (by decide) (by decide)]; simp only [fld]; omega
  simp [decodeA, rawA, decA6, hm, hg, hp, h1, h2, h3, h4, hwf, Option.filter]

theorem RoundTrip.shri (g : Guard) (d : Reg) (a : Reg) (sh : BitVec 6) : RoundTrip.Statement (.shri g d a sh) := by
  intro hwf
  have := d.isLt
  have := a.isLt
  have := sh.isLt
  rw [show encode (.shri g d a sh) = .aword (put (sh.toNat) 6 (put (a.val) 12 (put (d.val) 17 (put 402653185 0 (guardBits g))))) from rfl]
  obtain ⟨w, hw⟩ : ∃ w, w = put (sh.toNat) 6 (put (a.val) 12 (put (d.val) 17 (put 402653185 0 (guardBits g)))) := ⟨_, rfl⟩
  rw [← hw]
  obtain ⟨h0, hm, hg, hp, hf⟩ := aWord g 6 (sh.toNat * 64 + a.val * 4096 + d.val * 131072 + 1) w (by omega) (by omega) (by rw [hw]; simp only [put, guardBits]; omega)
  refine ⟨h0, ?_⟩
  have h1 : fld w 5 0 = 1 := by rw [hf _ _ (by decide) (by decide)]; simp only [fld]; omega
  have h2 : fld w 11 6 = sh.toNat := by rw [hf _ _ (by decide) (by decide)]; simp only [fld]; omega
  have h3 : fld w 16 12 = a.val := by rw [hf _ _ (by decide) (by decide)]; simp only [fld]; omega
  have h4 : fld w 21 17 = d.val := by rw [hf _ _ (by decide) (by decide)]; simp only [fld]; omega
  simp [decodeA, rawA, decA6, hm, hg, hp, h1, h2, h3, h4, hwf, Option.filter]

theorem RoundTrip.srai (g : Guard) (d : Reg) (a : Reg) (sh : BitVec 6) : RoundTrip.Statement (.srai g d a sh) := by
  intro hwf
  have := d.isLt
  have := a.isLt
  have := sh.isLt
  rw [show encode (.srai g d a sh) = .aword (put (sh.toNat) 6 (put (a.val) 12 (put (d.val) 17 (put 402653186 0 (guardBits g))))) from rfl]
  obtain ⟨w, hw⟩ : ∃ w, w = put (sh.toNat) 6 (put (a.val) 12 (put (d.val) 17 (put 402653186 0 (guardBits g)))) := ⟨_, rfl⟩
  rw [← hw]
  obtain ⟨h0, hm, hg, hp, hf⟩ := aWord g 6 (sh.toNat * 64 + a.val * 4096 + d.val * 131072 + 2) w (by omega) (by omega) (by rw [hw]; simp only [put, guardBits]; omega)
  refine ⟨h0, ?_⟩
  have h1 : fld w 5 0 = 2 := by rw [hf _ _ (by decide) (by decide)]; simp only [fld]; omega
  have h2 : fld w 11 6 = sh.toNat := by rw [hf _ _ (by decide) (by decide)]; simp only [fld]; omega
  have h3 : fld w 16 12 = a.val := by rw [hf _ _ (by decide) (by decide)]; simp only [fld]; omega
  have h4 : fld w 21 17 = d.val := by rw [hf _ _ (by decide) (by decide)]; simp only [fld]; omega
  simp [decodeA, rawA, decA6, hm, hg, hp, h1, h2, h3, h4, hwf, Option.filter]

theorem RoundTrip.cmp (g : Guard) (pd : PReg) (a : Reg) (b : Reg) (cond : Cond) : RoundTrip.Statement (.cmp g pd a b cond) := by
  intro hwf
  have := pd.isLt
  have := a.isLt
  have := b.isLt
  have := cond.code_lt
  rw [show encode (.cmp g pd a b cond) = .aword (put (cond.code) 5 (put (b.val) 9 (put (a.val) 14 (put (pd.val) 19 (put 469762048 0 (guardBits g)))))) from rfl]
  obtain ⟨w, hw⟩ : ∃ w, w = put (cond.code) 5 (put (b.val) 9 (put (a.val) 14 (put (pd.val) 19 (put 469762048 0 (guardBits g))))) := ⟨_, rfl⟩
  rw [← hw]
  obtain ⟨h0, hm, hg, hp, hf⟩ := aWord g 7 (cond.code * 32 + b.val * 512 + a.val * 16384 + pd.val * 524288) w (by omega) (by omega) (by rw [hw]; simp only [put, guardBits]; omega)
  refine ⟨h0, ?_⟩
  have h1 : fld w 4 0 = 0 := by rw [hf _ _ (by decide) (by decide)]; simp only [fld]; omega
  have h2 : fld w 8 5 = cond.code := by rw [hf _ _ (by decide) (by decide)]; simp only [fld]; omega
  have h3 : fld w 13 9 = b.val := by rw [hf _ _ (by decide) (by decide)]; simp only [fld]; omega
  have h4 : fld w 18 14 = a.val := by rw [hf _ _ (by decide) (by decide)]; simp only [fld]; omega
  have h5 : fld w 21 19 = pd.val := by rw [hf _ _ (by decide) (by decide)]; simp only [fld]; omega
  simp [decodeA, rawA, decA7, hm, hg, hp, h1, h2, h3, h4, h5, hwf, Option.filter]

theorem RoundTrip.cmpi (g : Guard) (pd : PReg) (a : Reg) (cond : Cond) (imm : BitVec 10) : RoundTrip.Statement (.cmpi g pd a cond imm) := by
  intro hwf
  have := pd.isLt
  have := a.isLt
  have := cond.code_lt
  have := imm.isLt
  rw [show encode (.cmpi g pd a cond imm) = .aword (put (imm.toNat) 0 (put (cond.code) 10 (put (a.val) 14 (put (pd.val) 19 (put 536870912 0 (guardBits g)))))) from rfl]
  obtain ⟨w, hw⟩ : ∃ w, w = put (imm.toNat) 0 (put (cond.code) 10 (put (a.val) 14 (put (pd.val) 19 (put 536870912 0 (guardBits g))))) := ⟨_, rfl⟩
  rw [← hw]
  obtain ⟨h0, hm, hg, hp, hf⟩ := aWord g 8 (imm.toNat + cond.code * 1024 + a.val * 16384 + pd.val * 524288) w (by omega) (by omega) (by rw [hw]; simp only [put, guardBits]; omega)
  refine ⟨h0, ?_⟩
  have h1 : fld w 9 0 = imm.toNat := by rw [hf _ _ (by decide) (by decide)]; simp only [fld]; omega
  have h2 : fld w 13 10 = cond.code := by rw [hf _ _ (by decide) (by decide)]; simp only [fld]; omega
  have h3 : fld w 18 14 = a.val := by rw [hf _ _ (by decide) (by decide)]; simp only [fld]; omega
  have h4 : fld w 21 19 = pd.val := by rw [hf _ _ (by decide) (by decide)]; simp only [fld]; omega
  simp [decodeA, rawA, decA8, hm, hg, hp, h1, h2, h3, h4, hwf, Option.filter]

theorem RoundTrip.pand (g : Guard) (pd : PReg) (pa : PReg) (pb : PReg) : RoundTrip.Statement (.pand g pd pa pb) := by
  intro hwf
  have := pd.isLt
  have := pa.isLt
  have := pb.isLt
  rw [show encode (.pand g pd pa pb) = .aword (put (pb.val) 13 (put (pa.val) 16 (put (pd.val) 19 (put 603979776 0 (guardBits g))))) from rfl]
  obtain ⟨w, hw⟩ : ∃ w, w = put (pb.val) 13 (put (pa.val) 16 (put (pd.val) 19 (put 603979776 0 (guardBits g)))) := ⟨_, rfl⟩
  rw [← hw]
  obtain ⟨h0, hm, hg, hp, hf⟩ := aWord g 9 (pb.val * 8192 + pa.val * 65536 + pd.val * 524288) w (by omega) (by omega) (by rw [hw]; simp only [put, guardBits]; omega)
  refine ⟨h0, ?_⟩
  have h1 : fld w 1 0 = 0 := by rw [hf _ _ (by decide) (by decide)]; simp only [fld]; omega
  have h2 : fld w 12 2 = 0 := by rw [hf _ _ (by decide) (by decide)]; simp only [fld]; omega
  have h3 : fld w 15 13 = pb.val := by rw [hf _ _ (by decide) (by decide)]; simp only [fld]; omega
  have h4 : fld w 18 16 = pa.val := by rw [hf _ _ (by decide) (by decide)]; simp only [fld]; omega
  have h5 : fld w 21 19 = pd.val := by rw [hf _ _ (by decide) (by decide)]; simp only [fld]; omega
  simp [decodeA, rawA, decA9, hm, hg, hp, h1, h2, h3, h4, h5, hwf, Option.filter]

theorem RoundTrip.por (g : Guard) (pd : PReg) (pa : PReg) (pb : PReg) : RoundTrip.Statement (.por g pd pa pb) := by
  intro hwf
  have := pd.isLt
  have := pa.isLt
  have := pb.isLt
  rw [show encode (.por g pd pa pb) = .aword (put (pb.val) 13 (put (pa.val) 16 (put (pd.val) 19 (put 603979777 0 (guardBits g))))) from rfl]
  obtain ⟨w, hw⟩ : ∃ w, w = put (pb.val) 13 (put (pa.val) 16 (put (pd.val) 19 (put 603979777 0 (guardBits g)))) := ⟨_, rfl⟩
  rw [← hw]
  obtain ⟨h0, hm, hg, hp, hf⟩ := aWord g 9 (pb.val * 8192 + pa.val * 65536 + pd.val * 524288 + 1) w (by omega) (by omega) (by rw [hw]; simp only [put, guardBits]; omega)
  refine ⟨h0, ?_⟩
  have h1 : fld w 1 0 = 1 := by rw [hf _ _ (by decide) (by decide)]; simp only [fld]; omega
  have h2 : fld w 12 2 = 0 := by rw [hf _ _ (by decide) (by decide)]; simp only [fld]; omega
  have h3 : fld w 15 13 = pb.val := by rw [hf _ _ (by decide) (by decide)]; simp only [fld]; omega
  have h4 : fld w 18 16 = pa.val := by rw [hf _ _ (by decide) (by decide)]; simp only [fld]; omega
  have h5 : fld w 21 19 = pd.val := by rw [hf _ _ (by decide) (by decide)]; simp only [fld]; omega
  simp [decodeA, rawA, decA9, hm, hg, hp, h1, h2, h3, h4, h5, hwf, Option.filter]

theorem RoundTrip.pxor (g : Guard) (pd : PReg) (pa : PReg) (pb : PReg) : RoundTrip.Statement (.pxor g pd pa pb) := by
  intro hwf
  have := pd.isLt
  have := pa.isLt
  have := pb.isLt
  rw [show encode (.pxor g pd pa pb) = .aword (put (pb.val) 13 (put (pa.val) 16 (put (pd.val) 19 (put 603979778 0 (guardBits g))))) from rfl]
  obtain ⟨w, hw⟩ : ∃ w, w = put (pb.val) 13 (put (pa.val) 16 (put (pd.val) 19 (put 603979778 0 (guardBits g)))) := ⟨_, rfl⟩
  rw [← hw]
  obtain ⟨h0, hm, hg, hp, hf⟩ := aWord g 9 (pb.val * 8192 + pa.val * 65536 + pd.val * 524288 + 2) w (by omega) (by omega) (by rw [hw]; simp only [put, guardBits]; omega)
  refine ⟨h0, ?_⟩
  have h1 : fld w 1 0 = 2 := by rw [hf _ _ (by decide) (by decide)]; simp only [fld]; omega
  have h2 : fld w 12 2 = 0 := by rw [hf _ _ (by decide) (by decide)]; simp only [fld]; omega
  have h3 : fld w 15 13 = pb.val := by rw [hf _ _ (by decide) (by decide)]; simp only [fld]; omega
  have h4 : fld w 18 16 = pa.val := by rw [hf _ _ (by decide) (by decide)]; simp only [fld]; omega
  have h5 : fld w 21 19 = pd.val := by rw [hf _ _ (by decide) (by decide)]; simp only [fld]; omega
  simp [decodeA, rawA, decA9, hm, hg, hp, h1, h2, h3, h4, h5, hwf, Option.filter]

theorem RoundTrip.pnot (g : Guard) (pd : PReg) (pa : PReg) : RoundTrip.Statement (.pnot g pd pa) := by
  intro hwf
  have := pd.isLt
  have := pa.isLt
  rw [show encode (.pnot g pd pa) = .aword (put (pa.val) 16 (put (pd.val) 19 (put 603979779 0 (guardBits g)))) from rfl]
  obtain ⟨w, hw⟩ : ∃ w, w = put (pa.val) 16 (put (pd.val) 19 (put 603979779 0 (guardBits g))) := ⟨_, rfl⟩
  rw [← hw]
  obtain ⟨h0, hm, hg, hp, hf⟩ := aWord g 9 (pa.val * 65536 + pd.val * 524288 + 3) w (by omega) (by omega) (by rw [hw]; simp only [put, guardBits]; omega)
  refine ⟨h0, ?_⟩
  have h1 : fld w 1 0 = 3 := by rw [hf _ _ (by decide) (by decide)]; simp only [fld]; omega
  have h2 : fld w 15 2 = 0 := by rw [hf _ _ (by decide) (by decide)]; simp only [fld]; omega
  have h3 : fld w 18 16 = pa.val := by rw [hf _ _ (by decide) (by decide)]; simp only [fld]; omega
  have h4 : fld w 21 19 = pd.val := by rw [hf _ _ (by decide) (by decide)]; simp only [fld]; omega
  simp [decodeA, rawA, decA9, hm, hg, hp, h1, h2, h3, h4, hwf, Option.filter]

theorem RoundTrip.sel (g : Guard) (d : Reg) (a : Reg) (b : Reg) (pc : PReg) : RoundTrip.Statement (.sel g d a b pc) := by
  intro hwf
  have := d.isLt
  have := a.isLt
  have := b.isLt
  have := pc.isLt
  rw [show encode (.sel g d a b pc) = .aword (put (pc.val) 4 (put (b.val) 7 (put (a.val) 12 (put (d.val) 17 (put 671088640 0 (guardBits g)))))) from rfl]
  obtain ⟨w, hw⟩ : ∃ w, w = put (pc.val) 4 (put (b.val) 7 (put (a.val) 12 (put (d.val) 17 (put 671088640 0 (guardBits g))))) := ⟨_, rfl⟩
  rw [← hw]
  obtain ⟨h0, hm, hg, hp, hf⟩ := aWord g 10 (pc.val * 16 + b.val * 128 + a.val * 4096 + d.val * 131072) w (by omega) (by omega) (by rw [hw]; simp only [put, guardBits]; omega)
  refine ⟨h0, ?_⟩
  have h1 : fld w 3 0 = 0 := by rw [hf _ _ (by decide) (by decide)]; simp only [fld]; omega
  have h2 : fld w 6 4 = pc.val := by rw [hf _ _ (by decide) (by decide)]; simp only [fld]; omega
  have h3 : fld w 11 7 = b.val := by rw [hf _ _ (by decide) (by decide)]; simp only [fld]; omega
  have h4 : fld w 16 12 = a.val := by rw [hf _ _ (by decide) (by decide)]; simp only [fld]; omega
  have h5 : fld w 21 17 = d.val := by rw [hf _ _ (by decide) (by decide)]; simp only [fld]; omega
  simp [decodeA, rawA, decA10, hm, hg, hp, h1, h2, h3, h4, h5, hwf, Option.filter]

theorem RoundTrip.tadr (g : Guard) (d : Reg) (a : Reg) (imm : BitVec 12) : RoundTrip.Statement (.tadr g d a imm) := by
  intro hwf
  have := d.isLt
  have := a.isLt
  have := imm.isLt
  rw [show encode (.tadr g d a imm) = .aword (put (imm.toNat) 0 (put (a.val) 12 (put (d.val) 17 (put 738197504 0 (guardBits g))))) from rfl]
  obtain ⟨w, hw⟩ : ∃ w, w = put (imm.toNat) 0 (put (a.val) 12 (put (d.val) 17 (put 738197504 0 (guardBits g)))) := ⟨_, rfl⟩
  rw [← hw]
  obtain ⟨h0, hm, hg, hp, hf⟩ := aWord g 11 (imm.toNat + a.val * 4096 + d.val * 131072) w (by omega) (by omega) (by rw [hw]; simp only [put, guardBits]; omega)
  refine ⟨h0, ?_⟩
  have h1 : fld w 11 0 = imm.toNat := by rw [hf _ _ (by decide) (by decide)]; simp only [fld]; omega
  have h2 : fld w 16 12 = a.val := by rw [hf _ _ (by decide) (by decide)]; simp only [fld]; omega
  have h3 : fld w 21 17 = d.val := by rw [hf _ _ (by decide) (by decide)]; simp only [fld]; omega
  simp [decodeA, rawA, decA11, hm, hg, hp, h1, h2, h3, hwf, Option.filter]

theorem RoundTrip.vadd (g : Guard) (d : Reg) (a : Reg) (b : Reg) (ty : ETy) : RoundTrip.Statement (.vadd g d a b ty) := by
  intro hwf
  have := d.isLt
  have := a.isLt
  have := b.isLt
  have := ty.code_lt
  rw [show encode (.vadd g d a b ty) = .aword (put (ty.code) 3 (put (b.val) 7 (put (a.val) 12 (put (d.val) 17 (put 1073741824 0 (guardBits g)))))) from rfl]
  obtain ⟨w, hw⟩ : ∃ w, w = put (ty.code) 3 (put (b.val) 7 (put (a.val) 12 (put (d.val) 17 (put 1073741824 0 (guardBits g))))) := ⟨_, rfl⟩
  rw [← hw]
  obtain ⟨h0, hm, hg, hp, hf⟩ := aWord g 16 (ty.code * 8 + b.val * 128 + a.val * 4096 + d.val * 131072) w (by omega) (by omega) (by rw [hw]; simp only [put, guardBits]; omega)
  refine ⟨h0, ?_⟩
  have h1 : fld w 2 0 = 0 := by rw [hf _ _ (by decide) (by decide)]; simp only [fld]; omega
  have h2 : fld w 6 3 = ty.code := by rw [hf _ _ (by decide) (by decide)]; simp only [fld]; omega
  have h3 : fld w 11 7 = b.val := by rw [hf _ _ (by decide) (by decide)]; simp only [fld]; omega
  have h4 : fld w 16 12 = a.val := by rw [hf _ _ (by decide) (by decide)]; simp only [fld]; omega
  have h5 : fld w 21 17 = d.val := by rw [hf _ _ (by decide) (by decide)]; simp only [fld]; omega
  simp [decodeA, rawA, decA16, hm, hg, hp, h1, h2, h3, h4, h5, hwf, Option.filter]

theorem RoundTrip.vsub (g : Guard) (d : Reg) (a : Reg) (b : Reg) (ty : ETy) : RoundTrip.Statement (.vsub g d a b ty) := by
  intro hwf
  have := d.isLt
  have := a.isLt
  have := b.isLt
  have := ty.code_lt
  rw [show encode (.vsub g d a b ty) = .aword (put (ty.code) 3 (put (b.val) 7 (put (a.val) 12 (put (d.val) 17 (put 1073741825 0 (guardBits g)))))) from rfl]
  obtain ⟨w, hw⟩ : ∃ w, w = put (ty.code) 3 (put (b.val) 7 (put (a.val) 12 (put (d.val) 17 (put 1073741825 0 (guardBits g))))) := ⟨_, rfl⟩
  rw [← hw]
  obtain ⟨h0, hm, hg, hp, hf⟩ := aWord g 16 (ty.code * 8 + b.val * 128 + a.val * 4096 + d.val * 131072 + 1) w (by omega) (by omega) (by rw [hw]; simp only [put, guardBits]; omega)
  refine ⟨h0, ?_⟩
  have h1 : fld w 2 0 = 1 := by rw [hf _ _ (by decide) (by decide)]; simp only [fld]; omega
  have h2 : fld w 6 3 = ty.code := by rw [hf _ _ (by decide) (by decide)]; simp only [fld]; omega
  have h3 : fld w 11 7 = b.val := by rw [hf _ _ (by decide) (by decide)]; simp only [fld]; omega
  have h4 : fld w 16 12 = a.val := by rw [hf _ _ (by decide) (by decide)]; simp only [fld]; omega
  have h5 : fld w 21 17 = d.val := by rw [hf _ _ (by decide) (by decide)]; simp only [fld]; omega
  simp [decodeA, rawA, decA16, hm, hg, hp, h1, h2, h3, h4, h5, hwf, Option.filter]

theorem RoundTrip.vmul (g : Guard) (d : Reg) (a : Reg) (b : Reg) (ty : ETy) : RoundTrip.Statement (.vmul g d a b ty) := by
  intro hwf
  have := d.isLt
  have := a.isLt
  have := b.isLt
  have := ty.code_lt
  rw [show encode (.vmul g d a b ty) = .aword (put (ty.code) 3 (put (b.val) 7 (put (a.val) 12 (put (d.val) 17 (put 1073741826 0 (guardBits g)))))) from rfl]
  obtain ⟨w, hw⟩ : ∃ w, w = put (ty.code) 3 (put (b.val) 7 (put (a.val) 12 (put (d.val) 17 (put 1073741826 0 (guardBits g))))) := ⟨_, rfl⟩
  rw [← hw]
  obtain ⟨h0, hm, hg, hp, hf⟩ := aWord g 16 (ty.code * 8 + b.val * 128 + a.val * 4096 + d.val * 131072 + 2) w (by omega) (by omega) (by rw [hw]; simp only [put, guardBits]; omega)
  refine ⟨h0, ?_⟩
  have h1 : fld w 2 0 = 2 := by rw [hf _ _ (by decide) (by decide)]; simp only [fld]; omega
  have h2 : fld w 6 3 = ty.code := by rw [hf _ _ (by decide) (by decide)]; simp only [fld]; omega
  have h3 : fld w 11 7 = b.val := by rw [hf _ _ (by decide) (by decide)]; simp only [fld]; omega
  have h4 : fld w 16 12 = a.val := by rw [hf _ _ (by decide) (by decide)]; simp only [fld]; omega
  have h5 : fld w 21 17 = d.val := by rw [hf _ _ (by decide) (by decide)]; simp only [fld]; omega
  simp [decodeA, rawA, decA16, hm, hg, hp, h1, h2, h3, h4, h5, hwf, Option.filter]

theorem RoundTrip.vdiv (g : Guard) (d : Reg) (a : Reg) (b : Reg) (ty : ETy) : RoundTrip.Statement (.vdiv g d a b ty) := by
  intro hwf
  have := d.isLt
  have := a.isLt
  have := b.isLt
  have := ty.code_lt
  rw [show encode (.vdiv g d a b ty) = .aword (put (ty.code) 3 (put (b.val) 7 (put (a.val) 12 (put (d.val) 17 (put 1073741827 0 (guardBits g)))))) from rfl]
  obtain ⟨w, hw⟩ : ∃ w, w = put (ty.code) 3 (put (b.val) 7 (put (a.val) 12 (put (d.val) 17 (put 1073741827 0 (guardBits g))))) := ⟨_, rfl⟩
  rw [← hw]
  obtain ⟨h0, hm, hg, hp, hf⟩ := aWord g 16 (ty.code * 8 + b.val * 128 + a.val * 4096 + d.val * 131072 + 3) w (by omega) (by omega) (by rw [hw]; simp only [put, guardBits]; omega)
  refine ⟨h0, ?_⟩
  have h1 : fld w 2 0 = 3 := by rw [hf _ _ (by decide) (by decide)]; simp only [fld]; omega
  have h2 : fld w 6 3 = ty.code := by rw [hf _ _ (by decide) (by decide)]; simp only [fld]; omega
  have h3 : fld w 11 7 = b.val := by rw [hf _ _ (by decide) (by decide)]; simp only [fld]; omega
  have h4 : fld w 16 12 = a.val := by rw [hf _ _ (by decide) (by decide)]; simp only [fld]; omega
  have h5 : fld w 21 17 = d.val := by rw [hf _ _ (by decide) (by decide)]; simp only [fld]; omega
  simp [decodeA, rawA, decA16, hm, hg, hp, h1, h2, h3, h4, h5, hwf, Option.filter]

theorem RoundTrip.vmin (g : Guard) (d : Reg) (a : Reg) (b : Reg) (ty : ETy) : RoundTrip.Statement (.vmin g d a b ty) := by
  intro hwf
  have := d.isLt
  have := a.isLt
  have := b.isLt
  have := ty.code_lt
  rw [show encode (.vmin g d a b ty) = .aword (put (ty.code) 3 (put (b.val) 7 (put (a.val) 12 (put (d.val) 17 (put 1073741828 0 (guardBits g)))))) from rfl]
  obtain ⟨w, hw⟩ : ∃ w, w = put (ty.code) 3 (put (b.val) 7 (put (a.val) 12 (put (d.val) 17 (put 1073741828 0 (guardBits g))))) := ⟨_, rfl⟩
  rw [← hw]
  obtain ⟨h0, hm, hg, hp, hf⟩ := aWord g 16 (ty.code * 8 + b.val * 128 + a.val * 4096 + d.val * 131072 + 4) w (by omega) (by omega) (by rw [hw]; simp only [put, guardBits]; omega)
  refine ⟨h0, ?_⟩
  have h1 : fld w 2 0 = 4 := by rw [hf _ _ (by decide) (by decide)]; simp only [fld]; omega
  have h2 : fld w 6 3 = ty.code := by rw [hf _ _ (by decide) (by decide)]; simp only [fld]; omega
  have h3 : fld w 11 7 = b.val := by rw [hf _ _ (by decide) (by decide)]; simp only [fld]; omega
  have h4 : fld w 16 12 = a.val := by rw [hf _ _ (by decide) (by decide)]; simp only [fld]; omega
  have h5 : fld w 21 17 = d.val := by rw [hf _ _ (by decide) (by decide)]; simp only [fld]; omega
  simp [decodeA, rawA, decA16, hm, hg, hp, h1, h2, h3, h4, h5, hwf, Option.filter]

theorem RoundTrip.vmax (g : Guard) (d : Reg) (a : Reg) (b : Reg) (ty : ETy) : RoundTrip.Statement (.vmax g d a b ty) := by
  intro hwf
  have := d.isLt
  have := a.isLt
  have := b.isLt
  have := ty.code_lt
  rw [show encode (.vmax g d a b ty) = .aword (put (ty.code) 3 (put (b.val) 7 (put (a.val) 12 (put (d.val) 17 (put 1073741829 0 (guardBits g)))))) from rfl]
  obtain ⟨w, hw⟩ : ∃ w, w = put (ty.code) 3 (put (b.val) 7 (put (a.val) 12 (put (d.val) 17 (put 1073741829 0 (guardBits g))))) := ⟨_, rfl⟩
  rw [← hw]
  obtain ⟨h0, hm, hg, hp, hf⟩ := aWord g 16 (ty.code * 8 + b.val * 128 + a.val * 4096 + d.val * 131072 + 5) w (by omega) (by omega) (by rw [hw]; simp only [put, guardBits]; omega)
  refine ⟨h0, ?_⟩
  have h1 : fld w 2 0 = 5 := by rw [hf _ _ (by decide) (by decide)]; simp only [fld]; omega
  have h2 : fld w 6 3 = ty.code := by rw [hf _ _ (by decide) (by decide)]; simp only [fld]; omega
  have h3 : fld w 11 7 = b.val := by rw [hf _ _ (by decide) (by decide)]; simp only [fld]; omega
  have h4 : fld w 16 12 = a.val := by rw [hf _ _ (by decide) (by decide)]; simp only [fld]; omega
  have h5 : fld w 21 17 = d.val := by rw [hf _ _ (by decide) (by decide)]; simp only [fld]; omega
  simp [decodeA, rawA, decA16, hm, hg, hp, h1, h2, h3, h4, h5, hwf, Option.filter]

theorem RoundTrip.vminn (g : Guard) (d : Reg) (a : Reg) (b : Reg) (ty : ETy) : RoundTrip.Statement (.vminn g d a b ty) := by
  intro hwf
  have := d.isLt
  have := a.isLt
  have := b.isLt
  have := ty.code_lt
  rw [show encode (.vminn g d a b ty) = .aword (put (ty.code) 3 (put (b.val) 7 (put (a.val) 12 (put (d.val) 17 (put 1073741830 0 (guardBits g)))))) from rfl]
  obtain ⟨w, hw⟩ : ∃ w, w = put (ty.code) 3 (put (b.val) 7 (put (a.val) 12 (put (d.val) 17 (put 1073741830 0 (guardBits g))))) := ⟨_, rfl⟩
  rw [← hw]
  obtain ⟨h0, hm, hg, hp, hf⟩ := aWord g 16 (ty.code * 8 + b.val * 128 + a.val * 4096 + d.val * 131072 + 6) w (by omega) (by omega) (by rw [hw]; simp only [put, guardBits]; omega)
  refine ⟨h0, ?_⟩
  have h1 : fld w 2 0 = 6 := by rw [hf _ _ (by decide) (by decide)]; simp only [fld]; omega
  have h2 : fld w 6 3 = ty.code := by rw [hf _ _ (by decide) (by decide)]; simp only [fld]; omega
  have h3 : fld w 11 7 = b.val := by rw [hf _ _ (by decide) (by decide)]; simp only [fld]; omega
  have h4 : fld w 16 12 = a.val := by rw [hf _ _ (by decide) (by decide)]; simp only [fld]; omega
  have h5 : fld w 21 17 = d.val := by rw [hf _ _ (by decide) (by decide)]; simp only [fld]; omega
  simp [decodeA, rawA, decA16, hm, hg, hp, h1, h2, h3, h4, h5, hwf, Option.filter]

theorem RoundTrip.vmaxn (g : Guard) (d : Reg) (a : Reg) (b : Reg) (ty : ETy) : RoundTrip.Statement (.vmaxn g d a b ty) := by
  intro hwf
  have := d.isLt
  have := a.isLt
  have := b.isLt
  have := ty.code_lt
  rw [show encode (.vmaxn g d a b ty) = .aword (put (ty.code) 3 (put (b.val) 7 (put (a.val) 12 (put (d.val) 17 (put 1073741831 0 (guardBits g)))))) from rfl]
  obtain ⟨w, hw⟩ : ∃ w, w = put (ty.code) 3 (put (b.val) 7 (put (a.val) 12 (put (d.val) 17 (put 1073741831 0 (guardBits g))))) := ⟨_, rfl⟩
  rw [← hw]
  obtain ⟨h0, hm, hg, hp, hf⟩ := aWord g 16 (ty.code * 8 + b.val * 128 + a.val * 4096 + d.val * 131072 + 7) w (by omega) (by omega) (by rw [hw]; simp only [put, guardBits]; omega)
  refine ⟨h0, ?_⟩
  have h1 : fld w 2 0 = 7 := by rw [hf _ _ (by decide) (by decide)]; simp only [fld]; omega
  have h2 : fld w 6 3 = ty.code := by rw [hf _ _ (by decide) (by decide)]; simp only [fld]; omega
  have h3 : fld w 11 7 = b.val := by rw [hf _ _ (by decide) (by decide)]; simp only [fld]; omega
  have h4 : fld w 16 12 = a.val := by rw [hf _ _ (by decide) (by decide)]; simp only [fld]; omega
  have h5 : fld w 21 17 = d.val := by rw [hf _ _ (by decide) (by decide)]; simp only [fld]; omega
  simp [decodeA, rawA, decA16, hm, hg, hp, h1, h2, h3, h4, h5, hwf, Option.filter]

theorem RoundTrip.vsqrt (g : Guard) (d : Reg) (a : Reg) (ty : ETy) : RoundTrip.Statement (.vsqrt g d a ty) := by
  intro hwf
  have := d.isLt
  have := a.isLt
  have := ty.code_lt
  rw [show encode (.vsqrt g d a ty) = .aword (put (ty.code) 3 (put (a.val) 12 (put (d.val) 17 (put 1140850688 0 (guardBits g))))) from rfl]
  obtain ⟨w, hw⟩ : ∃ w, w = put (ty.code) 3 (put (a.val) 12 (put (d.val) 17 (put 1140850688 0 (guardBits g)))) := ⟨_, rfl⟩
  rw [← hw]
  obtain ⟨h0, hm, hg, hp, hf⟩ := aWord g 17 (ty.code * 8 + a.val * 4096 + d.val * 131072) w (by omega) (by omega) (by rw [hw]; simp only [put, guardBits]; omega)
  refine ⟨h0, ?_⟩
  have h1 : fld w 2 0 = 0 := by rw [hf _ _ (by decide) (by decide)]; simp only [fld]; omega
  have h2 : fld w 6 3 = ty.code := by rw [hf _ _ (by decide) (by decide)]; simp only [fld]; omega
  have h3 : fld w 11 7 = 0 := by rw [hf _ _ (by decide) (by decide)]; simp only [fld]; omega
  have h4 : fld w 16 12 = a.val := by rw [hf _ _ (by decide) (by decide)]; simp only [fld]; omega
  have h5 : fld w 21 17 = d.val := by rw [hf _ _ (by decide) (by decide)]; simp only [fld]; omega
  simp [decodeA, rawA, decA17, hm, hg, hp, h1, h2, h3, h4, h5, hwf, Option.filter]

theorem RoundTrip.vrcp (g : Guard) (d : Reg) (a : Reg) (ty : ETy) : RoundTrip.Statement (.vrcp g d a ty) := by
  intro hwf
  have := d.isLt
  have := a.isLt
  have := ty.code_lt
  rw [show encode (.vrcp g d a ty) = .aword (put (ty.code) 3 (put (a.val) 12 (put (d.val) 17 (put 1140850689 0 (guardBits g))))) from rfl]
  obtain ⟨w, hw⟩ : ∃ w, w = put (ty.code) 3 (put (a.val) 12 (put (d.val) 17 (put 1140850689 0 (guardBits g)))) := ⟨_, rfl⟩
  rw [← hw]
  obtain ⟨h0, hm, hg, hp, hf⟩ := aWord g 17 (ty.code * 8 + a.val * 4096 + d.val * 131072 + 1) w (by omega) (by omega) (by rw [hw]; simp only [put, guardBits]; omega)
  refine ⟨h0, ?_⟩
  have h1 : fld w 2 0 = 1 := by rw [hf _ _ (by decide) (by decide)]; simp only [fld]; omega
  have h2 : fld w 6 3 = ty.code := by rw [hf _ _ (by decide) (by decide)]; simp only [fld]; omega
  have h3 : fld w 11 7 = 0 := by rw [hf _ _ (by decide) (by decide)]; simp only [fld]; omega
  have h4 : fld w 16 12 = a.val := by rw [hf _ _ (by decide) (by decide)]; simp only [fld]; omega
  have h5 : fld w 21 17 = d.val := by rw [hf _ _ (by decide) (by decide)]; simp only [fld]; omega
  simp [decodeA, rawA, decA17, hm, hg, hp, h1, h2, h3, h4, h5, hwf, Option.filter]

theorem RoundTrip.vrsq (g : Guard) (d : Reg) (a : Reg) (ty : ETy) : RoundTrip.Statement (.vrsq g d a ty) := by
  intro hwf
  have := d.isLt
  have := a.isLt
  have := ty.code_lt
  rw [show encode (.vrsq g d a ty) = .aword (put (ty.code) 3 (put (a.val) 12 (put (d.val) 17 (put 1140850690 0 (guardBits g))))) from rfl]
  obtain ⟨w, hw⟩ : ∃ w, w = put (ty.code) 3 (put (a.val) 12 (put (d.val) 17 (put 1140850690 0 (guardBits g)))) := ⟨_, rfl⟩
  rw [← hw]
  obtain ⟨h0, hm, hg, hp, hf⟩ := aWord g 17 (ty.code * 8 + a.val * 4096 + d.val * 131072 + 2) w (by omega) (by omega) (by rw [hw]; simp only [put, guardBits]; omega)
  refine ⟨h0, ?_⟩
  have h1 : fld w 2 0 = 2 := by rw [hf _ _ (by decide) (by decide)]; simp only [fld]; omega
  have h2 : fld w 6 3 = ty.code := by rw [hf _ _ (by decide) (by decide)]; simp only [fld]; omega
  have h3 : fld w 11 7 = 0 := by rw [hf _ _ (by decide) (by decide)]; simp only [fld]; omega
  have h4 : fld w 16 12 = a.val := by rw [hf _ _ (by decide) (by decide)]; simp only [fld]; omega
  have h5 : fld w 21 17 = d.val := by rw [hf _ _ (by decide) (by decide)]; simp only [fld]; omega
  simp [decodeA, rawA, decA17, hm, hg, hp, h1, h2, h3, h4, h5, hwf, Option.filter]

theorem RoundTrip.vexp2 (g : Guard) (d : Reg) (a : Reg) (ty : ETy) : RoundTrip.Statement (.vexp2 g d a ty) := by
  intro hwf
  have := d.isLt
  have := a.isLt
  have := ty.code_lt
  rw [show encode (.vexp2 g d a ty) = .aword (put (ty.code) 3 (put (a.val) 12 (put (d.val) 17 (put 1140850691 0 (guardBits g))))) from rfl]
  obtain ⟨w, hw⟩ : ∃ w, w = put (ty.code) 3 (put (a.val) 12 (put (d.val) 17 (put 1140850691 0 (guardBits g)))) := ⟨_, rfl⟩
  rw [← hw]
  obtain ⟨h0, hm, hg, hp, hf⟩ := aWord g 17 (ty.code * 8 + a.val * 4096 + d.val * 131072 + 3) w (by omega) (by omega) (by rw [hw]; simp only [put, guardBits]; omega)
  refine ⟨h0, ?_⟩
  have h1 : fld w 2 0 = 3 := by rw [hf _ _ (by decide) (by decide)]; simp only [fld]; omega
  have h2 : fld w 6 3 = ty.code := by rw [hf _ _ (by decide) (by decide)]; simp only [fld]; omega
  have h3 : fld w 11 7 = 0 := by rw [hf _ _ (by decide) (by decide)]; simp only [fld]; omega
  have h4 : fld w 16 12 = a.val := by rw [hf _ _ (by decide) (by decide)]; simp only [fld]; omega
  have h5 : fld w 21 17 = d.val := by rw [hf _ _ (by decide) (by decide)]; simp only [fld]; omega
  simp [decodeA, rawA, decA17, hm, hg, hp, h1, h2, h3, h4, h5, hwf, Option.filter]

theorem RoundTrip.vlog2 (g : Guard) (d : Reg) (a : Reg) (ty : ETy) : RoundTrip.Statement (.vlog2 g d a ty) := by
  intro hwf
  have := d.isLt
  have := a.isLt
  have := ty.code_lt
  rw [show encode (.vlog2 g d a ty) = .aword (put (ty.code) 3 (put (a.val) 12 (put (d.val) 17 (put 1140850692 0 (guardBits g))))) from rfl]
  obtain ⟨w, hw⟩ : ∃ w, w = put (ty.code) 3 (put (a.val) 12 (put (d.val) 17 (put 1140850692 0 (guardBits g)))) := ⟨_, rfl⟩
  rw [← hw]
  obtain ⟨h0, hm, hg, hp, hf⟩ := aWord g 17 (ty.code * 8 + a.val * 4096 + d.val * 131072 + 4) w (by omega) (by omega) (by rw [hw]; simp only [put, guardBits]; omega)
  refine ⟨h0, ?_⟩
  have h1 : fld w 2 0 = 4 := by rw [hf _ _ (by decide) (by decide)]; simp only [fld]; omega
  have h2 : fld w 6 3 = ty.code := by rw [hf _ _ (by decide) (by decide)]; simp only [fld]; omega
  have h3 : fld w 11 7 = 0 := by rw [hf _ _ (by decide) (by decide)]; simp only [fld]; omega
  have h4 : fld w 16 12 = a.val := by rw [hf _ _ (by decide) (by decide)]; simp only [fld]; omega
  have h5 : fld w 21 17 = d.val := by rw [hf _ _ (by decide) (by decide)]; simp only [fld]; omega
  simp [decodeA, rawA, decA17, hm, hg, hp, h1, h2, h3, h4, h5, hwf, Option.filter]

theorem RoundTrip.vabs (g : Guard) (d : Reg) (a : Reg) (ty : ETy) : RoundTrip.Statement (.vabs g d a ty) := by
  intro hwf
  have := d.isLt
  have := a.isLt
  have := ty.code_lt
  rw [show encode (.vabs g d a ty) = .aword (put (ty.code) 3 (put (a.val) 12 (put (d.val) 17 (put 1140850693 0 (guardBits g))))) from rfl]
  obtain ⟨w, hw⟩ : ∃ w, w = put (ty.code) 3 (put (a.val) 12 (put (d.val) 17 (put 1140850693 0 (guardBits g)))) := ⟨_, rfl⟩
  rw [← hw]
  obtain ⟨h0, hm, hg, hp, hf⟩ := aWord g 17 (ty.code * 8 + a.val * 4096 + d.val * 131072 + 5) w (by omega) (by omega) (by rw [hw]; simp only [put, guardBits]; omega)
  refine ⟨h0, ?_⟩
  have h1 : fld w 2 0 = 5 := by rw [hf _ _ (by decide) (by decide)]; simp only [fld]; omega
  have h2 : fld w 6 3 = ty.code := by rw [hf _ _ (by decide) (by decide)]; simp only [fld]; omega
  have h3 : fld w 11 7 = 0 := by rw [hf _ _ (by decide) (by decide)]; simp only [fld]; omega
  have h4 : fld w 16 12 = a.val := by rw [hf _ _ (by decide) (by decide)]; simp only [fld]; omega
  have h5 : fld w 21 17 = d.val := by rw [hf _ _ (by decide) (by decide)]; simp only [fld]; omega
  simp [decodeA, rawA, decA17, hm, hg, hp, h1, h2, h3, h4, h5, hwf, Option.filter]

theorem RoundTrip.vneg (g : Guard) (d : Reg) (a : Reg) (ty : ETy) : RoundTrip.Statement (.vneg g d a ty) := by
  intro hwf
  have := d.isLt
  have := a.isLt
  have := ty.code_lt
  rw [show encode (.vneg g d a ty) = .aword (put (ty.code) 3 (put (a.val) 12 (put (d.val) 17 (put 1140850694 0 (guardBits g))))) from rfl]
  obtain ⟨w, hw⟩ : ∃ w, w = put (ty.code) 3 (put (a.val) 12 (put (d.val) 17 (put 1140850694 0 (guardBits g)))) := ⟨_, rfl⟩
  rw [← hw]
  obtain ⟨h0, hm, hg, hp, hf⟩ := aWord g 17 (ty.code * 8 + a.val * 4096 + d.val * 131072 + 6) w (by omega) (by omega) (by rw [hw]; simp only [put, guardBits]; omega)
  refine ⟨h0, ?_⟩
  have h1 : fld w 2 0 = 6 := by rw [hf _ _ (by decide) (by decide)]; simp only [fld]; omega
  have h2 : fld w 6 3 = ty.code := by rw [hf _ _ (by decide) (by decide)]; simp only [fld]; omega
  have h3 : fld w 11 7 = 0 := by rw [hf _ _ (by decide) (by decide)]; simp only [fld]; omega
  have h4 : fld w 16 12 = a.val := by rw [hf _ _ (by decide) (by decide)]; simp only [fld]; omega
  have h5 : fld w 21 17 = d.val := by rw [hf _ _ (by decide) (by decide)]; simp only [fld]; omega
  simp [decodeA, rawA, decA17, hm, hg, hp, h1, h2, h3, h4, h5, hwf, Option.filter]

theorem RoundTrip.vand (g : Guard) (d : Reg) (a : Reg) (b : Reg) : RoundTrip.Statement (.vand g d a b) := by
  intro hwf
  have := d.isLt
  have := a.isLt
  have := b.isLt
  rw [show encode (.vand g d a b) = .aword (put (b.val) 7 (put (a.val) 12 (put (d.val) 17 (put 1207959552 0 (guardBits g))))) from rfl]
  obtain ⟨w, hw⟩ : ∃ w, w = put (b.val) 7 (put (a.val) 12 (put (d.val) 17 (put 1207959552 0 (guardBits g)))) := ⟨_, rfl⟩
  rw [← hw]
  obtain ⟨h0, hm, hg, hp, hf⟩ := aWord g 18 (b.val * 128 + a.val * 4096 + d.val * 131072) w (by omega) (by omega) (by rw [hw]; simp only [put, guardBits]; omega)
  refine ⟨h0, ?_⟩
  have h1 : fld w 2 0 = 0 := by rw [hf _ _ (by decide) (by decide)]; simp only [fld]; omega
  have h2 : fld w 6 3 = 0 := by rw [hf _ _ (by decide) (by decide)]; simp only [fld]; omega
  have h3 : fld w 11 7 = b.val := by rw [hf _ _ (by decide) (by decide)]; simp only [fld]; omega
  have h4 : fld w 16 12 = a.val := by rw [hf _ _ (by decide) (by decide)]; simp only [fld]; omega
  have h5 : fld w 21 17 = d.val := by rw [hf _ _ (by decide) (by decide)]; simp only [fld]; omega
  simp [decodeA, rawA, decA18, hm, hg, hp, h1, h2, h3, h4, h5, hwf, Option.filter]

theorem RoundTrip.vor (g : Guard) (d : Reg) (a : Reg) (b : Reg) : RoundTrip.Statement (.vor g d a b) := by
  intro hwf
  have := d.isLt
  have := a.isLt
  have := b.isLt
  rw [show encode (.vor g d a b) = .aword (put (b.val) 7 (put (a.val) 12 (put (d.val) 17 (put 1207959553 0 (guardBits g))))) from rfl]
  obtain ⟨w, hw⟩ : ∃ w, w = put (b.val) 7 (put (a.val) 12 (put (d.val) 17 (put 1207959553 0 (guardBits g)))) := ⟨_, rfl⟩
  rw [← hw]
  obtain ⟨h0, hm, hg, hp, hf⟩ := aWord g 18 (b.val * 128 + a.val * 4096 + d.val * 131072 + 1) w (by omega) (by omega) (by rw [hw]; simp only [put, guardBits]; omega)
  refine ⟨h0, ?_⟩
  have h1 : fld w 2 0 = 1 := by rw [hf _ _ (by decide) (by decide)]; simp only [fld]; omega
  have h2 : fld w 6 3 = 0 := by rw [hf _ _ (by decide) (by decide)]; simp only [fld]; omega
  have h3 : fld w 11 7 = b.val := by rw [hf _ _ (by decide) (by decide)]; simp only [fld]; omega
  have h4 : fld w 16 12 = a.val := by rw [hf _ _ (by decide) (by decide)]; simp only [fld]; omega
  have h5 : fld w 21 17 = d.val := by rw [hf _ _ (by decide) (by decide)]; simp only [fld]; omega
  simp [decodeA, rawA, decA18, hm, hg, hp, h1, h2, h3, h4, h5, hwf, Option.filter]

theorem RoundTrip.vxor (g : Guard) (d : Reg) (a : Reg) (b : Reg) : RoundTrip.Statement (.vxor g d a b) := by
  intro hwf
  have := d.isLt
  have := a.isLt
  have := b.isLt
  rw [show encode (.vxor g d a b) = .aword (put (b.val) 7 (put (a.val) 12 (put (d.val) 17 (put 1207959554 0 (guardBits g))))) from rfl]
  obtain ⟨w, hw⟩ : ∃ w, w = put (b.val) 7 (put (a.val) 12 (put (d.val) 17 (put 1207959554 0 (guardBits g)))) := ⟨_, rfl⟩
  rw [← hw]
  obtain ⟨h0, hm, hg, hp, hf⟩ := aWord g 18 (b.val * 128 + a.val * 4096 + d.val * 131072 + 2) w (by omega) (by omega) (by rw [hw]; simp only [put, guardBits]; omega)
  refine ⟨h0, ?_⟩
  have h1 : fld w 2 0 = 2 := by rw [hf _ _ (by decide) (by decide)]; simp only [fld]; omega
  have h2 : fld w 6 3 = 0 := by rw [hf _ _ (by decide) (by decide)]; simp only [fld]; omega
  have h3 : fld w 11 7 = b.val := by rw [hf _ _ (by decide) (by decide)]; simp only [fld]; omega
  have h4 : fld w 16 12 = a.val := by rw [hf _ _ (by decide) (by decide)]; simp only [fld]; omega
  have h5 : fld w 21 17 = d.val := by rw [hf _ _ (by decide) (by decide)]; simp only [fld]; omega
  simp [decodeA, rawA, decA18, hm, hg, hp, h1, h2, h3, h4, h5, hwf, Option.filter]

theorem RoundTrip.vnot (g : Guard) (d : Reg) (a : Reg) : RoundTrip.Statement (.vnot g d a) := by
  intro hwf
  have := d.isLt
  have := a.isLt
  rw [show encode (.vnot g d a) = .aword (put (a.val) 12 (put (d.val) 17 (put 1207959555 0 (guardBits g)))) from rfl]
  obtain ⟨w, hw⟩ : ∃ w, w = put (a.val) 12 (put (d.val) 17 (put 1207959555 0 (guardBits g))) := ⟨_, rfl⟩
  rw [← hw]
  obtain ⟨h0, hm, hg, hp, hf⟩ := aWord g 18 (a.val * 4096 + d.val * 131072 + 3) w (by omega) (by omega) (by rw [hw]; simp only [put, guardBits]; omega)
  refine ⟨h0, ?_⟩
  have h1 : fld w 2 0 = 3 := by rw [hf _ _ (by decide) (by decide)]; simp only [fld]; omega
  have h2 : fld w 6 3 = 0 := by rw [hf _ _ (by decide) (by decide)]; simp only [fld]; omega
  have h3 : fld w 11 7 = 0 := by rw [hf _ _ (by decide) (by decide)]; simp only [fld]; omega
  have h4 : fld w 16 12 = a.val := by rw [hf _ _ (by decide) (by decide)]; simp only [fld]; omega
  have h5 : fld w 21 17 = d.val := by rw [hf _ _ (by decide) (by decide)]; simp only [fld]; omega
  simp [decodeA, rawA, decA18, hm, hg, hp, h1, h2, h3, h4, h5, hwf, Option.filter]

theorem RoundTrip.vshl (g : Guard) (d : Reg) (a : Reg) (b : Reg) (ty : ETy) : RoundTrip.Statement (.vshl g d a b ty) := by
  intro hwf
  have := d.isLt
  have := a.isLt
  have := b.isLt
  have := ty.code_lt
  rw [show encode (.vshl g d a b ty) = .aword (put (ty.code) 3 (put (b.val) 7 (put (a.val) 12 (put (d.val) 17 (put 1207959556 0 (guardBits g)))))) from rfl]
  obtain ⟨w, hw⟩ : ∃ w, w = put (ty.code) 3 (put (b.val) 7 (put (a.val) 12 (put (d.val) 17 (put 1207959556 0 (guardBits g))))) := ⟨_, rfl⟩
  rw [← hw]
  obtain ⟨h0, hm, hg, hp, hf⟩ := aWord g 18 (ty.code * 8 + b.val * 128 + a.val * 4096 + d.val * 131072 + 4) w (by omega) (by omega) (by rw [hw]; simp only [put, guardBits]; omega)
  refine ⟨h0, ?_⟩
  have h1 : fld w 2 0 = 4 := by rw [hf _ _ (by decide) (by decide)]; simp only [fld]; omega
  have h2 : fld w 6 3 = ty.code := by rw [hf _ _ (by decide) (by decide)]; simp only [fld]; omega
  have h3 : fld w 11 7 = b.val := by rw [hf _ _ (by decide) (by decide)]; simp only [fld]; omega
  have h4 : fld w 16 12 = a.val := by rw [hf _ _ (by decide) (by decide)]; simp only [fld]; omega
  have h5 : fld w 21 17 = d.val := by rw [hf _ _ (by decide) (by decide)]; simp only [fld]; omega
  simp [decodeA, rawA, decA18, hm, hg, hp, h1, h2, h3, h4, h5, hwf, Option.filter]

theorem RoundTrip.vshr (g : Guard) (d : Reg) (a : Reg) (b : Reg) (ty : ETy) : RoundTrip.Statement (.vshr g d a b ty) := by
  intro hwf
  have := d.isLt
  have := a.isLt
  have := b.isLt
  have := ty.code_lt
  rw [show encode (.vshr g d a b ty) = .aword (put (ty.code) 3 (put (b.val) 7 (put (a.val) 12 (put (d.val) 17 (put 1207959557 0 (guardBits g)))))) from rfl]
  obtain ⟨w, hw⟩ : ∃ w, w = put (ty.code) 3 (put (b.val) 7 (put (a.val) 12 (put (d.val) 17 (put 1207959557 0 (guardBits g))))) := ⟨_, rfl⟩
  rw [← hw]
  obtain ⟨h0, hm, hg, hp, hf⟩ := aWord g 18 (ty.code * 8 + b.val * 128 + a.val * 4096 + d.val * 131072 + 5) w (by omega) (by omega) (by rw [hw]; simp only [put, guardBits]; omega)
  refine ⟨h0, ?_⟩
  have h1 : fld w 2 0 = 5 := by rw [hf _ _ (by decide) (by decide)]; simp only [fld]; omega
  have h2 : fld w 6 3 = ty.code := by rw [hf _ _ (by decide) (by decide)]; simp only [fld]; omega
  have h3 : fld w 11 7 = b.val := by rw [hf _ _ (by decide) (by decide)]; simp only [fld]; omega
  have h4 : fld w 16 12 = a.val := by rw [hf _ _ (by decide) (by decide)]; simp only [fld]; omega
  have h5 : fld w 21 17 = d.val := by rw [hf _ _ (by decide) (by decide)]; simp only [fld]; omega
  simp [decodeA, rawA, decA18, hm, hg, hp, h1, h2, h3, h4, h5, hwf, Option.filter]

theorem RoundTrip.vsra (g : Guard) (d : Reg) (a : Reg) (b : Reg) (ty : ETy) : RoundTrip.Statement (.vsra g d a b ty) := by
  intro hwf
  have := d.isLt
  have := a.isLt
  have := b.isLt
  have := ty.code_lt
  rw [show encode (.vsra g d a b ty) = .aword (put (ty.code) 3 (put (b.val) 7 (put (a.val) 12 (put (d.val) 17 (put 1207959558 0 (guardBits g)))))) from rfl]
  obtain ⟨w, hw⟩ : ∃ w, w = put (ty.code) 3 (put (b.val) 7 (put (a.val) 12 (put (d.val) 17 (put 1207959558 0 (guardBits g))))) := ⟨_, rfl⟩
  rw [← hw]
  obtain ⟨h0, hm, hg, hp, hf⟩ := aWord g 18 (ty.code * 8 + b.val * 128 + a.val * 4096 + d.val * 131072 + 6) w (by omega) (by omega) (by rw [hw]; simp only [put, guardBits]; omega)
  refine ⟨h0, ?_⟩
  have h1 : fld w 2 0 = 6 := by rw [hf _ _ (by decide) (by decide)]; simp only [fld]; omega
  have h2 : fld w 6 3 = ty.code := by rw [hf _ _ (by decide) (by decide)]; simp only [fld]; omega
  have h3 : fld w 11 7 = b.val := by rw [hf _ _ (by decide) (by decide)]; simp only [fld]; omega
  have h4 : fld w 16 12 = a.val := by rw [hf _ _ (by decide) (by decide)]; simp only [fld]; omega
  have h5 : fld w 21 17 = d.val := by rw [hf _ _ (by decide) (by decide)]; simp only [fld]; omega
  simp [decodeA, rawA, decA18, hm, hg, hp, h1, h2, h3, h4, h5, hwf, Option.filter]

theorem RoundTrip.vfma (g : Guard) (d : Reg) (a : Reg) (b : Reg) (c : Reg) (f : FTy) : RoundTrip.Statement (.vfma g d a b c f) := by
  intro hwf
  have := d.isLt
  have := a.isLt
  have := b.isLt
  have := c.isLt
  have := f.code_lt
  rw [show encode (.vfma g d a b c f) = .aword (put (f.code) 0 (put (c.val) 2 (put (b.val) 7 (put (a.val) 12 (put (d.val) 17 (put 1275068416 0 (guardBits g))))))) from rfl]
  obtain ⟨w, hw⟩ : ∃ w, w = put (f.code) 0 (put (c.val) 2 (put (b.val) 7 (put (a.val) 12 (put (d.val) 17 (put 1275068416 0 (guardBits g)))))) := ⟨_, rfl⟩
  rw [← hw]
  obtain ⟨h0, hm, hg, hp, hf⟩ := aWord g 19 (f.code + c.val * 4 + b.val * 128 + a.val * 4096 + d.val * 131072) w (by omega) (by omega) (by rw [hw]; simp only [put, guardBits]; omega)
  refine ⟨h0, ?_⟩
  have h1 : fld w 1 0 = f.code := by rw [hf _ _ (by decide) (by decide)]; simp only [fld]; omega
  have h2 : fld w 6 2 = c.val := by rw [hf _ _ (by decide) (by decide)]; simp only [fld]; omega
  have h3 : fld w 11 7 = b.val := by rw [hf _ _ (by decide) (by decide)]; simp only [fld]; omega
  have h4 : fld w 16 12 = a.val := by rw [hf _ _ (by decide) (by decide)]; simp only [fld]; omega
  have h5 : fld w 21 17 = d.val := by rw [hf _ _ (by decide) (by decide)]; simp only [fld]; omega
  simp [decodeA, rawA, decA19, hm, hg, hp, h1, h2, h3, h4, h5, hwf, Option.filter]

theorem RoundTrip.vfms (g : Guard) (d : Reg) (a : Reg) (b : Reg) (c : Reg) (f : FTy) : RoundTrip.Statement (.vfms g d a b c f) := by
  intro hwf
  have := d.isLt
  have := a.isLt
  have := b.isLt
  have := c.isLt
  have := f.code_lt
  rw [show encode (.vfms g d a b c f) = .aword (put (f.code) 0 (put (c.val) 2 (put (b.val) 7 (put (a.val) 12 (put (d.val) 17 (put 1342177280 0 (guardBits g))))))) from rfl]
  obtain ⟨w, hw⟩ : ∃ w, w = put (f.code) 0 (put (c.val) 2 (put (b.val) 7 (put (a.val) 12 (put (d.val) 17 (put 1342177280 0 (guardBits g)))))) := ⟨_, rfl⟩
  rw [← hw]
  obtain ⟨h0, hm, hg, hp, hf⟩ := aWord g 20 (f.code + c.val * 4 + b.val * 128 + a.val * 4096 + d.val * 131072) w (by omega) (by omega) (by rw [hw]; simp only [put, guardBits]; omega)
  refine ⟨h0, ?_⟩
  have h1 : fld w 1 0 = f.code := by rw [hf _ _ (by decide) (by decide)]; simp only [fld]; omega
  have h2 : fld w 6 2 = c.val := by rw [hf _ _ (by decide) (by decide)]; simp only [fld]; omega
  have h3 : fld w 11 7 = b.val := by rw [hf _ _ (by decide) (by decide)]; simp only [fld]; omega
  have h4 : fld w 16 12 = a.val := by rw [hf _ _ (by decide) (by decide)]; simp only [fld]; omega
  have h5 : fld w 21 17 = d.val := by rw [hf _ _ (by decide) (by decide)]; simp only [fld]; omega
  simp [decodeA, rawA, decA20, hm, hg, hp, h1, h2, h3, h4, h5, hwf, Option.filter]

theorem RoundTrip.vfnma (g : Guard) (d : Reg) (a : Reg) (b : Reg) (c : Reg) (f : FTy) : RoundTrip.Statement (.vfnma g d a b c f) := by
  intro hwf
  have := d.isLt
  have := a.isLt
  have := b.isLt
  have := c.isLt
  have := f.code_lt
  rw [show encode (.vfnma g d a b c f) = .aword (put (f.code) 0 (put (c.val) 2 (put (b.val) 7 (put (a.val) 12 (put (d.val) 17 (put 1409286144 0 (guardBits g))))))) from rfl]
  obtain ⟨w, hw⟩ : ∃ w, w = put (f.code) 0 (put (c.val) 2 (put (b.val) 7 (put (a.val) 12 (put (d.val) 17 (put 1409286144 0 (guardBits g)))))) := ⟨_, rfl⟩
  rw [← hw]
  obtain ⟨h0, hm, hg, hp, hf⟩ := aWord g 21 (f.code + c.val * 4 + b.val * 128 + a.val * 4096 + d.val * 131072) w (by omega) (by omega) (by rw [hw]; simp only [put, guardBits]; omega)
  refine ⟨h0, ?_⟩
  have h1 : fld w 1 0 = f.code := by rw [hf _ _ (by decide) (by decide)]; simp only [fld]; omega
  have h2 : fld w 6 2 = c.val := by rw [hf _ _ (by decide) (by decide)]; simp only [fld]; omega
  have h3 : fld w 11 7 = b.val := by rw [hf _ _ (by decide) (by decide)]; simp only [fld]; omega
  have h4 : fld w 16 12 = a.val := by rw [hf _ _ (by decide) (by decide)]; simp only [fld]; omega
  have h5 : fld w 21 17 = d.val := by rw [hf _ _ (by decide) (by decide)]; simp only [fld]; omega
  simp [decodeA, rawA, decA21, hm, hg, hp, h1, h2, h3, h4, h5, hwf, Option.filter]

theorem RoundTrip.vcmp (g : Guard) (d : Reg) (a : Reg) (b : Reg) (ty : ETy) (cond : VCond) : RoundTrip.Statement (.vcmp g d a b ty cond) := by
  intro hwf
  have := d.isLt
  have := a.isLt
  have := b.isLt
  have := ty.code_lt
  have := cond.code_lt
  rw [show encode (.vcmp g d a b ty cond) = .aword (put (cond.code) 0 (put (ty.code) 3 (put (b.val) 7 (put (a.val) 12 (put (d.val) 17 (put 1476395008 0 (guardBits g))))))) from rfl]
  obtain ⟨w, hw⟩ : ∃ w, w = put (cond.code) 0 (put (ty.code) 3 (put (b.val) 7 (put (a.val) 12 (put (d.val) 17 (put 1476395008 0 (guardBits g)))))) := ⟨_, rfl⟩
  rw [← hw]
  obtain ⟨h0, hm, hg, hp, hf⟩ := aWord g 22 (cond.code + ty.code * 8 + b.val * 128 + a.val * 4096 + d.val * 131072) w (by omega) (by omega) (by rw [hw]; simp only [put, guardBits]; omega)
  refine ⟨h0, ?_⟩
  have h1 : fld w 2 0 = cond.code := by rw [hf _ _ (by decide) (by decide)]; simp only [fld]; omega
  have h2 : fld w 6 3 = ty.code := by rw [hf _ _ (by decide) (by decide)]; simp only [fld]; omega
  have h3 : fld w 11 7 = b.val := by rw [hf _ _ (by decide) (by decide)]; simp only [fld]; omega
  have h4 : fld w 16 12 = a.val := by rw [hf _ _ (by decide) (by decide)]; simp only [fld]; omega
  have h5 : fld w 21 17 = d.val := by rw [hf _ _ (by decide) (by decide)]; simp only [fld]; omega
  simp [decodeA, rawA, decA22, hm, hg, hp, h1, h2, h3, h4, h5, hwf, Option.filter]

theorem RoundTrip.vsel (g : Guard) (d : Reg) (a : Reg) (b : Reg) (c : Reg) : RoundTrip.Statement (.vsel g d a b c) := by
  intro hwf
  have := d.isLt
  have := a.isLt
  have := b.isLt
  have := c.isLt
  rw [show encode (.vsel g d a b c) = .aword (put (c.val) 2 (put (b.val) 7 (put (a.val) 12 (put (d.val) 17 (put 1543503872 0 (guardBits g)))))) from rfl]
  obtain ⟨w, hw⟩ : ∃ w, w = put (c.val) 2 (put (b.val) 7 (put (a.val) 12 (put (d.val) 17 (put 1543503872 0 (guardBits g))))) := ⟨_, rfl⟩
  rw [← hw]
  obtain ⟨h0, hm, hg, hp, hf⟩ := aWord g 23 (c.val * 4 + b.val * 128 + a.val * 4096 + d.val * 131072) w (by omega) (by omega) (by rw [hw]; simp only [put, guardBits]; omega)
  refine ⟨h0, ?_⟩
  have h1 : fld w 1 0 = 0 := by rw [hf _ _ (by decide) (by decide)]; simp only [fld]; omega
  have h2 : fld w 6 2 = c.val := by rw [hf _ _ (by decide) (by decide)]; simp only [fld]; omega
  have h3 : fld w 11 7 = b.val := by rw [hf _ _ (by decide) (by decide)]; simp only [fld]; omega
  have h4 : fld w 16 12 = a.val := by rw [hf _ _ (by decide) (by decide)]; simp only [fld]; omega
  have h5 : fld w 21 17 = d.val := by rw [hf _ _ (by decide) (by decide)]; simp only [fld]; omega
  simp [decodeA, rawA, decA23, hm, hg, hp, h1, h2, h3, h4, h5, hwf, Option.filter]

theorem RoundTrip.vcvt (g : Guard) (d : Reg) (a : Reg) (dt : ETy) (st : ETy) (rm : Rm) (sat : Bool) : RoundTrip.Statement (.vcvt g d a dt st rm sat) := by
  intro hwf
  have := d.isLt
  have := a.isLt
  have := dt.code_lt
  have := st.code_lt
  have := rm.code_lt
  have := bitN_lt sat
  rw [show encode (.vcvt g d a dt st rm sat) = .aword (put (bitN sat) 0 (put (rm.code) 1 (put (st.code) 4 (put (dt.code) 8 (put (a.val) 12 (put (d.val) 17 (put 1610612736 0 (guardBits g)))))))) from rfl]
  obtain ⟨w, hw⟩ : ∃ w, w = put (bitN sat) 0 (put (rm.code) 1 (put (st.code) 4 (put (dt.code) 8 (put (a.val) 12 (put (d.val) 17 (put 1610612736 0 (guardBits g))))))) := ⟨_, rfl⟩
  rw [← hw]
  obtain ⟨h0, hm, hg, hp, hf⟩ := aWord g 24 (bitN sat + rm.code * 2 + st.code * 16 + dt.code * 256 + a.val * 4096 + d.val * 131072) w (by omega) (by omega) (by rw [hw]; simp only [put, guardBits]; omega)
  refine ⟨h0, ?_⟩
  have h1 : fld w 3 1 = rm.code := by rw [hf _ _ (by decide) (by decide)]; simp only [fld]; omega
  have h2 : fld w 7 4 = st.code := by rw [hf _ _ (by decide) (by decide)]; simp only [fld]; omega
  have h3 : fld w 11 8 = dt.code := by rw [hf _ _ (by decide) (by decide)]; simp only [fld]; omega
  have h4 : fld w 16 12 = a.val := by rw [hf _ _ (by decide) (by decide)]; simp only [fld]; omega
  have h5 : fld w 21 17 = d.val := by rw [hf _ _ (by decide) (by decide)]; simp only [fld]; omega
  have hb0 : bit w 0 = sat := bit_of (by have := hf 0 0 (by decide) (by decide); simp only [fld] at this; omega)
  simp [decodeA, rawA, decA24, hm, hg, hp, h1, h2, h3, h4, h5, hb0, hwf, Option.filter]

theorem RoundTrip.vcvtSr (g : Guard) (d : Reg) (a : Reg) (b : Reg) (dt : SrTy) (st : FTy) (sat : Bool) : RoundTrip.Statement (.vcvtSr g d a b dt st sat) := by
  intro hwf
  have := d.isLt
  have := a.isLt
  have := b.isLt
  have := dt.code_lt
  have := st.code_lt
  have := bitN_lt sat
  rw [show encode (.vcvtSr g d a b dt st sat) = .aword (put (bitN sat) 2 (put (st.code) 3 (put (dt.code) 5 (put (b.val) 7 (put (a.val) 12 (put (d.val) 17 (put 1677721600 0 (guardBits g)))))))) from rfl]
  obtain ⟨w, hw⟩ : ∃ w, w = put (bitN sat) 2 (put (st.code) 3 (put (dt.code) 5 (put (b.val) 7 (put (a.val) 12 (put (d.val) 17 (put 1677721600 0 (guardBits g))))))) := ⟨_, rfl⟩
  rw [← hw]
  obtain ⟨h0, hm, hg, hp, hf⟩ := aWord g 25 (bitN sat * 4 + st.code * 8 + dt.code * 32 + b.val * 128 + a.val * 4096 + d.val * 131072) w (by omega) (by omega) (by rw [hw]; simp only [put, guardBits]; omega)
  refine ⟨h0, ?_⟩
  have h1 : fld w 1 0 = 0 := by rw [hf _ _ (by decide) (by decide)]; simp only [fld]; omega
  have h2 : fld w 4 3 = st.code := by rw [hf _ _ (by decide) (by decide)]; simp only [fld]; omega
  have h3 : fld w 6 5 = dt.code := by rw [hf _ _ (by decide) (by decide)]; simp only [fld]; omega
  have h4 : fld w 11 7 = b.val := by rw [hf _ _ (by decide) (by decide)]; simp only [fld]; omega
  have h5 : fld w 16 12 = a.val := by rw [hf _ _ (by decide) (by decide)]; simp only [fld]; omega
  have h6 : fld w 21 17 = d.val := by rw [hf _ _ (by decide) (by decide)]; simp only [fld]; omega
  have hb0 : bit w 2 = sat := bit_of (by have := hf 2 2 (by decide) (by decide); simp only [fld] at this; omega)
  simp [decodeA, rawA, decA25, hm, hg, hp, h1, h2, h3, h4, h5, h6, hb0, hwf, Option.filter]

theorem RoundTrip.vredadd (g : Guard) (d : Reg) (a : Reg) (n : Fin 32) (ty : ETy) : RoundTrip.Statement (.vredadd g d a n ty) := by
  intro hwf
  have := d.isLt
  have := a.isLt
  have := n.isLt
  have := ty.code_lt
  rw [show encode (.vredadd g d a n ty) = .aword (put (ty.code) 3 (put (n.val) 7 (put (a.val) 12 (put (d.val) 17 (put 1744830464 0 (guardBits g)))))) from rfl]
  obtain ⟨w, hw⟩ : ∃ w, w = put (ty.code) 3 (put (n.val) 7 (put (a.val) 12 (put (d.val) 17 (put 1744830464 0 (guardBits g))))) := ⟨_, rfl⟩
  rw [← hw]
  obtain ⟨h0, hm, hg, hp, hf⟩ := aWord g 26 (ty.code * 8 + n.val * 128 + a.val * 4096 + d.val * 131072) w (by omega) (by omega) (by rw [hw]; simp only [put, guardBits]; omega)
  refine ⟨h0, ?_⟩
  have h1 : fld w 2 0 = 0 := by rw [hf _ _ (by decide) (by decide)]; simp only [fld]; omega
  have h2 : fld w 6 3 = ty.code := by rw [hf _ _ (by decide) (by decide)]; simp only [fld]; omega
  have h3 : fld w 11 7 = n.val := by rw [hf _ _ (by decide) (by decide)]; simp only [fld]; omega
  have h4 : fld w 16 12 = a.val := by rw [hf _ _ (by decide) (by decide)]; simp only [fld]; omega
  have h5 : fld w 21 17 = d.val := by rw [hf _ _ (by decide) (by decide)]; simp only [fld]; omega
  simp [decodeA, rawA, decA26, hm, hg, hp, h1, h2, h3, h4, h5, hwf, Option.filter]

theorem RoundTrip.vredmax (g : Guard) (d : Reg) (a : Reg) (n : Fin 32) (ty : ETy) : RoundTrip.Statement (.vredmax g d a n ty) := by
  intro hwf
  have := d.isLt
  have := a.isLt
  have := n.isLt
  have := ty.code_lt
  rw [show encode (.vredmax g d a n ty) = .aword (put (ty.code) 3 (put (n.val) 7 (put (a.val) 12 (put (d.val) 17 (put 1744830465 0 (guardBits g)))))) from rfl]
  obtain ⟨w, hw⟩ : ∃ w, w = put (ty.code) 3 (put (n.val) 7 (put (a.val) 12 (put (d.val) 17 (put 1744830465 0 (guardBits g))))) := ⟨_, rfl⟩
  rw [← hw]
  obtain ⟨h0, hm, hg, hp, hf⟩ := aWord g 26 (ty.code * 8 + n.val * 128 + a.val * 4096 + d.val * 131072 + 1) w (by omega) (by omega) (by rw [hw]; simp only [put, guardBits]; omega)
  refine ⟨h0, ?_⟩
  have h1 : fld w 2 0 = 1 := by rw [hf _ _ (by decide) (by decide)]; simp only [fld]; omega
  have h2 : fld w 6 3 = ty.code := by rw [hf _ _ (by decide) (by decide)]; simp only [fld]; omega
  have h3 : fld w 11 7 = n.val := by rw [hf _ _ (by decide) (by decide)]; simp only [fld]; omega
  have h4 : fld w 16 12 = a.val := by rw [hf _ _ (by decide) (by decide)]; simp only [fld]; omega
  have h5 : fld w 21 17 = d.val := by rw [hf _ _ (by decide) (by decide)]; simp only [fld]; omega
  simp [decodeA, rawA, decA26, hm, hg, hp, h1, h2, h3, h4, h5, hwf, Option.filter]

theorem RoundTrip.vredmin (g : Guard) (d : Reg) (a : Reg) (n : Fin 32) (ty : ETy) : RoundTrip.Statement (.vredmin g d a n ty) := by
  intro hwf
  have := d.isLt
  have := a.isLt
  have := n.isLt
  have := ty.code_lt
  rw [show encode (.vredmin g d a n ty) = .aword (put (ty.code) 3 (put (n.val) 7 (put (a.val) 12 (put (d.val) 17 (put 1744830466 0 (guardBits g)))))) from rfl]
  obtain ⟨w, hw⟩ : ∃ w, w = put (ty.code) 3 (put (n.val) 7 (put (a.val) 12 (put (d.val) 17 (put 1744830466 0 (guardBits g))))) := ⟨_, rfl⟩
  rw [← hw]
  obtain ⟨h0, hm, hg, hp, hf⟩ := aWord g 26 (ty.code * 8 + n.val * 128 + a.val * 4096 + d.val * 131072 + 2) w (by omega) (by omega) (by rw [hw]; simp only [put, guardBits]; omega)
  refine ⟨h0, ?_⟩
  have h1 : fld w 2 0 = 2 := by rw [hf _ _ (by decide) (by decide)]; simp only [fld]; omega
  have h2 : fld w 6 3 = ty.code := by rw [hf _ _ (by decide) (by decide)]; simp only [fld]; omega
  have h3 : fld w 11 7 = n.val := by rw [hf _ _ (by decide) (by decide)]; simp only [fld]; omega
  have h4 : fld w 16 12 = a.val := by rw [hf _ _ (by decide) (by decide)]; simp only [fld]; omega
  have h5 : fld w 21 17 = d.val := by rw [hf _ _ (by decide) (by decide)]; simp only [fld]; omega
  simp [decodeA, rawA, decA26, hm, hg, hp, h1, h2, h3, h4, h5, hwf, Option.filter]

theorem RoundTrip.vperm (g : Guard) (d : Reg) (a : Reg) (b : Reg) (ty : ETy) : RoundTrip.Statement (.vperm g d a b ty) := by
  intro hwf
  have := d.isLt
  have := a.isLt
  have := b.isLt
  have := ty.code_lt
  rw [show encode (.vperm g d a b ty) = .aword (put (ty.code) 3 (put (b.val) 7 (put (a.val) 12 (put (d.val) 17 (put 1811939328 0 (guardBits g)))))) from rfl]
  obtain ⟨w, hw⟩ : ∃ w, w = put (ty.code) 3 (put (b.val) 7 (put (a.val) 12 (put (d.val) 17 (put 1811939328 0 (guardBits g))))) := ⟨_, rfl⟩
  rw [← hw]
  obtain ⟨h0, hm, hg, hp, hf⟩ := aWord g 27 (ty.code * 8 + b.val * 128 + a.val * 4096 + d.val * 131072) w (by omega) (by omega) (by rw [hw]; simp only [put, guardBits]; omega)
  refine ⟨h0, ?_⟩
  have h1 : fld w 2 0 = 0 := by rw [hf _ _ (by decide) (by decide)]; simp only [fld]; omega
  have h2 : fld w 6 3 = ty.code := by rw [hf _ _ (by decide) (by decide)]; simp only [fld]; omega
  have h3 : fld w 11 7 = b.val := by rw [hf _ _ (by decide) (by decide)]; simp only [fld]; omega
  have h4 : fld w 16 12 = a.val := by rw [hf _ _ (by decide) (by decide)]; simp only [fld]; omega
  have h5 : fld w 21 17 = d.val := by rw [hf _ _ (by decide) (by decide)]; simp only [fld]; omega
  simp [decodeA, rawA, decA27, hm, hg, hp, h1, h2, h3, h4, h5, hwf, Option.filter]

theorem RoundTrip.vbcast (g : Guard) (d : Reg) (a : Reg) (ty : ETy) : RoundTrip.Statement (.vbcast g d a ty) := by
  intro hwf
  have := d.isLt
  have := a.isLt
  have := ty.code_lt
  rw [show encode (.vbcast g d a ty) = .aword (put (ty.code) 3 (put (a.val) 12 (put (d.val) 17 (put 1811939329 0 (guardBits g))))) from rfl]
  obtain ⟨w, hw⟩ : ∃ w, w = put (ty.code) 3 (put (a.val) 12 (put (d.val) 17 (put 1811939329 0 (guardBits g)))) := ⟨_, rfl⟩
  rw [← hw]
  obtain ⟨h0, hm, hg, hp, hf⟩ := aWord g 27 (ty.code * 8 + a.val * 4096 + d.val * 131072 + 1) w (by omega) (by omega) (by rw [hw]; simp only [put, guardBits]; omega)
  refine ⟨h0, ?_⟩
  have h1 : fld w 2 0 = 1 := by rw [hf _ _ (by decide) (by decide)]; simp only [fld]; omega
  have h2 : fld w 6 3 = ty.code := by rw [hf _ _ (by decide) (by decide)]; simp only [fld]; omega
  have h3 : fld w 11 7 = 0 := by rw [hf _ _ (by decide) (by decide)]; simp only [fld]; omega
  have h4 : fld w 16 12 = a.val := by rw [hf _ _ (by decide) (by decide)]; simp only [fld]; omega
  have h5 : fld w 21 17 = d.val := by rw [hf _ _ (by decide) (by decide)]; simp only [fld]; omega
  simp [decodeA, rawA, decA27, hm, hg, hp, h1, h2, h3, h4, h5, hwf, Option.filter]

theorem RoundTrip.vslide (g : Guard) (d : Reg) (a : Reg) (b : Reg) (ty : ETy) : RoundTrip.Statement (.vslide g d a b ty) := by
  intro hwf
  have := d.isLt
  have := a.isLt
  have := b.isLt
  have := ty.code_lt
  rw [show encode (.vslide g d a b ty) = .aword (put (ty.code) 3 (put (b.val) 7 (put (a.val) 12 (put (d.val) 17 (put 1811939330 0 (guardBits g)))))) from rfl]
  obtain ⟨w, hw⟩ : ∃ w, w = put (ty.code) 3 (put (b.val) 7 (put (a.val) 12 (put (d.val) 17 (put 1811939330 0 (guardBits g))))) := ⟨_, rfl⟩
  rw [← hw]
  obtain ⟨h0, hm, hg, hp, hf⟩ := aWord g 27 (ty.code * 8 + b.val * 128 + a.val * 4096 + d.val * 131072 + 2) w (by omega) (by omega) (by rw [hw]; simp only [put, guardBits]; omega)
  refine ⟨h0, ?_⟩
  have h1 : fld w 2 0 = 2 := by rw [hf _ _ (by decide) (by decide)]; simp only [fld]; omega
  have h2 : fld w 6 3 = ty.code := by rw [hf _ _ (by decide) (by decide)]; simp only [fld]; omega
  have h3 : fld w 11 7 = b.val := by rw [hf _ _ (by decide) (by decide)]; simp only [fld]; omega
  have h4 : fld w 16 12 = a.val := by rw [hf _ _ (by decide) (by decide)]; simp only [fld]; omega
  have h5 : fld w 21 17 = d.val := by rw [hf _ _ (by decide) (by decide)]; simp only [fld]; omega
  simp [decodeA, rawA, decA27, hm, hg, hp, h1, h2, h3, h4, h5, hwf, Option.filter]

theorem RoundTrip.viota (g : Guard) (d : Reg) (ty : ETy) : RoundTrip.Statement (.viota g d ty) := by
  intro hwf
  have := d.isLt
  have := ty.code_lt
  rw [show encode (.viota g d ty) = .aword (put (ty.code) 3 (put (d.val) 17 (put 1811939331 0 (guardBits g)))) from rfl]
  obtain ⟨w, hw⟩ : ∃ w, w = put (ty.code) 3 (put (d.val) 17 (put 1811939331 0 (guardBits g))) := ⟨_, rfl⟩
  rw [← hw]
  obtain ⟨h0, hm, hg, hp, hf⟩ := aWord g 27 (ty.code * 8 + d.val * 131072 + 3) w (by omega) (by omega) (by rw [hw]; simp only [put, guardBits]; omega)
  refine ⟨h0, ?_⟩
  have h1 : fld w 2 0 = 3 := by rw [hf _ _ (by decide) (by decide)]; simp only [fld]; omega
  have h2 : fld w 6 3 = ty.code := by rw [hf _ _ (by decide) (by decide)]; simp only [fld]; omega
  have h3 : fld w 11 7 = 0 := by rw [hf _ _ (by decide) (by decide)]; simp only [fld]; omega
  have h4 : fld w 16 12 = 0 := by rw [hf _ _ (by decide) (by decide)]; simp only [fld]; omega
  have h5 : fld w 21 17 = d.val := by rw [hf _ _ (by decide) (by decide)]; simp only [fld]; omega
  simp [decodeA, rawA, decA27, hm, hg, hp, h1, h2, h3, h4, h5, hwf, Option.filter]

theorem RoundTrip.vmovs (g : Guard) (d : Reg) (a : Reg) (b : Reg) (ty : ETy) : RoundTrip.Statement (.vmovs g d a b ty) := by
  intro hwf
  have := d.isLt
  have := a.isLt
  have := b.isLt
  have := ty.code_lt
  rw [show encode (.vmovs g d a b ty) = .aword (put (ty.code) 3 (put (b.val) 7 (put (a.val) 12 (put (d.val) 17 (put 1811939332 0 (guardBits g)))))) from rfl]
  obtain ⟨w, hw⟩ : ∃ w, w = put (ty.code) 3 (put (b.val) 7 (put (a.val) 12 (put (d.val) 17 (put 1811939332 0 (guardBits g))))) := ⟨_, rfl⟩
  rw [← hw]
  obtain ⟨h0, hm, hg, hp, hf⟩ := aWord g 27 (ty.code * 8 + b.val * 128 + a.val * 4096 + d.val * 131072 + 4) w (by omega) (by omega) (by rw [hw]; simp only [put, guardBits]; omega)
  refine ⟨h0, ?_⟩
  have h1 : fld w 2 0 = 4 := by rw [hf _ _ (by decide) (by decide)]; simp only [fld]; omega
  have h2 : fld w 6 3 = ty.code := by rw [hf _ _ (by decide) (by decide)]; simp only [fld]; omega
  have h3 : fld w 11 7 = b.val := by rw [hf _ _ (by decide) (by decide)]; simp only [fld]; omega
  have h4 : fld w 16 12 = a.val := by rw [hf _ _ (by decide) (by decide)]; simp only [fld]; omega
  have h5 : fld w 21 17 = d.val := by rw [hf _ _ (by decide) (by decide)]; simp only [fld]; omega
  simp [decodeA, rawA, decA27, hm, hg, hp, h1, h2, h3, h4, h5, hwf, Option.filter]

theorem RoundTrip.vext (g : Guard) (d : Reg) (a : Reg) (b : Reg) (ty : ETy) : RoundTrip.Statement (.vext g d a b ty) := by
  intro hwf
  have := d.isLt
  have := a.isLt
  have := b.isLt
  have := ty.code_lt
  rw [show encode (.vext g d a b ty) = .aword (put (ty.code) 3 (put (b.val) 7 (put (a.val) 12 (put (d.val) 17 (put 1811939333 0 (guardBits g)))))) from rfl]
  obtain ⟨w, hw⟩ : ∃ w, w = put (ty.code) 3 (put (b.val) 7 (put (a.val) 12 (put (d.val) 17 (put 1811939333 0 (guardBits g))))) := ⟨_, rfl⟩
  rw [← hw]
  obtain ⟨h0, hm, hg, hp, hf⟩ := aWord g 27 (ty.code * 8 + b.val * 128 + a.val * 4096 + d.val * 131072 + 5) w (by omega) (by omega) (by rw [hw]; simp only [put, guardBits]; omega)
  refine ⟨h0, ?_⟩
  have h1 : fld w 2 0 = 5 := by rw [hf _ _ (by decide) (by decide)]; simp only [fld]; omega
  have h2 : fld w 6 3 = ty.code := by rw [hf _ _ (by decide) (by decide)]; simp only [fld]; omega
  have h3 : fld w 11 7 = b.val := by rw [hf _ _ (by decide) (by decide)]; simp only [fld]; omega
  have h4 : fld w 16 12 = a.val := by rw [hf _ _ (by decide) (by decide)]; simp only [fld]; omega
  have h5 : fld w 21 17 = d.val := by rw [hf _ _ (by decide) (by decide)]; simp only [fld]; omega
  simp [decodeA, rawA, decA27, hm, hg, hp, h1, h2, h3, h4, h5, hwf, Option.filter]

theorem RoundTrip.vsat (g : Guard) (d : Reg) (a : Reg) (k : Fin 32) (ty : ETy) : RoundTrip.Statement (.vsat g d a k ty) := by
  intro hwf
  have := d.isLt
  have := a.isLt
  have := k.isLt
  have := ty.code_lt
  rw [show encode (.vsat g d a k ty) = .aword (put (ty.code) 3 (put (k.val) 7 (put (a.val) 12 (put (d.val) 17 (put 1879048192 0 (guardBits g)))))) from rfl]
  obtain ⟨w, hw⟩ : ∃ w, w = put (ty.code) 3 (put (k.val) 7 (put (a.val) 12 (put (d.val) 17 (put 1879048192 0 (guardBits g))))) := ⟨_, rfl⟩
  rw [← hw]
  obtain ⟨h0, hm, hg, hp, hf⟩ := aWord g 28 (ty.code * 8 + k.val * 128 + a.val * 4096 + d.val * 131072) w (by omega) (by omega) (by rw [hw]; simp only [put, guardBits]; omega)
  refine ⟨h0, ?_⟩
  have h1 : fld w 2 0 = 0 := by rw [hf _ _ (by decide) (by decide)]; simp only [fld]; omega
  have h2 : fld w 6 3 = ty.code := by rw [hf _ _ (by decide) (by decide)]; simp only [fld]; omega
  have h3 : fld w 11 7 = k.val := by rw [hf _ _ (by decide) (by decide)]; simp only [fld]; omega
  have h4 : fld w 16 12 = a.val := by rw [hf _ _ (by decide) (by decide)]; simp only [fld]; omega
  have h5 : fld w 21 17 = d.val := by rw [hf _ _ (by decide) (by decide)]; simp only [fld]; omega
  simp [decodeA, rawA, decA28, hm, hg, hp, h1, h2, h3, h4, h5, hwf, Option.filter]

theorem RoundTrip.vclamp (g : Guard) (d : Reg) (a : Reg) (b : Reg) (ty : ETy) : RoundTrip.Statement (.vclamp g d a b ty) := by
  intro hwf
  have := d.isLt
  have := a.isLt
  have := b.isLt
  have := ty.code_lt
  rw [show encode (.vclamp g d a b ty) = .aword (put (ty.code) 3 (put (b.val) 7 (put (a.val) 12 (put (d.val) 17 (put 1879048193 0 (guardBits g)))))) from rfl]
  obtain ⟨w, hw⟩ : ∃ w, w = put (ty.code) 3 (put (b.val) 7 (put (a.val) 12 (put (d.val) 17 (put 1879048193 0 (guardBits g))))) := ⟨_, rfl⟩
  rw [← hw]
  obtain ⟨h0, hm, hg, hp, hf⟩ := aWord g 28 (ty.code * 8 + b.val * 128 + a.val * 4096 + d.val * 131072 + 1) w (by omega) (by omega) (by rw [hw]; simp only [put, guardBits]; omega)
  refine ⟨h0, ?_⟩
  have h1 : fld w 2 0 = 1 := by rw [hf _ _ (by decide) (by decide)]; simp only [fld]; omega
  have h2 : fld w 6 3 = ty.code := by rw [hf _ _ (by decide) (by decide)]; simp only [fld]; omega
  have h3 : fld w 11 7 = b.val := by rw [hf _ _ (by decide) (by decide)]; simp only [fld]; omega
  have h4 : fld w 16 12 = a.val := by rw [hf _ _ (by decide) (by decide)]; simp only [fld]; omega
  have h5 : fld w 21 17 = d.val := by rw [hf _ _ (by decide) (by decide)]; simp only [fld]; omega
  simp [decodeA, rawA, decA28, hm, hg, hp, h1, h2, h3, h4, h5, hwf, Option.filter]

theorem RoundTrip.vpack (g : Guard) (d : Reg) (a : Reg) (b : Reg) (ty : ETy) : RoundTrip.Statement (.vpack g d a b ty) := by
  intro hwf
  have := d.isLt
  have := a.isLt
  have := b.isLt
  have := ty.code_lt
  rw [show encode (.vpack g d a b ty) = .aword (put (ty.code) 3 (put (b.val) 7 (put (a.val) 12 (put (d.val) 17 (put 1879048194 0 (guardBits g)))))) from rfl]
  obtain ⟨w, hw⟩ : ∃ w, w = put (ty.code) 3 (put (b.val) 7 (put (a.val) 12 (put (d.val) 17 (put 1879048194 0 (guardBits g))))) := ⟨_, rfl⟩
  rw [← hw]
  obtain ⟨h0, hm, hg, hp, hf⟩ := aWord g 28 (ty.code * 8 + b.val * 128 + a.val * 4096 + d.val * 131072 + 2) w (by omega) (by omega) (by rw [hw]; simp only [put, guardBits]; omega)
  refine ⟨h0, ?_⟩
  have h1 : fld w 2 0 = 2 := by rw [hf _ _ (by decide) (by decide)]; simp only [fld]; omega
  have h2 : fld w 6 3 = ty.code := by rw [hf _ _ (by decide) (by decide)]; simp only [fld]; omega
  have h3 : fld w 11 7 = b.val := by rw [hf _ _ (by decide) (by decide)]; simp only [fld]; omega
  have h4 : fld w 16 12 = a.val := by rw [hf _ _ (by decide) (by decide)]; simp only [fld]; omega
  have h5 : fld w 21 17 = d.val := by rw [hf _ _ (by decide) (by decide)]; simp only [fld]; omega
  simp [decodeA, rawA, decA28, hm, hg, hp, h1, h2, h3, h4, h5, hwf, Option.filter]

theorem RoundTrip.vunpk (g : Guard) (d : Reg) (a : Reg) (h : Bool) (ty : ETy) : RoundTrip.Statement (.vunpk g d a h ty) := by
  intro hwf
  have := d.isLt
  have := a.isLt
  have := bitN_lt h
  have := ty.code_lt
  rw [show encode (.vunpk g d a h ty) = .aword (put (ty.code) 3 (put (bitN h) 7 (put (a.val) 12 (put (d.val) 17 (put 1879048195 0 (guardBits g)))))) from rfl]
  obtain ⟨w, hw⟩ : ∃ w, w = put (ty.code) 3 (put (bitN h) 7 (put (a.val) 12 (put (d.val) 17 (put 1879048195 0 (guardBits g))))) := ⟨_, rfl⟩
  rw [← hw]
  obtain ⟨h0, hm, hg, hp, hf⟩ := aWord g 28 (ty.code * 8 + bitN h * 128 + a.val * 4096 + d.val * 131072 + 3) w (by omega) (by omega) (by rw [hw]; simp only [put, guardBits]; omega)
  refine ⟨h0, ?_⟩
  have h1 : fld w 2 0 = 3 := by rw [hf _ _ (by decide) (by decide)]; simp only [fld]; omega
  have h2 : fld w 6 3 = ty.code := by rw [hf _ _ (by decide) (by decide)]; simp only [fld]; omega
  have h3 : fld w 11 7 = bitN h := by rw [hf _ _ (by decide) (by decide)]; simp only [fld]; omega
  have h4 : fld w 16 12 = a.val := by rw [hf _ _ (by decide) (by decide)]; simp only [fld]; omega
  have h5 : fld w 21 17 = d.val := by rw [hf _ _ (by decide) (by decide)]; simp only [fld]; omega
  simp [decodeA, rawA, decA28, hm, hg, hp, h1, h2, h3, h4, h5, hwf, Option.filter]

theorem RoundTrip.vqmx (g : Guard) (d : Reg) (a : Reg) (ty : ETy) : RoundTrip.Statement (.vqmx g d a ty) := by
  intro hwf
  have := d.isLt
  have := a.isLt
  have := ty.code_lt
  rw [show encode (.vqmx g d a ty) = .aword (put (ty.code) 3 (put (a.val) 12 (put (d.val) 17 (put 3221225472 0 (guardBits g))))) from rfl]
  obtain ⟨w, hw⟩ : ∃ w, w = put (ty.code) 3 (put (a.val) 12 (put (d.val) 17 (put 3221225472 0 (guardBits g)))) := ⟨_, rfl⟩
  rw [← hw]
  obtain ⟨h0, hm, hg, hp, hf⟩ := aWord g 48 (ty.code * 8 + a.val * 4096 + d.val * 131072) w (by omega) (by omega) (by rw [hw]; simp only [put, guardBits]; omega)
  refine ⟨h0, ?_⟩
  have h1 : fld w 2 0 = 0 := by rw [hf _ _ (by decide) (by decide)]; simp only [fld]; omega
  have h2 : fld w 6 3 = ty.code := by rw [hf _ _ (by decide) (by decide)]; simp only [fld]; omega
  have h3 : fld w 11 7 = 0 := by rw [hf _ _ (by decide) (by decide)]; simp only [fld]; omega
  have h4 : fld w 16 12 = a.val := by rw [hf _ _ (by decide) (by decide)]; simp only [fld]; omega
  have h5 : fld w 21 17 = d.val := by rw [hf _ _ (by decide) (by decide)]; simp only [fld]; omega
  simp [decodeA, rawA, decA48, hm, hg, hp, h1, h2, h3, h4, h5, hwf, Option.filter]

theorem RoundTrip.vdqmx (g : Guard) (d : Reg) (a : Reg) (ty : ETy) : RoundTrip.Statement (.vdqmx g d a ty) := by
  intro hwf
  have := d.isLt
  have := a.isLt
  have := ty.code_lt
  rw [show encode (.vdqmx g d a ty) = .aword (put (ty.code) 3 (put (a.val) 12 (put (d.val) 17 (put 3221225473 0 (guardBits g))))) from rfl]
  obtain ⟨w, hw⟩ : ∃ w, w = put (ty.code) 3 (put (a.val) 12 (put (d.val) 17 (put 3221225473 0 (guardBits g)))) := ⟨_, rfl⟩
  rw [← hw]
  obtain ⟨h0, hm, hg, hp, hf⟩ := aWord g 48 (ty.code * 8 + a.val * 4096 + d.val * 131072 + 1) w (by omega) (by omega) (by rw [hw]; simp only [put, guardBits]; omega)
  refine ⟨h0, ?_⟩
  have h1 : fld w 2 0 = 1 := by rw [hf _ _ (by decide) (by decide)]; simp only [fld]; omega
  have h2 : fld w 6 3 = ty.code := by rw [hf _ _ (by decide) (by decide)]; simp only [fld]; omega
  have h3 : fld w 11 7 = 0 := by rw [hf _ _ (by decide) (by decide)]; simp only [fld]; omega
  have h4 : fld w 16 12 = a.val := by rw [hf _ _ (by decide) (by decide)]; simp only [fld]; omega
  have h5 : fld w 21 17 = d.val := by rw [hf _ _ (by decide) (by decide)]; simp only [fld]; omega
  simp [decodeA, rawA, decA48, hm, hg, hp, h1, h2, h3, h4, h5, hwf, Option.filter]

theorem RoundTrip.liSigned (m : Bool) (d : Reg) (p : BitVec 51) : RoundTrip.Statement (.liSigned m d p) := by
  intro hwf
  have := d.isLt
  have := p.isLt
  rw [show encode (.liSigned m d p) = .lone (put (p.toNat / 4294967296) 0 (put (p.toNat % 4294967296) 32 (put (d.val) 19 (put 0 0 (loneBits m))))) from rfl]
  obtain ⟨w, hw⟩ : ∃ w, w = put (p.toNat / 4294967296) 0 (put (p.toNat % 4294967296) 32 (put (d.val) 19 (put 0 0 (loneBits m)))) := ⟨_, rfl⟩
  rw [← hw]
  obtain ⟨h0, hm, hb, hf, hx⟩ := lWord m 0 (p.toNat / 4294967296 + d.val * 524288) (p.toNat % 4294967296) w (by omega) (by omega) (by omega) (by rw [hw]; simp only [put, loneBits]; omega)
  refine ⟨h0, ?_⟩
  have h1 : fld w 18 0 = p.toNat / 4294967296 := by rw [hf _ _ (by decide) (by decide)]; simp only [fld]; omega
  have h2 : fld w 23 19 = d.val := by rw [hf _ _ (by decide) (by decide)]; simp only [fld]; omega
  have h3 : fld w 63 32 = p.toNat % 4294967296 := by rw [hx _ _ (by decide) (by decide)]; simp only [fld]; omega
  simp [decodeL, rawL, decL0, hm, hb, h1, h2, h3, hwf, Option.filter, Nat.div_add_mod']

theorem RoundTrip.liHbm (m : Bool) (d : Reg) (p : BitVec 48) : RoundTrip.Statement (.liHbm m d p) := by
  intro hwf
  have := d.isLt
  have := p.isLt
  rw [show encode (.liHbm m d p) = .lone (put (p.toNat / 4294967296) 0 (put (p.toNat % 4294967296) 32 (put (d.val) 19 (put 16777216 0 (loneBits m))))) from rfl]
  obtain ⟨w, hw⟩ : ∃ w, w = put (p.toNat / 4294967296) 0 (put (p.toNat % 4294967296) 32 (put (d.val) 19 (put 16777216 0 (loneBits m)))) := ⟨_, rfl⟩
  rw [← hw]
  obtain ⟨h0, hm, hb, hf, hx⟩ := lWord m 1 (p.toNat / 4294967296 + d.val * 524288) (p.toNat % 4294967296) w (by omega) (by omega) (by omega) (by rw [hw]; simp only [put, loneBits]; omega)
  refine ⟨h0, ?_⟩
  have h1 : fld w 15 0 = p.toNat / 4294967296 := by rw [hf _ _ (by decide) (by decide)]; simp only [fld]; omega
  have h2 : fld w 18 16 = 0 := by rw [hf _ _ (by decide) (by decide)]; simp only [fld]; omega
  have h3 : fld w 23 19 = d.val := by rw [hf _ _ (by decide) (by decide)]; simp only [fld]; omega
  have h4 : fld w 63 32 = p.toNat % 4294967296 := by rw [hx _ _ (by decide) (by decide)]; simp only [fld]; omega
  simp [decodeL, rawL, decL1, hm, hb, h1, h2, h3, h4, hwf, Option.filter, Nat.div_add_mod']

theorem RoundTrip.liPeer (m : Bool) (d : Reg) (p : BitVec 40) : RoundTrip.Statement (.liPeer m d p) := by
  intro hwf
  have := d.isLt
  have := p.isLt
  rw [show encode (.liPeer m d p) = .lone (put (p.toNat / 4294967296) 0 (put (p.toNat % 4294967296) 32 (put (d.val) 19 (put 33554432 0 (loneBits m))))) from rfl]
  obtain ⟨w, hw⟩ : ∃ w, w = put (p.toNat / 4294967296) 0 (put (p.toNat % 4294967296) 32 (put (d.val) 19 (put 33554432 0 (loneBits m)))) := ⟨_, rfl⟩
  rw [← hw]
  obtain ⟨h0, hm, hb, hf, hx⟩ := lWord m 2 (p.toNat / 4294967296 + d.val * 524288) (p.toNat % 4294967296) w (by omega) (by omega) (by omega) (by rw [hw]; simp only [put, loneBits]; omega)
  refine ⟨h0, ?_⟩
  have h1 : fld w 7 0 = p.toNat / 4294967296 := by rw [hf _ _ (by decide) (by decide)]; simp only [fld]; omega
  have h2 : fld w 18 8 = 0 := by rw [hf _ _ (by decide) (by decide)]; simp only [fld]; omega
  have h3 : fld w 23 19 = d.val := by rw [hf _ _ (by decide) (by decide)]; simp only [fld]; omega
  have h4 : fld w 63 32 = p.toNat % 4294967296 := by rw [hx _ _ (by decide) (by decide)]; simp only [fld]; omega
  simp [decodeL, rawL, decL2, hm, hb, h1, h2, h3, h4, hwf, Option.filter, Nat.div_add_mod']

theorem RoundTrip.liShifted (m : Bool) (d : Reg) (p : BitVec 51) : RoundTrip.Statement (.liShifted m d p) := by
  intro hwf
  have := d.isLt
  have := p.isLt
  rw [show encode (.liShifted m d p) = .lone (put (p.toNat / 4294967296) 0 (put (p.toNat % 4294967296) 32 (put (d.val) 19 (put 50331648 0 (loneBits m))))) from rfl]
  obtain ⟨w, hw⟩ : ∃ w, w = put (p.toNat / 4294967296) 0 (put (p.toNat % 4294967296) 32 (put (d.val) 19 (put 50331648 0 (loneBits m)))) := ⟨_, rfl⟩
  rw [← hw]
  obtain ⟨h0, hm, hb, hf, hx⟩ := lWord m 3 (p.toNat / 4294967296 + d.val * 524288) (p.toNat % 4294967296) w (by omega) (by omega) (by omega) (by rw [hw]; simp only [put, loneBits]; omega)
  refine ⟨h0, ?_⟩
  have h1 : fld w 18 0 = p.toNat / 4294967296 := by rw [hf _ _ (by decide) (by decide)]; simp only [fld]; omega
  have h2 : fld w 23 19 = d.val := by rw [hf _ _ (by decide) (by decide)]; simp only [fld]; omega
  have h3 : fld w 63 32 = p.toNat % 4294967296 := by rw [hx _ _ (by decide) (by decide)]; simp only [fld]; omega
  simp [decodeL, rawL, decL3, hm, hb, h1, h2, h3, hwf, Option.filter, Nat.div_add_mod']

theorem RoundTrip.rwait (m : Bool) (ring : Fin 16) (n : BitVec 9) (limit : BitVec 32) : RoundTrip.Statement (.rwait m ring n limit) := by
  intro hwf
  have := ring.isLt
  have := n.isLt
  have := limit.isLt
  rw [show encode (.rwait m ring n limit) = .lone (put (limit.toNat) 32 (put (n.toNat) 11 (put (ring.val) 20 (put 67108864 0 (loneBits m))))) from rfl]
  obtain ⟨w, hw⟩ : ∃ w, w = put (limit.toNat) 32 (put (n.toNat) 11 (put (ring.val) 20 (put 67108864 0 (loneBits m)))) := ⟨_, rfl⟩
  rw [← hw]
  obtain ⟨h0, hm, hb, hf, hx⟩ := lWord m 4 (n.toNat * 2048 + ring.val * 1048576) (limit.toNat) w (by omega) (by omega) (by omega) (by rw [hw]; simp only [put, loneBits]; omega)
  refine ⟨h0, ?_⟩
  have h1 : fld w 10 0 = 0 := by rw [hf _ _ (by decide) (by decide)]; simp only [fld]; omega
  have h2 : fld w 19 11 = n.toNat := by rw [hf _ _ (by decide) (by decide)]; simp only [fld]; omega
  have h3 : fld w 23 20 = ring.val := by rw [hf _ _ (by decide) (by decide)]; simp only [fld]; omega
  have h4 : fld w 63 32 = limit.toNat := by rw [hx _ _ (by decide) (by decide)]; simp only [fld]; omega
  simp [decodeL, rawL, decL4, hm, hb, h1, h2, h3, h4, hwf, Option.filter]

theorem RoundTrip.copy (m : Bool) (a : Reg) (b : Reg) (c : Reg) (tag : Fin 16) : RoundTrip.Statement (.copy m a b c tag) := by
  intro hwf
  have := a.isLt
  have := b.isLt
  have := c.isLt
  have := tag.isLt
  rw [show encode (.copy m a b c tag) = .lone (put (tag.val) 32 (put (c.val) 3 (put (b.val) 8 (put (a.val) 13 (put 83886080 0 (loneBits m)))))) from rfl]
  obtain ⟨w, hw⟩ : ∃ w, w = put (tag.val) 32 (put (c.val) 3 (put (b.val) 8 (put (a.val) 13 (put 83886080 0 (loneBits m))))) := ⟨_, rfl⟩
  rw [← hw]
  obtain ⟨h0, hm, hb, hf, hx⟩ := lWord m 5 (c.val * 8 + b.val * 256 + a.val * 8192) (tag.val) w (by omega) (by omega) (by omega) (by rw [hw]; simp only [put, loneBits]; omega)
  refine ⟨h0, ?_⟩
  have h1 : fld w 2 0 = 0 := by rw [hf _ _ (by decide) (by decide)]; simp only [fld]; omega
  have h2 : fld w 7 3 = c.val := by rw [hf _ _ (by decide) (by decide)]; simp only [fld]; omega
  have h3 : fld w 12 8 = b.val := by rw [hf _ _ (by decide) (by decide)]; simp only [fld]; omega
  have h4 : fld w 17 13 = a.val := by rw [hf _ _ (by decide) (by decide)]; simp only [fld]; omega
  have h5 : fld w 23 18 = 0 := by rw [hf _ _ (by decide) (by decide)]; simp only [fld]; omega
  have h6 : fld w 35 32 = tag.val := by rw [hx _ _ (by decide) (by decide)]; simp only [fld]; omega
  have h7 : fld w 63 36 = 0 := by rw [hx _ _ (by decide) (by decide)]; simp only [fld]; omega
  simp [decodeL, rawL, decL5, hm, hb, h1, h2, h3, h4, h5, h6, h7, hwf, Option.filter]

theorem RoundTrip.copym (m : Bool) (a : Reg) (tag : Fin 16) : RoundTrip.Statement (.copym m a tag) := by
  intro hwf
  have := a.isLt
  have := tag.isLt
  rw [show encode (.copym m a tag) = .lone (put (tag.val) 32 (put (a.val) 13 (put 84148224 0 (loneBits m)))) from rfl]
  obtain ⟨w, hw⟩ : ∃ w, w = put (tag.val) 32 (put (a.val) 13 (put 84148224 0 (loneBits m))) := ⟨_, rfl⟩
  rw [← hw]
  obtain ⟨h0, hm, hb, hf, hx⟩ := lWord m 5 (a.val * 8192 + 262144) (tag.val) w (by omega) (by omega) (by omega) (by rw [hw]; simp only [put, loneBits]; omega)
  refine ⟨h0, ?_⟩
  have h1 : fld w 2 0 = 0 := by rw [hf _ _ (by decide) (by decide)]; simp only [fld]; omega
  have h2 : fld w 7 3 = 0 := by rw [hf _ _ (by decide) (by decide)]; simp only [fld]; omega
  have h3 : fld w 12 8 = 0 := by rw [hf _ _ (by decide) (by decide)]; simp only [fld]; omega
  have h4 : fld w 17 13 = a.val := by rw [hf _ _ (by decide) (by decide)]; simp only [fld]; omega
  have h5 : fld w 23 18 = 1 := by rw [hf _ _ (by decide) (by decide)]; simp only [fld]; omega
  have h6 : fld w 35 32 = tag.val := by rw [hx _ _ (by decide) (by decide)]; simp only [fld]; omega
  have h7 : fld w 63 36 = 0 := by rw [hx _ _ (by decide) (by decide)]; simp only [fld]; omega
  simp [decodeL, rawL, decL5, hm, hb, h1, h2, h3, h4, h5, h6, h7, hwf, Option.filter]

theorem RoundTrip.cwait (m : Bool) (mask : BitVec 16) : RoundTrip.Statement (.cwait m mask) := by
  intro hwf
  have := mask.isLt
  rw [show encode (.cwait m mask) = .lone (put (mask.toNat) 32 (put 84410368 0 (loneBits m))) from rfl]
  obtain ⟨w, hw⟩ : ∃ w, w = put (mask.toNat) 32 (put 84410368 0 (loneBits m)) := ⟨_, rfl⟩
  rw [← hw]
  obtain ⟨h0, hm, hb, hf, hx⟩ := lWord m 5 (524288) (mask.toNat) w (by omega) (by omega) (by omega) (by rw [hw]; simp only [put, loneBits]; omega)
  refine ⟨h0, ?_⟩
  have h1 : fld w 2 0 = 0 := by rw [hf _ _ (by decide) (by decide)]; simp only [fld]; omega
  have h2 : fld w 7 3 = 0 := by rw [hf _ _ (by decide) (by decide)]; simp only [fld]; omega
  have h3 : fld w 12 8 = 0 := by rw [hf _ _ (by decide) (by decide)]; simp only [fld]; omega
  have h4 : fld w 17 13 = 0 := by rw [hf _ _ (by decide) (by decide)]; simp only [fld]; omega
  have h5 : fld w 23 18 = 2 := by rw [hf _ _ (by decide) (by decide)]; simp only [fld]; omega
  have h6 : fld w 47 32 = mask.toNat := by rw [hx _ _ (by decide) (by decide)]; simp only [fld]; omega
  have h7 : fld w 63 48 = 0 := by rw [hx _ _ (by decide) (by decide)]; simp only [fld]; omega
  simp [decodeL, rawL, decL5, hm, hb, h1, h2, h3, h4, h5, h6, h7, hwf, Option.filter]

theorem RoundTrip.cquery (m : Bool) (d : Reg) : RoundTrip.Statement (.cquery m d) := by
  intro hwf
  have := d.isLt
  rw [show encode (.cquery m d) = .lone (put (d.val) 3 (put 84672512 0 (loneBits m))) from rfl]
  obtain ⟨w, hw⟩ : ∃ w, w = put (d.val) 3 (put 84672512 0 (loneBits m)) := ⟨_, rfl⟩
  rw [← hw]
  obtain ⟨h0, hm, hb, hf, hx⟩ := lWord m 5 (d.val * 8 + 786432) 0 w (by omega) (by omega) (by omega) (by rw [hw]; simp only [put, loneBits]; omega)
  refine ⟨h0, ?_⟩
  have h1 : fld w 2 0 = 0 := by rw [hf _ _ (by decide) (by decide)]; simp only [fld]; omega
  have h2 : fld w 7 3 = d.val := by rw [hf _ _ (by decide) (by decide)]; simp only [fld]; omega
  have h3 : fld w 12 8 = 0 := by rw [hf _ _ (by decide) (by decide)]; simp only [fld]; omega
  have h4 : fld w 17 13 = 0 := by rw [hf _ _ (by decide) (by decide)]; simp only [fld]; omega
  have h5 : fld w 23 18 = 3 := by rw [hf _ _ (by decide) (by decide)]; simp only [fld]; omega
  have h6 : fld w 63 32 = 0 := by rw [hx _ _ (by decide) (by decide)]; simp only [fld]; omega
  simp [decodeL, rawL, decL5, hm, hb, h1, h2, h3, h4, h5, h6, hwf, Option.filter]

theorem RoundTrip.mlw (m : Bool) (a : Reg) (bank : Fin 2) (fmt : BitVec 3) : RoundTrip.Statement (.mlw m a bank fmt) := by
  intro hwf
  have := a.isLt
  have := bank.isLt
  have := fmt.isLt
  rw [show encode (.mlw m a bank fmt) = .lone (put (fmt.toNat) 33 (put (bank.val) 32 (put (a.val) 13 (put 805306368 0 (loneBits m))))) from rfl]
  obtain ⟨w, hw⟩ : ∃ w, w = put (fmt.toNat) 33 (put (bank.val) 32 (put (a.val) 13 (put 805306368 0 (loneBits m)))) := ⟨_, rfl⟩
  rw [← hw]
  obtain ⟨h0, hm, hb, hf, hx⟩ := lWord m 48 (a.val * 8192) (fmt.toNat * 2 + bank.val) w (by omega) (by omega) (by omega) (by rw [hw]; simp only [put, loneBits]; omega)
  refine ⟨h0, ?_⟩
  have h1 : fld w 2 0 = 0 := by rw [hf _ _ (by decide) (by decide)]; simp only [fld]; omega
  have h2 : fld w 7 3 = 0 := by rw [hf _ _ (by decide) (by decide)]; simp only [fld]; omega
  have h3 : fld w 12 8 = 0 := by rw [hf _ _ (by decide) (by decide)]; simp only [fld]; omega
  have h4 : fld w 17 13 = a.val := by rw [hf _ _ (by decide) (by decide)]; simp only [fld]; omega
  have h5 : fld w 23 18 = 0 := by rw [hf _ _ (by decide) (by decide)]; simp only [fld]; omega
  have h6 : fld w 32 32 = bank.val := by rw [hx _ _ (by decide) (by decide)]; simp only [fld]; omega
  have h7 : fld w 35 33 = fmt.toNat := by rw [hx _ _ (by decide) (by decide)]; simp only [fld]; omega
  have h8 : fld w 63 36 = 0 := by rw [hx _ _ (by decide) (by decide)]; simp only [fld]; omega
  simp [decodeL, rawL, decL48, hm, hb, h1, h2, h3, h4, h5, h6, h7, h8, hwf, Option.filter]

theorem RoundTrip.mfmt (m : Bool) (stream : Fin 4) (fmt : BitVec 3) : RoundTrip.Statement (.mfmt m stream fmt) := by
  intro hwf
  have := stream.isLt
  have := fmt.isLt
  rw [show encode (.mfmt m stream fmt) = .lone (put (fmt.toNat) 34 (put (stream.val) 32 (put 805568512 0 (loneBits m)))) from rfl]
  obtain ⟨w, hw⟩ : ∃ w, w = put (fmt.toNat) 34 (put (stream.val) 32 (put 805568512 0 (loneBits m))) := ⟨_, rfl⟩
  rw [← hw]
  obtain ⟨h0, hm, hb, hf, hx⟩ := lWord m 48 (262144) (fmt.toNat * 4 + stream.val) w (by omega) (by omega) (by omega) (by rw [hw]; simp only [put, loneBits]; omega)
  refine ⟨h0, ?_⟩
  have h1 : fld w 2 0 = 0 := by rw [hf _ _ (by decide) (by decide)]; simp only [fld]; omega
  have h2 : fld w 7 3 = 0 := by rw [hf _ _ (by decide) (by decide)]; simp only [fld]; omega
  have h3 : fld w 12 8 = 0 := by rw [hf _ _ (by decide) (by decide)]; simp only [fld]; omega
  have h4 : fld w 17 13 = 0 := by rw [hf _ _ (by decide) (by decide)]; simp only [fld]; omega
  have h5 : fld w 23 18 = 1 := by rw [hf _ _ (by decide) (by decide)]; simp only [fld]; omega
  have h6 : fld w 33 32 = stream.val := by rw [hx _ _ (by decide) (by decide)]; simp only [fld]; omega
  have h7 : fld w 36 34 = fmt.toNat := by rw [hx _ _ (by decide) (by decide)]; simp only [fld]; omega
  have h8 : fld w 63 37 = 0 := by rw [hx _ _ (by decide) (by decide)]; simp only [fld]; omega
  simp [decodeL, rawL, decL48, hm, hb, h1, h2, h3, h4, h5, h6, h7, h8, hwf, Option.filter]

theorem RoundTrip.mmul (m : Bool) (a : Reg) (b : Reg) (c : Reg) (acc : Fin 8) (bank : Fin 2) (stream : Fin 4) (f32 : Bool) (m1 : BitVec 2) : RoundTrip.Statement (.mmul m a b c acc bank stream f32 m1) := by
  intro hwf
  have := a.isLt
  have := b.isLt
  have := c.isLt
  have := acc.isLt
  have := bank.isLt
  have := stream.isLt
  have := bitN_lt f32
  have := m1.isLt
  rw [show encode (.mmul m a b c acc bank stream f32 m1) = .lone (put (m1.toNat) 39 (put (bitN f32) 38 (put (stream.val) 36 (put (bank.val) 35 (put (acc.val) 32 (put (c.val) 3 (put (b.val) 8 (put (a.val) 13 (put 805830656 0 (loneBits m)))))))))) from rfl]
  obtain ⟨w, hw⟩ : ∃ w, w = put (m1.toNat) 39 (put (bitN f32) 38 (put (stream.val) 36 (put (bank.val) 35 (put (acc.val) 32 (put (c.val) 3 (put (b.val) 8 (put (a.val) 13 (put 805830656 0 (loneBits m))))))))) := ⟨_, rfl⟩
  rw [← hw]
  obtain ⟨h0, hm, hb, hf, hx⟩ := lWord m 48 (c.val * 8 + b.val * 256 + a.val * 8192 + 524288) (m1.toNat * 128 + bitN f32 * 64 + stream.val * 16 + bank.val * 8 + acc.val) w (by omega) (by omega) (by omega) (by rw [hw]; simp only [put, loneBits]; omega)
  refine ⟨h0, ?_⟩
  have h1 : fld w 2 0 = 0 := by rw [hf _ _ (by decide) (by decide)]; simp only [fld]; omega
  have h2 : fld w 7 3 = c.val := by rw [hf _ _ (by decide) (by decide)]; simp only [fld]; omega
  have h3 : fld w 12 8 = b.val := by rw [hf _ _ (by decide) (by decide)]; simp only [fld]; omega
  have h4 : fld w 17 13 = a.val := by rw [hf _ _ (by decide) (by decide)]; simp only [fld]; omega
  have h5 : fld w 23 18 = 2 := by rw [hf _ _ (by decide) (by decide)]; simp only [fld]; omega
  have h6 : fld w 34 32 = acc.val := by rw [hx _ _ (by decide) (by decide)]; simp only [fld]; omega
  have h7 : fld w 35 35 = bank.val := by rw [hx _ _ (by decide) (by decide)]; simp only [fld]; omega
  have h8 : fld w 37 36 = stream.val := by rw [hx _ _ (by decide) (by decide)]; simp only [fld]; omega
  have h9 : fld w 40 39 = m1.toNat := by rw [hx _ _ (by decide) (by decide)]; simp only [fld]; omega
  have h10 : fld w 63 41 = 0 := by rw [hx _ _ (by decide) (by decide)]; simp only [fld]; omega
  have h11 : bit w 38 = f32 := bit_of (by have := hx 38 38 (by decide) (by decide); simp only [fld] at this; omega)
  simp [decodeL, rawL, decL48, hm, hb, h1, h2, h3, h4, h5, h6, h7, h8, h9, h10, h11, hwf, Option.filter]

theorem RoundTrip.mout (m : Bool) (a : Reg) (cnt : BitVec 6) : RoundTrip.Statement (.mout m a cnt) := by
  intro hwf
  have := a.isLt
  have := cnt.isLt
  rw [show encode (.mout m a cnt) = .lone (put (cnt.toNat) 32 (put (a.val) 13 (put 806092800 0 (loneBits m)))) from rfl]
  obtain ⟨w, hw⟩ : ∃ w, w = put (cnt.toNat) 32 (put (a.val) 13 (put 806092800 0 (loneBits m))) := ⟨_, rfl⟩
  rw [← hw]
  obtain ⟨h0, hm, hb, hf, hx⟩ := lWord m 48 (a.val * 8192 + 786432) (cnt.toNat) w (by omega) (by omega) (by omega) (by rw [hw]; simp only [put, loneBits]; omega)
  refine ⟨h0, ?_⟩
  have h1 : fld w 2 0 = 0 := by rw [hf _ _ (by decide) (by decide)]; simp only [fld]; omega
  have h2 : fld w 7 3 = 0 := by rw [hf _ _ (by decide) (by decide)]; simp only [fld]; omega
  have h3 : fld w 12 8 = 0 := by rw [hf _ _ (by decide) (by decide)]; simp only [fld]; omega
  have h4 : fld w 17 13 = a.val := by rw [hf _ _ (by decide) (by decide)]; simp only [fld]; omega
  have h5 : fld w 23 18 = 3 := by rw [hf _ _ (by decide) (by decide)]; simp only [fld]; omega
  have h6 : fld w 37 32 = cnt.toNat := by rw [hx _ _ (by decide) (by decide)]; simp only [fld]; omega
  have h7 : fld w 63 38 = 0 := by rw [hx _ _ (by decide) (by decide)]; simp only [fld]; omega
  simp [decodeL, rawL, decL48, hm, hb, h1, h2, h3, h4, h5, h6, h7, hwf, Option.filter]

theorem RoundTrip.mdrain (m : Bool) (a : Reg) (b : Reg) (acc : Fin 8) (cnt : BitVec 10) : RoundTrip.Statement (.mdrain m a b acc cnt) := by
  intro hwf
  have := a.isLt
  have := b.isLt
  have := acc.isLt
  have := cnt.isLt
  rw [show encode (.mdrain m a b acc cnt) = .lone (put (cnt.toNat) 35 (put (acc.val) 32 (put (b.val) 8 (put (a.val) 13 (put 806354944 0 (loneBits m)))))) from rfl]
  obtain ⟨w, hw⟩ : ∃ w, w = put (cnt.toNat) 35 (put (acc.val) 32 (put (b.val) 8 (put (a.val) 13 (put 806354944 0 (loneBits m))))) := ⟨_, rfl⟩
  rw [← hw]
  obtain ⟨h0, hm, hb, hf, hx⟩ := lWord m 48 (b.val * 256 + a.val * 8192 + 1048576) (cnt.toNat * 8 + acc.val) w (by omega) (by omega) (by omega) (by rw [hw]; simp only [put, loneBits]; omega)
  refine ⟨h0, ?_⟩
  have h1 : fld w 2 0 = 0 := by rw [hf _ _ (by decide) (by decide)]; simp only [fld]; omega
  have h2 : fld w 7 3 = 0 := by rw [hf _ _ (by decide) (by decide)]; simp only [fld]; omega
  have h3 : fld w 12 8 = b.val := by rw [hf _ _ (by decide) (by decide)]; simp only [fld]; omega
  have h4 : fld w 17 13 = a.val := by rw [hf _ _ (by decide) (by decide)]; simp only [fld]; omega
  have h5 : fld w 23 18 = 4 := by rw [hf _ _ (by decide) (by decide)]; simp only [fld]; omega
  have h6 : fld w 34 32 = acc.val := by rw [hx _ _ (by decide) (by decide)]; simp only [fld]; omega
  have h7 : fld w 44 35 = cnt.toNat := by rw [hx _ _ (by decide) (by decide)]; simp only [fld]; omega
  have h8 : fld w 63 45 = 0 := by rw [hx _ _ (by decide) (by decide)]; simp only [fld]; omega
  simp [decodeL, rawL, decL48, hm, hb, h1, h2, h3, h4, h5, h6, h7, h8, hwf, Option.filter]

theorem RoundTrip.mver (m : Bool) (d : Reg) (acc : Fin 8) : RoundTrip.Statement (.mver m d acc) := by
  intro hwf
  have := d.isLt
  have := acc.isLt
  rw [show encode (.mver m d acc) = .lone (put (acc.val) 32 (put (d.val) 3 (put 806617088 0 (loneBits m)))) from rfl]
  obtain ⟨w, hw⟩ : ∃ w, w = put (acc.val) 32 (put (d.val) 3 (put 806617088 0 (loneBits m))) := ⟨_, rfl⟩
  rw [← hw]
  obtain ⟨h0, hm, hb, hf, hx⟩ := lWord m 48 (d.val * 8 + 1310720) (acc.val) w (by omega) (by omega) (by omega) (by rw [hw]; simp only [put, loneBits]; omega)
  refine ⟨h0, ?_⟩
  have h1 : fld w 2 0 = 0 := by rw [hf _ _ (by decide) (by decide)]; simp only [fld]; omega
  have h2 : fld w 7 3 = d.val := by rw [hf _ _ (by decide) (by decide)]; simp only [fld]; omega
  have h3 : fld w 12 8 = 0 := by rw [hf _ _ (by decide) (by decide)]; simp only [fld]; omega
  have h4 : fld w 17 13 = 0 := by rw [hf _ _ (by decide) (by decide)]; simp only [fld]; omega
  have h5 : fld w 23 18 = 5 := by rw [hf _ _ (by decide) (by decide)]; simp only [fld]; omega
  have h6 : fld w 34 32 = acc.val := by rw [hx _ _ (by decide) (by decide)]; simp only [fld]; omega
  have h7 : fld w 63 35 = 0 := by rw [hx _ _ (by decide) (by decide)]; simp only [fld]; omega
  simp [decodeL, rawL, decL48, hm, hb, h1, h2, h3, h4, h5, h6, h7, hwf, Option.filter]

theorem RoundTrip.mzero (m : Bool) (b : Reg) (acc : Fin 8) : RoundTrip.Statement (.mzero m b acc) := by
  intro hwf
  have := b.isLt
  have := acc.isLt
  rw [show encode (.mzero m b acc) = .lone (put (acc.val) 32 (put (b.val) 8 (put 806879232 0 (loneBits m)))) from rfl]
  obtain ⟨w, hw⟩ : ∃ w, w = put (acc.val) 32 (put (b.val) 8 (put 806879232 0 (loneBits m))) := ⟨_, rfl⟩
  rw [← hw]
  obtain ⟨h0, hm, hb, hf, hx⟩ := lWord m 48 (b.val * 256 + 1572864) (acc.val) w (by omega) (by omega) (by omega) (by rw [hw]; simp only [put, loneBits]; omega)
  refine ⟨h0, ?_⟩
  have h1 : fld w 2 0 = 0 := by rw [hf _ _ (by decide) (by decide)]; simp only [fld]; omega
  have h2 : fld w 7 3 = 0 := by rw [hf _ _ (by decide) (by decide)]; simp only [fld]; omega
  have h3 : fld w 12 8 = b.val := by rw [hf _ _ (by decide) (by decide)]; simp only [fld]; omega
  have h4 : fld w 17 13 = 0 := by rw [hf _ _ (by decide) (by decide)]; simp only [fld]; omega
  have h5 : fld w 23 18 = 6 := by rw [hf _ _ (by decide) (by decide)]; simp only [fld]; omega
  have h6 : fld w 34 32 = acc.val := by rw [hx _ _ (by decide) (by decide)]; simp only [fld]; omega
  have h7 : fld w 63 35 = 0 := by rw [hx _ _ (by decide) (by decide)]; simp only [fld]; omega
  simp [decodeL, rawL, decL48, hm, hb, h1, h2, h3, h4, h5, h6, h7, hwf, Option.filter]

theorem RoundTrip.mwait (m : Bool) (b : Reg) (acc : Fin 8) : RoundTrip.Statement (.mwait m b acc) := by
  intro hwf
  have := b.isLt
  have := acc.isLt
  rw [show encode (.mwait m b acc) = .lone (put (acc.val) 32 (put (b.val) 8 (put 807141376 0 (loneBits m)))) from rfl]
  obtain ⟨w, hw⟩ : ∃ w, w = put (acc.val) 32 (put (b.val) 8 (put 807141376 0 (loneBits m))) := ⟨_, rfl⟩
  rw [← hw]
  obtain ⟨h0, hm, hb, hf, hx⟩ := lWord m 48 (b.val * 256 + 1835008) (acc.val) w (by omega) (by omega) (by omega) (by rw [hw]; simp only [put, loneBits]; omega)
  refine ⟨h0, ?_⟩
  have h1 : fld w 2 0 = 0 := by rw [hf _ _ (by decide) (by decide)]; simp only [fld]; omega
  have h2 : fld w 7 3 = 0 := by rw [hf _ _ (by decide) (by decide)]; simp only [fld]; omega
  have h3 : fld w 12 8 = b.val := by rw [hf _ _ (by decide) (by decide)]; simp only [fld]; omega
  have h4 : fld w 17 13 = 0 := by rw [hf _ _ (by decide) (by decide)]; simp only [fld]; omega
  have h5 : fld w 23 18 = 7 := by rw [hf _ _ (by decide) (by decide)]; simp only [fld]; omega
  have h6 : fld w 34 32 = acc.val := by rw [hx _ _ (by decide) (by decide)]; simp only [fld]; omega
  have h7 : fld w 63 35 = 0 := by rw [hx _ _ (by decide) (by decide)]; simp only [fld]; omega
  simp [decodeL, rawL, decL48, hm, hb, h1, h2, h3, h4, h5, h6, h7, hwf, Option.filter]

theorem RoundTrip.opatch (m : Bool) (a : Reg) (cnt : BitVec 9) : RoundTrip.Statement (.opatch m a cnt) := by
  intro hwf
  have := a.isLt
  have := cnt.isLt
  rw [show encode (.opatch m a cnt) = .lone (put (cnt.toNat) 32 (put (a.val) 13 (put 822083584 0 (loneBits m)))) from rfl]
  obtain ⟨w, hw⟩ : ∃ w, w = put (cnt.toNat) 32 (put (a.val) 13 (put 822083584 0 (loneBits m))) := ⟨_, rfl⟩
  rw [← hw]
  obtain ⟨h0, hm, hb, hf, hx⟩ := lWord m 49 (a.val * 8192) (cnt.toNat) w (by omega) (by omega) (by omega) (by rw [hw]; simp only [put, loneBits]; omega)
  refine ⟨h0, ?_⟩
  have h1 : fld w 2 0 = 0 := by rw [hf _ _ (by decide) (by decide)]; simp only [fld]; omega
  have h2 : fld w 7 3 = 0 := by rw [hf _ _ (by decide) (by decide)]; simp only [fld]; omega
  have h3 : fld w 12 8 = 0 := by rw [hf _ _ (by decide) (by decide)]; simp only [fld]; omega
  have h4 : fld w 17 13 = a.val := by rw [hf _ _ (by decide) (by decide)]; simp only [fld]; omega
  have h5 : fld w 23 18 = 0 := by rw [hf _ _ (by decide) (by decide)]; simp only [fld]; omega
  have h6 : fld w 40 32 = cnt.toNat := by rw [hx _ _ (by decide) (by decide)]; simp only [fld]; omega
  have h7 : fld w 63 41 = 0 := by rw [hx _ _ (by decide) (by decide)]; simp only [fld]; omega
  simp [decodeL, rawL, decL49, hm, hb, h1, h2, h3, h4, h5, h6, h7, hwf, Option.filter]

theorem RoundTrip.oclk (m : Bool) (dom : Fin 4) (n : BitVec 13) : RoundTrip.Statement (.oclk m dom n) := by
  intro hwf
  have := dom.isLt
  have := n.isLt
  rw [show encode (.oclk m dom n) = .lone (put (n.toNat) 34 (put (dom.val) 32 (put 822345728 0 (loneBits m)))) from rfl]
  obtain ⟨w, hw⟩ : ∃ w, w = put (n.toNat) 34 (put (dom.val) 32 (put 822345728 0 (loneBits m))) := ⟨_, rfl⟩
  rw [← hw]
  obtain ⟨h0, hm, hb, hf, hx⟩ := lWord m 49 (262144) (n.toNat * 4 + dom.val) w (by omega) (by omega) (by omega) (by rw [hw]; simp only [put, loneBits]; omega)
  refine ⟨h0, ?_⟩
  have h1 : fld w 2 0 = 0 := by rw [hf _ _ (by decide) (by decide)]; simp only [fld]; omega
  have h2 : fld w 7 3 = 0 := by rw [hf _ _ (by decide) (by decide)]; simp only [fld]; omega
  have h3 : fld w 12 8 = 0 := by rw [hf _ _ (by decide) (by decide)]; simp only [fld]; omega
  have h4 : fld w 17 13 = 0 := by rw [hf _ _ (by decide) (by decide)]; simp only [fld]; omega
  have h5 : fld w 23 18 = 1 := by rw [hf _ _ (by decide) (by decide)]; simp only [fld]; omega
  have h6 : fld w 33 32 = dom.val := by rw [hx _ _ (by decide) (by decide)]; simp only [fld]; omega
  have h7 : fld w 46 34 = n.toNat := by rw [hx _ _ (by decide) (by decide)]; simp only [fld]; omega
  have h8 : fld w 63 47 = 0 := by rw [hx _ _ (by decide) (by decide)]; simp only [fld]; omega
  simp [decodeL, rawL, decL49, hm, hb, h1, h2, h3, h4, h5, h6, h7, h8, hwf, Option.filter]

theorem RoundTrip.osetY (m : Bool) (a : Reg) (cell : BitVec 10) : RoundTrip.Statement (.osetY m a cell) := by
  intro hwf
  have := a.isLt
  have := cell.isLt
  rw [show encode (.osetY m a cell) = .lone (put (cell.toNat) 34 (put (a.val) 13 (put 822607872 0 (loneBits m)))) from rfl]
  obtain ⟨w, hw⟩ : ∃ w, w = put (cell.toNat) 34 (put (a.val) 13 (put 822607872 0 (loneBits m))) := ⟨_, rfl⟩
  rw [← hw]
  obtain ⟨h0, hm, hb, hf, hx⟩ := lWord m 49 (a.val * 8192 + 524288) (cell.toNat * 4) w (by omega) (by omega) (by omega) (by rw [hw]; simp only [put, loneBits]; omega)
  refine ⟨h0, ?_⟩
  have h1 : fld w 2 0 = 0 := by rw [hf _ _ (by decide) (by decide)]; simp only [fld]; omega
  have h2 : fld w 7 3 = 0 := by rw [hf _ _ (by decide) (by decide)]; simp only [fld]; omega
  have h3 : fld w 12 8 = 0 := by rw [hf _ _ (by decide) (by decide)]; simp only [fld]; omega
  have h4 : fld w 17 13 = a.val := by rw [hf _ _ (by decide) (by decide)]; simp only [fld]; omega
  have h5 : fld w 23 18 = 2 := by rw [hf _ _ (by decide) (by decide)]; simp only [fld]; omega
  have h6 : fld w 33 32 = 0 := by rw [hx _ _ (by decide) (by decide)]; simp only [fld]; omega
  have h7 : fld w 43 34 = cell.toNat := by rw [hx _ _ (by decide) (by decide)]; simp only [fld]; omega
  have h8 : fld w 47 44 = 0 := by rw [hx _ _ (by decide) (by decide)]; simp only [fld]; omega
  have h9 : fld w 48 48 = 0 := by rw [hx _ _ (by decide) (by decide)]; simp only [fld]; omega
  have h10 : fld w 63 49 = 0 := by rw [hx _ _ (by decide) (by decide)]; simp only [fld]; omega
  simp [decodeL, rawL, decL49, hm, hb, h1, h2, h3, h4, h5, h6, h7, h8, h9, h10, hwf, Option.filter]

theorem RoundTrip.osetRes (m : Bool) (a : Reg) (cell : BitVec 10) : RoundTrip.Statement (.osetRes m a cell) := by
  intro hwf
  have := a.isLt
  have := cell.isLt
  rw [show encode (.osetRes m a cell) = .lone (put (cell.toNat) 34 (put (a.val) 13 (put 5117575168 0 (loneBits m)))) from rfl]
  obtain ⟨w, hw⟩ : ∃ w, w = put (cell.toNat) 34 (put (a.val) 13 (put 5117575168 0 (loneBits m))) := ⟨_, rfl⟩
  rw [← hw]
  obtain ⟨h0, hm, hb, hf, hx⟩ := lWord m 49 (a.val * 8192 + 524288) (cell.toNat * 4 + 1) w (by omega) (by omega) (by omega) (by rw [hw]; simp only [put, loneBits]; omega)
  refine ⟨h0, ?_⟩
  have h1 : fld w 2 0 = 0 := by rw [hf _ _ (by decide) (by decide)]; simp only [fld]; omega
  have h2 : fld w 7 3 = 0 := by rw [hf _ _ (by decide) (by decide)]; simp only [fld]; omega
  have h3 : fld w 12 8 = 0 := by rw [hf _ _ (by decide) (by decide)]; simp only [fld]; omega
  have h4 : fld w 17 13 = a.val := by rw [hf _ _ (by decide) (by decide)]; simp only [fld]; omega
  have h5 : fld w 23 18 = 2 := by rw [hf _ _ (by decide) (by decide)]; simp only [fld]; omega
  have h6 : fld w 33 32 = 1 := by rw [hx _ _ (by decide) (by decide)]; simp only [fld]; omega
  have h7 : fld w 43 34 = cell.toNat := by rw [hx _ _ (by decide) (by decide)]; simp only [fld]; omega
  have h8 : fld w 47 44 = 0 := by rw [hx _ _ (by decide) (by decide)]; simp only [fld]; omega
  have h9 : fld w 48 48 = 0 := by rw [hx _ _ (by decide) (by decide)]; simp only [fld]; omega
  have h10 : fld w 63 49 = 0 := by rw [hx _ _ (by decide) (by decide)]; simp only [fld]; omega
  simp [decodeL, rawL, decL49, hm, hb, h1, h2, h3, h4, h5, h6, h7, h8, h9, h10, hwf, Option.filter]

theorem RoundTrip.osetPort (m : Bool) (a : Reg) (port : BitVec 10) : RoundTrip.Statement (.osetPort m a port) := by
  intro hwf
  have := a.isLt
  have := port.isLt
  rw [show encode (.osetPort m a port) = .lone (put (port.toNat) 34 (put (a.val) 13 (put 9412542464 0 (loneBits m)))) from rfl]
  obtain ⟨w, hw⟩ : ∃ w, w = put (port.toNat) 34 (put (a.val) 13 (put 9412542464 0 (loneBits m))) := ⟨_, rfl⟩
  rw [← hw]
  obtain ⟨h0, hm, hb, hf, hx⟩ := lWord m 49 (a.val * 8192 + 524288) (port.toNat * 4 + 2) w (by omega) (by omega) (by omega) (by rw [hw]; simp only [put, loneBits]; omega)
  refine ⟨h0, ?_⟩
  have h1 : fld w 2 0 = 0 := by rw [hf _ _ (by decide) (by decide)]; simp only [fld]; omega
  have h2 : fld w 7 3 = 0 := by rw [hf _ _ (by decide) (by decide)]; simp only [fld]; omega
  have h3 : fld w 12 8 = 0 := by rw [hf _ _ (by decide) (by decide)]; simp only [fld]; omega
  have h4 : fld w 17 13 = a.val := by rw [hf _ _ (by decide) (by decide)]; simp only [fld]; omega
  have h5 : fld w 23 18 = 2 := by rw [hf _ _ (by decide) (by decide)]; simp only [fld]; omega
  have h6 : fld w 33 32 = 2 := by rw [hx _ _ (by decide) (by decide)]; simp only [fld]; omega
  have h7 : fld w 43 34 = port.toNat := by rw [hx _ _ (by decide) (by decide)]; simp only [fld]; omega
  have h8 : fld w 47 44 = 0 := by rw [hx _ _ (by decide) (by decide)]; simp only [fld]; omega
  have h9 : fld w 48 48 = 0 := by rw [hx _ _ (by decide) (by decide)]; simp only [fld]; omega
  have h10 : fld w 63 49 = 0 := by rw [hx _ _ (by decide) (by decide)]; simp only [fld]; omega
  simp [decodeL, rawL, decL49, hm, hb, h1, h2, h3, h4, h5, h6, h7, h8, h9, h10, hwf, Option.filter]

theorem RoundTrip.osetBind (m : Bool) (port : BitVec 10) (ring : Fin 16) (unb : Bool) : RoundTrip.Statement (.osetBind m port ring unb) := by
  intro hwf
  have := port.isLt
  have := ring.isLt
  have := bitN_lt unb
  rw [show encode (.osetBind m port ring unb) = .lone (put (bitN unb) 48 (put (ring.val) 44 (put (port.toNat) 34 (put 13707509760 0 (loneBits m))))) from rfl]
  obtain ⟨w, hw⟩ : ∃ w, w = put (bitN unb) 48 (put (ring.val) 44 (put (port.toNat) 34 (put 13707509760 0 (loneBits m)))) := ⟨_, rfl⟩
  rw [← hw]
  obtain ⟨h0, hm, hb, hf, hx⟩ := lWord m 49 (524288) (bitN unb * 65536 + ring.val * 4096 + port.toNat * 4 + 3) w (by omega) (by omega) (by omega) (by rw [hw]; simp only [put, loneBits]; omega)
  refine ⟨h0, ?_⟩
  have h1 : fld w 2 0 = 0 := by rw [hf _ _ (by decide) (by decide)]; simp only [fld]; omega
  have h2 : fld w 7 3 = 0 := by rw [hf _ _ (by decide) (by decide)]; simp only [fld]; omega
  have h3 : fld w 12 8 = 0 := by rw [hf _ _ (by decide) (by decide)]; simp only [fld]; omega
  have h4 : fld w 17 13 = 0 := by rw [hf _ _ (by decide) (by decide)]; simp only [fld]; omega
  have h5 : fld w 23 18 = 2 := by rw [hf _ _ (by decide) (by decide)]; simp only [fld]; omega
  have h6 : fld w 33 32 = 3 := by rw [hx _ _ (by decide) (by decide)]; simp only [fld]; omega
  have h7 : fld w 43 34 = port.toNat := by rw [hx _ _ (by decide) (by decide)]; simp only [fld]; omega
  have h8 : fld w 47 44 = ring.val := by rw [hx _ _ (by decide) (by decide)]; simp only [fld]; omega
  have h9 : fld w 48 48 = bitN unb := by rw [hx _ _ (by decide) (by decide)]; simp only [fld]; omega
  have h10 : fld w 63 49 = 0 := by rw [hx _ _ (by decide) (by decide)]; simp only [fld]; omega
  have h11 : bit w 48 = unb := bit_of (by have := hx 48 48 (by decide) (by decide); simp only [fld] at this; omega)
  have h12 : bitN unb = 0 ∨ ring = 0 := by cases unb <;> simp_all [Instr.wf, bitN]
  simp [decodeL, rawL, decL49, hm, hb, h1, h2, h3, h4, h5, h6, h7, h8, h9, h10, h11, h12, hwf, Option.filter]

theorem RoundTrip.ogetY (m : Bool) (d : Reg) (cell : BitVec 10) : RoundTrip.Statement (.ogetY m d cell) := by
  intro hwf
  have := d.isLt
  have := cell.isLt
  rw [show encode (.ogetY m d cell) = .lone (put (cell.toNat) 34 (put (d.val) 3 (put 822870016 0 (loneBits m)))) from rfl]
  obtain ⟨w, hw⟩ : ∃ w, w = put (cell.toNat) 34 (put (d.val) 3 (put 822870016 0 (loneBits m))) := ⟨_, rfl⟩
  rw [← hw]
  obtain ⟨h0, hm, hb, hf, hx⟩ := lWord m 49 (d.val * 8 + 786432) (cell.toNat * 4) w (by omega) (by omega) (by omega) (by rw [hw]; simp only [put, loneBits]; omega)
  refine ⟨h0, ?_⟩
  have h1 : fld w 2 0 = 0 := by rw [hf _ _ (by decide) (by decide)]; simp only [fld]; omega
  have h2 : fld w 7 3 = d.val := by rw [hf _ _ (by decide) (by decide)]; simp only [fld]; omega
  have h3 : fld w 12 8 = 0 := by rw [hf _ _ (by decide) (by decide)]; simp only [fld]; omega
  have h4 : fld w 17 13 = 0 := by rw [hf _ _ (by decide) (by decide)]; simp only [fld]; omega
  have h5 : fld w 23 18 = 3 := by rw [hf _ _ (by decide) (by decide)]; simp only [fld]; omega
  have h6 : fld w 33 32 = 0 := by rw [hx _ _ (by decide) (by decide)]; simp only [fld]; omega
  have h7 : fld w 43 34 = cell.toNat := by rw [hx _ _ (by decide) (by decide)]; simp only [fld]; omega
  have h8 : fld w 63 44 = 0 := by rw [hx _ _ (by decide) (by decide)]; simp only [fld]; omega
  simp [decodeL, rawL, decL49, hm, hb, h1, h2, h3, h4, h5, h6, h7, h8, hwf, Option.filter]

theorem RoundTrip.ogetRes (m : Bool) (d : Reg) (cell : BitVec 10) : RoundTrip.Statement (.ogetRes m d cell) := by
  intro hwf
  have := d.isLt
  have := cell.isLt
  rw [show encode (.ogetRes m d cell) = .lone (put (cell.toNat) 34 (put (d.val) 3 (put 5117837312 0 (loneBits m)))) from rfl]
  obtain ⟨w, hw⟩ : ∃ w, w = put (cell.toNat) 34 (put (d.val) 3 (put 5117837312 0 (loneBits m))) := ⟨_, rfl⟩
  rw [← hw]
  obtain ⟨h0, hm, hb, hf, hx⟩ := lWord m 49 (d.val * 8 + 786432) (cell.toNat * 4 + 1) w (by omega) (by omega) (by omega) (by rw [hw]; simp only [put, loneBits]; omega)
  refine ⟨h0, ?_⟩
  have h1 : fld w 2 0 = 0 := by rw [hf _ _ (by decide) (by decide)]; simp only [fld]; omega
  have h2 : fld w 7 3 = d.val := by rw [hf _ _ (by decide) (by decide)]; simp only [fld]; omega
  have h3 : fld w 12 8 = 0 := by rw [hf _ _ (by decide) (by decide)]; simp only [fld]; omega
  have h4 : fld w 17 13 = 0 := by rw [hf _ _ (by decide) (by decide)]; simp only [fld]; omega
  have h5 : fld w 23 18 = 3 := by rw [hf _ _ (by decide) (by decide)]; simp only [fld]; omega
  have h6 : fld w 33 32 = 1 := by rw [hx _ _ (by decide) (by decide)]; simp only [fld]; omega
  have h7 : fld w 43 34 = cell.toNat := by rw [hx _ _ (by decide) (by decide)]; simp only [fld]; omega
  have h8 : fld w 63 44 = 0 := by rw [hx _ _ (by decide) (by decide)]; simp only [fld]; omega
  simp [decodeL, rawL, decL49, hm, hb, h1, h2, h3, h4, h5, h6, h7, h8, hwf, Option.filter]

theorem RoundTrip.ogetTap (m : Bool) (d : Reg) (tap : BitVec 10) : RoundTrip.Statement (.ogetTap m d tap) := by
  intro hwf
  have := d.isLt
  have := tap.isLt
  rw [show encode (.ogetTap m d tap) = .lone (put (tap.toNat) 34 (put (d.val) 3 (put 9412804608 0 (loneBits m)))) from rfl]
  obtain ⟨w, hw⟩ : ∃ w, w = put (tap.toNat) 34 (put (d.val) 3 (put 9412804608 0 (loneBits m))) := ⟨_, rfl⟩
  rw [← hw]
  obtain ⟨h0, hm, hb, hf, hx⟩ := lWord m 49 (d.val * 8 + 786432) (tap.toNat * 4 + 2) w (by omega) (by omega) (by omega) (by rw [hw]; simp only [put, loneBits]; omega)
  refine ⟨h0, ?_⟩
  have h1 : fld w 2 0 = 0 := by rw [hf _ _ (by decide) (by decide)]; simp only [fld]; omega
  have h2 : fld w 7 3 = d.val := by rw [hf _ _ (by decide) (by decide)]; simp only [fld]; omega
  have h3 : fld w 12 8 = 0 := by rw [hf _ _ (by decide) (by decide)]; simp only [fld]; omega
  have h4 : fld w 17 13 = 0 := by rw [hf _ _ (by decide) (by decide)]; simp only [fld]; omega
  have h5 : fld w 23 18 = 3 := by rw [hf _ _ (by decide) (by decide)]; simp only [fld]; omega
  have h6 : fld w 33 32 = 2 := by rw [hx _ _ (by decide) (by decide)]; simp only [fld]; omega
  have h7 : fld w 43 34 = tap.toNat := by rw [hx _ _ (by decide) (by decide)]; simp only [fld]; omega
  have h8 : fld w 63 44 = 0 := by rw [hx _ _ (by decide) (by decide)]; simp only [fld]; omega
  simp [decodeL, rawL, decL49, hm, hb, h1, h2, h3, h4, h5, h6, h7, h8, hwf, Option.filter]

theorem RoundTrip.ogetDom (m : Bool) (d : Reg) (dom : BitVec 10) : RoundTrip.Statement (.ogetDom m d dom) := by
  intro hwf
  have := d.isLt
  have := dom.isLt
  rw [show encode (.ogetDom m d dom) = .lone (put (dom.toNat) 34 (put (d.val) 3 (put 13707771904 0 (loneBits m)))) from rfl]
  obtain ⟨w, hw⟩ : ∃ w, w = put (dom.toNat) 34 (put (d.val) 3 (put 13707771904 0 (loneBits m))) := ⟨_, rfl⟩
  rw [← hw]
  obtain ⟨h0, hm, hb, hf, hx⟩ := lWord m 49 (d.val * 8 + 786432) (dom.toNat * 4 + 3) w (by omega) (by omega) (by omega) (by rw [hw]; simp only [put, loneBits]; omega)
  refine ⟨h0, ?_⟩
  have h1 : fld w 2 0 = 0 := by rw [hf _ _ (by decide) (by decide)]; simp only [fld]; omega
  have h2 : fld w 7 3 = d.val := by rw [hf _ _ (by decide) (by decide)]; simp only [fld]; omega
  have h3 : fld w 12 8 = 0 := by rw [hf _ _ (by decide) (by decide)]; simp only [fld]; omega
  have h4 : fld w 17 13 = 0 := by rw [hf _ _ (by decide) (by decide)]; simp only [fld]; omega
  have h5 : fld w 23 18 = 3 := by rw [hf _ _ (by decide) (by decide)]; simp only [fld]; omega
  have h6 : fld w 33 32 = 3 := by rw [hx _ _ (by decide) (by decide)]; simp only [fld]; omega
  have h7 : fld w 43 34 = dom.toNat := by rw [hx _ _ (by decide) (by decide)]; simp only [fld]; omega
  have h8 : fld w 63 44 = 0 := by rw [hx _ _ (by decide) (by decide)]; simp only [fld]; omega
  simp [decodeL, rawL, decL49, hm, hb, h1, h2, h3, h4, h5, h6, h7, h8, hwf, Option.filter]

theorem RoundTrip.ostep (m : Bool) (mask : BitVec 4) : RoundTrip.Statement (.ostep m mask) := by
  intro hwf
  have := mask.isLt
  rw [show encode (.ostep m mask) = .lone (put (mask.toNat) 32 (put 823132160 0 (loneBits m))) from rfl]
  obtain ⟨w, hw⟩ : ∃ w, w = put (mask.toNat) 32 (put 823132160 0 (loneBits m)) := ⟨_, rfl⟩
  rw [← hw]
  obtain ⟨h0, hm, hb, hf, hx⟩ := lWord m 49 (1048576) (mask.toNat) w (by omega) (by omega) (by omega) (by rw [hw]; simp only [put, loneBits]; omega)
  refine ⟨h0, ?_⟩
  have h1 : fld w 2 0 = 0 := by rw [hf _ _ (by decide) (by decide)]; simp only [fld]; omega
  have h2 : fld w 7 3 = 0 := by rw [hf _ _ (by decide) (by decide)]; simp only [fld]; omega
  have h3 : fld w 12 8 = 0 := by rw [hf _ _ (by decide) (by decide)]; simp only [fld]; omega
  have h4 : fld w 17 13 = 0 := by rw [hf _ _ (by decide) (by decide)]; simp only [fld]; omega
  have h5 : fld w 23 18 = 4 := by rw [hf _ _ (by decide) (by decide)]; simp only [fld]; omega
  have h6 : fld w 35 32 = mask.toNat := by rw [hx _ _ (by decide) (by decide)]; simp only [fld]; omega
  have h7 : fld w 63 36 = 0 := by rw [hx _ _ (by decide) (by decide)]; simp only [fld]; omega
  simp [decodeL, rawL, decL49, hm, hb, h1, h2, h3, h4, h5, h6, h7, hwf, Option.filter]

theorem RoundTrip.orun (m : Bool) (a : Reg) (mask : BitVec 4) : RoundTrip.Statement (.orun m a mask) := by
  intro hwf
  have := a.isLt
  have := mask.isLt
  rw [show encode (.orun m a mask) = .lone (put (mask.toNat) 32 (put (a.val) 13 (put 823394304 0 (loneBits m)))) from rfl]
  obtain ⟨w, hw⟩ : ∃ w, w = put (mask.toNat) 32 (put (a.val) 13 (put 823394304 0 (loneBits m))) := ⟨_, rfl⟩
  rw [← hw]
  obtain ⟨h0, hm, hb, hf, hx⟩ := lWord m 49 (a.val * 8192 + 1310720) (mask.toNat) w (by omega) (by omega) (by omega) (by rw [hw]; simp only [put, loneBits]; omega)
  refine ⟨h0, ?_⟩
  have h1 : fld w 2 0 = 0 := by rw [hf _ _ (by decide) (by decide)]; simp only [fld]; omega
  have h2 : fld w 7 3 = 0 := by rw [hf _ _ (by decide) (by decide)]; simp only [fld]; omega
  have h3 : fld w 12 8 = 0 := by rw [hf _ _ (by decide) (by decide)]; simp only [fld]; omega
  have h4 : fld w 17 13 = a.val := by rw [hf _ _ (by decide) (by decide)]; simp only [fld]; omega
  have h5 : fld w 23 18 = 5 := by rw [hf _ _ (by decide) (by decide)]; simp only [fld]; omega
  have h6 : fld w 35 32 = mask.toNat := by rw [hx _ _ (by decide) (by decide)]; simp only [fld]; omega
  have h7 : fld w 63 36 = 0 := by rw [hx _ _ (by decide) (by decide)]; simp only [fld]; omega
  simp [decodeL, rawL, decL49, hm, hb, h1, h2, h3, h4, h5, h6, h7, hwf, Option.filter]

theorem RoundTrip.ohalt (m : Bool) (mask : BitVec 4) : RoundTrip.Statement (.ohalt m mask) := by
  intro hwf
  have := mask.isLt
  rw [show encode (.ohalt m mask) = .lone (put (mask.toNat) 32 (put 823656448 0 (loneBits m))) from rfl]
  obtain ⟨w, hw⟩ : ∃ w, w = put (mask.toNat) 32 (put 823656448 0 (loneBits m)) := ⟨_, rfl⟩
  rw [← hw]
  obtain ⟨h0, hm, hb, hf, hx⟩ := lWord m 49 (1572864) (mask.toNat) w (by omega) (by omega) (by omega) (by rw [hw]; simp only [put, loneBits]; omega)
  refine ⟨h0, ?_⟩
  have h1 : fld w 2 0 = 0 := by rw [hf _ _ (by decide) (by decide)]; simp only [fld]; omega
  have h2 : fld w 7 3 = 0 := by rw [hf _ _ (by decide) (by decide)]; simp only [fld]; omega
  have h3 : fld w 12 8 = 0 := by rw [hf _ _ (by decide) (by decide)]; simp only [fld]; omega
  have h4 : fld w 17 13 = 0 := by rw [hf _ _ (by decide) (by decide)]; simp only [fld]; omega
  have h5 : fld w 23 18 = 6 := by rw [hf _ _ (by decide) (by decide)]; simp only [fld]; omega
  have h6 : fld w 35 32 = mask.toNat := by rw [hx _ _ (by decide) (by decide)]; simp only [fld]; omega
  have h7 : fld w 63 36 = 0 := by rw [hx _ _ (by decide) (by decide)]; simp only [fld]; omega
  simp [decodeL, rawL, decL49, hm, hb, h1, h2, h3, h4, h5, h6, h7, hwf, Option.filter]

theorem RoundTrip.osave (m : Bool) (a : Reg) : RoundTrip.Statement (.osave m a) := by
  intro hwf
  have := a.isLt
  rw [show encode (.osave m a) = .lone (put (a.val) 13 (put 823918592 0 (loneBits m))) from rfl]
  obtain ⟨w, hw⟩ : ∃ w, w = put (a.val) 13 (put 823918592 0 (loneBits m)) := ⟨_, rfl⟩
  rw [← hw]
  obtain ⟨h0, hm, hb, hf, hx⟩ := lWord m 49 (a.val * 8192 + 1835008) 0 w (by omega) (by omega) (by omega) (by rw [hw]; simp only [put, loneBits]; omega)
  refine ⟨h0, ?_⟩
  have h1 : fld w 2 0 = 0 := by rw [hf _ _ (by decide) (by decide)]; simp only [fld]; omega
  have h2 : fld w 7 3 = 0 := by rw [hf _ _ (by decide) (by decide)]; simp only [fld]; omega
  have h3 : fld w 12 8 = 0 := by rw [hf _ _ (by decide) (by decide)]; simp only [fld]; omega
  have h4 : fld w 17 13 = a.val := by rw [hf _ _ (by decide) (by decide)]; simp only [fld]; omega
  have h5 : fld w 23 18 = 7 := by rw [hf _ _ (by decide) (by decide)]; simp only [fld]; omega
  have h6 : fld w 63 32 = 0 := by rw [hx _ _ (by decide) (by decide)]; simp only [fld]; omega
  simp [decodeL, rawL, decL49, hm, hb, h1, h2, h3, h4, h5, h6, hwf, Option.filter]

theorem RoundTrip.orst (m : Bool) (a : Reg) : RoundTrip.Statement (.orst m a) := by
  intro hwf
  have := a.isLt
  rw [show encode (.orst m a) = .lone (put (a.val) 13 (put 824180736 0 (loneBits m))) from rfl]
  obtain ⟨w, hw⟩ : ∃ w, w = put (a.val) 13 (put 824180736 0 (loneBits m)) := ⟨_, rfl⟩
  rw [← hw]
  obtain ⟨h0, hm, hb, hf, hx⟩ := lWord m 49 (a.val * 8192 + 2097152) 0 w (by omega) (by omega) (by omega) (by rw [hw]; simp only [put, loneBits]; omega)
  refine ⟨h0, ?_⟩
  have h1 : fld w 2 0 = 0 := by rw [hf _ _ (by decide) (by decide)]; simp only [fld]; omega
  have h2 : fld w 7 3 = 0 := by rw [hf _ _ (by decide) (by decide)]; simp only [fld]; omega
  have h3 : fld w 12 8 = 0 := by rw [hf _ _ (by decide) (by decide)]; simp only [fld]; omega
  have h4 : fld w 17 13 = a.val := by rw [hf _ _ (by decide) (by decide)]; simp only [fld]; omega
  have h5 : fld w 23 18 = 8 := by rw [hf _ _ (by decide) (by decide)]; simp only [fld]; omega
  have h6 : fld w 63 32 = 0 := by rw [hx _ _ (by decide) (by decide)]; simp only [fld]; omega
  simp [decodeL, rawL, decL49, hm, hb, h1, h2, h3, h4, h5, h6, hwf, Option.filter]

theorem RoundTrip.otap (m : Bool) (a : Reg) (tap : Fin 16) : RoundTrip.Statement (.otap m a tap) := by
  intro hwf
  have := a.isLt
  have := tap.isLt
  rw [show encode (.otap m a tap) = .lone (put (tap.val) 32 (put (a.val) 13 (put 824442880 0 (loneBits m)))) from rfl]
  obtain ⟨w, hw⟩ : ∃ w, w = put (tap.val) 32 (put (a.val) 13 (put 824442880 0 (loneBits m))) := ⟨_, rfl⟩
  rw [← hw]
  obtain ⟨h0, hm, hb, hf, hx⟩ := lWord m 49 (a.val * 8192 + 2359296) (tap.val) w (by omega) (by omega) (by omega) (by rw [hw]; simp only [put, loneBits]; omega)
  refine ⟨h0, ?_⟩
  have h1 : fld w 2 0 = 0 := by rw [hf _ _ (by decide) (by decide)]; simp only [fld]; omega
  have h2 : fld w 7 3 = 0 := by rw [hf _ _ (by decide) (by decide)]; simp only [fld]; omega
  have h3 : fld w 12 8 = 0 := by rw [hf _ _ (by decide) (by decide)]; simp only [fld]; omega
  have h4 : fld w 17 13 = a.val := by rw [hf _ _ (by decide) (by decide)]; simp only [fld]; omega
  have h5 : fld w 23 18 = 9 := by rw [hf _ _ (by decide) (by decide)]; simp only [fld]; omega
  have h6 : fld w 35 32 = tap.val := by rw [hx _ _ (by decide) (by decide)]; simp only [fld]; omega
  have h7 : fld w 63 36 = 0 := by rw [hx _ _ (by decide) (by decide)]; simp only [fld]; omega
  simp [decodeL, rawL, decL49, hm, hb, h1, h2, h3, h4, h5, h6, h7, hwf, Option.filter]

theorem RoundTrip.tshape (m : Bool) (d : Reg) (a : Reg) : RoundTrip.Statement (.tshape m d a) := by
  intro hwf
  have := d.isLt
  have := a.isLt
  rw [show encode (.tshape m d a) = .lone (put (a.val) 13 (put (d.val) 3 (put 838860800 0 (loneBits m)))) from rfl]
  obtain ⟨w, hw⟩ : ∃ w, w = put (a.val) 13 (put (d.val) 3 (put 838860800 0 (loneBits m))) := ⟨_, rfl⟩
  rw [← hw]
  obtain ⟨h0, hm, hb, hf, hx⟩ := lWord m 50 (a.val * 8192 + d.val * 8) 0 w (by omega) (by omega) (by omega) (by rw [hw]; simp only [put, loneBits]; omega)
  refine ⟨h0, ?_⟩
  have h1 : fld w 2 0 = 0 := by rw [hf _ _ (by decide) (by decide)]; simp only [fld]; omega
  have h2 : fld w 7 3 = d.val := by rw [hf _ _ (by decide) (by decide)]; simp only [fld]; omega
  have h3 : fld w 12 8 = 0 := by rw [hf _ _ (by decide) (by decide)]; simp only [fld]; omega
  have h4 : fld w 17 13 = a.val := by rw [hf _ _ (by decide) (by decide)]; simp only [fld]; omega
  have h5 : fld w 23 18 = 0 := by rw [hf _ _ (by decide) (by decide)]; simp only [fld]; omega
  have h6 : fld w 63 32 = 0 := by rw [hx _ _ (by decide) (by decide)]; simp only [fld]; omega
  simp [decodeL, rawL, decL50, hm, hb, h1, h2, h3, h4, h5, h6, hwf, Option.filter]

theorem RoundTrip.tmap (m : Bool) (d : Reg) (a : Reg) : RoundTrip.Statement (.tmap m d a) := by
  intro hwf
  have := d.isLt
  have := a.isLt
  rw [show encode (.tmap m d a) = .lone (put (a.val) 13 (put (d.val) 3 (put 839122944 0 (loneBits m)))) from rfl]
  obtain ⟨w, hw⟩ : ∃ w, w = put (a.val) 13 (put (d.val) 3 (put 839122944 0 (loneBits m))) := ⟨_, rfl⟩
  rw [← hw]
  obtain ⟨h0, hm, hb, hf, hx⟩ := lWord m 50 (a.val * 8192 + d.val * 8 + 262144) 0 w (by omega) (by omega) (by omega) (by rw [hw]; simp only [put, loneBits]; omega)
  refine ⟨h0, ?_⟩
  have h1 : fld w 2 0 = 0 := by rw [hf _ _ (by decide) (by decide)]; simp only [fld]; omega
  have h2 : fld w 7 3 = d.val := by rw [hf _ _ (by decide) (by decide)]; simp only [fld]; omega
  have h3 : fld w 12 8 = 0 := by rw [hf _ _ (by decide) (by decide)]; simp only [fld]; omega
  have h4 : fld w 17 13 = a.val := by rw [hf _ _ (by decide) (by decide)]; simp only [fld]; omega
  have h5 : fld w 23 18 = 1 := by rw [hf _ _ (by decide) (by decide)]; simp only [fld]; omega
  have h6 : fld w 63 32 = 0 := by rw [hx _ _ (by decide) (by decide)]; simp only [fld]; omega
  simp [decodeL, rawL, decL50, hm, hb, h1, h2, h3, h4, h5, h6, hwf, Option.filter]

theorem RoundTrip.tpress (m : Bool) (a : Reg) : RoundTrip.Statement (.tpress m a) := by
  intro hwf
  have := a.isLt
  rw [show encode (.tpress m a) = .lone (put (a.val) 13 (put 839385088 0 (loneBits m))) from rfl]
  obtain ⟨w, hw⟩ : ∃ w, w = put (a.val) 13 (put 839385088 0 (loneBits m)) := ⟨_, rfl⟩
  rw [← hw]
  obtain ⟨h0, hm, hb, hf, hx⟩ := lWord m 50 (a.val * 8192 + 524288) 0 w (by omega) (by omega) (by omega) (by rw [hw]; simp only [put, loneBits]; omega)
  refine ⟨h0, ?_⟩
  have h1 : fld w 2 0 = 0 := by rw [hf _ _ (by decide) (by decide)]; simp only [fld]; omega
  have h2 : fld w 7 3 = 0 := by rw [hf _ _ (by decide) (by decide)]; simp only [fld]; omega
  have h3 : fld w 12 8 = 0 := by rw [hf _ _ (by decide) (by decide)]; simp only [fld]; omega
  have h4 : fld w 17 13 = a.val := by rw [hf _ _ (by decide) (by decide)]; simp only [fld]; omega
  have h5 : fld w 23 18 = 2 := by rw [hf _ _ (by decide) (by decide)]; simp only [fld]; omega
  have h6 : fld w 63 32 = 0 := by rw [hx _ _ (by decide) (by decide)]; simp only [fld]; omega
  simp [decodeL, rawL, decL50, hm, hb, h1, h2, h3, h4, h5, h6, hwf, Option.filter]

theorem RoundTrip.tanchor (m : Bool) (a : Reg) (on : Bool) : RoundTrip.Statement (.tanchor m a on) := by
  intro hwf
  have := a.isLt
  have := bitN_lt on
  rw [show encode (.tanchor m a on) = .lone (put (bitN on) 32 (put (a.val) 13 (put 839647232 0 (loneBits m)))) from rfl]
  obtain ⟨w, hw⟩ : ∃ w, w = put (bitN on) 32 (put (a.val) 13 (put 839647232 0 (loneBits m))) := ⟨_, rfl⟩
  rw [← hw]
  obtain ⟨h0, hm, hb, hf, hx⟩ := lWord m 50 (a.val * 8192 + 786432) (bitN on) w (by omega) (by omega) (by omega) (by rw [hw]; simp only [put, loneBits]; omega)
  refine ⟨h0, ?_⟩
  have h1 : fld w 2 0 = 0 := by rw [hf _ _ (by decide) (by decide)]; simp only [fld]; omega
  have h2 : fld w 7 3 = 0 := by rw [hf _ _ (by decide) (by decide)]; simp only [fld]; omega
  have h3 : fld w 12 8 = 0 := by rw [hf _ _ (by decide) (by decide)]; simp only [fld]; omega
  have h4 : fld w 17 13 = a.val := by rw [hf _ _ (by decide) (by decide)]; simp only [fld]; omega
  have h5 : fld w 23 18 = 3 := by rw [hf _ _ (by decide) (by decide)]; simp only [fld]; omega
  have h6 : fld w 63 33 = 0 := by rw [hx _ _ (by decide) (by decide)]; simp only [fld]; omega
  have h7 : bit w 32 = on := bit_of (by have := hx 32 32 (by decide) (by decide); simp only [fld] at this; omega)
  simp [decodeL, rawL, decL50, hm, hb, h1, h2, h3, h4, h5, h6, h7, hwf, Option.filter]

theorem RoundTrip.tfreeze (m : Bool) : RoundTrip.Statement (.tfreeze m) := by
  intro hwf
  rw [show encode (.tfreeze m) = .lone (put 839909376 0 (loneBits m)) from rfl]
  obtain ⟨w, hw⟩ : ∃ w, w = put 839909376 0 (loneBits m) := ⟨_, rfl⟩
  rw [← hw]
  obtain ⟨h0, hm, hb, hf, hx⟩ := lWord m 50 (1048576) 0 w (by omega) (by omega) (by omega) (by rw [hw]; simp only [put, loneBits]; omega)
  refine ⟨h0, ?_⟩
  have h1 : fld w 2 0 = 0 := by rw [hf _ _ (by decide) (by decide)]; simp only [fld]; omega
  have h2 : fld w 7 3 = 0 := by rw [hf _ _ (by decide) (by decide)]; simp only [fld]; omega
  have h3 : fld w 12 8 = 0 := by rw [hf _ _ (by decide) (by decide)]; simp only [fld]; omega
  have h4 : fld w 17 13 = 0 := by rw [hf _ _ (by decide) (by decide)]; simp only [fld]; omega
  have h5 : fld w 23 18 = 4 := by rw [hf _ _ (by decide) (by decide)]; simp only [fld]; omega
  have h6 : fld w 63 32 = 0 := by rw [hx _ _ (by decide) (by decide)]; simp only [fld]; omega
  simp [decodeL, rawL, decL50, hm, hb, h1, h2, h3, h4, h5, h6, hwf, Option.filter]

theorem RoundTrip.tthaw (m : Bool) : RoundTrip.Statement (.tthaw m) := by
  intro hwf
  rw [show encode (.tthaw m) = .lone (put 840171520 0 (loneBits m)) from rfl]
  obtain ⟨w, hw⟩ : ∃ w, w = put 840171520 0 (loneBits m) := ⟨_, rfl⟩
  rw [← hw]
  obtain ⟨h0, hm, hb, hf, hx⟩ := lWord m 50 (1310720) 0 w (by omega) (by omega) (by omega) (by rw [hw]; simp only [put, loneBits]; omega)
  refine ⟨h0, ?_⟩
  have h1 : fld w 2 0 = 0 := by rw [hf _ _ (by decide) (by decide)]; simp only [fld]; omega
  have h2 : fld w 7 3 = 0 := by rw [hf _ _ (by decide) (by decide)]; simp only [fld]; omega
  have h3 : fld w 12 8 = 0 := by rw [hf _ _ (by decide) (by decide)]; simp only [fld]; omega
  have h4 : fld w 17 13 = 0 := by rw [hf _ _ (by decide) (by decide)]; simp only [fld]; omega
  have h5 : fld w 23 18 = 5 := by rw [hf _ _ (by decide) (by decide)]; simp only [fld]; omega
  have h6 : fld w 63 32 = 0 := by rw [hx _ _ (by decide) (by decide)]; simp only [fld]; omega
  simp [decodeL, rawL, decL50, hm, hb, h1, h2, h3, h4, h5, h6, hwf, Option.filter]

theorem RoundTrip.tevac (m : Bool) : RoundTrip.Statement (.tevac m) := by
  intro hwf
  rw [show encode (.tevac m) = .lone (put 840433664 0 (loneBits m)) from rfl]
  obtain ⟨w, hw⟩ : ∃ w, w = put 840433664 0 (loneBits m) := ⟨_, rfl⟩
  rw [← hw]
  obtain ⟨h0, hm, hb, hf, hx⟩ := lWord m 50 (1572864) 0 w (by omega) (by omega) (by omega) (by rw [hw]; simp only [put, loneBits]; omega)
  refine ⟨h0, ?_⟩
  have h1 : fld w 2 0 = 0 := by rw [hf _ _ (by decide) (by decide)]; simp only [fld]; omega
  have h2 : fld w 7 3 = 0 := by rw [hf _ _ (by decide) (by decide)]; simp only [fld]; omega
  have h3 : fld w 12 8 = 0 := by rw [hf _ _ (by decide) (by decide)]; simp only [fld]; omega
  have h4 : fld w 17 13 = 0 := by rw [hf _ _ (by decide) (by decide)]; simp only [fld]; omega
  have h5 : fld w 23 18 = 6 := by rw [hf _ _ (by decide) (by decide)]; simp only [fld]; omega
  have h6 : fld w 63 32 = 0 := by rw [hx _ _ (by decide) (by decide)]; simp only [fld]; omega
  simp [decodeL, rawL, decL50, hm, hb, h1, h2, h3, h4, h5, h6, hwf, Option.filter]

theorem RoundTrip.illegalInstruction (w1 : Bool) : RoundTrip.Statement (.illegalInstruction w1) := by intro _; trivial

theorem RoundTrip.emulation (w1 : Bool) : RoundTrip.Statement (.emulation w1) := by intro _; trivial

theorem RoundTrip.chainRelease (k : Nat) : RoundTrip.Statement (.chainRelease k) := by intro _; trivial

theorem RoundTrip.sizeGrantReturn (k : Nat) : RoundTrip.Statement (.sizeGrantReturn k) := by intro _; trivial

theorem RoundTrip.handlerTileAnswer (k : Nat) : RoundTrip.Statement (.handlerTileAnswer k) := by intro _; trivial

theorem RoundTrip.spawnPlacement (core : CoreId) : RoundTrip.Statement (.spawnPlacement core) := by intro _; trivial

theorem RoundTrip.variableLatencyResponse (k : Nat) : RoundTrip.Statement (.variableLatencyResponse k) := by intro _; trivial

theorem RoundTrip.freezeRelease (core : CoreId) : RoundTrip.Statement (.freezeRelease core) := by intro _; trivial

theorem RoundTrip.asyncTrapEntry (core : CoreId) : RoundTrip.Statement (.asyncTrapEntry core) := by intro _; trivial

theorem RoundTrip.dispatch (tile : TileId) : RoundTrip.Statement (.dispatch tile) := by intro _; trivial

theorem RoundTrip.heldSlicePlacement (sl : Nat) : RoundTrip.Statement (.heldSlicePlacement sl) := by intro _; trivial

theorem RoundTrip.budgetExhausted (sl : Nat) : RoundTrip.Statement (.budgetExhausted sl) := by intro _; trivial

theorem RoundTrip.budgetGraceExpiry (sl : Nat) : RoundTrip.Statement (.budgetGraceExpiry sl) := by intro _; trivial

theorem RoundTrip.sliceLate (sl : Nat) : RoundTrip.Statement (.sliceLate sl) := by intro _; trivial

theorem RoundTrip.sliceCompletion (sl : Nat) : RoundTrip.Statement (.sliceCompletion sl) := by intro _; trivial

theorem RoundTrip.resultRead (sl : Nat) : RoundTrip.Statement (.resultRead sl) := by intro _; trivial

theorem RoundTrip.launchCompletion (la : Nat) : RoundTrip.Statement (.launchCompletion la) := by intro _; trivial

theorem RoundTrip.peerRequestArrival (k : Nat) : RoundTrip.Statement (.peerRequestArrival k) := by intro _; trivial

theorem RoundTrip.hbmAccess (k : Nat) : RoundTrip.Statement (.hbmAccess k) := by intro _; trivial

theorem RoundTrip.refusalArrival (k : Nat) : RoundTrip.Statement (.refusalArrival k) := by intro _; trivial

theorem RoundTrip.ackArrival (k : Nat) : RoundTrip.Statement (.ackArrival k) := by intro _; trivial

theorem RoundTrip.retransmitTimeout (k : Nat) : RoundTrip.Statement (.retransmitTimeout k) := by intro _; trivial

theorem RoundTrip.messageArrival (k : Nat) : RoundTrip.Statement (.messageArrival k) := by intro _; trivial

theorem RoundTrip.chainReservation (k : Nat) : RoundTrip.Statement (.chainReservation k) := by intro _; trivial

theorem RoundTrip.chainAnswer (k : Nat) : RoundTrip.Statement (.chainAnswer k) := by intro _; trivial

theorem RoundTrip.chainPayload (k : Nat) : RoundTrip.Statement (.chainPayload k) := by intro _; trivial

theorem RoundTrip.barrierArrival (k : Nat) : RoundTrip.Statement (.barrierArrival k) := by intro _; trivial

theorem RoundTrip.barrierRelease (k : Nat) : RoundTrip.Statement (.barrierRelease k) := by intro _; trivial

theorem RoundTrip.voteContribution (k : Nat) : RoundTrip.Statement (.voteContribution k) := by intro _; trivial

theorem RoundTrip.copyBeat (tile : TileId) (k : Nat) : RoundTrip.Statement (.copyBeat tile k) := by intro _; trivial

theorem RoundTrip.copyComplete (tile : TileId) (k : Nat) : RoundTrip.Statement (.copyComplete tile k) := by intro _; trivial

theorem RoundTrip.copyFailure (k : Nat) : RoundTrip.Statement (.copyFailure k) := by intro _; trivial

theorem RoundTrip.matrixStart (core : CoreId) (k : Nat) : RoundTrip.Statement (.matrixStart core k) := by intro _; trivial

theorem RoundTrip.matrixComplete (core : CoreId) (k : Nat) : RoundTrip.Statement (.matrixComplete core k) := by intro _; trivial

theorem RoundTrip.streamPush (sl : Nat) (ring : Nat) : RoundTrip.Statement (.streamPush sl ring) := by intro _; trivial

theorem RoundTrip.streamPull (sl : Nat) (ring : Nat) : RoundTrip.Statement (.streamPull sl ring) := by intro _; trivial

theorem RoundTrip.loopCountBlockReady (sl : Nat) (ring : Nat) : RoundTrip.Statement (.loopCountBlockReady sl ring) := by intro _; trivial

theorem RoundTrip.rwaitTimeout (core : CoreId) : RoundTrip.Statement (.rwaitTimeout core) := by intro _; trivial

theorem RoundTrip.orreryTick (core : CoreId) : RoundTrip.Statement (.orreryTick core) := by intro _; trivial

theorem RoundTrip.orreryCountEnd (core : CoreId) (dom : Fin 4) : RoundTrip.Statement (.orreryCountEnd core dom) := by intro _; trivial

theorem RoundTrip.epochEnd : RoundTrip.Statement (.epochEnd ) := by intro _; trivial

theorem RoundTrip.phaseStart (tile : TileId) : RoundTrip.Statement (.phaseStart tile) := by intro _; trivial

theorem RoundTrip.sizeRequest (k : Nat) : RoundTrip.Statement (.sizeRequest k) := by intro _; trivial

theorem RoundTrip.sizeGrant (k : Nat) : RoundTrip.Statement (.sizeGrant k) := by intro _; trivial

theorem RoundTrip.moveCommit (tile : TileId) : RoundTrip.Statement (.moveCommit tile) := by intro _; trivial

theorem RoundTrip.evacuationExpiry (tile : TileId) : RoundTrip.Statement (.evacuationExpiry tile) := by intro _; trivial

theorem RoundTrip.cessionClearing (tile : TileId) : RoundTrip.Statement (.cessionClearing tile) := by intro _; trivial

theorem RoundTrip.cessionJoining (tile : TileId) : RoundTrip.Statement (.cessionJoining tile) := by intro _; trivial

theorem RoundTrip.upcallArrival (k : Nat) : RoundTrip.Statement (.upcallArrival k) := by intro _; trivial

theorem RoundTrip.freezeMark (k : Nat) : RoundTrip.Statement (.freezeMark k) := by intro _; trivial

theorem RoundTrip.freezeTakesHold (terr : Nat) : RoundTrip.Statement (.freezeTakesHold terr) := by intro _; trivial

theorem RoundTrip.thawRequest (k : Nat) : RoundTrip.Statement (.thawRequest k) := by intro _; trivial

theorem RoundTrip.anchorRequest (k : Nat) : RoundTrip.Statement (.anchorRequest k) := by intro _; trivial

theorem RoundTrip.anchorApply (k : Nat) : RoundTrip.Statement (.anchorApply k) := by intro _; trivial

theorem RoundTrip.shapeSnapshot (k : Nat) : RoundTrip.Statement (.shapeSnapshot k) := by intro _; trivial

theorem RoundTrip.preemptionHalt (core : CoreId) : RoundTrip.Statement (.preemptionHalt core) := by intro _; trivial

theorem RoundTrip.quiescenceComplete (tile : TileId) : RoundTrip.Statement (.quiescenceComplete tile) := by intro _; trivial

theorem RoundTrip.replayAbort (sl : Nat) : RoundTrip.Statement (.replayAbort sl) := by intro _; trivial

theorem RoundTrip.patrolScrub (page : Nat) (corrected : Nat) (uncorrectable : Nat) : RoundTrip.Statement (.patrolScrub page corrected uncorrectable) := by intro _; trivial

theorem RoundTrip.islandPowerWindow (isl : Fin 32) (watts16 : Nat) (module16 : Nat) : RoundTrip.Statement (.islandPowerWindow isl watts16 module16) := by intro _; trivial

theorem RoundTrip.thermalThrottle (isl : Fin 32) : RoundTrip.Statement (.thermalThrottle isl) := by intro _; trivial

theorem RoundTrip.thermalCooled (isl : Fin 32) : RoundTrip.Statement (.thermalCooled isl) := by intro _; trivial

theorem RoundTrip.thermalShutdown (isl : Fin 32) : RoundTrip.Statement (.thermalShutdown isl) := by intro _; trivial

theorem RoundTrip.deviceReset : RoundTrip.Statement (.deviceReset ) := by intro _; trivial

theorem RoundTrip.powerLoss : RoundTrip.Statement (.powerLoss ) := by intro _; trivial

theorem RoundTrip.spdmSessionEnd (sess : Nat) : RoundTrip.Statement (.spdmSessionEnd sess) := by intro _; trivial

theorem RoundTrip.linkLoss (k : Nat) : RoundTrip.Statement (.linkLoss k) := by intro _; trivial

theorem RoundTrip.parallaxStreamArrival (k : Nat) : RoundTrip.Statement (.parallaxStreamArrival k) := by intro _; trivial

theorem RoundTrip.parallaxAck (k : Nat) (status : Nat) : RoundTrip.Statement (.parallaxAck k status) := by intro _; trivial

theorem RoundTrip.rmaWrite (sess : Nat) (terr : Nat) (va : Nat) (bytes : List (BitVec 8)) : RoundTrip.Statement (.rmaWrite sess terr va bytes) := by intro _; trivial

theorem RoundTrip.rmaRead (sess : Nat) (terr : Nat) (va : Nat) (len : Nat) : RoundTrip.Statement (.rmaRead sess terr va len) := by intro _; trivial

theorem RoundTrip.unsupportedPacket : RoundTrip.Statement (.unsupportedPacket ) := by intro _; trivial

theorem RoundTrip.create (h : Hdr) (tiles : List (Nat × Nat)) (minA : Nat) (maxB : Nat) : RoundTrip.Statement (.create h tiles minA maxB) := by intro _; trivial

theorem RoundTrip.dissolve (h : Hdr) : RoundTrip.Statement (.dissolve h) := by intro _; trivial

theorem RoundTrip.policy (h : Hdr) (id : Nat) (value : Nat) : RoundTrip.Statement (.policy h id value) := by intro _; trivial

theorem RoundTrip.policySetAnchor (h : Hdr) (value : Nat) : RoundTrip.Statement (.policySetAnchor h value) := by intro _; trivial

theorem RoundTrip.policyClearAnchor (h : Hdr) (value : Nat) : RoundTrip.Statement (.policyClearAnchor h value) := by intro _; trivial

theorem RoundTrip.pxpeers (h : Hdr) (value : Nat) : RoundTrip.Statement (.pxpeers h value) := by intro _; trivial

theorem RoundTrip.ops (h : Hdr) (value : Nat) : RoundTrip.Statement (.ops h value) := by intro _; trivial

theorem RoundTrip.mapPages (h : Hdr) (va : Nat) (len : Nat) (psize : Nat) (perm : Nat) : RoundTrip.Statement (.mapPages h va len psize perm) := by intro _; trivial

theorem RoundTrip.unmap (h : Hdr) (va : Nat) (len : Nat) : RoundTrip.Statement (.unmap h va len) := by intro _; trivial

theorem RoundTrip.protect (h : Hdr) (va : Nat) (len : Nat) (perm : Nat) : RoundTrip.Statement (.protect h va len perm) := by intro _; trivial

theorem RoundTrip.loadCode (h : Hdr) (body : CodeBody) (dimg : Nat) : RoundTrip.Statement (.loadCode h body dimg) := by intro _; trivial

theorem RoundTrip.launch (h : Hdr) (body : LaunchBody) : RoundTrip.Statement (.launch h body) := by intro _; trivial

theorem RoundTrip.preempt (h : Hdr) : RoundTrip.Statement (.preempt h) := by intro _; trivial

theorem RoundTrip.save (h : Hdr) (off : Nat) (full : Bool) : RoundTrip.Statement (.save h off full) := by intro _; trivial

theorem RoundTrip.restore (h : Hdr) (off : Nat) : RoundTrip.Statement (.restore h off) := by intro _; trivial

theorem RoundTrip.resume (h : Hdr) : RoundTrip.Statement (.resume h) := by intro _; trivial

theorem RoundTrip.debugClaim (h : Hdr) (sl : Nat) : RoundTrip.Statement (.debugClaim h sl) := by intro _; trivial

theorem RoundTrip.debugRelease (h : Hdr) (sl : Nat) : RoundTrip.Statement (.debugRelease h sl) := by intro _; trivial

theorem RoundTrip.debugHalt (h : Hdr) (sl : Nat) : RoundTrip.Statement (.debugHalt h sl) := by intro _; trivial

theorem RoundTrip.debugRead (h : Hdr) (sl : Nat) : RoundTrip.Statement (.debugRead h sl) := by intro _; trivial

theorem RoundTrip.debugWrite (h : Hdr) (sl : Nat) (pos : Nat) (wr : DbgWrite) : RoundTrip.Statement (.debugWrite h sl pos wr) := by intro _; trivial

theorem RoundTrip.debugStep (h : Hdr) (sl : Nat) : RoundTrip.Statement (.debugStep h sl) := by intro _; trivial

theorem RoundTrip.debugGo (h : Hdr) (sl : Nat) : RoundTrip.Statement (.debugGo h sl) := by intro _; trivial

theorem RoundTrip.fwwrite (h : Hdr) (off : Nat) (bytes : List (BitVec 8)) : RoundTrip.Statement (.fwwrite h off bytes) := by intro _; trivial

theorem RoundTrip.fwactivate (h : Hdr) (force : Bool) : RoundTrip.Statement (.fwactivate h force) := by intro _; trivial

theorem RoundTrip.fwcommit (h : Hdr) : RoundTrip.Statement (.fwcommit h) := by intro _; trivial

theorem RoundTrip.openSession (h : Hdr) (fa : BitVec 128) (nonce : List (BitVec 8)) : RoundTrip.Statement (.openSession h fa nonce) := by intro _; trivial

theorem RoundTrip.close (h : Hdr) : RoundTrip.Statement (.close h) := by intro _; trivial

theorem RoundTrip.receipt (h : Hdr) : RoundTrip.Statement (.receipt h) := by intro _; trivial

theorem RoundTrip.evlog (h : Hdr) (first : Nat) (count : Nat) : RoundTrip.Statement (.evlog h first count) := by intro _; trivial

theorem RoundTrip.epadd (h : Hdr) (idx : Nat) (fa : BitVec 128) (job : Nat) (ports : BitVec 8) : RoundTrip.Statement (.epadd h idx fa job ports) := by intro _; trivial

theorem RoundTrip.epdel (h : Hdr) (idx : Nat) : RoundTrip.Statement (.epdel h idx) := by intro _; trivial

theorem RoundTrip.ifRead (h : Hdr) (reg : Nat) : RoundTrip.Statement (.ifRead h reg) := by intro _; trivial

theorem RoundTrip.ifWrite (h : Hdr) (reg : Nat) (value : BitVec 64) : RoundTrip.Statement (.ifWrite h reg value) := by intro _; trivial

theorem RoundTrip.getCertificate (sess : Nat) (slot : Nat) : RoundTrip.Statement (.getCertificate sess slot) := by intro _; trivial

theorem RoundTrip.challenge (sess : Nat) (nonce : List (BitVec 8)) : RoundTrip.Statement (.challenge sess nonce) := by intro _; trivial

theorem RoundTrip.getMeasurements (sess : Nat) (index : Nat) : RoundTrip.Statement (.getMeasurements sess index) := by intro _; trivial

theorem RoundTrip.getDeviceInterfaceReport (sess : Nat) (terr : Nat) : RoundTrip.Statement (.getDeviceInterfaceReport sess terr) := by intro _; trivial

theorem RoundTrip.lockInterfaceRequest (sess : Nat) (terr : Nat) : RoundTrip.Statement (.lockInterfaceRequest sess terr) := by intro _; trivial

theorem RoundTrip.startInterfaceRequest (sess : Nat) (terr : Nat) (nonce : List (BitVec 8)) : RoundTrip.Statement (.startInterfaceRequest sess terr nonce) := by intro _; trivial

theorem RoundTrip.stopInterfaceRequest (sess : Nat) (terr : Nat) : RoundTrip.Statement (.stopInterfaceRequest sess terr) := by intro _; trivial

theorem RoundTrip.createIndexed (h : Hdr) (version : Nat) (tiles : List (Nat × Nat × Nat)) (minA : Nat) (maxB : Nat) : RoundTrip.Statement (.createIndexed h version tiles minA maxB) := by intro _; trivial

theorem RoundTrip.dirty (h : Hdr) (first : Nat) (count : Nat) : RoundTrip.Statement (.dirty h first count) := by intro _; trivial

theorem RoundTrip.checkpoint (h : Hdr) (body : CkptBody) : RoundTrip.Statement (.checkpoint h body) := by intro _; trivial

theorem RoundTrip.pxsend (h : Hdr) (off : Nat) (buddy : Nat) (boff : Nat) (bpoff : Option Nat) : RoundTrip.Statement (.pxsend h off buddy boff bpoff) := by intro _; trivial

theorem RoundTrip.loadpages (h : Hdr) (off : Nat) : RoundTrip.Statement (.loadpages h off) := by intro _; trivial

theorem RoundTrip.counters (h : Hdr) (first : Nat) (count : Nat) : RoundTrip.Statement (.counters h first count) := by intro _; trivial

theorem RoundTrip.telemetry (h : Hdr) : RoundTrip.Statement (.telemetry h) := by intro _; trivial

theorem RoundTrip.fenceTile (h : Hdr) (x : Nat) (y : Nat) : RoundTrip.Statement (.fenceTile h x y) := by intro _; trivial

theorem RoundTrip.spdmSessionStart (sess : SpdmOffer) : RoundTrip.Statement (.spdmSessionStart sess) := by intro _; trivial

theorem RoundTrip.unknownCommand (h : Hdr) (code : Nat) : RoundTrip.Statement (.unknownCommand h code) := by intro _; trivial

end Sys2Proof.Laws
end

