-- ==== Sys2Proof/Laws/Scalar.lean ====
section
/-! SUPPORT. What the functions of the scalar instructions compute (09 R201, R202, R204): shifts, extrema, products, quotients, counts
and conditions, each in the terms of its rule. -/

namespace Sys2Proof.Machine

theorem shl_eq (x : Word) (n : Nat) : x <<< n = BitVec.ofNat 64 (x.toNat * 2 ^ n) := by
  apply BitVec.eq_of_toNat_eq; simp [Nat.shiftLeft_eq]

theorem shr_eq (x : Word) (n : Nat) : x >>> n = BitVec.ofNat 64 (x.toNat / 2 ^ n) := by
  apply BitVec.eq_of_toNat_eq
  simp only [BitVec.toNat_ushiftRight, Nat.shiftRight_eq_div_pow, BitVec.toNat_ofNat]
  exact (Nat.mod_eq_of_lt (Nat.lt_of_le_of_lt (Nat.div_le_self _ _) (BitVec.isLt _))).symm

/-- A number of the Int range is its word's Int. -/
theorem toInt_ofInt_range {z : Int} (h1 : -2 ^ 63 ≤ z) (h2 : z < 2 ^ 63) : (BitVec.ofInt 64 z).toInt = z := by
  rw [BitVec.toInt_ofInt, Int.bmod_eq_of_le] <;> simp <;> omega

theorem toInt_range (x : Word) : -2 ^ 63 ≤ x.toInt ∧ x.toInt < 2 ^ 63 := by
  have h1 := BitVec.toInt_lt (x := x)
  have h2 := BitVec.le_toInt (x := x)
  simp at h1 h2
  omega

theorem sra_eq (x : Word) (n : Nat) : x.sshiftRight n = BitVec.ofInt 64 (x.toInt / 2 ^ n) := by
  have hx := toInt_range x
  have hp : (0 : Int) < 2 ^ n := by positivity
  have h3 : x.toInt / 2 ^ n < 2 ^ 63 := by
    by_cases h : 0 ≤ x.toInt
    · exact lt_of_le_of_lt (Int.ediv_le_self _ h) hx.2
    · have := Int.ediv_neg_of_neg_of_pos (by omega : x.toInt < 0) hp
      omega
  have h4 : -2 ^ 63 ≤ x.toInt / 2 ^ n := by
    rw [Int.le_ediv_iff_mul_le hp]
    have : (1 : Int) ≤ 2 ^ n := by omega
    nlinarith [hx.1]
  apply BitVec.eq_of_toInt_eq
  rw [BitVec.toInt_sshiftRight, Int.shiftRight_eq_div_pow, toInt_ofInt_range h4 h3]
  norm_cast

theorem rotr_eq (x : Word) {n : Nat} (h : n < 64) :
    x.rotateRight n = BitVec.ofNat 64 (x.toNat / 2 ^ n + x.toNat * 2 ^ (64 - n)) := by
  have hx := x.isLt
  have h0 : x.rotateRight n = x >>> n + x <<< (64 - n) := by
    rw [BitVec.rotateRight_def, Nat.mod_eq_of_lt h, BitVec.add_eq_or_of_and_eq_zero]
    apply BitVec.eq_of_getLsbD_eq
    intro i hi
    simp only [BitVec.getLsbD_and, BitVec.getLsbD_ushiftRight, BitVec.getLsbD_shiftLeft, BitVec.getLsbD_zero, hi, decide_true,
      Bool.true_and, Bool.and_eq_false_iff]
    by_cases h1 : i < 64 - n
    · simp [h1]
    · exact .inl (BitVec.getLsbD_of_ge _ _ (by omega))
  rw [h0, shl_eq, shr_eq, ← BitVec.ofNat_add]

theorem min_eq' (x y : Word) : (if y.slt x then y else x) = BitVec.ofInt 64 (min x.toInt y.toInt) := by
  by_cases h : y.slt x = true
  · rw [if_pos h, min_eq_right (by simp [BitVec.slt] at h; omega), BitVec.ofInt_toInt]
  · rw [if_neg h, min_eq_left (by simp [BitVec.slt] at h; omega), BitVec.ofInt_toInt]

theorem max_eq' (x y : Word) : (if x.slt y then y else x) = BitVec.ofInt 64 (max x.toInt y.toInt) := by
  by_cases h : x.slt y = true
  · rw [if_pos h, max_eq_right (by simp [BitVec.slt] at h; omega), BitVec.ofInt_toInt]
  · rw [if_neg h, max_eq_left (by simp [BitVec.slt] at h; omega), BitVec.ofInt_toInt]

theorem minu_eq (x y : Word) : (if y.ult x then y else x) = BitVec.ofNat 64 (min x.toNat y.toNat) := by
  by_cases h : y.ult x = true
  · rw [if_pos h, min_eq_right (by simp [BitVec.ult] at h; omega), BitVec.ofNat_toNat, BitVec.setWidth_eq]
  · rw [if_neg h, min_eq_left (by simp [BitVec.ult] at h; omega), BitVec.ofNat_toNat, BitVec.setWidth_eq]

theorem maxu_eq (x y : Word) : (if x.ult y then y else x) = BitVec.ofNat 64 (max x.toNat y.toNat) := by
  by_cases h : x.ult y = true
  · rw [if_pos h, max_eq_right (by simp [BitVec.ult] at h; omega), BitVec.ofNat_toNat, BitVec.setWidth_eq]
  · rw [if_neg h, max_eq_left (by simp [BitVec.ult] at h; omega), BitVec.ofNat_toNat, BitVec.setWidth_eq]

/-- The high half of the signed product. -/
theorem mulHigh_eq (x y : Word) : mulHigh x y = (x.signExtend 128 * y.signExtend 128).extractLsb' 64 64 := by
  have hx := toInt_range x
  have hy := toInt_range y
  have hb : -2 ^ 127 ≤ x.toInt * y.toInt ∧ x.toInt * y.toInt < 2 ^ 127 := by constructor <;> nlinarith
  have h1 : (x.signExtend 128 * y.signExtend 128).toInt = x.toInt * y.toInt := by
    rw [BitVec.toInt_mul, BitVec.toInt_signExtend_of_le (by decide), BitVec.toInt_signExtend_of_le (by decide), Int.bmod_eq_of_le]
      <;> simp <;> omega
  have h2 : ((x.signExtend 128 * y.signExtend 128).toNat : Int) = (x.toInt * y.toInt) % 2 ^ 128 := by
    rw [← h1]
    generalize x.signExtend 128 * y.signExtend 128 = p
    have := p.isLt
    rw [BitVec.toInt_eq_toNat_cond]
    split <;> omega
  apply BitVec.eq_of_toNat_eq
  simp only [mulHigh, BitVec.toNat_ofInt, BitVec.extractLsb'_toNat, Nat.shiftRight_eq_div_pow]
  zify
  rw [Int.toNat_of_nonneg (Int.emod_nonneg _ (by decide)), h2]
  push_cast
  omega

/-- The high half of the unsigned product. -/
theorem mulHighU_eq (x y : Word) : mulHighU x y = (x.setWidth 128 * y.setWidth 128).extractLsb' 64 64 := by
  have hb : x.toNat * y.toNat < 2 ^ 128 := by
    have := Nat.mul_lt_mul'' x.isLt y.isLt
    omega
  apply BitVec.eq_of_toNat_eq
  simp only [mulHighU, BitVec.toNat_ofNat, BitVec.extractLsb'_toNat, Nat.shiftRight_eq_div_pow, BitVec.toNat_mul, BitVec.toNat_setWidth]
  rw [Nat.mod_eq_of_lt (by have := x.isLt; omega : x.toNat < 2 ^ 128), Nat.mod_eq_of_lt (by have := y.isLt; omega : y.toNat < 2 ^ 128),
    Nat.mod_eq_of_lt hb]

/-- DIV is the truncated quotient, -1 for a zero divisor. -/
theorem divS_eq (x y : Word) : divS x y = if y = 0 then BitVec.allOnes 64 else x.sdiv y := by
  unfold divS
  by_cases h : y = 0
  · simp only [if_pos h]; rfl
  · simp only [if_neg h]
    apply BitVec.eq_of_toInt_eq
    rw [BitVec.toInt_sdiv]
    split
    · next h => rw [h.1, h.2]; decide
    · rw [BitVec.toInt_ofInt]

/-- REM takes the sign of the dividend, and gives the dividend for a zero divisor. -/
theorem remS_eq (x y : Word) : remS x y = if y = 0 then x else x.srem y := by
  unfold remS
  by_cases h : y = 0
  · simp only [if_pos h]
  · simp only [if_neg h]
    apply BitVec.eq_of_toInt_eq
    rw [BitVec.toInt_srem]
    split
    · next h => rw [h.1, h.2]; decide
    · have h1 : x.toInt - x.toInt.tdiv y.toInt * y.toInt = x.toInt.tmod y.toInt := by
        rw [Int.tmod_def, Int.mul_comm]
      have hx := toInt_range x
      have h2 : (x.toInt.tmod y.toInt).natAbs ≤ x.toInt.natAbs := by
        rw [Int.natAbs_tmod]; exact Nat.mod_le _ _
      have h3 : x.toInt < 0 ∨ 0 ≤ x.toInt.tmod y.toInt := by
        by_cases hn : x.toInt < 0
        · exact .inl hn
        · exact .inr (Int.tmod_nonneg _ (by omega))
      have h4 : 0 ≤ x.toInt ∨ x.toInt.tmod y.toInt ≤ 0 := by
        by_cases hn : 0 ≤ x.toInt
        · exact .inl hn
        · exact .inr (by
            have := Int.tmod_nonneg y.toInt (by omega : 0 ≤ -x.toInt)
            rw [Int.neg_tmod] at this
            omega)
      generalize hr : x.toInt.tmod y.toInt = r at *
      rw [h1, toInt_ofInt_range] <;> omega

theorem divU_eq (x y : Word) : divU x y = if y = 0 then BitVec.allOnes 64 else x / y := by
  unfold divU
  split
  · rfl
  · apply BitVec.eq_of_toNat_eq
    simp only [BitVec.toNat_ofNat, BitVec.toNat_udiv]
    exact Nat.mod_eq_of_lt (Nat.lt_of_le_of_lt (Nat.div_le_self _ _) x.isLt)

theorem remU_eq (x y : Word) : remU x y = if y = 0 then x else x % y := by
  unfold remU
  split
  · rfl
  · apply BitVec.eq_of_toNat_eq
    simp only [BitVec.toNat_ofNat, BitVec.toNat_umod]
    exact Nat.mod_eq_of_lt (Nat.lt_of_le_of_lt (Nat.mod_le _ _) x.isLt)

/-- CLZ counts the zero bits above the highest one bit. -/
theorem leadZeros_spec (x : Word) : leadZeros x ≤ 64 ∧ (∀ i < leadZeros x, x.getLsbD (63 - i) = false) ∧
    (leadZeros x < 64 → x.getLsbD (63 - leadZeros x) = true) := by
  unfold leadZeros
  by_cases h : x = 0
  · simp [h]
  · have h0 : x.toNat ≠ 0 := fun hn => h (BitVec.eq_of_toNat_eq (by simpa using hn))
    have hl : x.toNat.log2 < 64 := (Nat.log2_lt h0).2 x.isLt
    simp only [if_neg h]
    refine ⟨by omega, fun i hi => ?_, fun _ => ?_⟩
    · have hlt : x.toNat < 2 ^ (63 - i) :=
        Nat.lt_of_lt_of_le Nat.lt_log2_self (Nat.pow_le_pow_right (by decide) (by omega))
      exact Nat.testBit_lt_two_pow hlt
    · have : 63 - (63 - x.toNat.log2) = x.toNat.log2 := by omega
      rw [this]
      exact Nat.testBit_log2 h0

/-- CTZ counts the zero bits below the lowest one bit. -/
theorem trailZeros_spec (x : Word) : trailZeros x ≤ 64 ∧ (∀ i < trailZeros x, x.getLsbD i = false) ∧
    (trailZeros x < 64 → x.getLsbD (trailZeros x) = true) := by
  unfold trailZeros
  cases h : (List.range 64).find? (fun i => x.getLsbD i) with
  | none =>
    simp only [List.find?_eq_none, List.mem_range] at h
    simpa using h
  | some n =>
    obtain ⟨h1, h2, h3⟩ := List.find?_range_eq_some.1 h
    simp only [Option.getD_some]
    refine ⟨by simp at h2; omega, fun i hi => by simpa using h3 i hi, fun _ => h1⟩

/-- A condition holds as its rule says. -/
theorem condHolds_iff (c : Cond) (x y : Word) : condHolds c x y = true ↔ CondSays c x y := by
  cases c <;> simp [condHolds, CondSays, BitVec.slt, BitVec.sle, BitVec.ult, BitVec.ule]

/-- A field above the bits of another: their OR is their sum. -/
theorem or_field (a k b : Nat) (h : b < 2 ^ k) : a * 2 ^ k ||| b = a * 2 ^ k + b := by
  rw [Nat.mul_comm]; exact (Nat.two_pow_add_eq_or_of_lt h a).symm

/-- The value of TADR (09 R206). -/
theorem tadrVal_eq (x : Word) (imm : BitVec 12) :
    tadrVal x imm = BitVec.ofNat 64 (2 * 2 ^ 60 + x.toNat % 2 ^ 10 * 2 ^ 50 + 255 * 2 ^ 42 + imm.toNat) := by
  have h1 := imm.isLt
  have hx : x.toNat &&& 1023 = x.toNat % 2 ^ 10 := Nat.and_two_pow_sub_one_eq_mod x.toNat 10
  apply BitVec.eq_of_toNat_eq
  have hm : x.toNat % 2 ^ 10 < 2 ^ 10 := Nat.mod_lt _ (by decide)
  simp only [tadrVal, BitVec.toNat_or, BitVec.toNat_shiftLeft, BitVec.toNat_and, BitVec.toNat_ofNat, BitVec.toNat_setWidth, Nat.shiftLeft_eq,
    Nat.reduceMod, Nat.reducePow, Nat.reduceMul, hx] at *
  generalize x.toNat % 1024 = a at *
  have e1 : (2305843009213693952 ||| a * 1125899906842624 % 18446744073709551616) = (2048 + a) * 2 ^ 50 := by
    rw [Nat.mod_eq_of_lt (by omega)]
    have := or_field 2 60 (a * 1125899906842624) (by omega)
    simp at this ⊢; omega
  have e2 : (2048 + a) * 2 ^ 50 ||| 1121501860331520 = ((2048 + a) * 256 + 255) * 2 ^ 42 := by
    rw [or_field (2048 + a) 50 1121501860331520 (by omega)]
    ring
  have e3 : ((2048 + a) * 256 + 255) * 2 ^ 42 ||| imm.toNat = ((2048 + a) * 256 + 255) * 2 ^ 42 + imm.toNat := or_field _ _ _ (by omega)
  rw [Nat.mod_eq_of_lt (by omega : imm.toNat < 18446744073709551616), e1, e2, e3]
  omega

theorem liHbmVal_eq (p : BitVec 48) : liHbmVal p = BitVec.ofNat 64 (4 * 2 ^ 60 + p.toNat) := by
  have h1 := p.isLt
  have e1 : 4 * 2 ^ 60 ||| p.toNat = 4 * 2 ^ 60 + p.toNat := or_field _ _ _ (by omega)
  apply BitVec.eq_of_toNat_eq
  simp only [liHbmVal, BitVec.toNat_or, BitVec.toNat_shiftLeft, BitVec.toNat_ofNat, BitVec.toNat_setWidth, Nat.shiftLeft_eq,
    Nat.reduceMod, Nat.reducePow, Nat.reduceMul] at *
  have h2 : p.toNat < 18446744073709551616 := Nat.lt_trans h1 (by decide)
  rw [Nat.mod_eq_of_lt h2, e1]
  exact (Nat.mod_eq_of_lt (by omega)).symm

theorem liPeerVal_eq (p : BitVec 40) :
    liPeerVal p = BitVec.ofNat 64 (2 * 2 ^ 60 + p.toNat / 2 ^ 22 * 2 ^ 42 + p.toNat % 2 ^ 22) := by
  have h1 := p.isLt
  apply BitVec.eq_of_toNat_eq
  have hm : p.toNat % 2 ^ 22 < 2 ^ 22 := Nat.mod_lt _ (by decide)
  have hd : p.toNat / 2 ^ 22 < 2 ^ 18 := by omega
  simp only [liPeerVal, BitVec.toNat_or, BitVec.toNat_shiftLeft, BitVec.toNat_ofNat, BitVec.toNat_setWidth, Nat.shiftLeft_eq,
    BitVec.extractLsb'_toNat, Nat.shiftRight_eq_div_pow, Nat.reduceMod, Nat.reducePow, Nat.reduceMul, Nat.div_one] at *
  generalize p.toNat / 4194304 = a at *
  generalize p.toNat % 4194304 = c at *
  have e1 : (2305843009213693952 ||| a * 4398046511104) = (524288 + a) * 2 ^ 42 := by
    have := or_field 2 60 (a * 4398046511104) (by omega)
    simp at this ⊢; omega
  have e3 : (524288 + a) * 2 ^ 42 ||| c = (524288 + a) * 2 ^ 42 + c := or_field _ _ _ (by omega)
  rw [Nat.mod_eq_of_lt (by omega : a < 262144), Nat.mod_eq_of_lt (by omega : a < 18446744073709551616),
    Nat.mod_eq_of_lt (by omega : a * 4398046511104 < 18446744073709551616), Nat.mod_eq_of_lt (by omega : c < 18446744073709551616), e1, e3]
  omega

theorem liSignedVal_eq (p : BitVec 51) : liSignedVal p = BitVec.ofInt 64 p.toInt := by
  apply BitVec.eq_of_toInt_eq
  have h1 := BitVec.toInt_lt (x := p)
  have h2 := BitVec.le_toInt (x := p)
  simp at h1 h2
  rw [liSignedVal, BitVec.toInt_signExtend_of_le (by decide), toInt_ofInt_range] <;> omega

theorem liShiftedVal_eq (p : BitVec 51) : liShiftedVal p = BitVec.ofInt 64 (p.toInt * 2 ^ 13) := by
  have h := liSignedVal_eq p
  simp only [liSignedVal] at h
  rw [liShiftedVal, h, shl_eq]
  apply BitVec.eq_of_toNat_eq
  simp only [BitVec.toNat_ofNat, BitVec.toNat_ofInt]
  omega

end Sys2Proof.Machine
end

