-- ==== Sys2Proof/Laws/Step.lean ====
section
/-! SUPPORT. What one step does: the order of what is due, a single move, a free choice; and what the words of a bundle leave. -/

namespace Sys2Proof.Machine

/-! ### Moves -/

/-- With power, what is due comes first. -/
theorem step_due {s : State} {i : Instr} {r : List Instr} (hp : s.dev.power = .on) (hd : s.due = i :: r) :
    step s = exec i { s with due := r } := by
  unfold step State.stepOnce
  simp only [hp, hd]
  simp

/-- With nothing due a step makes a move. -/
theorem step_pick {s : State} (hp : s.dev.power = .on) (hd : s.due = []) : step s = s.pick := by
  unfold step State.stepOnce
  simp only [hp, hd]
  simp

/-- A single move is made as it is. -/
theorem step_single {s : State} {m : Move} (hp : s.dev.power = .on) (hd : s.due = []) (hm : s.moves = [m]) :
    step s = s.makeMove m := by
  rw [step_pick hp hd, State.pick, hm]

/-- Without power nothing but a reset or a loss of power has an effect. -/
theorem step_unpowered {s : State} (hp : s.dev.power ≠ .on) : step s = s.unpowered := by
  unfold step State.stepOnce
  rw [if_pos hp]

/-! ### Changing the current core -/

theorem State.modCore_id {s : State} {u : CoreId} {f : Core → Core} (h : f s.cores[u] = s.cores[u]) : s.modCore u f = s := by
  have e : s.cores.set u.val s.cores[u] u.isLt = s.cores := by
    ext i hi
    simp
  unfold State.modCore vmod vset
  rw [h, e]

/-- Giving a core the pending marks it has changes nothing. -/
theorem State.modCur_pend (s : State) : s.modCur (fun c => { c with pend := s.c.pend }) = s := State.modCore_id rfl

/-! ### The words of a bundle -/

/-- A word that issues keeps what came before it pending, and adds its own. -/
theorem State.runWord_issued {s t : State} {before : List Pend} {i : Instr}
    (h : exec i (s.modCur (fun c => { c with pend := before })) = .next t) (hi : t.issue = .issued) :
    s.runWord before i = t.modCur (fun c => { c with pend := s.c.pend ++ c.pend.drop before.length }) := by
  unfold State.runWord
  dsimp only
  rw [h]
  simp only [nextOr, hi]

/-- A word that traps or waits leaves what its meaning says. -/
theorem State.runWord_other {s t : State} {before : List Pend} {i : Instr}
    (h : exec i (s.modCur (fun c => { c with pend := before })) = .next t) (hi : t.issue ≠ .issued) : s.runWord before i = t := by
  unfold State.runWord
  dsimp only
  rw [h]
  simp only [nextOr]

/-- The first word of a bundle issues; that of an emulated instruction has its other effects too. -/
theorem Run.word_issued {core : CoreId} {r : Run} {i : Instr} {t : State} {before : List Pend} (hr : r.traps = []) (he : isEmulation i = false)
    (h : exec i (r.st.modCur (fun c => { c with pend := before })) = .next t) (hi : t.issue = .issued) :
    Run.word before core r i = { r with st := t.modCur (fun c => { c with pend := r.st.c.pend ++ c.pend.drop before.length }) } := by
  unfold Run.word
  dsimp only
  rw [r.st.runWord_issued h hi, hr]
  simp only [List.any_nil]
  have e : (t.modCur (fun c => { c with pend := r.st.c.pend ++ c.pend.drop before.length })).issue = .issued := hi
  simp [hi, e, he]

/-- A word that traps adds its cause and keeps the state. -/
theorem Run.word_trapped {core : CoreId} {r : Run} {i : Instr} {t : State} {tr : TrapRec} {before : List Pend} (hr : r.traps = [])
    (h : exec i (r.st.modCur (fun c => { c with pend := before })) = .next t) (hi : t.issue = .trapped tr) :
    Run.word before core r i = { r with traps := [(core, tr)] } := by
  unfold Run.word
  dsimp only
  rw [r.st.runWord_other h (by simp [hi]), hr]
  simp [hi]

/-- A word that waits keeps the state; of the freezes of a bundle the first counts, and each park is kept. -/
theorem Run.word_stalled {core : CoreId} {r : Run} {i : Instr} {t : State} {before : List Pend} (hr : r.traps = [])
    (h : exec i (r.st.modCur (fun c => { c with pend := before })) = .next t) (hi : t.issue = .stalled) :
    Run.word before core r i = r.held core t.cores[core] := by
  unfold Run.word
  dsimp only
  rw [r.st.runWord_other h (by simp [hi]), hr]
  simp [hi]

end Sys2Proof.Machine
end

