-- ==== Sys2Proof/Laws/Vectors.lean ====
section
/-! SUPPORT. Elements of vector registers: what a register made of elements holds, and the flags of many elements. -/

namespace Sys2Proof.Machine

/-- The number that a list of elements makes, element 0 lowest. -/
theorem packed_elem (w : Nat) (es : List Nat) (j : Nat) :
    es.foldr (fun x acc => x % 2 ^ w + 2 ^ w * acc) 0 / 2 ^ (w * j) % 2 ^ w = es.getD j 0 % 2 ^ w := by
  induction es generalizing j with
  | nil => simp
  | cons e es ih =>
    have hp : 0 < 2 ^ w := Nat.two_pow_pos w
    cases j with
    | zero => simp [Nat.add_mul_mod_self_left]
    | succ k =>
      have h1 : 2 ^ (w * (k + 1)) = 2 ^ w * 2 ^ (w * k) := by rw [Nat.mul_succ, Nat.pow_add, Nat.mul_comm]
      rw [List.foldr_cons, h1, ← Nat.div_div_eq_div_mul, Nat.add_mul_div_left _ _ hp, Nat.div_eq_of_lt (Nat.mod_lt _ hp)]
      simpa using ih k

/-- An element of a register made of elements is that element; above them it is 0 (10 R209). -/
theorem elem_ofElems (w : Nat) (es : List Nat) (j : Nat) (h : w * (j + 1) ≤ 1024) :
    elem (ofElems w es) w j = es.getD j 0 % 2 ^ w := by
  have hm : ∀ x : Nat, x % 2 ^ 1024 / 2 ^ (w * j) % 2 ^ w = x / 2 ^ (w * j) % 2 ^ w := by
    intro x
    have h2 : w * j + w ≤ 1024 := by rw [← Nat.mul_succ]; exact h
    apply Nat.eq_of_testBit_eq
    intro i
    simp only [Nat.testBit_mod_two_pow, Nat.testBit_div_two_pow]
    by_cases hi : i < w <;> simp [hi]
    intro _; omega
  simp only [elem, ofElems, BitVec.toNat_ofNat, hm, packed_elem]

/-- The elements of a register lie within its 1,024 bits. -/
theorem elem_inside {w j : Nat} (h : j < 1024 / w) : w * (j + 1) ≤ 1024 :=
  Nat.le_trans (Nat.mul_le_mul_left w h) (Nat.mul_div_le 1024 w)

/-- A register made of a function of its element numbers. -/
theorem elem_ofElems_range (w n : Nat) (f : Nat → Nat) (j : Nat) (h : j < 1024 / w) :
    elem (ofElems w ((List.range n).map f)) w j = (if j < n then f j else 0) % 2 ^ w := by
  rw [elem_ofElems w _ j (elem_inside h)]
  by_cases hj : j < n <;> simp [List.getD_eq_getElem?_getD, hj]

theorem orFlags_bit (es : List FRes) (a : BitVec 6) (i : Nat) :
    (es.foldl (fun a r => a ||| r.2) a).getLsbD i = true ↔ a.getLsbD i = true ∨ ∃ r ∈ es, r.2.getLsbD i = true := by
  induction es generalizing a with
  | nil => simp
  | cons r es ih => simp [ih, or_assoc]

/-- A flag of many elements is set where some element sets it. -/
theorem gather_flags (w : Nat) (es : List FRes) (i : Nat) :
    (gather w es).2.getLsbD i = true ↔ ∃ r ∈ es, r.2.getLsbD i = true := by
  simp [gather, orFlags_bit]

theorem elems_length (x : Vec) (w : Nat) : (elems x w).length = 1024 / w := by simp [elems]

theorem elems_map (x : Vec) (w : Nat) (f : Nat → FRes) : (elems x w).map f = (List.range (1024 / w)).map (fun j => f (elem x w j)) := by
  simp [elems]

theorem elems_zipWith (x y : Vec) (w : Nat) (f : Nat → Nat → FRes) :
    List.zipWith f (elems x w) (elems y w) = (List.range (1024 / w)).map (fun j => f (elem x w j) (elem y w j)) := by
  simp [elems, List.zipWith_map_left, List.zipWith_map_right]

/-- The elements and flags of an elementwise result. -/
theorem gather_range (w n : Nat) (f : Nat → FRes) :
    (∀ j < 1024 / w, elem (gather w ((List.range n).map f)).1 w j = (if j < n then (f j).1 else 0) % 2 ^ w) ∧
      ∀ i, (gather w ((List.range n).map f)).2.getLsbD i = true ↔ ∃ j < n, (f j).2.getLsbD i = true := by
  refine ⟨fun j hj => ?_, fun i => ?_⟩
  · have h := elem_ofElems_range w n (fun j => (f j).1) j hj
    simpa [gather, Function.comp_def] using h
  · simp [gather_flags]

theorem gather_map2 (w : Nat) (f : Nat → Nat → FRes) (x y : Vec) :
    IsMap2 w f x y (gather w (List.zipWith f (elems x w) (elems y w))).1 (gather w (List.zipWith f (elems x w) (elems y w))).2 := by
  rw [elems_zipWith]
  obtain ⟨h1, h2⟩ := gather_range w (1024 / w) (fun j => f (elem x w j) (elem y w j))
  exact ⟨fun j hj => by simpa [hj] using h1 j hj, fun i _ => h2 i⟩

theorem gather_map1 (w : Nat) (f : Nat → FRes) (x : Vec) :
    IsMap1 w f x (gather w ((elems x w).map f)).1 (gather w ((elems x w).map f)).2 := by
  rw [elems_map]
  obtain ⟨h1, h2⟩ := gather_range w (1024 / w) (fun j => f (elem x w j))
  exact ⟨fun j hj => by simpa [hj] using h1 j hj, fun i _ => h2 i⟩

/-! ### The shapes of vector words -/

theorem vecWord_ready {g : Guard} {reads : List RegId} {d : Reg} {n : Nat} {r : Vec × BitVec 6} {s : State}
    (hg : s.guardOn g = true) (h : s.Ready reads (wV d (some n))) :
    vecWord g reads d n r s = .next (s.result (.vector d r.1) n r.2) := aluWord_ready hg h

/-- A word that maps two registers' elements. -/
theorem vecMap2_ready {g : Guard} {d a b : Reg} {w n : Nat} {f : Nat → Nat → FRes} {s : State}
    (hg : s.guardOn g = true) (h : s.Ready [.vector a, .vector b] (wV d (some n))) :
    ∃ v fl, IsMap2 w f (s.rv a) (s.rv b) v fl ∧ vecMap2 g d a b w n f s = .next (s.result (.vector d v) n fl) :=
  ⟨_, _, gather_map2 w f _ _, vecWord_ready hg h⟩

/-- A word that maps a register's elements. -/
theorem vecMap1_ready {g : Guard} {d a : Reg} {w n : Nat} {f : Nat → FRes} {s : State}
    (hg : s.guardOn g = true) (h : s.Ready [.vector a] (wV d (some n))) :
    ∃ v fl, IsMap1 w f (s.rv a) v fl ∧ vecMap1 g d a w n f s = .next (s.result (.vector d v) n fl) :=
  ⟨_, _, gather_map1 w f _, vecWord_ready hg h⟩

end Sys2Proof.Machine
end

