-- ==== Sys2Proof/Tests/Slice0.lean ====
section
/-! SUPPORT. Tests: the encodings that the well-formedness check refuses, words of the spec that decode as the spec writes them, and for each
statement of Obligations states and operands that meet its hypotheses, clause by clause. -/

set_option maxRecDepth 100000

namespace Sys2Proof.Tests

open Sys2Proof Sys2Proof.Machine

/-! ### States of the tests -/

/-- Slice 0 of territory 0 is about to issue a bundle of zeros on core 0 of tile 0, with a frame of 64 KiB. -/
def demo : State := State.reset.withFetchWord 32 0

/-- `demo` with an update of the issuing core. -/
def demoCore (f : Core → Core) : State := demo.modCur f

/-- `demo` with an update of tile 0. -/
def demoTile (f : Tile → Tile) : State := demo.modTile 0 f

/-- `demo` with an update of slice 0. -/
def demoSlice (f : Slice → Slice) : State := demo.modSlice 0 f

/-- `demo` with an update of territory 0. -/
def demoTerr (f : Terr → Terr) : State := demo.modTerr 0 f

/-- `demo` with an address in s1. -/
def demoAt (a : Word) : State := demoCore (fun c => c.setS 1 a)

/-- A code object of three bundles. -/
def demoCode : State := { demo with codes := demo.codes.map (fun o => { o with body := { o.body with words := [0, 0, 0] } }) }

/-- An attached follower. -/
def follower : State := demoCore (fun c => { c with pos := 1 })

def always : Guard := { neg := false, p := 0 }

/-- Nothing of a core is pending, in flight or on its way to a bank. -/
def Idle (c : Core) : Prop := c.pend = [] ∧ c.flight = [] ∧ c.acc = []

/-- An idle core is ready for every word. -/
theorem ready_of_empty {s : State} (h : Idle s.c) (r : List RegId) (w : List (RegId × Option Nat)) : s.Ready r w := by
  obtain ⟨hp, hf, ha⟩ := h
  refine ⟨fun x _ => ?_, fun d _ => ?_⟩
  · simp [Core.isPend, hp]
  · unfold Core.collides Core.isPend Core.clash
    rw [hp, hf, ha]
    cases d.2 <;> rfl

theorem demo_ready (r : List RegId) (w : List (RegId × Option Nat)) : demo.Ready r w :=
  ready_of_empty (by unfold Idle; decide) r w

theorem demoAt_ready (a : Word) (r : List RegId) (w : List (RegId × Option Nat)) : (demoAt a).Ready r w := by
  have h : (demoAt a).c = { demo.c with sreg := vset demo.c.sreg 1 a } := State.modCur_c demo _
  exact ready_of_empty (by rw [h]; exact (by unfold Idle; decide : Idle demo.c)) r w

theorem follower_ready (r : List RegId) (w : List (RegId × Option Nat)) : follower.Ready r w :=
  ready_of_empty (by unfold Idle; decide) r w

theorem demo_inv : demo.Inv := by unfold State.Inv; decide

theorem reset_inv : State.reset.Inv := by unfold State.Inv; decide

/-- Every tile but tile 0 is as reset leaves it. -/
theorem demo_tile {t : TileId} (h : t ≠ 0) : demo.tiles[t] = { Tile.reset with fenced := fusedOut t.val } := by
  have h1 : demo.tiles = (State.reset.modTile 0 (fun t => { t with owner := some 0, lastFid := some 0, nextSid := 1, resident := [0] })).tiles := rfl
  rw [h1, State.modTile_ne _ _ h]
  simp [State.reset]

/-- Territory 0 has one member. -/
theorem demo_hole {l : Nat} (h : l ≠ 0) : demo.memberAt 0 l = none := by
  refine List.find?_eq_none.2 (fun t _ => ?_)
  by_cases ht : t = 0
  · subst ht
    have h0 : (demo.tiles[(0 : TileId)]).lidx = 0 := by decide
    simp only [Bool.and_eq_true, beq_iff_eq, not_and]
    intro _ hl
    exact h (hl.symm.trans h0)
  · rw [demo_tile ht]
    simp [Tile.isMember, Tile.reset]

/-- A test that only tile 0 passes finds it alone. -/
theorem filter_zero (p : TileId → Bool) (h0 : p 0 = true) (h : ∀ t, t ≠ 0 → p t = false) : allTiles.filter p = [0] := by
  have h1 : allTiles = 0 :: (List.finRange 383).map Fin.succ := by unfold allTiles; rw [List.finRange_succ]
  rw [h1, List.filter_cons_of_pos h0, List.filter_eq_nil_iff.2]
  intro t ht
  obtain ⟨k, -, rfl⟩ := List.mem_map.1 ht
  rw [h _ (Fin.succ_ne_zero k)]
  decide

theorem demo_members : demo.members 0 = [0] :=
  filter_zero _ (by decide) (fun t ht => by rw [demo_tile ht]; rfl)

/-! ### The well-formedness check refuses -/

theorem test_wf_loop : (Instr.loop false 0 4 0).wf = false := by decide
theorem test_wf_loopr : (Instr.loopr false 0 1 0).wf = false := by decide
theorem test_wf_lanes : (Instr.vlds false 1 2 3 .x8).wf = false ∧ (Instr.vsts false 1 2 3 .x8).wf = false ∧
    (Instr.vgath false 1 2 3 .x8).wf = false ∧ (Instr.vscat false 1 2 3 .x8).wf = false := by decide
theorem test_wf_atom : (Instr.atom false 1 2 3 .min .f32).wf = false ∧ (Instr.atomp false 1 2 3 .xor .f32).wf = false := by decide
theorem test_wf_arith : (Instr.vadd always 1 2 3 .e4m3).wf = false ∧ (Instr.vsub always 1 2 3 .i4).wf = false ∧
    (Instr.vmul always 1 2 3 .e5m2).wf = false ∧ (Instr.vmin always 1 2 3 .i4).wf = false ∧ (Instr.vmax always 1 2 3 .i4).wf = false ∧
    (Instr.vcmp always 1 2 3 .e4m3 .eq).wf = false := by decide
theorem test_wf_floats : (Instr.vdiv always 1 2 3 .i32).wf = false ∧ (Instr.vminn always 1 2 3 .i32).wf = false ∧
    (Instr.vmaxn always 1 2 3 .n8).wf = false ∧ (Instr.vsqrt always 1 2 .i32).wf = false ∧ (Instr.vrcp always 1 2 .i8).wf = false ∧
    (Instr.vrsq always 1 2 .e4m3).wf = false ∧ (Instr.vexp2 always 1 2 .n16).wf = false ∧ (Instr.vlog2 always 1 2 .i4).wf = false := by decide
theorem test_wf_signed : (Instr.vabs always 1 2 .n32).wf = false ∧ (Instr.vneg always 1 2 .n8).wf = false ∧
    (Instr.vclamp always 1 2 3 .n16).wf = false := by decide
theorem test_wf_shifts : (Instr.vshl always 1 2 3 .f32).wf = false ∧ (Instr.vshr always 1 2 3 .i8).wf = false ∧
    (Instr.vsra always 1 2 3 .n8).wf = false := by decide
theorem test_wf_vcvt : (Instr.vcvt always 1 2 .f32 .f32 .rne false).wf = false ∧ (Instr.vcvt always 1 2 .i8 .i16 .rz false).wf = false ∧
    (Instr.vcvt always 1 2 .i32 .i8 .rne true).wf = false ∧ (Instr.vcvtSr always 1 2 3 .f16 .f16 false).wf = false := by decide
theorem test_wf_lanes_ops : (Instr.vredadd always 1 2 31 .i8).wf = false ∧ (Instr.vredmax always 1 2 31 .f16).wf = false ∧
    (Instr.vredmin always 1 2 31 .n16).wf = false ∧ (Instr.vperm always 1 2 3 .f32).wf = false ∧ (Instr.viota always 1 .f32).wf = false := by decide
theorem test_wf_narrow : (Instr.vsat always 1 2 8 .i8).wf = false ∧ (Instr.vpack always 1 2 3 .i32).wf = false ∧
    (Instr.vunpk always 1 2 true .n32).wf = false ∧ (Instr.vqmx always 1 2 .f16).wf = false ∧ (Instr.vdqmx always 1 2 .i4).wf = false := by decide
theorem test_wf_engines : (Instr.rwait false 0 257 0).wf = false ∧ (Instr.osetBind false 0 1 true).wf = false := by decide

/-! ### Words written from the encoding tables of 08 R157 to R166 -/

/-- A guard of p6, inverted. -/
def guarded : Guard := { neg := true, p := 6 }

/-- Each C-word with its switch marker, beside an A-word NOP: the match word of the opcode table with operands in its fields. -/
theorem test_decode_C_0 : decodeBundle 0x40000000 = .pair (.nopC true) (.nopA { neg := false, p := 0 }) ∧
    decodeBundle 0x40040000 = .pair (.ret true) (.nopA { neg := false, p := 0 }) ∧
    decodeBundle 0x40080000 = .pair (.rett true) (.nopA { neg := false, p := 0 }) ∧
    decodeBundle 0x400C0000 = .pair (.upret true) (.nopA { neg := false, p := 0 }) ∧
    decodeBundle 0x40100000 = .pair (.exit true) (.nopA { neg := false, p := 0 }) ∧
    decodeBundle 0x40140000 = .pair (.yld true) (.nopA { neg := false, p := 0 }) ∧
    decodeBundle 0x401A0001 = .pair (.trap true 0x20001) (.nopA { neg := false, p := 0 }) ∧
    decodeBundle 0x401E0001 = .pair (.bkpt true 0x20001) (.nopA { neg := false, p := 0 }) ∧
    decodeBundle 0x40200002 = .pair (.fence true .y) (.nopA { neg := false, p := 0 }) ∧
    decodeBundle 0x40240002 = .pair (.fencesc true .y) (.nopA { neg := false, p := 0 }) ∧
    decodeBundle 0x41800001 = .pair (.br true 0x800001) (.nopA { neg := false, p := 0 }) ∧
    decodeBundle 0x42D80001 = .pair (.brp true true 5 0x80001) (.nopA { neg := false, p := 0 }) ∧
    decodeBundle 0x43800001 = .pair (.call true 0x800001) (.nopA { neg := false, p := 0 }) ∧
    decodeBundle 0x44800001 = .pair (.detach true 0x800001) (.nopA { neg := false, p := 0 }) ∧
    decodeBundle 0x45800001 = .pair (.attach true 0x800001) (.nopA { neg := false, p := 0 }) := by decide
/-- Each C-word with its switch marker, beside an A-word NOP: the match word of the opcode table with operands in its fields. -/
theorem test_decode_C_1 : decodeBundle 0x46A00601 = .pair (.loop true 2 0x801 0x201) (.nopA { neg := false, p := 0 }) ∧
    decodeBundle 0x47A40201 = .pair (.loopr true 2 18 0x201) (.nopA { neg := false, p := 0 }) ∧
    decodeBundle 0x48048000 = .pair (.jmp true 18) (.nopA { neg := false, p := 0 }) ∧
    decodeBundle 0x48048001 = .pair (.callr true 18) (.nopA { neg := false, p := 0 }) ∧
    decodeBundle 0x48448002 = .pair (.mvtl true 8 18) (.nopA { neg := false, p := 0 }) ∧
    decodeBundle 0x482A0003 = .pair (.mvfl true 5 8) (.nopA { neg := false, p := 0 }) ∧
    decodeBundle 0x482A4004 = .pair (.mfs true 5 .tcause) (.nopA { neg := false, p := 0 }) ∧
    decodeBundle 0x484C8005 = .pair (.mts true .tcause 18) (.nopA { neg := false, p := 0 }) ∧
    decodeBundle 0x482FC006 = .pair (.disc true 5 31) (.nopA { neg := false, p := 0 }) ∧
    decodeBundle 0x48280007 = .pair (.cycle true 5) (.nopA { neg := false, p := 0 }) ∧
    decodeBundle 0x4804B608 = .pair (.seal true 18 27) (.nopA { neg := false, p := 0 }) ∧
    decodeBundle 0x482C8009 = .pair (.spawn true 5 18) (.nopA { neg := false, p := 0 }) ∧
    decodeBundle 0x492CAC01 = .pair (.ld true 5 18 .n32 0x401) (.nopA { neg := false, p := 0 }) ∧
    decodeBundle 0x4A2CA401 = .pair (.st true 5 18 .i32 0x401) (.nopA { neg := false, p := 0 }) ∧
    decodeBundle 0x4B2C9D01 = .pair (.lda true 5 18 .n16 .y 0x101) (.nopA { neg := false, p := 0 }) := by decide
/-- Each C-word with its switch marker, beside an A-word NOP: the match word of the opcode table with operands in its fields. -/
theorem test_decode_C_2 : decodeBundle 0x4C2CAD01 = .pair (.stl true 5 18 .n32 .y 0x101) (.nopA { neg := false, p := 0 }) ∧
    decodeBundle 0x4D2CA401 = .pair (.ldp true 5 18 .i32 0x401) (.nopA { neg := false, p := 0 }) ∧
    decodeBundle 0x4E2C9C01 = .pair (.stp true 5 18 .n16 0x401) (.nopA { neg := false, p := 0 }) ∧
    decodeBundle 0x4F2C8401 = .pair (.vld true 5 18 0x401) (.nopA { neg := false, p := 0 }) ∧
    decodeBundle 0x502C8401 = .pair (.vst true 5 18 0x401) (.nopA { neg := false, p := 0 }) ∧
    decodeBundle 0x512C8401 = .pair (.vldp true 5 18 0x401) (.nopA { neg := false, p := 0 }) ∧
    decodeBundle 0x522C8401 = .pair (.vstp true 5 18 0x401) (.nopA { neg := false, p := 0 }) ∧
    decodeBundle 0x532CB700 = .pair (.vlds true 5 18 27 .i32) (.nopA { neg := false, p := 0 }) ∧
    decodeBundle 0x532CB6C1 = .pair (.vsts true 5 18 27 .n16) (.nopA { neg := false, p := 0 }) ∧
    decodeBundle 0x532CB742 = .pair (.vgath true 5 18 27 .n32) (.nopA { neg := false, p := 0 }) ∧
    decodeBundle 0x532CB703 = .pair (.vscat true 5 18 27 .i32) (.nopA { neg := false, p := 0 }) ∧
    decodeBundle 0x542CB7D0 = .pair (.atom true 5 18 27 .cas .n32) (.nopA { neg := false, p := 0 }) ∧
    decodeBundle 0x552CB7D0 = .pair (.atomp true 5 18 27 .cas .n32) (.nopA { neg := false, p := 0 }) ∧
    decodeBundle 0x560000C0 = .pair (.bar true 3) (.nopA { neg := false, p := 0 }) ∧
    decodeBundle 0x562800C1 = .pair (.barq true 5 3) (.nopA { neg := false, p := 0 }) := by decide
/-- Each C-word with its switch marker, beside an A-word NOP: the match word of the opcode table with operands in its fields. -/
theorem test_decode_C_3 : decodeBundle 0x562C8082 = .pair (.vote true 5 18 .max) (.nopA { neg := false, p := 0 }) ∧
    decodeBundle 0x56049E03 = .pair (.rsub true 18 15) (.nopA { neg := false, p := 0 }) ∧
    decodeBundle 0x56281E04 = .pair (.rget true 5 15) (.nopA { neg := false, p := 0 }) ∧
    decodeBundle 0x56001E05 = .pair (.rput true 15) (.nopA { neg := false, p := 0 }) ∧
    decodeBundle 0x56001E06 = .pair (.rrel true 15) (.nopA { neg := false, p := 0 }) ∧
    decodeBundle 0x57E3319C = .pair (.barcfg true 3 17 9 17 9 3) (.nopA { neg := false, p := 0 }) ∧
    decodeBundle 0x5804B600 = .pair (.msend true 18 27) (.nopA { neg := false, p := 0 }) ∧
    decodeBundle 0x582CB601 = .pair (.mrecv true 5 18 27) (.nopA { neg := false, p := 0 }) ∧
    decodeBundle 0x58283602 = .pair (.mprobe true 5 27) (.nopA { neg := false, p := 0 }) ∧
    decodeBundle 0x58048003 = .pair (.mcast true 18) (.nopA { neg := false, p := 0 }) ∧
    decodeBundle 0x58048004 = .pair (.mres true 18) (.nopA { neg := false, p := 0 }) := by decide
/-- Each A-word under a guard of p6, inverted, beside a C-word NOP: the match word of the opcode table with operands in its fields. -/
theorem test_decode_A_0 : decodeBundle 0x0380000000000000 = .pair (.nopC false) (.nopA guarded) ∧
    decodeBundle 0x038B2D8100000000 = .pair (.nopC false) (.add guarded 5 18 27) ∧
    decodeBundle 0x038B2D8200000000 = .pair (.nopC false) (.sub guarded 5 18 27) ∧
    decodeBundle 0x038B2D8300000000 = .pair (.nopC false) (.mul guarded 5 18 27) ∧
    decodeBundle 0x038B2D8400000000 = .pair (.nopC false) (.mulh guarded 5 18 27) ∧
    decodeBundle 0x038B2D8500000000 = .pair (.nopC false) (.mulhu guarded 5 18 27) ∧
    decodeBundle 0x038B2D8600000000 = .pair (.nopC false) (.div guarded 5 18 27) ∧
    decodeBundle 0x038B2D8700000000 = .pair (.nopC false) (.divu guarded 5 18 27) ∧
    decodeBundle 0x038B2D8800000000 = .pair (.nopC false) (.rem guarded 5 18 27) ∧
    decodeBundle 0x038B2D8900000000 = .pair (.nopC false) (.remu guarded 5 18 27) ∧
    decodeBundle 0x038B2D8A00000000 = .pair (.nopC false) (.and guarded 5 18 27) ∧
    decodeBundle 0x038B2D8B00000000 = .pair (.nopC false) (.or guarded 5 18 27) ∧
    decodeBundle 0x038B2D8C00000000 = .pair (.nopC false) (.xor guarded 5 18 27) ∧
    decodeBundle 0x038B2D8D00000000 = .pair (.nopC false) (.andn guarded 5 18 27) ∧
    decodeBundle 0x038B2D8E00000000 = .pair (.nopC false) (.shl guarded 5 18 27) := by decide
/-- Each A-word under a guard of p6, inverted, beside a C-word NOP: the match word of the opcode table with operands in its fields. -/
theorem test_decode_A_1 : decodeBundle 0x038B2D8F00000000 = .pair (.nopC false) (.shr guarded 5 18 27) ∧
    decodeBundle 0x038B2D9000000000 = .pair (.nopC false) (.sra guarded 5 18 27) ∧
    decodeBundle 0x038B2D9100000000 = .pair (.nopC false) (.rotr guarded 5 18 27) ∧
    decodeBundle 0x038B201200000000 = .pair (.nopC false) (.clz guarded 5 18) ∧
    decodeBundle 0x038B201300000000 = .pair (.nopC false) (.ctz guarded 5 18) ∧
    decodeBundle 0x038B201400000000 = .pair (.nopC false) (.popc guarded 5 18) ∧
    decodeBundle 0x038B2D9500000000 = .pair (.nopC false) (.min guarded 5 18 27) ∧
    decodeBundle 0x038B2D9600000000 = .pair (.nopC false) (.max guarded 5 18 27) ∧
    decodeBundle 0x038B2D9700000000 = .pair (.nopC false) (.minu guarded 5 18 27) ∧
    decodeBundle 0x038B2D9800000000 = .pair (.nopC false) (.maxu guarded 5 18 27) ∧
    decodeBundle 0x038B201900000000 = .pair (.nopC false) (.mov guarded 5 18) ∧
    decodeBundle 0x038B201A00000000 = .pair (.nopC false) (.extb guarded 5 18) ∧
    decodeBundle 0x038B201B00000000 = .pair (.nopC false) (.exth guarded 5 18) ∧
    decodeBundle 0x038B2D9F00000000 = .pair (.nopC false) (.lea guarded 5 18 27 3) ∧
    decodeBundle 0x078A800100000000 = .pair (.nopC false) (.addi guarded 5 0x8001) := by decide
/-- Each A-word under a guard of p6, inverted, beside a C-word NOP: the match word of the opcode table with operands in its fields. -/
theorem test_decode_A_2 : decodeBundle 0x0B8A800100000000 = .pair (.nopC false) (.andi guarded 5 0x8001) ∧
    decodeBundle 0x0F8A800100000000 = .pair (.nopC false) (.ori guarded 5 0x8001) ∧
    decodeBundle 0x138A800100000000 = .pair (.nopC false) (.xori guarded 5 0x8001) ∧
    decodeBundle 0x178A800100000000 = .pair (.nopC false) (.movi guarded 5 0x8001) ∧
    decodeBundle 0x1B8B284000000000 = .pair (.nopC false) (.shli guarded 5 18 33) ∧
    decodeBundle 0x1B8B284100000000 = .pair (.nopC false) (.shri guarded 5 18 33) ∧
    decodeBundle 0x1B8B284200000000 = .pair (.nopC false) (.srai guarded 5 18 33) ∧
    decodeBundle 0x1F9CB6E000000000 = .pair (.nopC false) (.cmp guarded 3 18 27 .leu) ∧
    decodeBundle 0x239C9E0100000000 = .pair (.nopC false) (.cmpi guarded 3 18 .leu 0x201) ∧
    decodeBundle 0x279E200000000000 = .pair (.nopC false) (.pand guarded 3 6 1) ∧
    decodeBundle 0x279E200100000000 = .pair (.nopC false) (.por guarded 3 6 1) ∧
    decodeBundle 0x279E200200000000 = .pair (.nopC false) (.pxor guarded 3 6 1) ∧
    decodeBundle 0x279E000300000000 = .pair (.nopC false) (.pnot guarded 3 6) ∧
    decodeBundle 0x2B8B2DA000000000 = .pair (.nopC false) (.sel guarded 5 18 27 2) ∧
    decodeBundle 0x2F8B280100000000 = .pair (.nopC false) (.tadr guarded 5 18 0x801) := by decide
/-- Each A-word under a guard of p6, inverted, beside a C-word NOP: the match word of the opcode table with operands in its fields. -/
theorem test_decode_A_3 : decodeBundle 0x438B2DC800000000 = .pair (.nopC false) (.vadd guarded 5 18 27 .n8) ∧
    decodeBundle 0x438B2D9100000000 = .pair (.nopC false) (.vsub guarded 5 18 27 .bf16) ∧
    decodeBundle 0x438B2DC200000000 = .pair (.nopC false) (.vmul guarded 5 18 27 .i32) ∧
    decodeBundle 0x438B2D9300000000 = .pair (.nopC false) (.vdiv guarded 5 18 27 .bf16) ∧
    decodeBundle 0x438B2DB400000000 = .pair (.nopC false) (.vmin guarded 5 18 27 .i8) ∧
    decodeBundle 0x438B2D8500000000 = .pair (.nopC false) (.vmax guarded 5 18 27 .f32) ∧
    decodeBundle 0x438B2D9600000000 = .pair (.nopC false) (.vminn guarded 5 18 27 .bf16) ∧
    decodeBundle 0x438B2D9700000000 = .pair (.nopC false) (.vmaxn guarded 5 18 27 .bf16) ∧
    decodeBundle 0x478B201000000000 = .pair (.nopC false) (.vsqrt guarded 5 18 .bf16) ∧
    decodeBundle 0x478B201100000000 = .pair (.nopC false) (.vrcp guarded 5 18 .bf16) ∧
    decodeBundle 0x478B201200000000 = .pair (.nopC false) (.vrsq guarded 5 18 .bf16) ∧
    decodeBundle 0x478B201300000000 = .pair (.nopC false) (.vexp2 guarded 5 18 .bf16) ∧
    decodeBundle 0x478B201400000000 = .pair (.nopC false) (.vlog2 guarded 5 18 .bf16) ∧
    decodeBundle 0x478B200D00000000 = .pair (.nopC false) (.vabs guarded 5 18 .f16) ∧
    decodeBundle 0x478B203E00000000 = .pair (.nopC false) (.vneg guarded 5 18 .i16) := by decide
/-- Each A-word under a guard of p6, inverted, beside a C-word NOP: the match word of the opcode table with operands in its fields. -/
theorem test_decode_A_4 : decodeBundle 0x4B8B2D8000000000 = .pair (.nopC false) (.vand guarded 5 18 27) ∧
    decodeBundle 0x4B8B2D8100000000 = .pair (.nopC false) (.vor guarded 5 18 27) ∧
    decodeBundle 0x4B8B2D8200000000 = .pair (.nopC false) (.vxor guarded 5 18 27) ∧
    decodeBundle 0x4B8B200300000000 = .pair (.nopC false) (.vnot guarded 5 18) ∧
    decodeBundle 0x4B8B2DD400000000 = .pair (.nopC false) (.vshl guarded 5 18 27 .n16) ∧
    decodeBundle 0x4B8B2DDD00000000 = .pair (.nopC false) (.vshr guarded 5 18 27 .n32) ∧
    decodeBundle 0x4B8B2DBE00000000 = .pair (.nopC false) (.vsra guarded 5 18 27 .i16) ∧
    decodeBundle 0x4F8B2DFE00000000 = .pair (.nopC false) (.vfma guarded 5 18 27 31 .bf16) ∧
    decodeBundle 0x538B2DFE00000000 = .pair (.nopC false) (.vfms guarded 5 18 27 31 .bf16) ∧
    decodeBundle 0x578B2DFE00000000 = .pair (.nopC false) (.vfnma guarded 5 18 27 31 .bf16) ∧
    decodeBundle 0x5B8B2DB300000000 = .pair (.nopC false) (.vcmp guarded 5 18 27 .i8 .le) ∧
    decodeBundle 0x5F8B2DFC00000000 = .pair (.nopC false) (.vsel guarded 5 18 27 31) ∧
    decodeBundle 0x638B240500000000 = .pair (.nopC false) (.vcvt guarded 5 18 .e5m2 .f32 .ru true) ∧
    decodeBundle 0x678B2DF400000000 = .pair (.nopC false) (.vcvtSr guarded 5 18 27 .e5m2 .bf16 true) ∧
    decodeBundle 0x6B8B2FC000000000 = .pair (.nopC false) (.vredadd guarded 5 18 31 .i32) := by decide
/-- Each A-word under a guard of p6, inverted, beside a C-word NOP: the match word of the opcode table with operands in its fields. -/
theorem test_decode_A_5 : decodeBundle 0x6B8B2FD900000000 = .pair (.nopC false) (.vredmax guarded 5 18 31 .n32) ∧
    decodeBundle 0x6B8B2F8200000000 = .pair (.nopC false) (.vredmin guarded 5 18 31 .f32) ∧
    decodeBundle 0x6F8B2DD000000000 = .pair (.nopC false) (.vperm guarded 5 18 27 .n16) ∧
    decodeBundle 0x6F8B202100000000 = .pair (.nopC false) (.vbcast guarded 5 18 .e5m2) ∧
    decodeBundle 0x6F8B2D9A00000000 = .pair (.nopC false) (.vslide guarded 5 18 27 .e4m3) ∧
    decodeBundle 0x6F8A004B00000000 = .pair (.nopC false) (.viota guarded 5 .n8) ∧
    decodeBundle 0x6F8B2D8C00000000 = .pair (.nopC false) (.vmovs guarded 5 18 27 .f16) ∧
    decodeBundle 0x6F8B2DAD00000000 = .pair (.nopC false) (.vext guarded 5 18 27 .i4) ∧
    decodeBundle 0x738B2FC000000000 = .pair (.nopC false) (.vsat guarded 5 18 31 .i32) ∧
    decodeBundle 0x738B2D9100000000 = .pair (.nopC false) (.vclamp guarded 5 18 27 .bf16) ∧
    decodeBundle 0x738B2DAA00000000 = .pair (.nopC false) (.vpack guarded 5 18 27 .i4) ∧
    decodeBundle 0x738B20BB00000000 = .pair (.nopC false) (.vunpk guarded 5 18 true .i16) ∧
    decodeBundle 0xC38B201800000000 = .pair (.nopC false) (.vqmx guarded 5 18 .e4m3) ∧
    decodeBundle 0xC38B203100000000 = .pair (.nopC false) (.vdqmx guarded 5 18 .i8) := by decide
/-- Each lone bundle with its switch marker, from the formats of 08 R159 and the operands of 12 R257 to R280. -/
theorem test_decode_lone_0 : decodeBundle 0x00000001C02C0000 = .lone (.liSigned true 5 0x4000000000001) ∧
    decodeBundle 0x00000001C1288000 = .lone (.liHbm true 5 0x800000000001) ∧
    decodeBundle 0x00000001C2280080 = .lone (.liPeer true 5 0x8000000001) ∧
    decodeBundle 0x00000001C32C0000 = .lone (.liShifted true 5 0x4000000000001) ∧
    decodeBundle 0x80000001C4F80000 = .lone (.rwait true 15 0x100 0x80000001) ∧
    decodeBundle 0x0000000FC5025BF8 = .lone (.copy true 18 27 31 15) ∧
    decodeBundle 0x0000000FC5064000 = .lone (.copym true 18 15) ∧
    decodeBundle 0x00008001C5080000 = .lone (.cwait true 0x8001) ∧
    decodeBundle 0x00000000C50C0028 = .lone (.cquery true 5) ∧
    decodeBundle 0x00000005F0024000 = .lone (.mlw true 18 1 2) ∧
    decodeBundle 0x0000000FF0040000 = .lone (.mfmt true 3 3) ∧
    decodeBundle 0x000001FFF00A5BF8 = .lone (.mmul true 18 27 31 7 1 3 true 3) ∧
    decodeBundle 0x00000021F00E4000 = .lone (.mout true 18 33) ∧
    decodeBundle 0x0000100FF0125B00 = .lone (.mdrain true 18 27 7 0x201) ∧
    decodeBundle 0x00000007F0140028 = .lone (.mver true 5 7) := by decide
/-- Each lone bundle with its switch marker, from the formats of 08 R159 and the operands of 12 R257 to R280. -/
theorem test_decode_lone_1 : decodeBundle 0x00000007F0181B00 = .lone (.mzero true 27 7) ∧
    decodeBundle 0x00000007F01C1B00 = .lone (.mwait true 27 7) ∧
    decodeBundle 0x00000101F1024000 = .lone (.opatch true 18 0x101) ∧
    decodeBundle 0x00004003F1040000 = .lone (.oclk true 3 0x1000) ∧
    decodeBundle 0x00000404F10A4000 = .lone (.osetY true 18 0x101) ∧
    decodeBundle 0x00000405F10A4000 = .lone (.osetRes true 18 0x101) ∧
    decodeBundle 0x0000003EF10A4000 = .lone (.osetPort true 18 15) ∧
    decodeBundle 0x0000F03FF1080000 = .lone (.osetBind true 15 15 false) ∧
    decodeBundle 0x0001003FF1080000 = .lone (.osetBind true 15 0 true) ∧
    decodeBundle 0x00000404F10C0028 = .lone (.ogetY true 5 0x101) ∧
    decodeBundle 0x00000405F10C0028 = .lone (.ogetRes true 5 0x101) ∧
    decodeBundle 0x0000003EF10C0028 = .lone (.ogetTap true 5 15) ∧
    decodeBundle 0x0000000FF10C0028 = .lone (.ogetDom true 5 3) ∧
    decodeBundle 0x00000009F1100000 = .lone (.ostep true 9) ∧
    decodeBundle 0x00000009F1164000 = .lone (.orun true 18 9) ∧
    decodeBundle 0x00000009F1180000 = .lone (.ohalt true 9) := by decide
/-- Each lone bundle with its switch marker, from the formats of 08 R159 and the operands of 12 R257 to R280. -/
theorem test_decode_lone_2 : decodeBundle 0x00000000F11E4000 = .lone (.osave true 18) ∧
    decodeBundle 0x00000000F1224000 = .lone (.orst true 18) ∧
    decodeBundle 0x0000000FF1264000 = .lone (.otap true 18 15) ∧
    decodeBundle 0x00000000F2024028 = .lone (.tshape true 5 18) ∧
    decodeBundle 0x00000000F2064028 = .lone (.tmap true 5 18) ∧
    decodeBundle 0x00000000F20A4000 = .lone (.tpress true 18) ∧
    decodeBundle 0x00000001F20E4000 = .lone (.tanchor true 18 true) ∧
    decodeBundle 0x00000000F2100000 = .lone (.tfreeze true) ∧
    decodeBundle 0x00000000F2140000 = .lone (.tthaw true) ∧
    decodeBundle 0x00000000F2180000 = .lone (.tevac true) := by decide

/-- Words that are no instruction (08 R167, R168): an unassigned major, a reserved minor, a reserved code, an unused field that is not zero, an
extension major, an unbinding OSET that names a ring. -/
theorem test_decode_refuses : decodeBundle 0x19000000 = .illegal false ∧ decodeBundle 0x00280000 = .illegal false ∧
    decodeBundle 0x09003000 = .illegal false ∧ decodeBundle 0x00000001 = .illegal false ∧ decodeBundle 0x30000000 = .extension false [.emulation false, .nopA always] ∧
    decodeBundle 0x3000000000000000 = .illegal true ∧ decodeBundle 0xC400000040000000 = .extension false [.emulation true, .nopC true] ∧
    decodeBundle 0x4000002800000000 = .illegal true ∧ decodeBundle 0x0001F03FF1080000 = .illegal false := by decide

/-! ### Hypotheses that are met: A-words -/

theorem witness_ScalarRegisterForms : demo.guardOn always = true ∧ demo.Ready [.scalar 1, .scalar 2] (wS 3 (some 1)) :=
  ⟨by decide, demo_ready _ _⟩
theorem witness_ScalarProductsAndQuotients : demo.guardOn always = true ∧ demo.Ready [.scalar 1, .scalar 2] (wS 3 (some 3)) ∧
    demo.Ready [.scalar 1, .scalar 2] (wS 3 (some 20)) := ⟨by decide, demo_ready _ _, demo_ready _ _⟩
theorem witness_ScalarOneOperandAndImmediateForms : demo.guardOn always = true ∧ demo.Ready [.scalar 1] (wS 0 (some 1)) ∧
    demo.Ready [] (wS 31 (some 1)) ∧ demo.Ready [.scalar 31] (wS 31 (some 1)) :=
  ⟨by decide, demo_ready _ _, demo_ready _ _, demo_ready _ _⟩
theorem witness_ComparisonsAndPredicates : demo.guardOn always = true ∧ demo.Ready [.scalar 1, .scalar 2] (wP 1 (some 1)) ∧
    demo.Ready [.pred 1, .pred 2] (wP 0 (some 1)) ∧ demo.Ready [.scalar 1, .scalar 2, .pred 7] (wS 3 (some 1)) :=
  ⟨by decide, demo_ready _ _, demo_ready _ _, demo_ready _ _⟩
theorem witness_AddressesAndConstants : demo.guardOn always = true ∧ demo.Ready [.scalar 1] (wS 3 (some 1)) ∧
    demo.Ready [] (wS 0 (some 1)) := ⟨by decide, demo_ready _ _, demo_ready _ _⟩
theorem witness_VectorArithmetic : demo.guardOn always = true ∧ demo.Ready [.vector 1, .vector 2] (wV 3 (some 4)) ∧
    ETy.isArithFloat .bf16 = true ∧ demo.Ready [.vector 1, .vector 2] (wV 3 (some 16)) ∧ ETy.isByteInt .n8 = true :=
  ⟨by decide, demo_ready _ _, by decide, demo_ready _ _, by decide⟩
theorem witness_VectorOneOperandForms : demo.guardOn always = true ∧ elemKind .f32 = .flt fF32 ∧ demo.Ready [.vector 1] (wV 3 (some 16)) ∧
    demo.Ready [.vector 1] (wV 3 (some 8)) ∧ demo.Ready [.vector 1] (wV 3 (some 2)) ∧ elemKind .i8 = .int true (elemWidth .i8) :=
  ⟨by decide, rfl, demo_ready _ _, demo_ready _ _, demo_ready _ _, rfl⟩
theorem witness_VectorBitwiseAndShifts : demo.guardOn always = true ∧ demo.Ready [.vector 1, .vector 2] (wV 1 (some 2)) ∧
    demo.Ready [.vector 1, .vector 2, .vector 3] (wV 1 (some 2)) := ⟨by decide, demo_ready _ _, demo_ready _ _⟩
theorem witness_VectorFusedAndCompare : demo.guardOn always = true ∧ demo.Ready [.vector 1, .vector 2, .vector 3] (wV 1 (some 4)) ∧
    demo.Ready [.vector 1, .vector 2] (wV 1 (some 2)) := ⟨by decide, demo_ready _ _, demo_ready _ _⟩
theorem witness_VectorConversions : demo.guardOn always = true ∧ demo.Ready [.vector 1] (wV 3 (some 3)) ∧
    demo.Ready [.vector 1, .scalar 2] (wV 3 (some 3)) := ⟨by decide, demo_ready _ _, demo_ready _ _⟩
theorem witness_VectorNarrowingForms : demo.guardOn always = true ∧ demo.Ready [.vector 1] (wV 3 (some 2)) ∧
    demo.Ready [.vector 1, .vector 2] (wV 3 (some 3)) ∧ ETy.narrow .i4 = true ∧ demo.Ready [.vector 1] (wV 3 (some 6)) :=
  ⟨by decide, demo_ready _ _, demo_ready _ _, by decide, demo_ready _ _⟩
theorem witness_VectorReductionsAndLaneMoves : demo.guardOn always = true ∧ demo.Ready [.vector 1] (wV 3 (some 6)) ∧
    demo.Ready [.vector 1, .vector 2] (wV 3 (some 3)) ∧ demo.Ready [.vector 3, .scalar 1, .scalar 2] (wV 3 (some 2)) ∧
    demo.Ready [.vector 1, .scalar 2] (wS 0 (some 2)) :=
  ⟨by decide, demo_ready _ _, demo_ready _ _, demo_ready _ _, demo_ready _ _⟩
theorem witness_GuardedOffHasNoEffect : guardOf (.add { neg := false, p := 1 } 3 1 2) = some { neg := false, p := 1 } ∧
    demo.guardOn { neg := false, p := 1 } = false ∧ demo.guardOn { neg := true, p := 0 } = false := by decide

/-! ### Hypotheses that are met: control words -/

/-- A handler runs: INH is set, with this code. -/
def inHandler (code : Word) : State := demoCore (fun c => { c with tcause := 0x200#64 ||| code })

def owesDelay : State := demoCore (fun c => { c with delay := some { kind := .jump, target := 0 } })

theorem demo_mayBranch : demo.MayBranch ∧ demoCode.MayBranch := by unfold State.MayBranch; decide

theorem witness_BranchesTransfer : demo.MayBranch ∧ demo.Ready [.scalar 1] [] ∧ demo.Ready [.pred 1] [] :=
  ⟨demo_mayBranch.1, demo_ready _ _, demo_ready _ _⟩
theorem witness_CallsAndReturns : demo.MayBranch ∧ demo.Ready [.scalar 1] [] ∧ demo.c.ras.length < 16 ∧ demo.c.ras = [] ∧ demo.c.spilled = 0 :=
  ⟨demo_mayBranch.1, demo_ready _ _, by decide, by decide, by decide⟩
theorem witness_CallsAndReturns_full :
    let s := demoCore (fun c => { c with ras := List.replicate 15 8 ++ [16], spilled := 239 })
    s.MayBranch ∧ s.c.ras = List.replicate 15 8 ++ [16] ∧ (List.replicate 15 (8 : Word)).length = 15 ∧ s.c.spilled < 240 := by
  unfold State.MayBranch; decide
theorem witness_CallsAndReturns_overflow :
    let s := demoCore (fun c => { c with ras := List.replicate 16 8, spilled := 240 })
    s.MayBranch ∧ 16 ≤ s.c.ras.length ∧ 240 ≤ s.c.spilled := by
  unfold State.MayBranch; decide
theorem witness_CallsAndReturns_refill :
    let s := demoCore (fun c => { c with spilled := 1, rsp := 8 })
    s.MayBranch ∧ s.c.ras = [] ∧ s.c.spilled ≠ 0 := by unfold State.MayBranch; decide
theorem witness_LoopRegisters : demoCode.MayBranch ∧ demoCode.Ready [.scalar 1] (loopWrites 2) ∧
    (demoCode.pcNow + BitVec.ofNat 64 (8 * (2 : BitVec 10).toNat)).toNat < demoCode.codeSize ∧
    demoCode.codeSize ≤ (demoCode.pcNow + BitVec.ofNat 64 (8 * (3 : BitVec 10).toNat)).toNat ∧
    demoCode.Ready [.scalar 1] [(.loopReg 8, some 1)] ∧ demoCode.Ready [] (wS 1 (some 1)) :=
  ⟨demo_mayBranch.2, ready_of_empty (by unfold Idle; decide) _ _, by decide, by decide, ready_of_empty (by unfold Idle; decide) _ _,
    ready_of_empty (by unfold Idle; decide) _ _⟩
theorem witness_WhereControlWordsDoNotTransfer : follower.ownsControl = false ∧ follower.ctl.delay = none ∧
    follower.Ready [.scalar 1, .scalar 2, .pred 1] [] ∧ owesDelay.ctl.delay.isSome = true :=
  ⟨by decide, by decide, follower_ready _ _, by decide⟩
theorem witness_TrapsReturnsAndIllegalWords : demo.ctl.delay = none ∧ demo.ownsControl = true ∧ demo.c.inh = false ∧ (inHandler 0).ctl.delay = none ∧
    (inHandler 0).c.inh = true ∧ (inHandler 0).c.causeCode = 0 ∧ (inHandler 0x31).c.inh = true ∧ (inHandler 0x31).c.causeCode ≠ 0 ∧
    isUpcall (inHandler 0x31).c.causeCode = true ∧ (inHandler 0x06).c.inh = true ∧ (inHandler 0x06).c.causeCode ≠ 0 ∧
    isUpcall (inHandler 0x06).c.causeCode = false := by decide
theorem witness_ExitAndYield : demo.ctl.delay = none ∧ demo.c.det = false ∧ demo.ownsControl = true ∧ demo.sl.left ≠ 0 ∧
    demo.anyDetached = false ∧ follower.ctl.delay = none ∧ follower.c.det = false ∧ follower.ownsControl = false ∧
    (demoSlice (fun x => { x with left := 0 })).sl.left = 0 := by decide
theorem witness_ExitAndYield_detached :
    let s := demoCore (fun c => { c with pos := 1, det := true })
    let l := (demoSlice (fun x => { x with cores := [0, 1] })).modCore 1 (fun c => { c with pos := 1, det := true })
    s.ctl.delay = none ∧ s.c.det = true ∧ l.c.det = false ∧ l.ownsControl = true ∧ l.sl.left ≠ 0 ∧ l.anyDetached = true := by decide
theorem witness_GangsSplitAndMeet :
    let s := demoCore (fun c => { c with pos := 1, det := true })
    demo.ctl.delay = none ∧ demo.ownsControl = true ∧ demo.c.det = false ∧ follower.ctl.delay = none ∧ follower.ownsControl = false ∧
    s.ctl.delay = none ∧ s.c.det = true ∧ (s.pcNow + (0 : BitVec 24).signExtend 64 * 8#64).toNat < s.codeSize ∧
    s.codeSize ≤ (s.pcNow + (1 : BitVec 24).signExtend 64 * 8#64).toNat := by decide
theorem witness_SystemRegisters : demo.Ready [] (wS 1 (some 1)) ∧ demo.Ready [.scalar 1] [(.sys .trapv, some 1)] :=
  ⟨demo_ready _ _, demo_ready _ _⟩
theorem witness_DiscoveryTimeSealSpawn :
    let s := (demoAt 0x4000000000001000#64).modCur (fun c => c.setS 2 0xFFFFFFFF#64)
    demo.Ready [] (wS 1 (some 1)) ∧ s.ownsControl = true ∧ follower.ownsControl = false ∧ parseAddr (s.rs 1) = .hbm 0x1000 ∧
    1 ≤ (s.rs 2).toNat ∧ (s.rs 2).toNat < 2 ^ 32 ∧ s.sealCount < 16 ∧ (demo.rs 2).toNat = 0 :=
  ⟨demo_ready _ _, by decide, by decide, by decide, by decide, by decide, by decide, by decide⟩
/-- An attached follower on core 1 beside a leader on core 0, which parks in its SPAWN or does not; the island runs at nominal. -/
theorem witness_DiscoveryTimeSealSpawn_follower :
    let gang := (demoSlice (fun x => { x with cores := [0, 1] })).modCore 1 (fun _ => { Core.reset with sl := some 0, pos := 1, gsize := 1 })
    let f : State := { gang with cur := 1 }
    let p : State := { gang.modCore 0 (fun c => { c with park := some { why := .spawn 2 0 5, marks := false } }) with cur := 1 }
    f.ownsControl = false ∧ f.clkOf (islandOf f.tile) = 16 ∧ spawnReq f.ctl = none ∧ p.ownsControl = false ∧ spawnReq p.ctl = some 5 ∧
    Idle f.c ∧ Idle p.c := by unfold Idle; decide
theorem witness_DiscoveryTimeSealSpawn_spawn : demo.ownsControl = true ∧ demo.Ready [.scalar 1] (wS 2 none) ∧
    (demoAt 65504).InFrame ((demoAt 65504).rs 1) 65504 32 32 false :=
  ⟨by decide, demo_ready _ _, by unfold State.InFrame; decide⟩

/-! ### Hypotheses that are met: memory words -/

theorem demoAt_inFrame : (demoAt 65528).InFrame ((demoAt 65528).rs 1 + BitVec.ofInt 64 ((0 : BitVec 11).toInt * 8)) 65528 8 8 true ∧
    (demoAt 65408).InFrame ((demoAt 65408).rs 1 + BitVec.ofInt 64 ((0 : BitVec 11).toInt * 128)) 65408 128 128 true ∧
    (demoAt 65528).InFrame ((demoAt 65528).rs 1 + BitVec.ofInt 64 ((0 : BitVec 11).toInt * 8)) 65528 8 8 false ∧
    (demoAt 65408).InFrame ((demoAt 65408).rs 1 + BitVec.ofInt 64 ((0 : BitVec 11).toInt * 128)) 65408 128 128 false := by
  unfold State.InFrame; decide

/-- The lanes of a strided access from 0 with a stride of s2 = 4, and of a scatter with every offset 0. -/
theorem demo_lanes : (demoCore (fun c => c.setS 2 4)).LanesInFrame (fun l => BitVec.ofNat 64 (4 * l)) 4 true ∧
    (demoCore (fun c => c.setS 2 4)).LanesInFrame (fun l => BitVec.ofNat 64 (4 * l)) 4 false ∧
    demo.LanesInFrame (fun _ => 0) 4 true ∧ demo.LanesInFrame (fun _ => 0) 4 false := by
  refine ⟨fun l h => ⟨4 * l, ?_⟩, fun l h => ⟨4 * l, ?_⟩, fun l h => ⟨0, ?_⟩, fun l h => ⟨0, ?_⟩⟩
  · unfold State.InFrame; revert l; decide
  · unfold State.InFrame; revert l; decide
  · show demo.InFrame 0 0 4 4 true; unfold State.InFrame; decide
  · show demo.InFrame 0 0 4 4 false; unfold State.InFrame; decide

theorem strideAddr (l : Nat) : BitVec.ofNat 64 (4 * l) = (demoCore (fun c => c.setS 2 4)).rs 1 +
    BitVec.ofInt 64 (l * ((demoCore (fun c => c.setS 2 4)).rs 2).toInt) := by
  have h1 : (demoCore (fun c => c.setS 2 4)).rs 1 = 0 := by decide
  have h2 : ((demoCore (fun c => c.setS 2 4)).rs 2).toInt = 4 := by decide
  rw [h1, h2, show (0 : Word) = 0#64 from rfl, BitVec.zero_add, Int.mul_comm]
  exact (BitVec.ofInt_natCast _ _).symm

theorem scatterAddr (l : Nat) : (0 : Word) = demo.rs 1 + (lane (demo.rv 2) l).signExtend 64 := by
  have h1 : demo.rs 1 = 0#64 := by decide
  have h2 : lane (demo.rv 2) l = 0#32 := by rw [show demo.rv 2 = BitVec.zero 1024 from by decide]; simp [lane, BitVec.zero]
  rw [h1, h2]; rfl

theorem witness_LocalLoads : (demoAt 65528).Ready [.scalar 1] (wS 3 (some 5)) ∧ (demoAt 65408).Ready [.scalar 1] (wV 3 (some 5)) ∧
    (demoAt 65528).InFrame ((demoAt 65528).rs 1 + BitVec.ofInt 64 ((0 : BitVec 11).toInt * 8)) 65528 8 8 false ∧
    demo.LanesInFrame (fun _ => 0) 4 false ∧ demo.Ready [.scalar 1, .scalar 2] (wV 3 (some 8)) ∧
    demo.Ready [.scalar 1, .vector 2] (wV 3 (some 8)) :=
  ⟨demoAt_ready _ _ _, demoAt_ready _ _ _, demoAt_inFrame.2.2.1, demo_lanes.2.2.2, demo_ready _ _, demo_ready _ _⟩
theorem witness_LocalLoads_bank :
    (demoCore (fun c => { c with acc := [(0, .load 0 3 .x8)] })).c.acc = [(0, .load 0 3 .x8)] ∧
    (demoCore (fun c => { c with acc := [(0, .loadVec 0 3)] })).c.acc = [(0, .loadVec 0 3)] ∧
    (demoCore (fun c => { c with acc := [(0, .loadLanes [0, 4] 3 .i32)] })).c.acc = [(0, .loadLanes [0, 4] 3 .i32)] := by decide
/-- A store and an atomic on their way to the bank; of two overlapping lanes the later one's bytes stand. -/
def storing : State := demoCore (fun c => { c with acc := [(0, .store [(0, [1, 2]), (1, [3])])] })

def swapping : State := demoCore (fun c => { c with acc := [(0, .atom 65532 3 .cas .n32 0 0)] })

theorem witness_LocalAndLaneStores_bank : storing.Inv ∧ (storing.cores[(0 : CoreId)]).acc = [(0, .store [(0, [1, 2]), (1, [3])])] ∧
    ([(0, [1, 2]), (1, [3])] : List (Nat × List Byte)) = [(0, [1, 2])] ++ (1, [3]) :: [] ∧
    swapping.Inv ∧ (swapping.cores[(0 : CoreId)]).acc = [(0, .atom 65532 3 .cas .n32 0 0)] := by
  unfold State.Inv; decide
theorem witness_LocalAndLaneStores : (demoAt 65528).Inv ∧ (demoAt 65528).Ready [.scalar 1, .scalar 3] [] ∧
    (demoAt 65528).InFrame ((demoAt 65528).rs 1 + BitVec.ofInt 64 ((0 : BitVec 11).toInt * 8)) 65528 8 8 true ∧
    (demoAt 65408).Ready [.scalar 1, .vector 3] [] ∧ demo.LanesInFrame (fun _ => 0) 4 true ∧
    (demoCore (fun c => c.setS 2 4)).LanesInFrame (fun l => BitVec.ofNat 64 (4 * l)) 4 true ∧ demo.Ready [.scalar 1, .vector 2, .vector 3] [] :=
  ⟨by unfold State.Inv; decide, demoAt_ready _ _ _, demoAt_inFrame.1, demoAt_ready _ _ _, demo_lanes.2.2.1, demo_lanes.1, demo_ready _ _⟩
theorem witness_LocalAtomicsAndTheirValues : (demoAt 65532).Inv ∧ (demoAt 65532).Ready (atomReads .cas 3 1 2) (wS 3 (some 6)) ∧
    (demoAt 65532).InFrame ((demoAt 65532).rs 1) 65532 4 4 true ∧ AtomTy.i32 ≠ .f32 :=
  ⟨by unfold State.Inv; decide, demoAt_ready _ _ _, by unfold State.InFrame; decide, by decide⟩
theorem witness_FarAccessesSendRequests :
    let p := 0x23FC000000000000#64
    (demoAt 0x4000000000000100#64).Ready [.scalar 1, .scalar 3] (wS 3 none) ∧
    (demoAt 0x4000000000000100#64).IsFar ((demoAt 0x4000000000000100#64).rs 1 + BitVec.ofInt 64 ((0 : BitVec 11).toInt * 128)) 128 128 true ∧
    (demoAt p).IsFar ((demoAt p).rs 1) 4 4 true ∧ parseAddr p = .peer 0xFF 0 0 ∧ demo.memberAt demo.sl.terr 0 = some 0 ∧
    demo.memberAt demo.sl.terr 0xFF = none :=
  ⟨demoAt_ready _ _ _, ⟨by decide, .inr ⟨0x100, by decide⟩⟩, ⟨by decide, .inl ⟨0xFF, 0, 0, by decide, by decide, fun q h => by
      rw [(by decide : (demoAt 0x23FC000000000000#64).ownPeer 0xFF 0 0 = none)] at h; cases h⟩⟩, by decide, by decide, demo_hole (by decide)⟩
theorem witness_AcquireReleaseAndFences : (demoAt 65528).Ready [.scalar 1, .scalar 3] [] ∧ (demoAt 65528).Ready [.scalar 1] (wS 3 none) ∧
    (demoAt 65528).InFrame ((demoAt 65528).rs 1 + BitVec.ofInt 64 ((0 : BitVec 9).toInt * 8)) 65528 8 8 true ∧
    (demoAt 65528).InFrame ((demoAt 65528).rs 1 + BitVec.ofInt 64 ((0 : BitVec 9).toInt * 8)) 65528 8 8 false :=
  ⟨demoAt_ready _ _ _, demoAt_ready _ _ _, by unfold State.InFrame; decide, by unfold State.InFrame; decide⟩
/-- A core whose store to HBM is not acknowledged, and one with a value on its way for LDA. -/
theorem witness_AcquireReleaseAndFences_waits :
    let w := demoCore (fun c => { c with outst := [5] })
    let l := demoCore (fun c => { c with acc := [(0, .loadPend 0 3 .x8 5)] })
    let r := demoCore (fun c => { c with refused := [(5, cause 7 0 0, false)] })
    demo.fenced demo.cur .y = true ∧ demo.c.stlRefused .y = false ∧ r.c.stlRefused .y = true ∧ w.fenced w.cur .y = false ∧ (l.cores[(0 : CoreId)]).acc = [(0, .loadPend 0 3 .x8 5)] ∧
    (demoAt 0x4000000000000100#64).IsFar ((demoAt 0x4000000000000100#64).rs 1) 8 8 true :=
  ⟨by decide, by decide, by decide, by decide, by decide, by decide, .inr ⟨0x100, by decide⟩⟩
theorem witness_AccessChecksTrap : parseAddr 0x0000000000400000#64 = .bad ∧ parseAddr 0x4000000000000000#64 = .hbm 0 ∧
    parseAddr 0x2000000000000000#64 = .peer 0 0 0 ∧ parseAddr 0x100000000000FFFF#64 = .reserved 0xFFFF ∧
    parseAddr 0x3FFFFF#64 = .local' 0x3FFFFF ∧ (0x3FFFFF#64).toNat % 8 ≠ 0 ∧ (65536#64).toNat % 8 = 0 ∧ demo.sl.fsize < 65536 + 8 ∧
    ((demoTile (fun x => { x with locks := [{ entry := 5, lo := 0, len := 16, dst := true, op := 1 }] })).tiles[(0 : TileId)]).lockHit
      (demo.sl.fbase + 8) 8 true = some 5 ∧ demo.sl.fid.isSome = true ∧
    ((demoTile (fun x => { x with locks := [{ entry := 5, lo := 0, len := 16, dst := true, op := 1 }] })).tiles[(0 : TileId)]).lockHit
      (demo.sl.fbase + 8) 8 false = some 5 ∧
    demo.ownPeer 0 255 8 = some (demo.sl.fbase + 8) ∧ parseAddr 0x2003FC0000000008#64 = .peer 0 255 8 := by decide
theorem witness_AccessChecksTrap_ready : demo.Ready [.scalar 1] (wS 3 (some 5)) ∧ demo.Ready [.scalar 1, .scalar 3] [] :=
  ⟨demo_ready _ _, demo_ready _ _⟩

/-! ### Hypotheses that are met: barriers, rings, messages, engines -/

def demoBar (b : Barrier → Barrier) : State := demoTile (fun x => { x with bars := vmod x.bars 0 b })

def cfg1 : BarCfg := { x0 := 0, y0 := 0, x1 := 0, y1 := 0, count := 1 }

theorem witness_BarriersAndVotes :
    let s := demoBar (fun b => { b with cfg := some cfg1, valid := true })
    ((s.tiles[(0 : TileId)]).bars[(0 : Fin 4)]).cfg.isSome = true ∧ ((s.tiles[(0 : TileId)]).bars[(0 : Fin 4)]).valid = true ∧
    ((demo.tiles[(0 : TileId)]).bars[(0 : Fin 4)]).cfg = none ∧ (demo.tiles[(0 : TileId)]).votes.length < 4 ∧
    4 ≤ ((demoTile (fun x => { x with votes := List.replicate 4 (0, 0, (0, 0)) })).tiles[(0 : TileId)]).votes.length := by decide
theorem witness_BarriersAndVotes_ready : demo.Ready [] (wS 1 (some 1)) ∧ demo.Ready [.scalar 1] (wS 0 none) := ⟨demo_ready _ _, demo_ready _ _⟩
/-- A rectangle of the one member fits; one that reaches past it does not. -/
theorem witness_BarriersAndVotes_fits :
    (0 ≤ tileX demo.tile ∧ tileX demo.tile ≤ 0 ∧ 0 ≤ tileY demo.tile ∧ tileY demo.tile ≤ 0) ∧ tileXY 0 0 = some 0 ∧
    (demo.tiles[(0 : TileId)]).isMember demo.sl.terr = true ∧ (∀ k : Fin 4, (demo.cores[coreOf demo.tile k]).inBar 0 = false) ∧
    tileXY 1 0 = some 1 := by decide
/-- An arrival held for an id that is not configured; a core that stands in the id's barrier. -/
theorem witness_BarriersAndVotes_held :
    ((demoBar (fun b => { b with held := [cfg1] })).tiles[(0 : TileId)]).bars[(0 : Fin 4)].held = [cfg1] ∧
    (demoCore (fun c => { c with park := some { why := .barFence 0, marks := false } })).c.inBar 0 = true := by decide
theorem witness_BarriersAndVotes_outside : (demo.tiles[(1 : TileId)]).isMember 0 = false := by
  rw [demo_tile (by decide)]; rfl

/-- A load ring of two slots of 1,024 bytes. -/
def ring0 : RingSt := { slots := 2, bytes := 1024, base := 0, dir := none, head := 0, tail := 0, got := 0, tags := [0, 0], sub := none,
                        fault := none, user := none, taken := 0, freed := [], pulled := [] }

def sub0 : Sub := { va := 0, rowb := 8, nrow := 1, rstr := 0, c0 := 4, c1 := 1, c2 := 1, s0 := 8, s1 := 0, s2 := 0, lcb := none, flagv := 0,
                    waitsLcb := false, seen := false, next := 0, sent := 0, segs := [], bad := none, stopped := false }

def ringed (r : RingSt) : State := demoSlice (fun x => { x with rings := [r] })

theorem ringed_ready (r : RingSt) (x : List RegId) (w : List (RegId × Option Nat)) : (ringed r).Ready x w :=
  ready_of_empty (by rw [show (ringed r).c = demo.c from rfl]; unfold Idle; decide) _ _

/-- A descriptor of rows of 8 bytes. -/
def subBytes : List Byte := leBytes 8 0 ++ leBytes 4 8 ++ leBytes 4 1 ++ leBytes 8 0 ++ leBytes 4 4 ++ leBytes 4 1 ++ leBytes 4 1 ++
  List.replicate 44 0

theorem witness_RingWords_sub :
    let s := (ringed ring0).setBytes 4096 subBytes
    let s' := s.modCur (fun c => c.setS 1 4096)
    let busy := { ring0 with dir := some false, sub := some sub0 }
    (ringed busy).ringNamed 0 = .ok busy ∧ busy.live = true ∧ (parseSub (List.replicate 80 1) ring0.bytes) = none ∧
    s'.ringNamed 0 = .ok ring0 ∧ ring0.live = false ∧ ring0.user = none ∧ s'.InFrame (s'.rs 1) 4096 80 16 false ∧
    (parseSub (s'.bytes (scratchKey s'.tile (s'.sl.fbase + 4096)) 80) ring0.bytes).isSome = true := by
  unfold State.InFrame; decide
/-- A load ring whose first item has arrived, one that holds a slot, a store ring that holds one, and one with a fault. -/
theorem witness_RingWords :
    let l := { ring0 with dir := some false, sub := some sub0, tags := [0, 0xFFFF] }
    let h := { l with got := 1 }
    let t := { ring0 with dir := some true, sub := some sub0, tags := [0, 1], got := 1 }
    let f := { l with fault := some (cause 0x07 0 0) }
    (ringed l).ringReady 0 = .ok l ∧ l.user = none ∧ l.got ≠ l.slots ∧ l.tagOf (l.count + l.got) = BitVec.ofNat 16 (l.count + l.got) ∧
    (ringed h).ringReady 0 = .ok h ∧ h.dir = some false ∧ h.got ≠ 0 ∧
    (ringed t).ringReady 0 = .ok t ∧ t.dir = some true ∧ t.got ≠ 0 ∧ t.pastEnd = false ∧ t.user = none ∧
    (ringed f).ringReady 0 = .ok f ∧ f.fault = some (cause 0x07 0 0) ∧
    l.fault = none ∧ l.waitDone 0 = true ∧ l.waitDone 2 = false := by decide
/-- Rings that refuse: one not declared, one without a subscription, one whose slots are all held, one whose next tag does not match, one that
holds none, one that the Orrery uses, one that would hand over an item beyond its end. -/
theorem witness_RingWords_refused :
    let l := { ring0 with dir := some false, sub := some sub0, tags := [0, 0xFFFF] }
    let full := { l with got := 2 }
    let wrong := { l with tags := [0xFFFE, 0xFFFF] }
    let used := { l with user := some (0, .port 0) }
    let past := { ring0 with dir := some true, sub := some { sub0 with c0 := 0 }, tags := [0, 1], got := 1 }
    demo.sl.rings[0]? = none ∧ ring0.dir = none ∧ (ringed ring0).ringReady 0 = .error (ringState 0) ∧
    (ringed full).ringReady 0 = .ok full ∧ full.got = full.slots ∧ (ringed wrong).ringReady 0 = .ok wrong ∧
    wrong.tagOf (wrong.count + wrong.got) ≠ BitVec.ofNat 16 (wrong.count + wrong.got) ∧ wrong.fault = none ∧
    (ringed l).ringReady 0 = .ok l ∧ l.got = 0 ∧ (ringed used).ringReady 0 = .ok used ∧ used.user.isSome = true ∧
    (ringed past).ringReady 0 = .ok past ∧ past.dir = some true ∧ past.pastEnd = true := by decide
theorem witness_RingWords_ready : (ringed ring0).Ready [.scalar 1] [] ∧ (ringed ring0).Ready [] (wS 1 (some 1)) :=
  ⟨ringed_ready _ _ _, ringed_ready _ _ _⟩

/-- s1 = 65,280 and a header for 256 bytes for index 0 in s2. -/
def sender : State := (demoAt 65280).modCur (fun c => c.setS 2 0x0100000000FF0000#64)

theorem witness_MessagesAndChains : headerOk (sender.rs 2) = true ∧ sender.InFrame (sender.rs 1) 65280 (wbits (sender.rs 2) 56 48) 8 false ∧
    sender.memberAt sender.sl.terr (wbits (sender.rs 2) 9 0) = some 0 ∧ specOk 0x0008000000000C00#64 = true ∧
    goodLen (wbits 0x0008000000000C00#64 56 48) = true ∧ demo.InFrame 0 0 8 8 true ∧ specOk 0#64 = true ∧ wbits 0#64 56 48 = 0 := by
  unfold State.InFrame; decide
/-- What MRECV meets: a message that waits, none with room to post, none with 256 posted. -/
theorem witness_MessagesAndChains_mrecv :
    let m : QMsg := { fid := 0, src := 0, tag := 3, bytes := List.replicate 8 0 }
    let full := demoTile (fun x => { x with posted := List.replicate 256 { id := 5, who := (0, 0), fid := 0, src := none, tag := none, cap := 8, off := 0, d := 3 } })
    ((demoTile (fun x => { x with overflow := [m] })).tiles[(0 : TileId)]).queued (demo.sl.fid.getD 255) none none 8 = some m ∧
    (demo.tiles[(0 : TileId)]).queued (demo.sl.fid.getD 255) none none 8 = none ∧ (demo.tiles[(0 : TileId)]).posted.length < 256 ∧
    ¬(full.tiles[(0 : TileId)]).posted.length < 256 := by decide
theorem sender_ready (r : List RegId) (w : List (RegId × Option Nat)) : sender.Ready r w := by
  have h : sender.c = (demoAt 65280).c.setS 2 0x0100000000FF0000#64 := State.modCur_c _ _
  exact ready_of_empty (by rw [h]; unfold Idle; decide) r w

def aChain : Chain := { cid := 1, hops := [(0, 0)], len := 128, fid := 0, off := 0, ver := 0 }

def chainBytes : List Byte := leBytes 2 1 ++ leBytes 2 0 ++ leBytes 2 128 ++ List.replicate 26 0

theorem witness_MessagesAndChains_chain :
    let s := (demo.setBytes 0 chainBytes).modCur (fun c => c.setS 1 0)
    let o := demoCore (fun c => { c with chain := some aChain })
    s.InFrame (s.rs 1) 0 32 32 false ∧ (parseChain (s.bytes (scratchKey s.tile (s.sl.fbase + 0)) 32)).isSome = true ∧
    o.c.chain.isSome = true ∧ s.c.chain = none ∧ s.c.ask = none ∧ s.memberAt s.sl.terr 0 = some 0 ∧
    o.c.chain = some aChain ∧ aChain.hop 0 = some (0, 0) ∧ o.InFrame (o.rs 1) 0 aChain.len 128 false ∧
    1 ≤ (o.tiles[o.tile]).freeLocks := by unfold State.InFrame; decide

theorem witness_CopyWords :
    let busy := demoCore (fun c => { c with tags := vset c.tags 3 .running })
    demo.Ready [.scalar 1, .scalar 2, .scalar 3] [] ∧ demo.checkCopy 65528 0x4000000000000000#64 8 8 = none ∧
    demo.copyStall 15 1 = none ∧ busy.copyStall 3 1 = some (.tag 3) ∧ (demo.checkCopy 65536 0x4000000000000000#64 8 8).isSome = true ∧
    demo.Ready [] (wS 1 (some 2)) :=
  ⟨demo_ready _ _, by decide, by decide, by decide, by decide, demo_ready _ _⟩

/-- A valid bank and a COPYM record at 0 that copies 512 bytes to offset 1,024. -/
def copymState : State :=
  (demo.setBytes 0 (leBytes 8 1024 ++ leBytes 8 0x4000000000000000 ++ leBytes 4 512 ++ leBytes 2 1 ++ leBytes 2 1 ++ leBytes 8 0)).modCur
    (fun c => { c with banks := vmod c.banks 0 (fun b => { b with ok := .valid }) })

theorem witness_CopyWords_copym : copymState.InFrame (copymState.rs 1) 0 32 32 false ∧
    ∃ r, parseCopym (copymState.bytes (scratchKey copymState.tile (copymState.sl.fbase + 0)) 32) = some r ∧
      parseAddr r.dst = .local' 1024 ∧ copymState.checkCopy r.dst r.src r.len (copymState.rs 1) = none ∧
      copymState.checkMmul r.dst r.bank copymState.c.streams[r.stream] r.f32 r.rows r.stride = none ∧ copymState.copymStall r 0 = none := by
  refine ⟨by unfold State.InFrame; decide, ⟨1024, 0x4000000000000000#64, 512, 1, 1, 0, 0, 0, 0, false⟩, by rfl, ?_⟩
  decide

/-- The same record with its destination in HBM. -/
theorem witness_CopyWords_outside :
    let s := demo.setBytes 0 (leBytes 8 0x4000000000000000 ++ leBytes 8 0x4000000000000000 ++ leBytes 4 512 ++ leBytes 2 1 ++ leBytes 2 1 ++ leBytes 8 0)
    (parseCopym (s.bytes (scratchKey s.tile (s.sl.fbase + 0)) 32)).any (fun r => parseAddr r.dst == .hbm 0) = true ∧
    s.InFrame (s.rs 1) 0 32 32 false := by unfold State.InFrame; decide

theorem witness_MatrixWords : demo.checkMlw 0 (wBytes .int8) = none ∧ demo.matrixStall (demo.mlwLock 0 (wBytes .int8)).toList.length = none ∧
    copymState.checkMmul 0 0 copymState.c.streams[(0 : Fin 4)] false 1 0 = none ∧ copymState.matrixStall 1 = none ∧
    (demo.checkMmul 4 0 demo.c.streams[(0 : Fin 4)] false 1 0).isSome = true ∧
    (demoCore (fun c => { c with mq := List.replicate 16 default })).matrixStall 0 = some .matrixQueue ∧
    (demoCore (fun c => { c with mq := List.replicate 16 default })).matrixStall (demo.mlwLock 0 (wBytes .int8)).toList.length = some .matrixQueue ∧
    WFmt.ofCode (0 : BitVec 3).toNat = some .int8 ∧ 4 ≤ (4 : BitVec 3).toNat ∧ demo.checkMlw (demo.rs 1) 32768 = none ∧
    AFmt.ofCode (4 : BitVec 3).toNat = some .split ∧ 5 ≤ (5 : BitVec 3).toNat ∧
    (demoAt 65024).InFrame ((demoAt 65024).rs 1) 65024 (8 * 64) 8 false ∧ demo.checkAccess .near 0 4096 8 = none ∧ demo.matrixStall 0 = none := by
  unfold State.InFrame; decide
theorem witness_MatrixWords_ready : demo.Ready [.scalar 1] [] ∧ demo.Ready [.scalar 1, .scalar 2] [] ∧ demo.Ready [.scalar 1, .scalar 2, .scalar 3] [] ∧
    demo.Ready [] (wS 1 (some 1)) := ⟨demo_ready _ _, demo_ready _ _, demo_ready _ _, demo_ready _ _⟩

theorem witness_OrreryWords :
    let run := demoCore (fun c => { c with orr := c.orr.modDom 0 (fun d => { d with run := true, period := 8 }) })
    let set := demoCore (fun c => { c with orr := c.orr.modDom 0 (fun d => { d with period := 8 }) })
    let l := { ring0 with dir := some false, sub := some sub0 }
    let t := { ring0 with dir := some true, sub := some sub0 }
    let b := demoCore (fun c => { c with orr := c.orr.modPort 0 (fun p => { p with ring := some 0 }) })
    demo.checkAccess .near 0 16 16 = none ∧ demo.checkLocks 0 16 false = none ∧ (4096 : BitVec 13).toNat ≤ 4096 ∧
    (demo.c.orr.doms[(0 : Fin 4)]).run = false ∧ 4096 < (4097 : BitVec 13).toNat ∧ (run.c.orr.doms[(0 : Fin 4)]).run = true ∧
    ((demo.c.orr.ports[(0 : Fin 16)]).queue).length ≤ 32 ∧ (ringed l).ringNamed 0 = .ok l ∧
    ((ringed l).c.orr.ports[(0 : Fin 16)]).ring = none ∧ l.live = true ∧ l.dir = some false ∧ l.got = 0 ∧ l.user = none ∧
    (b.c.orr.ports[(0 : Fin 16)]).ring = some 0 ∧ (1 : BitVec 4) ≠ 0 ∧
    (∀ k ∈ maskDoms 1, (set.c.orr.doms[k]).run = false ∧ (set.c.orr.doms[k]).period ≠ 0) ∧
    tapOk 1 = true ∧ (tapOf 1).mode ≠ 2 ∧ demo.c.orr.tapRuns demo.c.orr.taps[(0 : Fin 16)] = false ∧ demo.c.orr.tapRuns (tapOf 1) = false ∧
    tapOk 2 = true ∧ (ringed t).ringNamed (tapOf 2).ring.val = .ok t ∧ t.live = true ∧ t.dir = some true ∧ t.user = none ∧
    demo.checkAccess .near 0 20480 128 = none ∧ 1 ≤ (demo.tiles[demo.tile]).freeLocks ∧
    (511 : BitVec 10).toNat < 512 ∧ 512 ≤ (512 : BitVec 10).toNat ∧ (15 : BitVec 10).toNat = (15 : Fin 16).val ∧ 16 ≤ (16 : BitVec 10).toNat ∧
    (3 : BitVec 10).toNat = (3 : Fin 4).val ∧ 4 ≤ (4 : BitVec 10).toNat ∧
    run.c.orr.cellRuns 0 = true ∧ demo.c.orr.cellRuns 0 = false ∧ demo.c.orr.late = [] ∧
    (∃ k ∈ maskDoms 1, (demo.c.orr.doms[k]).run = true ∨ (demo.c.orr.doms[k]).period = 0) := by decide
/-- A bundle of zeros as a patch entry drives cell 0 from cell 0; the entry that clears cell 0 breaks no rule. -/
theorem witness_OrreryWords_patch : badEntry [entryOfBytes (leBytes 8 0x3FF ++ leBytes 8 0x03FF03FF03FF03FF)]
    ([entryOfBytes (leBytes 8 0x3FF ++ leBytes 8 0x03FF03FF03FF03FF)].foldl patchCell []) = none := by decide
theorem witness_OrreryWords_ready : demo.Ready [.scalar 1] [] ∧ demo.Ready [.vector 1] [] ∧ demo.Ready [] (wS 1 (some 2)) :=
  ⟨demo_ready _ _, demo_ready _ _, demo_ready _ _⟩
/-- The image of 512 empty cells, with zeros around their patch entries. -/
def emptyImage : List Byte :=
  List.replicate 4096 0 ++ ((List.range' 0 512).flatMap (fun i => Cell.empty.entryBytes i) ++ List.replicate 8192 0)

theorem leNat_zeros (n : Nat) : leNat (List.replicate n 0) = 0 := by
  induction n with
  | zero => rfl
  | succ n ih => rw [List.replicate_succ, leNat, ih]; rfl

theorem drop_past {l r : List Byte} {n k : Nat} (h : l.length = n) : (l ++ r).drop (n + k) = r.drop k := by
  subst h
  simp [List.drop_append]

theorem take_drop_flatMap (f : Nat → List Byte) (r : List Byte) (k n : Nat) (hf : ∀ i, (f i).length = n) (i s : Nat) (h : i < k) :
    (((List.range' s k).flatMap f ++ r).drop (n * i)).take n = f (s + i) := by
  induction k generalizing i s with
  | zero => omega
  | succ k ih =>
    rw [List.range'_succ, List.flatMap_cons, List.append_assoc]
    cases i with
    | zero => simp [hf]
    | succ j =>
      rw [Nat.mul_succ, Nat.add_comm, drop_past (hf s), ih j (s + 1) (by omega)]
      congr 1; omega

theorem entryBytes_length (i : Nat) : (Cell.empty.entryBytes i).length = 16 := by
  simp [Cell.entryBytes, Cell.empty, leBytes]

theorem entries_length (s k : Nat) : ((List.range' s k).flatMap (fun i => Cell.empty.entryBytes i)).length = 16 * k := by
  induction k generalizing s with
  | zero => rfl
  | succ k ih => rw [List.range'_succ, List.flatMap_cons, List.length_append, ih, entryBytes_length]; omega

theorem emptyImage_entry {i : Nat} (h : i < 512) : (emptyImage.drop (4096 + 16 * i)).take 16 = Cell.empty.entryBytes i := by
  unfold emptyImage
  rw [drop_past (List.length_replicate), take_drop_flatMap _ _ _ _ entryBytes_length _ _ h, Nat.zero_add]

theorem emptyImage_low {off n : Nat} (h : off + n ≤ 4096) : fieldAt emptyImage off n = 0 := by
  unfold fieldAt emptyImage
  rw [List.drop_append_of_le_length (by rw [List.length_replicate]; omega),
    List.take_append_of_le_length (by rw [List.length_drop, List.length_replicate]; omega), List.drop_replicate, List.take_replicate, leNat_zeros]

theorem emptyImage_high (k : Nat) : emptyImage.drop (12288 + k) = List.replicate (8192 - k) 0 := by
  unfold emptyImage
  rw [show 12288 + k = 4096 + (16 * 512 + k) by omega, drop_past (List.length_replicate), drop_past (entries_length 0 512), List.drop_replicate]

theorem emptyImage_field (k n : Nat) : fieldAt emptyImage (12288 + k) n = 0 := by
  unfold fieldAt; rw [emptyImage_high, List.take_replicate, leNat_zeros]

def emptyEntry (i : Nat) : PatchEntry := { cell := i, dx := 0x3FF, dy := [0x3FF, 0x3FF, 0x3FF, 0x3FF], zero := true }

theorem entry_back : ∀ i < 512, (entryOfBytes (Cell.empty.entryBytes i)).cell = i ∧ (entryOfBytes (Cell.empty.entryBytes i)).dx = 0x3FF ∧
    (entryOfBytes (Cell.empty.entryBytes i)).dy = [0x3FF, 0x3FF, 0x3FF, 0x3FF] ∧
    (entryOfBytes (Cell.empty.entryBytes i)).zero = true := by
  decide +kernel

theorem imageEntries_empty : imageEntries emptyImage = (List.range 512).map emptyEntry := by
  unfold imageEntries
  refine List.map_congr_left (fun i hi => ?_)
  have h := List.mem_range.1 hi
  rw [emptyImage_entry h]
  obtain ⟨h1, h2, h3, h4⟩ := entry_back i h
  cases he : entryOfBytes (Cell.empty.entryBytes i)
  simp_all [emptyEntry]

theorem dz_empty : unpackTri ((emptyImage.drop 12288).take 128) = List.replicate 512 0 := by
  rw [emptyImage_high 0, List.take_replicate]
  decide +kernel

theorem zipIdx_map (i : Nat) (e : PatchEntry) (h : (e, i) ∈ ((List.range 512).map emptyEntry).zipIdx) : i < 512 ∧ e = emptyEntry i := by
  have := List.mk_mem_zipIdx_iff_getElem?.1 h
  rw [List.getElem?_map, Option.map_eq_some_iff] at this
  obtain ⟨a, ha, rfl⟩ := this
  have := List.getElem?_range (i := i) (n := 512)
  by_cases hi : i < 512
  · rw [this hi] at ha; injection ha with ha; exact ⟨hi, by rw [ha]⟩
  · rw [List.getElem?_eq_none (by simp; omega)] at ha; cases ha

theorem getD_zeros (n i : Nat) : (List.replicate n (0 : Int)).getD i 0 = 0 := by
  rw [List.getD_eq_getElem?_getD, List.getElem?_replicate]; split <;> rfl

theorem imageCells_empty : imageCells emptyImage = [] := by
  unfold imageCells
  rw [imageEntries_empty, dz_empty, List.filter_eq_nil_iff]
  intro c hc
  obtain ⟨⟨e, i⟩, he, rfl⟩ := List.mem_map.1 hc
  obtain ⟨hi, rfl⟩ := zipIdx_map i e he
  dsimp only
  rw [emptyImage_low (by omega), emptyImage_low (by omega)]
  rw [getD_zeros]
  exact (by decide : ¬(({ y := 0, res := 0, dz := 0, dx := 0x3FF, dy := [0x3FF, 0x3FF, 0x3FF, 0x3FF] } : Cell) != Cell.empty) = true)

theorem emptyEntry_good (i : Nat) : (emptyEntry i).bad (sharedPorts []) = false := by
  have h1 : portsOf 0x3FF [0x3FF, 0x3FF, 0x3FF, 0x3FF] = [] := by decide
  have h2 : dxOk i 1023 = true := by unfold dxOk; simp
  simp only [emptyEntry, PatchEntry.bad, h1, PatchEntry.valid]
  rw [show BitVec.toNat (1023 : BitVec 10) = 1023 from rfl, h2]
  decide

theorem emptyImage_at {k n : Nat} (h : 12288 ≤ k) : fieldAt emptyImage k n = 0 := by
  obtain ⟨j, rfl⟩ := Nat.exists_eq_add_of_le h
  exact emptyImage_field j n

/-- No part of the image of an empty Orrery is refused. -/
theorem emptyImage_checks (slot : Nat → Nat) : ∀ e ∈ imageChecks emptyImage slot, e.2 = false := by
  intro e he
  unfold imageChecks at he
  rw [imageEntries_empty, imageCells_empty] at he
  simp only [List.mem_append, List.mem_map, List.mem_flatMap, List.mem_range, List.mem_cons, List.not_mem_nil, or_false] at he
  rcases he with (((⟨⟨x, i⟩, hx, rfl⟩ | ⟨d, -, rfl | rfl⟩) | ⟨k, -, rfl⟩) | ⟨k, -, rfl⟩) | ⟨i, -, rfl⟩
  · obtain ⟨-, rfl⟩ := zipIdx_map i x hx
    rw [emptyEntry_good i]
    simp [emptyEntry]
  · dsimp only; rw [emptyImage_at (by omega)]; rfl
  · dsimp only; rw [emptyImage_at (by omega), emptyImage_at (by omega)]; rfl
  · dsimp only; rw [emptyImage_at (n := 4) (by omega : 12288 ≤ 12544 + 32 * k)]; rfl
  · dsimp only; rw [emptyImage_at (by omega)]; rfl
  · dsimp only; rw [emptyImage_at (by omega)]; rfl

/-- ORST takes the image of an empty Orrery. -/
theorem witness_OrreryWords_image (slot : Nat → Nat) : badImage emptyImage slot = none := by
  unfold badImage
  rw [List.find?_eq_none.2 (fun e he => by rw [emptyImage_checks slot e he]; decide)]
  rfl

theorem witness_TerritoryWords : demo.ctl.delay = none ∧ demo.c.det = false ∧ demo.ownsControl = true ∧
    (demo.tiles[demo.tile]).ceding = none ∧
    ((demoTile (fun x => { x with ceding := some { gain := none, lastCycle := 0, expired := false, cleared := false, ver := 1 } })).tiles[demo.tile]).ceding.isSome
      = true ∧ (demoAt 65400).InFrame ((demoAt 65400).rs 1) 65400 136 8 true ∧ 1 ≤ ((demoAt 65400).tiles[demo.tile]).freeLocks := by
  unfold State.InFrame; decide
theorem witness_TerritoryWords_ready : (demoAt 65400).Ready [.scalar 1] [] ∧ (demoAt 65400).Ready [.scalar 1] (wS 2 none) :=
  ⟨demoAt_ready _ _ _, demoAt_ready _ _ _⟩

/-! ### Hypotheses that are met: commands -/

/-- A header as its 32 bytes arrive, with no body. -/
def hdrOf (seq terr : Nat) : Hdr := { sess := 0, bytes := headerBytes 2 0 0 seq terr 0, body := 0, pad := 0, secure := false }

def hdr : Hdr := hdrOf 1 0

/-- The same command with TERR = 0xFFFF. -/
def hdrD : Hdr := hdrOf 1 0xFFFF

/-- The fields that the bytes hold, and a header whose LEN is not that of its body. -/
theorem test_header_fields : hdrD.code = 2 ∧ hdrD.seq = 1 ∧ hdrD.terr = 0xFFFF ∧ hdrD.tag = 0 ∧ hdrD.formed = true ∧
    ({ hdr with body := 1 } : Hdr).formed = false := by decide

/-- Session 0 is open, OPS admits it, and a store of 503 GiB leaves 64 pieces a stack. -/
def opened (s : State) : State :=
  { s with sessions := [newSession 0 1 []], dev := { s.dev with bootFail := false, store := 503, ops := [1] } }

def hosted : State := opened demo

/-- `hosted` with an update of territory 0. -/
def hostedTerr (f : Terr → Terr) : State := hosted.modTerr 0 f

theorem hosted_mayRun : hosted.MayRun hdr ∧ hosted.MayRun hdrD :=
  ⟨⟨newSession 0 1 [], by rfl, by rfl, by decide, by decide, by decide, by decide⟩,
    ⟨newSession 0 1 [], by rfl, by rfl, by decide, by decide, by decide, by decide⟩⟩

/-- A command whose body holds bytes that must be zero and are not. -/
theorem hosted_padded : hosted.MayRunOn { hdr with pad := 1 } :=
  ⟨⟨newSession 0 1 [], by rfl, by rfl, by decide, by decide, by decide, by decide⟩, by decide⟩

theorem hosted_mayRunOn : hosted.MayRunOn hdr := ⟨hosted_mayRun.1, by decide⟩

theorem hostedTerr_mayRun (f : Terr → Terr) (h : (hostedTerr f).secureOk hdr = true) : (hostedTerr f).MayRun hdr :=
  ⟨newSession 0 1 [], by rfl, by rfl, by show hosted.dev.bootFail = false; decide, by decide, by decide, h⟩

theorem witness_CommandsAreCheckedInOrder : commandOf (.close hdr) = some (hdr, 0x0002) ∧ (hosted.findSession hdr.sess).isSome = true ∧
    hosted.dev.bootFail = false ∧ (newSession 0 1 []).busy = false ∧ ({ hdr with body := 1 } : Hdr).formed = false ∧ hdr.formed = true ∧
    (hdrOf 2 0).seq ≠ (newSession 0 1 []).nextSeq ∧ (hdrOf 2 0).formed = true ∧ hdr.seq = (newSession 0 1 []).nextSeq ∧
    (hostedTerr (fun y => { y with iface := { y.iface with attested := true } })).secureOk hdr = false := by
  refine ⟨rfl, by rfl, by decide, by rfl, by decide, by decide, by decide, by decide, by decide, by decide⟩

/-- Territory 1 may be made of tiles 1 and 2, free on a device whose fuses leave them. -/
def freeTiles : State :=
  let s := (demo.modTile 1 (fun x => { x with fenced := false })).modTile 2 (fun x => { x with fenced := false })
  opened { s with terrs := [] }

theorem witness_TerritoryCommands_create :
    freeTiles.ownsNone (hdrOf 1 1) = true ∧ (1 : Nat) ≤ 63 ∧ freeTiles.findTerr 1 = none ∧ freeTiles.terrs.length < 64 ∧
    ([(0, 1), (1, 2)] : List (Nat × TileId)).map (·.1) = List.range 2 ∧
    (([(0, 1), (1, 2)] : List (Nat × TileId)).map (·.1)).Nodup ∧ (([(0, 1), (1, 2)] : List (Nat × TileId)).map (·.2)).Nodup ∧
    (∀ e ∈ ([(0, 1), (1, 2)] : List (Nat × TileId)), e.1 ≤ 1023 ∧ (freeTiles.tiles[e.2]).isFree = true) ∧
    (0, 1) ∈ ([(0, 1), (1, 2)] : List (Nat × TileId)) ∧ tilesConnected [1, 2] = true ∧ freeTiles.secureOk (hdrOf 1 1) = true ∧
    (freeTiles.findSession 0).isSome = true ∧ freeTiles.dev.bootFail = false ∧ (384 : Nat) ≤ 384 ∧ (5 : Nat) < 2 ^ 32 ∧
    (∀ e ∈ ([(0, 1), (1, 2)] : List (Nat × TileId)), (freeTiles.tiles[e.2]).claim = none) := by
  refine ⟨by decide, by decide, by rfl, by decide, by decide, by decide, by decide, by decide, by decide, by decide, by decide, by decide, by decide, by rfl, by decide, by decide⟩
theorem witness_TerritoryCommands : hosted.MayRunOn hdr ∧ hosted.ifAllows hdr [.unlocked] = true ∧ hosted.policyState hdr 3 1000 = true ∧
    devSetting 3 = false ∧ (hosted.ownTerr hdr).isSome = true ∧ hdrD.terr = 0xFFFF ∧ hosted.memberAt hdr.terr 0 = some 0 ∧
    (∃ t, hosted.policySet hdr 3 8500 = .done t .empty) ∧ hdr.pad = 0 ∧ hdrD.pad = 0 ∧ hosted.MayRunOn { hdr with pad := 1 } ∧
    hosted.policyState { hdr with pad := 1 } 3 1000 = true ∧ (hosted.ownTerr { hdr with pad := 1 }).isSome = true ∧ hosted.heldAnchor 0 0 = true ∧ 4 ≤ 255 ∧ hosted.policyState hdr 6 0 = true :=
  ⟨hosted_mayRunOn, by decide, by decide, by decide, by decide, by decide, by decide, ⟨_, rfl⟩, by decide, by decide, hosted_padded, by decide, by decide, by decide, by decide, by decide⟩

/-- Sixteen anchors are held or on their way, and tile 1 is a member that is none. -/
theorem witness_TerritoryCommands_limit :
    let s := (hosted.modTile 1 (fun x => { x with owner := some 0, lidx := 1 })).modTerr 0 (fun y => { y with anchPending := 16 })
    s.memberAt 0 1 = some 1 ∧ s.heldAnchor 0 1 = false ∧ 16 ≤ s.anchors 0 + (s.terr! 0).anchPending := by
  refine ⟨by decide, by decide, ?_⟩
  exact Nat.le_add_left _ _
/-- A second member that is no anchor may be made one. -/
theorem witness_TerritoryCommands_anchor :
    let s := hosted.modTile 1 (fun x => { x with owner := some 0, lidx := 1 })
    s.memberAt 0 1 = some 1 ∧ s.heldAnchor 0 1 = false ∧ s.anchors 0 + (s.terr! 0).anchPending < 16 := by
  refine ⟨by decide, by decide, ?_⟩
  rw [show (State.modTile hosted 1 (fun x => { x with owner := some 0, lidx := 1 })).terr! 0 = hosted.terr! 0 from rfl]
  rw [show (hosted.terr! 0).anchPending = 0 from by decide]
  refine Nat.lt_of_le_of_lt (List.length_filter_le _ _) ?_
  have h : ((hosted.modTile 1 (fun x => { x with owner := some 0, lidx := 1 })).members 0).length ≤ 2 := by
    have hs : ((hosted.modTile 1 (fun x => { x with owner := some 0, lidx := 1 })).members 0) ⊆ [0, 1] := by
      intro t ht
      have hm := (List.mem_filter.1 ht).2
      by_cases h0 : t = 0
      · simp [h0]
      · by_cases h1 : t = 1
        · simp [h1]
        · rw [State.modTile_ne _ _ h1, show hosted.tiles = demo.tiles from rfl, demo_tile h0] at hm
          cases hm
    exact (List.Nodup.subperm ((List.nodup_finRange 384).filter _) hs).length_le
  exact Nat.lt_of_le_of_lt h (by decide)
theorem witness_TerritoryCommands_admit : ((hosted.session! hdrD.sess).endpoint 0).isSome = true ∧ (1 : BitVec 128) ∉ hosted.dev.pxpeers ∧
    (2 : BitVec 128) ∉ hosted.dev.ops ∧ hosted.policyState hdrD 0 4 = true ∧ devSetting 0 = true := by
  refine ⟨by rfl, by decide, by decide, by decide, by decide⟩

def page0 : Page := { vpn := 0, rw := true, ppn := 32704 * 8, big := false, dirty := false }

/-- A page of 2 MiB is mapped at 0. -/
def mapped0 : State := hostedTerr (fun y => { y with pages := [page0] })

theorem witness_PagesCodeAndLaunches_map : hosted.MayRunOn hdr ∧ hosted.ifAllows hdr [.unlocked, .locked, .run] = true ∧
    0 % pageSize 0 = 0 ∧ 2097152 % pageSize 0 = 0 ∧ 2097152 / 2097152 ≤ 8 * (32768 - hosted.firstPiece) ∧
    (hosted.terr! 0).pages = [] ∧ (givePieces hosted.firstPiece hosted.takenPieces true false (pieces 0 2097152)).isSome = true ∧
    rangeBad (mapped0.terr! 0).pages 0 2097152 = false ∧ (1 : Nat) ≤ 1 ∧ hdr.pad = 0 ∧ 0 + 2097152 ≤ 2 ^ 48 :=
  ⟨hosted_mayRunOn, by decide, by decide, by decide, by decide, by decide, by decide, by decide, by decide, by decide, by decide⟩
def body8 : CodeBody := { words := [0], data := [], slice := some (1, 1000), frame := 4096, rings := [], patches := [] }

def launch0 : LaunchBody := { handle := 0, entry := 0, handler := 0, deadline := 0, budget := 1000, frame := 65536, cores := 1, coop := 0,
                              target := 0, arglen := 0, args := 0 }

theorem witness_PagesCodeAndLaunches : hosted.ifAllows hdr [.run] = true ∧ 8 ≤ CodeBody.size body8 ∧ CodeBody.size body8 ≤ 131072 ∧ body8.data = [] ∧
    (hosted.launchLimit 0 launch0).isSome = true ∧ hosted.launchTiles 0 launch0 = [0] ∧
    (frameBase (hosted.frames 0) (roundFrame 65536)).isSome = true ∧ (nextId (hosted.tiles[(0 : TileId)]).lastFid (hosted.idHeld hosted.dev.nextUid 0)).isSome = true ∧
    (1 : Nat) ≤ 524288 ∧ 0 + 524288 ≤ 2 ^ 32 ∧ (hosted.terr! 0).dirtyRead = false ∧
    ((hostedTerr (fun y => { y with dirtyRead := true })).terr! 0).dirtyRead = true ∧
    0 ∈ ((hostedTerr (fun y => { y with dirty := [0] })).terr! 0).dirty := by decide
/-- A cooperative launch has its one member, and a frame id there. -/
theorem witness_PagesCodeAndLaunches_coop : (hosted.launchLimit 0 { launch0 with coop := 1 }).isSome = true ∧
    (∀ t ∈ hosted.launchTiles 0 { launch0 with coop := 1 }, (frameBase (hosted.frames t) (roundFrame 65536)).isSome = true) := by
  refine ⟨by decide, fun t ht => ?_⟩
  obtain ⟨i, -, hi⟩ := List.mem_filterMap.1 ht
  by_cases h : i = 0
  · subst h
    rw [show hosted.memberAt 0 0 = some 0 from by decide] at hi
    injection hi with hi
    subst hi
    decide
  · rw [show hosted.memberAt 0 i = demo.memberAt 0 i from rfl, demo_hole h] at hi
    cases hi
theorem witness_PagesCodeAndLaunches_coopId : (hosted.coopId 0).isSome = true := by
  unfold State.coopId nextId
  rw [List.find?_isSome]
  refine ⟨1, by decide, ?_⟩
  simp only [Bool.not_eq_true', List.any_eq_false]
  intro t _
  rw [show hosted.idHeld hosted.dev.nextUid t 1 = (hosted.slices.any (fun x => x.uid != hosted.dev.nextUid && x.fid == some 1 &&
    (x.tile == some t || hosted.waitsFor x t))) from rfl]
  have h : hosted.slices.map (·.fid) = [some 0] := by decide
  cases hs : hosted.slices with
  | nil => simp
  | cons x r =>
    rw [hs] at h
    cases r with
    | nil => simp at h; simp [h]
    | cons _ _ => simp at h

/-- A header alone, at offset 4096. -/
def bare0 : Image := { (default : Image) with off := 4096, imagic := imageMagic, parent := none, terr := 0, major := 1 }

/-- It with its commit record. -/
def image0 : Image := bare0.sealed

/-- A record whose DIGEST is that of the bytes that stand. -/
theorem valid_of {i : Image} (hm : i.magic = recordMagic) (hd : i.digest = sha3 i.stored) : i.valid = true := by
  unfold Image.valid; rw [hm, hd]; simp

theorem image0_valid : image0.valid = true :=
  valid_of rfl (congrArg sha3 (by decide : bare0.bytes = bare0.bytes.take 128))

/-- A store that lists one valid image finds it. -/
theorem found {s : State} {i : Image} (hs : s.store = [i]) (hv : i.valid = true) (ho : s.storeOffset i.off = true)
    (hl : i.off + 4096 + i.len ≤ s.storeBytes) : s.findImage i.off = some i := by
  unfold State.findImage
  rw [hs]
  simp only [List.find?_cons, beq_self_eq_true, Option.filter_some, ho, Bool.true_and, decide_eq_true hl, hv, if_true]

/-- A halted context, with an image in the store. -/
def halted0 : State := { hostedTerr (fun y => { y with halted := true }) with store := [image0] }

theorem halted0_image : halted0.findImage 4096 = some image0 := by
  have ho : image0.off = 4096 := rfl
  have hl : image0.len = 128 := by decide
  have h := found (s := halted0) (i := image0) rfl image0_valid (by rw [ho]; decide) (by rw [ho, hl]; decide)
  rwa [ho] at h

theorem halted0_ancestry : halted0.ancestry 8 4096 = some [image0] := by
  unfold State.ancestry
  rw [halted0_image]
  rfl

theorem witness_ContextCommands : hosted.MayRunOn hdr ∧ hosted.ifAllows hdr [.run] = true ∧ hosted.isHalted hdr = false ∧
    halted0.isHalted hdr = true ∧ 4096 % 4096 = 0 ∧ 4096 + 4096 ≤ halted0.storeBytes ∧ hosted.streaming 0 = false ∧
    hosted.ckptOk hdr { off := 0, limit := 4096, full := true, poff := 0, buddy := 0, boff := 0, bpoff := none } = true ∧
    hosted.ckptOk hdr { off := 1, limit := 4096, full := true, poff := 0, buddy := 0, boff := 0, bpoff := none } = false ∧
    halted0.ifAllows hdr [.run, .locked] = true ∧ (halted0.findImage 4096).isSome = true ∧ halted0.buddyOk 0 0 = true ∧
    (∀ p, (none : Option Nat) = some p → p % 4096 = 0) ∧
    halted0.ifAllows hdr [.locked] = true ∧ halted0.ancestry 8 4096 = some [image0] ∧
    (chainPages [image0]).all (fun g => halted0.mapped 0 g.1 true) = true := by
  refine ⟨hosted_mayRunOn, by decide, by decide, by decide, by decide, by decide, by decide, by decide, by decide, by decide,
    by rw [halted0_image]; rfl, by rfl, fun p h => (by cases h), by decide, halted0_ancestry, by decide⟩
theorem witness_ContextCommands_halted : halted0.MayRunOn hdr :=
  ⟨⟨newSession 0 1 [], by rfl, by rfl, by decide, by decide, by decide, by decide⟩, by decide⟩

/-- An accepted SAVE at offset 4096. -/
def saving0 : Saving := { h := hdr, off := 4096, full := true, ckpt := none, resume := false, zeroed := false, image := none }

/-- Territory 0 halted, its one tile at rest, with such an image to write. -/
def rested (v : Saving) : State := (hostedTerr (fun y => { y with halted := true, saving := some v })).modTile 0 (fun x => { x with quiet := true })

theorem rested_quiescent (v : Saving) : (rested v).quiescent 0 = true := by
  refine Bool.and_eq_true_iff.2 ⟨rfl, List.all_eq_true.2 (fun t _ => ?_)⟩
  by_cases h0 : t = 0
  · subst h0; rfl
  · rw [show (rested v).tiles = (demo.modTile 0 (fun x => { x with quiet := true })).tiles from rfl, State.modTile_ne _ _ h0, demo_tile h0]
    rfl

/-- The steps of the writing of an image: the context not quiescent, its record to zero, its image to write, its record to write. -/
theorem witness_ContextCommands_saving :
    let z : Saving := { saving0 with zeroed := true }
    let w : Saving := { z with image := some image0 }
    ((hostedTerr (fun y => { y with saving := some saving0 })).terr! 0).saving = some saving0 ∧
    (hostedTerr (fun y => { y with saving := some saving0 })).quiescent 0 = false ∧
    ((rested saving0).terr! 0).saving = some saving0 ∧ (rested saving0).quiescent 0 = true ∧ saving0.zeroed = false ∧
    ((rested z).terr! 0).saving = some z ∧ (rested z).quiescent 0 = true ∧ z.zeroed = true ∧ z.image = none ∧
    ((rested w).terr! 0).saving = some w ∧ (rested w).quiescent 0 = true ∧ w.zeroed = true ∧ w.image = some image0 :=
  ⟨rfl, rfl, rfl, rested_quiescent _, rfl, rfl, rested_quiescent _, rfl, rfl, rfl, rested_quiescent _, rfl, rfl⟩

/-- The image of territory 0's one tile, under a record of LEN 0. -/
def image1 (major : Nat) : Image :=
  { (default : Image) with
    off := 4096, magic := recordMagic, digest := sha3 [], parent := none, terr := 0, major := major,
    sections := [{ (default : Section) with lidx := 0, isCeding := false, pos := 0 }] }

/-- Territory 0 without slices, and an image of its one tile, of some MAJOR, in a store that holds it. -/
def bare (major : Nat) : State := { hosted with slices := [], store := [image1 major] }

theorem image1_valid (m : Nat) : (image1 m).valid = true :=
  valid_of rfl (by unfold Image.stored; rw [show (image1 m).len = 0 from rfl]; rfl)

theorem bare_ancestry (m : Nat) : (bare m).ancestry 8 4096 = some (bare m).store := by
  have hf : (bare m).findImage 4096 = some (image1 m) :=
    found rfl (image1_valid m) (by decide : hosted.storeOffset 4096 = true) (by decide : 4096 + 4096 + 0 ≤ hosted.storeBytes)
  unfold State.ancestry
  rw [hf]
  rfl

theorem bare_fillable (m : Nat) : (bare m).fillable hdr = true := by
  have h : (bare m).still 0 = true := List.all_eq_true.2 (fun t _ => by
    rw [show (bare m).tiles = demo.tiles from rfl]
    by_cases ht : t = 0
    · subst ht; decide
    · rw [demo_tile ht]; rfl)
  unfold State.fillable
  rw [show hdr.terr = 0 from by decide, h]
  rfl

theorem witness_ContextCommands_restore (m : Nat) :
    (bare m).MayRunOn hdr ∧ (bare m).ifAllows hdr [.locked] = true ∧ (bare m).fillable hdr = true ∧
    (bare m).ancestry 8 4096 = some (bare m).store ∧ (bare m).store.getLast? = some (image1 m) ∧ (image1 m).major = m ∧
    ((image1 m).sections.filter (fun x => !x.isCeding)).length = (bare m).size 0 ∧ (bare m).memberAt 0 0 = some 0 ∧
    (chainPages (bare m).store).all (fun g => (bare m).mapped 0 g.1 false) = true ∧ (bare m).cedingRoom 0 0 = some [] := by
  refine ⟨⟨⟨newSession 0 1 [], by rfl, by rfl, (by decide : hosted.dev.bootFail = false), by decide, by decide,
      (by decide : hosted.secureOk hdr = true)⟩, (by decide : (hosted.ownTerr hdr).isSome = true)⟩,
    (by decide : hosted.ifAllows hdr [.locked] = true), bare_fillable m, bare_ancestry m, rfl, rfl, ?_, (by decide : demo.memberAt 0 0 = some 0), rfl, ?_⟩
  · show 1 = (demo.members 0).length
    rw [demo_members]; rfl
  · unfold State.cedingRoom
    simp

/-- Bytes written over an image's record and past its header: one that stands elsewhere stays, one whose record they hit goes, one whose own
bytes they hit holds them. -/
theorem witness_ContextCommands_over :
    image0 ∈ halted0.store ∧ image0.touches 0 1 = false ∧ image0 ∈ (halted0.overwrite 0 [1]).store ∧ image0.recordHit 4096 1 = true ∧
    image0.off + 4096 ≤ 8192 ∧ 8192 < image0.off + 4096 + image0.len ∧ 0 < ([1] : List Byte).length := by
  have h : halted0.overwrite 0 [1] = halted0.overwrite 0 [1] := rfl
  refine ⟨List.mem_singleton.2 rfl, by decide, ?_, by decide, by decide, by decide, by decide⟩
  exact List.mem_singleton.2 rfl

/-- Slice 0 claimed and halted by the debugger. -/
def debugged : State := ((opened (demoSlice (fun x => { x with claimed := true }))).modCore 0 (fun c => { c with dbgHalt := true }))

theorem witness_DebugAndOperatorCommands : hosted.MayRun hdr ∧ (hosted.ownTerr hdr).isSome = true ∧ hosted.ifAllows hdr [.unlocked] = true ∧
    (hosted.dbgSlice hdr 0).any (fun z => !z.claimed) = true ∧ (debugged.dbgSlice hdr 0).any (fun z => z.claimed && z.cores == [0]) = true ∧
    debugged.dbgHalted (debugged.slice! 0) = true ∧ hosted.dbgHalted (hosted.slice! 0) = false ∧
    (dbgReg (.scalar 1 7)).any (fun r => (debugged.cores[(0 : CoreId)]).engaged r) = false ∧
    (∀ off bs, DbgWrite.scalar 1 7 ≠ .frame off bs) ∧
    hosted.operator hdrD = true ∧ ([0] : List Byte) ≠ [] ∧ ([0] : List Byte).length ≤ 65536 ∧ hdr.terr ≠ 0xFFFF ∧
    (1 : Nat) ≤ 16 ∧ 0 + 16 ≤ 16 ∧ 0 + 21 ≤ 21 := by
  refine ⟨hosted_mayRun.1, by decide, by decide, by decide, by decide, by decide, by decide, by decide, fun _ _ => by simp, by decide, by decide, by decide,
    by decide, by decide, by decide, by decide⟩
theorem witness_DebugAndOperatorCommands_run : debugged.MayRun hdr ∧ freeTiles.MayRun hdrD ∧ freeTiles.opsAdmits 0 = true ∧ tileXY 1 0 = some 1 ∧
    tileXY 99 0 = none ∧ (freeTiles.tiles[(1 : TileId)]).isFree = true :=
  ⟨⟨newSession 0 1 [], by rfl, by rfl, by decide, by decide, by decide, by decide⟩,
    ⟨newSession 0 1 [], by rfl, by rfl, by decide, by decide, by decide, by decide⟩, by decide, by decide, by decide, by decide⟩

/-- No territory exists: an activation needs no FORCE. Whether the
image of the secondary bank may boot is a free value, and the statement has a clause for each. -/
theorem witness_DebugAndOperatorCommands_activate : freeTiles.operator hdrD = true ∧ freeTiles.terrs = [] ∧ hosted.terrs ≠ [] ∧ hosted.operator hdrD = true ∧
    ∃ g, ({ hosted with dev := { hosted.dev with activating := some hdrD } } : State).dev.activating = some g := by
  exact ⟨by decide, by decide, by decide, by decide, ⟨hdrD, rfl⟩⟩

/-- A response being read: of two pieces one is left to read after a step, of one none. -/
theorem witness_DebugAndOperatorCommands_readings :
    let r : Reading := { h := hdr, code := 0x61, todo := [(0, .sample), (1, .island 0)], got := [] }
    let q : Reading := { r with todo := [(1, .island 0)] }
    ({ hosted with readings := [r] } : State).readings[0]? = some r ∧ r.todo.find? (fun e => e.1 == 1) = some (1, .island 0) ∧
    r.todo.filter (fun e => e.1 != 1) ≠ [] ∧ ({ hosted with readings := [q] } : State).readings[0]? = some q ∧
    q.todo.find? (fun e => e.1 == 1) = some (1, .island 0) ∧ q.todo.filter (fun e => e.1 != 1) = [] := by decide

theorem witness_SessionCommands : ({ hosted with sessions := [] } : State).dev.bootFail = false ∧
    ({ hosted with sessions := [] } : State).findSession 0 = none ∧ (hdrOf 0 0).formed = true ∧ (List.replicate 32 (0 : Byte)).length = 32 ∧
    (hdrOf 0 0).seq = 0 ∧ ({ hosted with sessions := [] } : State).secureOk (hdrOf 0 0) = true ∧ hosted.MayRun hdr ∧ freeTiles.ownsNone hdr = true ∧ (hosted.session! 0).endpoint 7 = none ∧
    hosted.epInUse 0 7 = false ∧ (hosted.ownTerr hdr).isSome = true ∧ (8 : Nat) < 9 :=
  ⟨by decide, by rfl, by decide, by decide, by decide, by decide, hosted_mayRun.1, by decide, by rfl, by decide, by decide, by decide⟩
theorem witness_SessionCommands_iface :
    let l := hostedTerr (fun y => { y with iface := { y.iface with st := .locked } })
    let e := hostedTerr (fun y => { y with iface := { y.iface with st := .error } })
    let g : State := { hosted with ghosts := [{ terr := 0, sess := 0, iface := Iface.fresh 0 }] }
    (e.findTerr 0).any (fun y => y.iface.st == IfState.error) = true ∧ e.secureOk hdr = true ∧
    g.ghosts.any (fun x => x.terr == 0) = true ∧ g.secureOk hdr = true ∧ hosted.ghosts = [] ∧
    hosted.ifWritable 0 2 0 = true ∧ (hosted.terr! 0).iface.st ≠ .error ∧ hosted.ifFixed 0 0 = false ∧
    l.ifWritable 0 2 0 = true ∧ (l.terr! 0).iface.st ≠ .error ∧ l.ifFixed 0 0 = true ∧ l.secureOk hdr = true := by decide
theorem witness_SessionCommands_epdel :
    let s : State := { hosted with sessions := [{ newSession 0 1 [] with eps := [(0, { fa := 1, job := 0, ports := 0xFF }), (1, { fa := 3, job := 0, ports := 1 })] }] }
    s.MayRun hdr ∧ ((s.session! 0).endpoint 1).isSome = true ∧ s.epInUse 0 1 = false := by
  refine ⟨⟨_, by rfl, by rfl, by decide, by decide, by decide, by decide⟩, by rfl, by decide⟩

theorem witness_AttestationRequests :
    let s := hostedTerr (fun y => { y with iface := { y.iface with st := .locked } })
    let r := hostedTerr (fun y => { y with iface := { y.iface with st := .run } })
    let sec (s : State) : State := { s with dev := { s.dev with spdm := [0] } }
    hosted.dev.bootFail = false ∧ (List.replicate 32 (0 : Byte)).length = 32 ∧ (hosted.ifaceOf (0x10 - 0x10)).isSome = true ∧ 0 ∉ hosted.dev.spdm ∧
    (∀ y ∈ hosted.terrs, y.sess = 0 → y.iface.st ≠ .locked ∧ y.iface.st ≠ .run) ∧ (sec hosted).dev.spdm.contains 0 = true ∧
    (sec hosted).ifaceOf 0 = some (0, (hosted.terr! 0).iface) ∧ (sec hosted).findTerr 0 = some (hosted.terr! 0) ∧ (hosted.terr! 0).sess = 0 ∧
    (sec s).ifIs 0 0 [.locked] = true ∧ (sec r).ifIs 0 0 [.locked, .run] = true ∧ ([] : List Byte) = ((sec s).terr! 0).iface.nonce ∧
    ([0] : List Byte) ≠ ((sec s).terr! 0).iface.nonce ∧ (sec r).inError 0 0 = false ∧
    (({ c9Algs with dhe := .other } : SpdmAlgs)).dhe ≠ .secp384r1 ∧
    (hostedTerr (fun y => { y with iface := { y.iface with st := .error } })).inError 0 0 = true ∧
    ((hostedTerr (fun y => { y with iface := { y.iface with st := .error } })).findTerr 0).isSome = true ∧
    ({ hosted with terrs := [], ghosts := [{ terr := 0, sess := 0, iface := Iface.fresh 0 }] } : State).inError 0 0 = true ∧
    ({ hosted with terrs := [], ghosts := [{ terr := 0, sess := 0, iface := Iface.fresh 0 }] } : State).findTerr 0 = none := by
  refine ⟨by decide, by decide, by decide, by decide, by decide, by decide, by rfl, by rfl, by decide, by decide, by decide, by decide, by decide, by decide, by decide, by decide, by decide, by decide, by decide⟩

/-- The interface of territory 0 as CREATE leaves it may be locked. -/
theorem witness_AttestationRequests_lock : hosted.mayLock (hosted.terr! 0) = true := by
  have hm : hosted.members (hosted.terr! 0).id = [0] := by
    rw [show (hosted.terr! 0).id = 0 from by decide]; exact demo_members
  unfold State.mayLock State.size
  rw [hm]
  decide

/-! ### Hypotheses that are met: messages of the mesh -/

/-- Of one word, that word is picked. -/
theorem pickWords_one (n i : Nat) : pickWords n [i] = [i] := by
  unfold pickWords
  simp [Nat.mod_one]

/-- A message to tile 0 with a body. -/
def msg (cls : Nat) (body : Msg) : Packet :=
  { id := 7, src := 0, dst := 0, cls := cls, seq := 0, sent := 0, ver := 0, who := some (0, 0), terr := 0, body := body }

/-- `demo` with one message in flight. -/
def arrived (p : Packet) : State := { demo with net := [p] }

/-- It is the next of its source, destination and class. -/
theorem arriving (cls : Nat) (body : Msg) : (arrived (msg cls body)).Arriving 7 (msg cls body) :=
  ⟨by simp [State.firstPacket, arrived, msg, Packet.key], by rfl⟩

/-- The same of any state with nothing yet received. -/
theorem arriving_of {s : State} {p : Packet} (hn : s.net = [p]) (hr : s.rxSeq = []) (hs : p.seq = 0) : s.Arriving p.id p :=
  ⟨by simp [State.firstPacket, hn], by rw [hr, hs]; rfl⟩

theorem witness_DeliveryIsInOrder :
    let p := msg 0 .void
    let r : State := { demo with rxSeq := [((0, 0, 0), 1)], kept := [p], now := 16384 }
    (msg 4 (.ack 3)).body = .ack 3 ∧ p.seq = lookupSeq demo.rxSeq p.key ∧ p.seq < lookupSeq r.rxSeq p.key ∧
    lookupSeq demo.rxSeq p.key < ({ p with seq := 1 } : Packet).seq ∧ r.keptReq 7 = some p ∧ p.sent + 16384 ≤ r.now ∧
    (arrived (msg 4 (.ack 3))).firstPacket 7 = some (msg 4 (.ack 3)) := by decide

def loadMsg (lidx fid off : Nat) : Packet := msg 0 (.load (.peer 0 lidx fid off) 0 8 (.scalar 1 .x8))

theorem witness_RequestsArePerformedAndAnswered_peer :
    let t (p : Packet) : State := (arrived p).accepted p
    nodeTile (loadMsg 0 0 65528).dst = some 0 ∧ requestOf (loadMsg 0 0 65528).body = some (.peer 0 0 0 65528, 0, 8, false) ∧
    (t (loadMsg 5 0 0)).isHere 0 0 5 0 = false ∧ (t (loadMsg 0 0 65528)).isHere 0 0 0 0 = true ∧ (t (loadMsg 0 9 0)).liveFrame 0 0 9 = none ∧
    ((t (loadMsg 0 0 65528)).liveFrame 0 0 0).any (fun x => x.fsize == 65528 + 8) = true := by decide
theorem witness_RequestsArePerformedAndAnswered_hbm :
    let p := msg 0 (.store (.hbm 2097144) 0 [0, 0, 0, 0, 0, 0, 0, 0])
    requestOf p.body = some (.hbm 2097144, 0, 8, true) ∧ ((arrived p).accepted p).translate 0 2097144 true = .error 0 ∧
    ((demoTerr (fun y => { y with pages := [page0] })).translate 0 2097144 true) = .ok (261632 * 2097152 + 2097144) := by decide
/-- The pieces that a ring's controller reads and writes, of a page that is mapped and of one that is not, and what comes back to it. -/
theorem witness_RequestsArePerformedAndAnswered_rows :
    let s := demoTerr (fun y => { y with pages := [page0] })
    (arrived (msg 0 (.rowRead 0 0 0 8))).Arriving 7 (msg 0 (.rowRead 0 0 0 8)) ∧
    (arrived (msg 0 (.rowWrite 0 0 0 [0]))).Arriving 7 (msg 0 (.rowWrite 0 0 0 [0])) ∧
    (arrived (msg 3 (.rowData 0 0 5 [0]))).Arriving 7 (msg 3 (.rowData 0 0 5 [0])) ∧
    (arrived (msg 3 (.rowBad 0 0 5 (cause 7 0 0)))).Arriving 7 (msg 3 (.rowBad 0 0 5 (cause 7 0 0))) ∧
    ((arrived (msg 0 (.rowRead 0 0 0 8))).accepted (msg 0 (.rowRead 0 0 0 8))).translate 0 0 false = .error 0 ∧
    (s.translate 0 0 false).isOk = true ∧ (s.translate 0 0 true).isOk = true :=
  ⟨arriving _ _, arriving _ _, arriving _ _, arriving _ _, by decide, by decide, by decide⟩
theorem witness_RequestsArePerformedAndAnswered_answers :
    (msg 3 (.reply 4 (.scalar 1 0) 0)).who = some (0, 0) ∧ (msg 3 (.refuse 4 (cause 6 0 0) true)).body = .refuse 4 (cause 6 0 0) true ∧
    isCopyReq ((arrived (msg 3 (.refuse 4 (cause 6 0 0) true))).keptReq 4) = false ∧
    (msg 3 (.chainFault 4 (cause 6 0 0))).body = .chainFault 4 (cause 6 0 0) ∧ nodeTile (msg 5 (.answer 4 .done)).dst = some 0 ∧
    (msg 5 (.answer 4 (.fault (cause 6 0 0)))).body = .answer 4 (.fault (cause 6 0 0)) ∧
    (msg 5 (.snapAns 4 (.scalar 1 0) [] 0)).body = .snapAns 4 (.scalar 1 0) [] 0 ∧
    (msg 3 (.fetched 0 0 0 [0])).body = .fetched 0 0 0 [0] := by decide

theorem witness_MessagesArrive :
    let p (lidx fid : Nat) := msg 1 (.tagged 0 lidx fid 0 5 [0])
    let t (p : Packet) : State := (arrived p).accepted p
    (t (p 3 0)).isHere 0 0 3 0 = false ∧ (t (p 0 0)).isHere 0 0 0 0 = true ∧ ((t (p 0 0)).liveFrame 0 0 0).isSome = true ∧
    (t (p 0 9)).liveFrame 0 0 9 = none := by decide
theorem witness_MessagesArrive_chains :
    let p := msg 2 (.reserve aChain 0)
    let t : State := (arrived p).accepted p
    let two : Chain := { aChain with hops := [(0, 0), (1, 1)] }
    let full := demoTile (fun x => { x with chainBufs := List.replicate 8 3 })
    let asked := demoCore (fun c => { c with ask := some { chain := aChain, statusOff := some 2, refused := false } })
    p.who = some (0, 0) ∧ aChain.hop 0 = some (0, 0) ∧ t.isHere 0 0 0 0 = true ∧ t.isHere 0 0 1 0 = false ∧
    (t.tiles[(0 : TileId)]).chainBufs.length < 8 ∧ 8 ≤ (full.tiles[(0 : TileId)]).chainBufs.length ∧ aChain.hop 1 = none ∧
    two.hop 1 = some (1, 1) ∧ (msg 2 (.payload two 1 [] 0)).body = .payload two 1 [] 0 ∧ nodeTile (msg 2 (.payload two 0 [] 0)).src = some 0 ∧
    nodeTile (msg 3 (.chainAns 1 true none)).dst = some 0 ∧ (asked.own (0, 0)).any (fun c => c.ask == some { chain := aChain, statusOff := some 2, refused := false }) = true ∧
    (asked.findSlice 0).isSome = true ∧ (msg 5 (.chainFree 1)).body = .chainFree 1 := by decide
theorem witness_MessagesArrive_barriers :
    let s := demoBar (fun b => { b with cfg := some cfg1, valid := true })
    nodeTile (msg 5 (.barArrive 0 cfg1)).dst = some 0 ∧ (demo.tiles[(0 : TileId)]).isMember 0 = true ∧
    (msg 5 (.barRelease 0 cfg1 false)).body = .barRelease 0 cfg1 false ∧ ((s.tiles[(0 : TileId)]).bars[(0 : Fin 4)]).valid = true ∧
    (s.tiles[(0 : TileId)]).isMember 0 = true ∧ (msg 5 (.vote 0 .and 1 1)).body = .vote 0 .and 1 1 ∧
    nodeTile (msg 5 (.vote 0 .and 1 1)).src = some 0 ∧ nodeTile (msg 5 (.barArrive 0 cfg1)).src = some 0 ∧ (msg 5 (.vote 0 .and 1 1)).who = some (0, 0) := by
  decide
/-- A posted receive that a message fits, the fill of its buffer, by one step to its end or not, and a core that waits at a barrier. -/
theorem witness_MessagesArrive_fills :
    let q : Posted := { id := 5, who := (0, 0), fid := 0, src := some 0, tag := some 3, cap := 256, off := 0, d := 3 }
    let f : Fill := { who := (0, 0), id := 5, off := 0, bytes := List.replicate 8 0, todo := [0], wr := .flagsOnly }
    let s := demoTile (fun x => { x with posted := [q], fills := [f] })
    let w := demoCore (fun c => { c with park := some { why := .barWait 0 1, marks := false } })
    ((s.tiles[(0 : TileId)]).posted.find? (fun q => q.fid == ((demo.slice! 0).fid).getD 255 && matchMsg q.src q.tag 0 3 && decide (8 ≤ q.cap))) = some q ∧
    (s.tiles[(0 : TileId)]).fills.find? (fun g => g.id == 5) = some f ∧ (s.findSlice 0).isSome = true ∧
    (w.cores[(0 : CoreId)]).park = some { why := .barWait 0 1, marks := false } ∧ tileOf 0 = 0 := by decide
theorem witness_MessagesArrive_fillsEnd (n : Nat) : ([0] : List Nat).filter (fun i => !(pickWords n [0]).contains i) = [] := by
  rw [pickWords_one]; rfl
theorem witness_MessagesArrive_release :
    (msg 5 (.barRelease 0 cfg1 true)).body = .barRelease 0 cfg1 true ∧ ((demo.tiles[(0 : TileId)]).bars[(0 : Fin 4)]).valid = false ∧
    (demo.tiles[(1 : TileId)]).isMember 0 = false ∧ (demo.tiles[(0 : TileId)]).isMember 0 = true :=
  ⟨rfl, by decide, by rw [demo_tile (by decide)]; rfl, by decide⟩
/-- A vote from a tile that has left, the first value of a vote, and a later one. -/
theorem witness_MessagesArrive_votes :
    let v : Vote := { no := 0, op := none, x := 0, todo := [0, 1], voters := [], bad := false }
    let w : Vote := { v with op := some .and, x := 1, todo := [1] }
    (0 : TileId) ∉ w.todo ∧ (0 : TileId) ∈ v.todo ∧ v.op = none ∧ (1 : TileId) ∈ w.todo ∧ w.op = some .and := by decide

/-! ### Hypotheses that are met: engines -/

/-- A copy of 8 bytes from HBM to the frame, under way on tile 0. -/
def copy0 : Copy := { cid := 3, who := (0, 0), terr := 0, tag := 0, src := .hbm 0, dst := .local' 0, srcA := 0, dstA := 0, len := 8, next := 0,
                      reads := [], outIds := [], failed := none, follow := none, ver := 0, stopped := false }

def copying (q : Copy) : State := demoTile (fun x => { x with copyQ := [q] })

/-- A copy whose next beat may issue; one whose lowest beat is there, and one whose lowest beat was refused; its places: HBM, this tile, a hole,
a peer that is a member and one that is not; its end. -/
theorem witness_CopiesAndMatrixCommandsProceed_copy :
    let done := { copy0 with next := 8 }
    let bad := { done with failed := some (0, cause 7 0 0) }
    let back := { done with reads := [{ item := 0, off := 0, va := 0, len := 8, store := false, req := some 5, bytes := some (List.replicate 8 0) }] }
    let none' := { done with reads := [{ item := 0, off := 0, va := 0, len := 8, store := false, req := some 5, bytes := some [] }] }
    let near := { copy0 with src := .local' 0, dst := .peer 0 0 0 0 }
    let s := copying copy0
    (s.tiles[(0 : TileId)]).copyQ.find? (fun q => q.cid == 3) = some copy0 ∧ copy0.frontIn = false ∧ s.canIssueBeat 0 copy0 = true ∧
    back.frontIn = true ∧ (∀ g ∈ back.front, (g.bytes.getD []).length = g.len) ∧ none'.frontIn = true ∧
    (∃ g ∈ none'.front, (g.bytes.getD []).length ≠ g.len) ∧
    s.beatStale 0 copy0 copy0.src = none ∧ s.beatStale 0 copy0 copy0.dst = none ∧ s.beatStale 0 near near.src = none ∧ s.beatStale 0 near near.dst = none ∧
    s.beatStale 0 copy0 (.hole 5) = some (0, stalePeer 5 0) ∧ s.beatStale 0 copy0 (.peer 1 5 0 0) = some (1, stalePeer 5 0) ∧
    done.settled = true ∧ done.failed = none ∧ bad.settled = true ∧ bad.failed = some (0, cause 7 0 0) := by decide
theorem witness_CopiesAndMatrixCommandsProceed_refused :
    let p := msg 3 (.refuse 9 (cause 9 0 0) false)
    let w := { msg 0 (.copyWr (.peer 0 0 0 0) 0 [0] 3 0) with id := 9 }
    let q := { copy0 with outIds := [(9, 0)] }
    let s : State := { copying q with net := [p], kept := [w] }
    s.firstPacket 7 = some p ∧ p.seq = lookupSeq s.rxSeq p.key ∧ nodeTile p.dst = some 0 ∧ isCopyReq (s.keptReq 9) = true ∧
    (s.tiles[(0 : TileId)]).copyQ.findSome? (fun q => (q.byteOf 9).map (fun b => (q, b))) = some (q, 0) := by decide

/-- An entry that clears accumulator 0, alone in the queue. -/
def zero0 : MEntry := { mid := 4, kind := .zero, acc := 0, ver := 0, waitsCopy := false, voided := false, running := false }

def queued (e : MEntry) : State := demoCore (fun c => { c with mq := [e] })

theorem witness_CopiesAndMatrixCommandsProceed_matrix :
    let r := { zero0 with running := true }
    let m := { r with kind := .mul 0 .int8 false 0 0 1 [] false [] none }
    let g : Seg := { item := 0, off := 0, va := 0, len := 256, store := false, req := none, bytes := none }
    let l := { r with kind := .load 0 .int8 0x4000000000000000 [g] none }
    ((queued zero0).cores[(0 : CoreId)]).findEntry 4 = some zero0 ∧ (queued zero0).matrixMoves 0 = true ∧
    ((queued zero0).cores[(0 : CoreId)]).mayStart zero0 = true ∧ ((queued zero0).cores[(0 : CoreId)]).dbgHalt = false ∧ m.running = true ∧
    m.kind.unit = 0 ∧ m.readsDone = false ∧ (queued m).matrixMoves 0 = true ∧ ((queued m).cores[(0 : CoreId)]).findEntry 4 = some m ∧
    l.toAsk = some g ∧ (queued l).matrixMoves 0 = true ∧ ((queued l).cores[(0 : CoreId)]).findEntry 4 = some l ∧
    r.finished = true ∧ (queued r).matrixMoves 0 = true ∧ r.kind.unit ≠ 2 := by decide
/-- What a completed entry did: one row of zeros against a bank of zeros with an outlier on column 1, unscaled; a drain of one word; an entry
void. A bank of `bs` and entries of `es` are lists of the lengths that the statement names. -/
theorem witness_CopiesAndMatrixCommandsProceed_sums :
    let row : List Byte := List.replicate 128 0
    let m := { zero0 with running := true, kind := .mul 0 .int8 false 0 0 1 [{ k := 0, n := 1, delta := 0 }] false [row] none }
    let d := { zero0 with running := true, kind := .drain 0 1 }
    m.kind = .mul 0 .int8 false 0 0 1 [{ k := 0, n := 1, delta := 0 }] false [row] none ∧ m.voided = false ∧ { m with voided := true }.voided = true ∧
    (demo.c.banks[(0 : Fin 2)]).bytes = sparseOf 0 [] ∧ ([] : List Byte).length ≤ 33792 ∧ [row].length ≤ 1024 / wCols (demo.c.banks[(0 : Fin 2)]).held ∧
    (∀ o ∈ [({ k := 0, n := 1, delta := 0 } : Outlier)], o.n < wCols (demo.c.banks[(0 : Fin 2)]).held) ∧ d.kind = .drain 0 1 ∧
    unscaled .int8 .int8 false = true ∧ unscaled .mxint8 .int8 false = false := by decide
/-- An accumulator whose entry 0 is 1 lists that entry alone. -/
theorem witness_CopiesAndMatrixCommandsProceed_entries :
    ([(0, 1)] : List (Nat × BitVec 32)) = sparseOf 0 (1 :: List.replicate 1023 0) ∧ (1 :: List.replicate 1023 (0 : BitVec 32)).length = 1024 := by
  decide +kernel

/-- A load ring that may take up its next item, and a store ring that holds a slot handed over. -/
def loadRing : RingSt := { ring0 with dir := some false, sub := some sub0, tags := [0xFFFE, 0xFFFF] }

def storeRing : RingSt := { ring0 with dir := some true, sub := some sub0, tags := [0, 1], tail := 1 }

/-- A piece of 8 bytes that has its bytes, and the subscription that holds it, item 0 taken up. -/
def seg0 : Seg := { item := 0, off := 0, va := 0, len := 8, store := false, req := some 5, bytes := some (List.replicate 8 0) }

def taken0 : Sub := { sub0 with next := 1, segs := [seg0] }

/-- Slice 0's ring in a territory that maps a page. -/
def streaming (r : RingSt) : State := (ringed r).modTerr 0 (fun y => { y with pages := [page0] })

theorem streaming_sub {r : RingSt} {b : Sub} (h : r.sub = some b) : (streaming r).subOf 0 0 = some ((streaming r).slice! 0, r, b) := by
  have h1 : (streaming r).findSlice 0 = some ((streaming r).slice! 0) := rfl
  have h2 : ((streaming r).slice! 0).rings[0]? = some r := rfl
  unfold State.subOf
  rw [h1]
  dsimp only
  rw [h2]
  dsimp only
  rw [h]
  rfl

/-- A slice of the statement: it stands on tile 0, is not leaving, and its engines move. -/
theorem witness_StreamsAndTicksProceed (r : RingSt) : ((streaming r).slice! 0).uid = 0 ∧ ((streaming r).slice! 0).tile = some 0 ∧
    (streaming r).terrMoves ((streaming r).slice! 0) = true ∧ ((streaming r).slice! 0).st ≠ .exiting ∧ ((streaming r).slice! 0).fid.isSome = true ∧
    ((streaming r).slice! 0).fresh = false := ⟨rfl, rfl, rfl, by show SliceSt.running ≠ .exiting; decide, rfl, rfl⟩
/-- A loop-count block: refused, to be asked for, its flag word at hand, its counts at hand. -/
theorem witness_StreamsAndTicksProceed_block :
    let b := { sub0 with lcb := some 0, waitsLcb := true }
    let bad := { b with bad := some (0, 0, cause 7 0 0) }
    let flag := { b with segs := [{ blockSeg 12 12 4 with req := some 5, bytes := some [0, 0, 0, 0] }] }
    let full := { b with seen := true, segs := [{ blockSeg 0 0 12 with req := some 6, bytes := some (List.replicate 12 0) }] }
    b.waitsLcb = true ∧ b.stopped = false ∧ bad.bad = some (0, 0, cause 7 0 0) ∧ b.bad = none ∧ b.segs = [] ∧ flag.seen = false ∧
    flag.segs.any (fun g => g.bytes.isSome) = true ∧ full.counts = some (List.replicate 12 0) := by decide
/-- A load ring: the item next to push refused; all of it at hand; none at hand and a slot free, with pieces in the address space and without. -/
theorem witness_StreamsAndTicksProceed_load :
    let bad := { sub0 with next := 1, bad := some (0, 0, cause 7 0 0) }
    let far := { sub0 with va := 2 ^ 48 - 8, rstr := 8, nrow := 2 }
    loadRing.dir = some false ∧ sub0.waitsLcb = false ∧ bad.bad = some (0, 0, cause 7 0 0) ∧ 0 = loadRing.tail ∧ bad.allIn 0 = true ∧
    taken0.bad = none ∧ taken0.sent < taken0.next ∧ taken0.allIn 0 = true ∧ sub0.next ≤ sub0.sent ∧ loadRing.canPush 0 = true ∧
    { loadRing with sub := some taken0, slots := 1, freed := [(0, 3)] }.canPush 0 = false ∧
    (sub0.pieces 0 1).toOption.map (·.length) = some 1 ∧ (far.pieces 0 2).toOption.isNone = true := by decide
/-- A store ring: an item refused; bytes to write; a slot to ask for, whose rows translate and do not. -/
theorem witness_StreamsAndTicksProceed_store :
    let bad := { sub0 with bad := some (0, 0, cause 7 0 0) }
    let w := { taken0 with segs := [{ seg0 with store := true, req := none }] }
    storeRing.dir = some true ∧ bad.bad = some (0, 0, cause 7 0 0) ∧ bad.segs = [] ∧ w.bad = none ∧ w.toWrite ≠ [] ∧ sub0.bad = none ∧
    sub0.toWrite = [] ∧ storeRing.canPull = true ∧ ((ringed storeRing).rowsOk 0 sub0 0 1).isSome = true ∧
    (streaming storeRing).rowsOk 0 sub0 0 1 = none := by decide
/-- The slot that has been read for item 0; a write of it acknowledged, the last and not the last. -/
theorem witness_StreamsAndTicksProceed_written :
    let one := { taken0 with segs := [seg0] }
    let two := { taken0 with segs := [seg0, { seg0 with req := some 6 }] }
    sub0.stopped = false ∧ { sub0 with next := 1 }.next = storeRing.head + 1 ∧ { sub0 with next := 1 }.segs = [] ∧
    (sub0.pieces storeRing.head sub0.nrow).toOption.isSome = true ∧ { storeRing with sub := some one }.sub = some one ∧ one.segs = seg0 :: [] ∧
    seg0.req = some 5 ∧ one.bad = none ∧ two.segs = seg0 :: [{ seg0 with req := some 6 }] ∧
    (∀ k ∈ [{ seg0 with req := some 6 }], k.req ≠ some 5) := by decide

/-- A ring's message to tile 0. -/
def pushMsg (j : Nat) : Packet := msg 0 (.push 0 0 j [0, 0, 0, 0, 0, 0, 0, 0])
def fetchMsg (j : Nat) : Packet := msg 0 (.fetch 0 0 j)

/-- A push that stands and one taken up again; a pull that reads its one word and one taken up again. Whether a pull of several words reads all
of them in a step is a free value, and the statement has a clause for each. -/
theorem witness_StreamsAndTicksProceed_messages :
    let s (r : RingSt) (p : Packet) : State := { ringed r with net := [p] }
    (s loadRing (pushMsg 0)).ringPacket 0 0 = some (pushMsg 0) ∧ (pushMsg 0).seq = lookupSeq (s loadRing (pushMsg 0)).rxSeq (pushMsg 0).key ∧
    (0 : TileId).val = (pushMsg 0).dst ∧ 0 = loadRing.tail ∧ loadRing.dir = some false ∧
    (s loadRing (pushMsg 1)).ringPacket 0 0 = some (pushMsg 1) ∧ 1 ≠ loadRing.tail ∧
    (s storeRing (fetchMsg 0)).ringPacket 0 0 = some (fetchMsg 0) ∧ (fetchMsg 0).seq = lookupSeq (s storeRing (fetchMsg 0)).rxSeq (fetchMsg 0).key ∧
    0 = storeRing.head ∧ storeRing.dir = some true ∧ sub0.nrow * sub0.rowb / 8 = 1 ∧
    (s storeRing (fetchMsg 1)).ringPacket 0 0 = some (fetchMsg 1) ∧ 1 ≠ storeRing.head := by
  decide
theorem witness_StreamsAndTicksProceed_whole (n : Nat) :
    wordsLeft 1 (storeRing.pulled ++ (ringed storeRing).pullWords 0 (pickWords n (wordsLeft 1 storeRing.pulled))) = [] := by
  rw [show wordsLeft 1 storeRing.pulled = [0] from rfl, pickWords_one]
  rfl
theorem witness_StreamsAndTicksProceed_ticks :
    let w := (ringed { ring0 with dir := some false, tags := [0xFFFE, 0xFFFF] }).modCur (fun c => { c with park := some { why := .rwait 0 1 0 default, marks := true } })
    let o := demoCore (fun c => { c with orr := c.orr.modDom 0 (fun d => { d with run := true, period := 8, left := some 0 }) })
    let tick := demoCore (fun c => { c with orr := c.orr.modDom 0 (fun d => { d with run := true, period := 8 }) })
    w.c.park = some { why := .rwait 0 1 0 default, marks := true } ∧ 0 ≤ w.now ∧ w.selfPending 0 = false ∧
    (((w.slice! ((w.cores[(0 : CoreId)]).sl.getD 0)).rings[0]?).getD default).waitDone 1 = false ∧
    ((o.cores[(0 : CoreId)]).orr.doms[(0 : Fin 4)]).run = true ∧ ((o.cores[(0 : CoreId)]).orr.doms[(0 : Fin 4)]).left = some 0 ∧
    tick.tickDue 0 = true := by decide

/-! ### Hypotheses that are met: slices -/

def slice0 : Slice := demo.slice! 0

/-- Slice 0 waits at the head of its tile's queue. -/
def waiting : State := (demoSlice (fun x => { x with st := .queued, cores := [], fresh := true })).modCore 0 (fun _ => Core.reset)

theorem witness_SlicesProceedHaltAndReplay_dispatch : (waiting.dispatchOn 0).isSome = true := by decide
theorem witness_SlicesProceedHaltAndReplay_core :
    let sp := demoCore (fun c => { c with park := some { why := .spawn 1 0 5, marks := false } })
    let fr := demoCore (fun c => { c with freeze := some (.until' 0) })
    let ca := demoCore (fun c => { c with causes := [cause 0x31 0 0] })
    (sp.cores[(0 : CoreId)]).spawnPark = some (1, 0, 5) ∧ (sp.cores[(0 : CoreId)]).sl = some 0 ∧ sp.spawnReady 0 = true ∧
    let q := demoCore (fun c => { c with freeze := some (.copyQueue 1) })
    (fr.cores[(0 : CoreId)]).freeze = some (.until' 0) ∧ fr.freezeOver 0 (.until' 0) = true ∧ (Freeze.until' 0).abandoned = false ∧
    (q.cores[(0 : CoreId)]).freeze = some (.copyQueue 1) ∧ q.freezeOver 0 (.copyQueue 1) = true ∧ Freeze.abandoned (.copyQueue 1) = true ∧ ca.asyncReady 0 = true := by decide
theorem witness_SlicesProceedHaltAndReplay_slice :
    let held := demoSlice (fun x => { x with st := .held, cores := [], fid := none, tile := none })
    let on := demoSlice (fun x => { x with st := .held, cores := [] })
    let poor := demoSlice (fun x => { x with left := 0 })
    let grace := demoSlice (fun x => { x with left := 0, grace := some 0 })
    let leaving := demoSlice (fun x => { x with left := 0, st := .exiting, how := .exit })
    let late : State := { demoSlice (fun x => { x with deadline := 5 }) with now := 6 }
    held.heldReady 0 = some 0 ∧ (held.slice! 0).tile = none ∧ on.heldReady 0 = some 0 ∧ (on.slice! 0).home = none ∧
    (on.slice! 0).tile.isSome = true ∧ (poor.slice! 0).left = 0 ∧ (poor.slice! 0).grace = none ∧ (poor.slice! 0).cores ≠ [] ∧
    (poor.slice! 0).st = .running ∧ (grace.slice! 0).grace = some 0 ∧ (grace.slice! 0).st = .running ∧
    grace.hasExited (grace.slice! 0) = false ∧ (leaving.slice! 0).st = .exiting ∧ (leaving.slice! 0).how = .exit ∧ (leaving.slice! 0).cores ≠ [] ∧
    (leaving.slice! 0).left = 0 ∧ (leaving.slice! 0).grace = none ∧
    (late.slice! 0).tile = some 0 ∧ (late.slice! 0).late = false ∧ (late.slice! 0).deadline.toNat < late.now ∧ (late.slice! 0).st = .running := by
  decide
/-- Slice 0 ends in this way, its core parked and nothing left in progress. -/
def ends (how : EndHow) (seals : List (Word × Nat)) : State :=
  (demoSlice (fun x => { x with st := .exiting, how := how })).modCore 0 (fun c => { c with park := some { why := .exitWait, marks := false }, seals := seals })

theorem ends_copies (how : EndHow) (seals : List (Word × Nat)) (x : Slice) : (ends how seals).copiesDone x 0 = true :=
  List.all_eq_true.2 (fun t _ => by
    rw [show (ends how seals).tiles = demo.tiles from rfl]
    by_cases ht : t = 0
    · subst ht
      rw [show (demo.tiles[(0 : TileId)]).copyQ = [] from by decide]; rfl
    · rw [demo_tile ht]; rfl)

theorem ends_done (how : EndHow) (seals : List (Word × Nat)) (x : Slice)
    (h : (x.st == .exiting && true && x.rings.all RingSt.drained && !(ends how seals).pullsOut x.uid && x.cores.all (fun c => let k := (ends how seals).cores[c]
      !k.halted && k.acc.isEmpty && k.inExitWait && k.outst.isEmpty && k.matrixStuck && (k.refused.isEmpty || !(x.how == .exit || x.how == .evacuated)))) = true) :
    (ends how seals).sliceDone x 0 = true := by
  unfold State.sliceDone
  rw [ends_copies]
  exact h

theorem witness_SlicesProceedHaltAndReplay_ends :
    let gone := demoSlice (fun x => { x with st := .ended })
    let finished : State := { demo with launches := demo.launches.map (fun l => { l with open' := 0 }) }
    (ends .replay []).sliceDone ((ends .replay []).slice! 0) 0 = true ∧ (ends .budget []).sliceDone ((ends .budget []).slice! 0) 0 = true ∧
    (ends .exit [(0, 8)]).sliceDone ((ends .exit [(0, 8)]).slice! 0) 0 = true ∧ ((ends .exit [(0, 8)]).slice! 0).how = .exit ∧
    (gone.slice! 0).st = .ended ∧ (gone.terr! 0).iface.st ≠ .error ∧
    (finished.launches.find? (fun l => l.id == 0)).any (fun l => l.open' == 0 && l.forced == none) = true :=
  ⟨ends_done _ _ _ (by decide), ends_done _ _ _ (by decide), ends_done _ _ _ (by decide), by decide, by decide, by decide, by decide⟩
theorem witness_SlicesProceedHaltAndReplay_seals :
    ((((ends .exit [(0, 8)]).release ((ends .exit [(0, 8)]).slice! 0) 0).noteEnd ((ends .exit [(0, 8)]).slice! 0)).slice! 0).seals = [(0, 8)] ∧
    ((((ends .exit []).release ((ends .exit []).slice! 0) 0).noteEnd ((ends .exit []).slice! 0)).slice! 0).seals = [] ∧
    (ends .exit []).sliceDone ((ends .exit []).slice! 0) 0 = true := ⟨by rfl, by rfl, ends_done _ _ _ (by decide)⟩
/-- A buffer of one word that is not mapped, and one that is. Whether a read of several words takes all of them in a step is a free value, and
the statement has a clause for each. -/
theorem witness_SlicesProceedHaltAndReplay_read :
    let gone := demoSlice (fun x => { x with st := .ended, seals := [(0, 8)] })
    let mapped := gone.modTerr 0 (fun y => { y with pages := [page0] })
    (gone.slice! 0).seals = [(0, 8)] ∧ (gone.slice! 0).read = [] ∧ sealWords 0 8 = 1 ∧ gone.sealRead 0 0 [0] = none ∧
    (mapped.sealRead 0 0 [0]).any (fun got => wordsLeft 1 got == []) = true ∧ ∀ n, pickWords n (wordsLeft (sealWords 0 8) []) = [0] :=
  ⟨by decide, by decide, by decide, by decide, by decide, fun n => pickWords_one n 0⟩
theorem witness_SlicesProceedHaltAndReplay_halt :
    let h := (demoTerr (fun y => { y with halted := true })).modTile 0 (fun x => { x with preempt := true })
    let q := h.modCore 0 (fun c => { c with halted := true })
    (h.cores[(0 : CoreId)]).sl = some 0 ∧ (h.terr! (h.slice! 0).terr).halted = true ∧ (h.cores[(0 : CoreId)]).halted = false ∧
    (h.cores[(0 : CoreId)]).freeze = none ∧ (h.cores[(0 : CoreId)]).acc = [] ∧
    ((h.modCore 0 (fun c => { c with freeze := some (.copyQueue 1), acc := [(0, .store [(0, [1])])] })).cores[(0 : CoreId)]).freeze = some (.copyQueue 1) ∧
    Freeze.abandoned (.copyQueue 1) = true ∧ q.canQuiesce 0 = true ∧ (q.tiles[(0 : TileId)]).owner = some 0 ∧
    slice0.tile = some 0 ∧ slice0.st = .running ∧ slice0.noReplay = false ∧ slice0.replays < 3 ∧
    3 ≤ ({ slice0 with replays := 3 } : Slice).replays := by decide

/-! ### Hypotheses that are met: the border -/

/-- Territory 0 on tiles 0, 1 and 2, territory 1 on tile 33 below tile 1, where the pressure is 100. -/
def border : State :=
  let own (s : State) (t : TileId) (a l : Nat) : State := s.modTile t (fun x => { x with owner := some a, lidx := l })
  let s := (own (own (own demo 1 0 1) 2 0 2) 33 1 0).modTile 33 (fun x => { x with press := 100 })
  { s with terrs := s.terrs ++ [newTerr 1 0 1 33 0 1 384 0] }

theorem border_tile {t : TileId} (h : t ∉ ([0, 1, 2, 33] : List TileId)) : border.tiles[t] = { Tile.reset with fenced := fusedOut t.val } := by
  simp only [List.mem_cons, List.not_mem_nil, or_false, not_or] at h
  have h1 : border.tiles = ((((demo.modTile 1 (fun x => { x with owner := some 0, lidx := 1 })).modTile 2 (fun x =>
    { x with owner := some 0, lidx := 2 })).modTile 33 (fun x => { x with owner := some 1, lidx := 0 })).modTile 33 (fun x =>
    { x with press := 100 })).tiles := rfl
  rw [h1, State.modTile_ne _ _ h.2.2.2, State.modTile_ne _ _ h.2.2.2, State.modTile_ne _ _ h.2.2.1, State.modTile_ne _ _ h.2.1, demo_tile h.1]

/-- A test that only some tiles pass, on all tiles. -/
theorem filter_in (p : TileId → Bool) (l : List TileId) (h : ∀ t, t ∉ l → p t = false) :
    allTiles.filter p = allTiles.filter (fun t => l.contains t && p t) := by
  refine List.filter_congr (fun t _ => ?_)
  by_cases ht : t ∈ l
  · simp [ht]
  · rw [h t ht]; simp

def zone : List TileId := [0, 1, 2, 33]

theorem border_members (a : Nat) : border.members a = allTiles.filter (fun t => zone.contains t && (border.tiles[t]).isMember a) :=
  filter_in _ zone (fun t ht => by rw [border_tile ht]; rfl)

theorem border_size : border.size 0 = 3 ∧ border.size 1 = 1 := by
  unfold State.size
  rw [border_members, border_members]
  decide

theorem maxFigure_eq (s : State) (a m : Nat) (l : List TileId) (h1 : s.size a = m) (h2 : allTiles.filter (fun t => (s.tiles[t]).joinsTo a) = l) :
    s.maxFigure a = m + l.length := by
  subst h1 h2; rfl

theorem border_joins : allTiles.filter (fun t => (border.tiles[t]).joinsTo 1) = [] :=
  (filter_in _ zone (fun t ht => by rw [border_tile ht]; rfl)).trans
    (by decide : allTiles.filter (fun t => zone.contains t && (border.tiles[t]).joinsTo 1) = [])

theorem border_figure : border.maxFigure 1 = 1 := maxFigure_eq border 1 1 [] border_size.2 border_joins

/-- Territory 1 claims tile 1, which holds territory 0 together. -/
theorem witness_BordersMove_claim : border.claimant 1 = some 1 ∧ (border.tiles[(1 : TileId)]).owner = some 0 := by
  refine ⟨?_, by decide⟩
  have ho : (border.tiles[(1 : TileId)]).owner = some 0 := by decide
  have hm : border.mayLose 1 = true := by
    unfold State.mayLose
    rw [ho]
    dsimp only
    rw [border_size.1]
    decide
  have hg : border.gains 1 (newTerr 1 0 1 33 0 1 384 0) = true := by
    unfold State.gains
    rw [show (newTerr 1 0 1 33 0 1 384 0).id = 1 from rfl, border_figure]
    decide
  unfold State.claimant
  rw [hm, if_pos rfl, show border.terrs = [newTerr 0 0 0 0 0 1 384 0, newTerr 1 0 1 33 0 1 384 0] from rfl, ho,
    List.filter_cons_of_neg (by simp [newTerr]), List.filter_cons_of_pos (by rw [hg]; simp [newTerr])]
  rfl
/-- Tile 1 is an articulation of territory 0; tile 2 is not. -/
theorem witness_BordersMove_connected : border.connected 1 0 = false ∧ border.connected 2 0 = true ∧ border.claimant 1 = some 1 :=
  ⟨by decide, by decide, witness_BordersMove_claim.1⟩
def claim0 (lose : Option Nat) : Claim := { start := 0, gain := 1, lose := lose, lossOk := true, gainOk := true, dead := false }

def cede (expired cleared : Bool) : State :=
  (border.modTile 2 (fun x => { x with ceding := some { gain := some 1, lastCycle := 0, expired := expired, cleared := cleared, ver := 1 } }))

theorem witness_BordersMove_moves :
    let s (l : Option Nat) : State := border.modTile 1 (fun x => { x with claim := some (claim0 l) })
    let late : State := { cede false false with now := 1 }
    ((s none).tiles[(1 : TileId)]).claim = some (claim0 none) ∧ (s none).commits (claim0 none) = true ∧ (s (some 0)).commits (claim0 (some 0)) = true ∧
    (late.tiles[(2 : TileId)]).ceding = some { gain := some 1, lastCycle := 0, expired := false, cleared := false, ver := 1 } ∧ 0 < late.now ∧
    (late.tiles[(2 : TileId)]).owner = some 0 ∧ (late.terr! 0).halted = false ∧
    ((late.modTerr 0 (fun y => { y with halted := true, imaged := true })).terr! 0).halted = true ∧
    ((late.modTerr 0 (fun y => { y with halted := true, imaged := true })).terr! 0).imaged = true ∧
    ((late.modTerr 0 (fun y => { y with halted := true })).terr! 0).imaged = false ∧ (cede true false).tileDrained 2 = true ∧
    ((cede true true).tiles[(2 : TileId)]).ceding = some { gain := some 1, lastCycle := 0, expired := true, cleared := true, ver := 1 } ∧
    ((cede true true).findTerr 1).any (fun y => y.dying.isNone) = true := by decide
theorem witness_BordersMove_sizes : nodeTile (msg 5 (.sizeReq 0 false 1 0)).dst = some 0 ∧ (border.findTerr 0).any (fun y => y.handler == 0) = true ∧
    border.maySize (border.terr! 1) false = true ∧ border.maySize (border.terr! 1) true = false ∧
    (msg 5 (.sizeGrant 1 true true 0 5)).body = .sizeGrant 1 true true 0 5 ∧ nodeTile (msg 5 (.sizeReturn 0 true 5)).src = some 0 ∧
    (∀ c, (demo.tiles[(0 : TileId)]).claim = some c → c.start ≠ 5) ∧
    (∀ c, ((demoTile (fun x => { x with claim := some (claim0 none) })).tiles[(0 : TileId)]).claim = some c → c.start ≠ 5) := by
  refine ⟨by decide, by decide, ?_, ?_, rfl, by decide, by decide, fun c h => ?_⟩
  · unfold State.maySize
    rw [show (border.terr! 1).id = 1 from by decide, border_figure]
    decide
  · unfold State.maySize
    rw [show (border.terr! 1).id = 1 from by decide, border_size.2]
    decide
  · rw [show ((demoTile (fun x => { x with claim := some (claim0 none) })).tiles[(0 : TileId)]).claim = some (claim0 none) from by decide] at h
    injection h with h
    subst h
    decide

theorem demo_still : demo.still 0 = true := List.all_eq_true.2 (fun t _ => by
  by_cases ht : t = 0
  · subst ht; decide
  · rw [demo_tile ht]; rfl)

theorem demo_anchors : demo.anchors 0 = 1 := by
  unfold State.anchors
  rw [demo_members]
  decide

theorem witness_HandlerTileServes :
    let s := demoTerr (fun y => { y with mark := true })
    let f := demoTerr (fun y => { y with frz := true })
    (s.findTerr 0).any (fun y => y.mark && !y.frz) = true ∧ s.still 0 = true ∧ nodeTile (msg 5 (.upcall 0 (cause 0x31 0 0))).dst = some 0 ∧
    (demo.terrs.any (fun y => y.id == 0 && y.handler == 0)) = true ∧ (demo.tiles[(0 : TileId)]).owner = some 0 ∧
    (msg 5 .freezeReq).who = some (0, 0) ∧ nodeTile (msg 5 .freezeReq).src = some 0 ∧ (f.terr! 0).frz = true ∧ (demo.terr! 0).frz = false ∧
    (msg 5 .thawReq).body = .thawReq ∧ Park.why { why := .answer 3, marks := true } = .answer 3 ∧ demo.c.replay = none := by
  refine ⟨by decide, ?_, by decide, by decide, by decide, by decide, by decide, by decide, by decide, rfl, rfl, by decide⟩
  rw [show (demoTerr (fun y => { y with mark := true })).still 0 = demo.still 0 from rfl]
  exact demo_still
theorem witness_HandlerTileServes_anchors :
    let two := demo.modTile 1 (fun x => { x with owner := some 0, lidx := 1 })
    let many := two.modTerr 0 (fun y => { y with anchPending := 16 })
    demo.memberAt 0 9 = none ∧ demo.memberAt 0 0 = some 0 ∧ demo.heldAnchor 0 0 = true ∧ two.memberAt 0 1 = some 1 ∧ two.heldAnchor 0 1 = false ∧
    (demo.tiles[(1 : TileId)]).isMember 0 = false ∧
    16 ≤ many.anchors 0 + (many.terr! 0).anchPending ∧ (demo.tiles[(0 : TileId)]).isMember 0 = true ∧
    (msg 5 (.anchorFwd 0 3 0 true true)).body = .anchorFwd 0 3 0 true true ∧ (msg 5 (.anchorReq 9 true)).body = .anchorReq 9 true ∧
    (msg 5 (.snapReq 1 (.shape 0))).body = .snapReq 1 (.shape 0) ∧ (msg 5 (.snapReq 1 (.map 3))).body = .snapReq 1 (.map 3) := by
  refine ⟨demo_hole (by decide), by decide, by decide, by decide, by decide, by rw [demo_tile (by decide)]; rfl, ?_, by decide, rfl, rfl, rfl, rfl⟩
  exact Nat.le_trans (by decide : 16 ≤ (((demo.modTile 1 (fun x => { x with owner := some 0, lidx := 1 })).modTerr 0
    (fun y => { y with anchPending := 16 })).terr! 0).anchPending) (Nat.le_add_left _ _)
/-- Tile 1 leaves territory 0 in this cycle. -/
theorem witness_HandlerTileServes_leaving :
    let s : State := { border.modTile 1 (fun x => { x with claim := some { claim0 (some 0) with lossOk := true, gainOk := true } }) with now := 1700 }
    s.leaving 1 = true ∧ demo.leaving 0 = false ∧ nodeTile (msg 5 (.anchorFwd 0 3 0 true true)).dst = some 0 := by decide
/-- Territory 0 on tiles 0 and 1. -/
def two : State := demo.modTile 1 (fun x => { x with owner := some 0, lidx := 1 })

theorem two_members : two.members 0 = [0, 1] :=
  (filter_in _ [0, 1] (fun t ht => by
    simp only [List.mem_cons, List.not_mem_nil, or_false, not_or] at ht
    rw [show two.tiles[t] = demo.tiles[t] from State.modTile_ne _ _ ht.2, demo_tile ht.1]; rfl)).trans
    (by decide : allTiles.filter (fun t => ([0, 1] : List TileId).contains t && (two.tiles[t]).isMember 0) = [0, 1])

/-- Its one anchor leaves room for another. -/
theorem witness_HandlerTileServes_room : two.memberAt 0 1 = some 1 ∧ two.heldAnchor 0 1 = false ∧
    two.anchors 0 + (two.terr! 0).anchPending < 16 := by
  refine ⟨by decide, by decide, ?_⟩
  have h : two.anchors 0 = 1 := by
    unfold State.anchors
    rw [two_members]
    decide
  rw [h]
  decide

/-! ### Hypotheses that are met: the outside world -/

def aStream : PxIn := { fa := 5, boff := 0, bpoff := none, images := [image0], whole := true, stage := 0 }

/-- The image that the stream brings, as the store takes it. -/
theorem stream_fits (s : State) (p : PxIn) : (s.streamImage { p with images := [image0] } image0).len = image0.len ∧
    (s.streamImage { p with images := [image0] } image0).off = p.boff := ⟨rfl, rfl⟩

theorem witness_TheModuleFromOutside :
    let s : State := { mapped0 with pxIn := [aStream], dev := { mapped0.dev with pxpeers := [5] } }
    let small : State := { s with dev := { s.dev with store := 0 } }
    mapped0.rmaAllowed 0 0 0 8 = true ∧ mapped0.checkpointing 0 = false ∧ (mapped0.writeHbm 0 0 [1]).isOk = true ∧
    (hosted.writeHbm 0 0 [1]).isOk = false ∧ hosted.rmaAllowed 0 0 0 1 = true ∧ (mapped0.readHbm 0 0 8).isOk = true ∧
    (hosted.readHbm 0 0 8).isOk = false ∧ hosted.rmaAllowed 1 0 0 8 = false ∧ hosted.dev.scrub ≠ 0 ∧ (hosted.dev.isl[(0 : Fin 32)]).hot = false ∧
    16 * hosted.dev.islandcap[(0 : Fin 32)] < 900 ∧ 8 < (hosted.dev.isl[(0 : Fin 32)]).clk ∧ 10 * 800 < 9 * (16 * hosted.dev.islandcap[(0 : Fin 32)]) ∧
    900 ≤ 16 * hosted.dev.modcap ∧ 16 * hosted.dev.modcap < 100000 ∧ hosted.dev.modWin ≠ some (hosted.now / 17000) ∧
    ({ hosted.dev with modWin := some 0 } : Dev).modWin = some (hosted.now / 17000) ∧
    s.pxIn[0]? = some aStream ∧ aStream.stage = 0 ∧ aStream.fa ∉ mapped0.dev.pxpeers ∧ aStream.fa ∈ s.dev.pxpeers ∧ s.dev.bootFail = false ∧
    aStream.boff % 4096 = 0 ∧ aStream.images.getLast? = some image0 ∧ (s.streamImage aStream image0).off + 4096 + (s.streamImage aStream image0).len ≤ s.storeBytes ∧
    small.storeBytes < (small.streamImage aStream image0).off + 4096 + (small.streamImage aStream image0).len := by
  refine ⟨by decide, by decide, by rfl, by rfl, by decide, by rfl, by rfl, by decide, by decide, by decide, by decide, by decide, by decide,
    by decide, by decide, by decide, by decide, by rfl, rfl,
    by decide, by decide, by decide, by decide, by rfl, by decide, by decide⟩
/-- The steps of a stream's writing, and the errors that a read meets. -/
theorem witness_TheModuleFromOutside_steps :
    let s (p : PxIn) : State := { hosted with pxIn := [p] }
    let one := { aStream with stage := 1 }
    let two := { aStream with stage := 2 }
    (s one).pxIn[0]? = some one ∧ one.stage = 1 ∧ one.whole = true ∧ (s { one with whole := false }).pxIn[0]? = some { one with whole := false } ∧
    (s two).pxIn[0]? = some two ∧ two.stage = 2 ∧ ({ hosted with errors := [.tile 0] } : State).errors = .tile 0 :: [] ∧
    ({ hosted with errors := [.hbm 0 1 0] } : State).errors = .hbm 0 1 0 :: [] := by
  refine ⟨by rfl, rfl, rfl, by rfl, by rfl, rfl, rfl, rfl⟩

/-! ### Hypotheses that are met: registers, traps, the whole machine -/

/-- Pending reads and a collision in a word's own lists: ADD with s1 or s2 pending, and with a result under way that would land on s3 with its
own; PNOT and VADD with a pending register. -/
theorem witness_RegisterFaults_words :
    let pend (r : RegId) := demoCore (fun c => { c with pend := [{ id := 0, reg := some r, got := none }] })
    let fl := demoCore (fun c => { c with flight := [{ dist := 1, wr := .scalar 3 0, flags := 0 }] })
    operandsOf (.add always 3 1 2) = some ([.scalar 1, .scalar 2], [(.scalar 3, some 1)]) ∧
    ([.scalar 1, .scalar 2] : List RegId) = [.scalar 1] ++ .scalar 2 :: [] ∧ (pend (.scalar 2)).c.isPend (.scalar 1) = false ∧
    (pend (.scalar 2)).c.isPend (.scalar 2) = true ∧ fl.c.isPend (.scalar 1) = false ∧ fl.c.isPend (.scalar 2) = false ∧
    fl.c.collides (.scalar 3, some 1) = true ∧ fl.guardOn always = true ∧ (pend (.scalar 3)).c.collides (.scalar 3, some 1) = true ∧
    (pend (.pred 1)).c.isPend (.pred 1) = true ∧ operandsOf (.pnot always 2 1) = some ([.pred 1], [(.pred 2, some 1)]) ∧
    (pend (.vector 1)).c.isPend (.vector 1) = true ∧ (pend (.pred 2)).c.collides (.pred 2, some 1) = true := by decide
/-- The words that check more than their registers: STL with a pending address, branches, and loop registers that meet a result. -/
theorem witness_RegisterFaults_more :
    let pa := demoCore (fun c => { c with pend := [{ id := 0, reg := some (.scalar 1), got := none }] })
    let pp := demoCore (fun c => { c with pend := [{ id := 0, reg := some (.pred 1), got := none }] })
    let fl := demoCore (fun c => { c with flight := [{ dist := 1, wr := .loopReg (lbId 2) 0 false, flags := 0 }] })
    pa.fenced pa.cur .t = true ∧ pa.c.stlRefused .t = false ∧ pa.ctl.delay = none ∧ pa.c.isPend (.scalar 1) = true ∧ pp.ctl.delay = none ∧
    pp.c.isPend (.pred 1) = true ∧ fl.ctl.delay = none ∧ fl.ownsControl = true ∧ fl.c.isPend (.scalar 1) = false ∧
    fl.c.collides (.loopReg (lcId 2), some 1) = false ∧ fl.c.collides (.loopReg (lbId 2), some 1) = true := by decide
theorem witness_RegisterFaults :
    let pa := demoCore (fun c => { c with pend := [{ id := 0, reg := some (.scalar 1), got := none }] })
    let pv := demoCore (fun c => { c with pend := [{ id := 0, reg := some (.vector 1), got := none }] })
    let pp := demoCore (fun c => { c with pend := [{ id := 0, reg := some (.pred 1), got := none }] })
    let fl := demoCore (fun c => { c with flight := [{ dist := 5, wr := .scalar 3 0, flags := 0 }] })
    pa.guardOn always = true ∧ pa.c.isPend (.scalar 1) = true ∧ pa.c.isPend (.scalar 2) = false ∧ pv.c.isPend (.vector 1) = true ∧
    pp.c.isPend (.pred 1) = true ∧ (3 : Reg) ≠ 0 ∧ fl.c.clash (.scalar 3) 5 = true ∧ fl.c.clash (.scalar 3) 3 = false := by decide
theorem witness_RegisterFaults_ready :
    (demoCore (fun c => { c with pend := [{ id := 0, reg := some (.scalar 3), got := none }] })).Ready [.scalar 1, .scalar 2] [] ∧
    (demoCore (fun c => { c with pend := [{ id := 0, reg := some (.vector 3), got := none }] })).Ready [.vector 1, .vector 2] [] := by
  unfold State.Ready; decide
theorem witness_ResultsLandAfterTheirLatency :
    ({ Core.reset with flight := [{ dist := 5, wr := .scalar 3 7, flags := 0 }] } : Core).flight = [{ dist := 5, wr := .scalar 3 7, flags := 0 }] ∧
    1 ≤ 5 := by decide
theorem witness_TrapEntryAndReturn : demo.c.inh = false ∧ (demo.gang demo.unit).Nodup ∧ (0 : CoreId) ∈ demo.gang demo.unit ∧
    (inHandler 0).c.inh = true ∧ (inHandler 0).c.sl = some 0 ∧ (inHandler 0).c.dbgHeld = none ∧ (inHandler 0).c.flight = [] ∧ (inHandler 0).c.pend = [] ∧
    (demoCore (fun c => { c with flight := [{ dist := 5, wr := .scalar 3 0, flags := 0 }] })).c.flight ≠ [] := by decide

/-- The only move of `demo` is the issue of core 0. -/
theorem witness_StepRunsTheDecodedBundle_moves : demo.moves = [.issue 0] := by rfl
/-- With an input that may happen, there are two moves. -/
theorem witness_StepRunsTheDecodedBundle_choice : ({ demo with inputs := [.powerLoss] } : State).moves = [.issue 0, .input] := by rfl
theorem witness_StepRunsTheDecodedBundle : demo.dev.power = .on ∧ demo.due = [] ∧ demo.issuers 0 = [0] ∧ demo.joiners 0 = [] ∧
    demo.gang 0 = [0] ∧ (demo.fetch 0 = .ok 0) := by
  refine ⟨by decide, by decide, by decide, by decide, by decide, by rfl⟩
/-- Words that are no instruction and words of an extension, and what a word answers: it issues, it traps, it waits for a tag, or the bundle
parks before it issues. -/
theorem witness_StepRunsTheDecodedBundle_outcomes :
    let issue (i : Instr) (s : State) : Option Issue := match exec i s with
      | .next t => some t.issue
      | _ => none
    let busy := demoCore (fun c => ((({ c with tags := vset c.tags 3 .running }).setS 1 65528).setS 2 0x4000000000000000).setS 3 8)
    let waits := exec (.stl false 2 1 .x8 .y 0) (demoCore (fun c => { c with outst := [5] }))
    bundleWords (decodeBundle 0x00200000_81300000) = [.liHbm false 6 0x200000#48] ∧
    issue (.nopC false) demo = some .issued ∧ (issue (.rett false) demo).any (fun o => o != .issued && o != .stalled) = true ∧
    issue (.copy false 1 2 3 3) busy = some .stalled ∧ decodeBundle 0x30000000 = .extension false [.emulation false, .nopA always] ∧
    decodeBundle 0xC400000040000000 = .extension false [.emulation true, .nopC true] ∧
    decodeBundle 0x2F000000 = .illegal false ∧
    (match waits with
      | .next t => t.issue == .stalled && t.c.freeze.isNone && t.c.park.isSome
      | _ => false) = true ∧
    (({ demo with due := [.powerLoss] } : State).due = .powerLoss :: []) := by
  refine ⟨by decide, by decide, by decide, by decide, by decide, by decide, by decide, by decide, rfl⟩
theorem witness_EncodedInstructionsDecodeBack : (Instr.nopC true).wf = true ∧ (Instr.add always 1 2 3).wf = true ∧ (Instr.liHbm false 6 0x200000#48).wf = true ∧
    guardOf (.add always 1 2 3) = some always := by decide
theorem witness_MemoryReadsBack : demo.Inv := demo_inv
theorem witness_StepKeepsMemoryCanonical : State.reset.Inv ∧ demo.Inv := ⟨reset_inv, demo_inv⟩

/-! ### Hypotheses that are met: how the control state moves on -/

/-- A core at the end bundle of level 2, which has `n` passes left. -/
def ending (n : BitVec 32) : Core :=
  { Core.reset with
    pc := 8, lreg := vset Core.reset.lreg (lcId 2) n,
    leff := vset Core.reset.leff 2 { Core.reset.leff[(2 : Lvl)] with lb := 0, le := 8 } }

/-- It is the end bundle of level 1 too, which has two passes left. -/
def nested : Core := { ending 1 with
  lreg := vset (ending 1).lreg (lcId 1) 2, leff := vset (ending 1).leff 1 { Core.reset.leff[(1 : Lvl)] with lb := 0, le := 8 } }

def asks (c : Core) (k : XferKind) : Core := { c with xfer := some { kind := k, target := 16 } }
def owing (c : Core) (k : XferKind) (t : Word) : Core := { c with delay := some { kind := k, target := t } }

theorem witness_BranchesTransfer_advance : (¬∃ l : Lvl, Core.reset.endsHere Core.reset.pc l = true) ∧ Core.reset.xfer = none ∧
    Core.reset.delay = none ∧ (asks Core.reset .jump).xfer = some { kind := .jump, target := 16 } ∧
    (asks Core.reset .untaken).xfer = some { kind := .untaken, target := 16 } ∧ (owing Core.reset .jump 16).xfer = none ∧
    (owing Core.reset .jump 16).delay = some { kind := .jump, target := 16 } ∧ (owing Core.reset .untaken 16).delay = some { kind := .untaken, target := 16 } ∧
    (¬∃ l : Lvl, (asks Core.reset .untaken).endsHere (asks Core.reset .untaken).pc l = true) ∧
    (¬∃ l : Lvl, (owing Core.reset .untaken 16).endsHere (owing Core.reset .untaken 16).pc l = true) := by decide
/-- A level that goes back, one that ends, one that goes back after an inner one has ended, and values that MVTL writes to an active level, before
its last two bundles and in them, and to one that is not. -/
theorem witness_LoopRegisters_ends :
    (ending 2).endsHere 8 2 = true ∧ (ending 2).lc 2 ≠ 1 ∧ (∀ k : Lvl, 2 < k → (ending 2).endsHere 8 k = true → (ending 2).lc k = 1) ∧
    (∀ k : Lvl, (ending 1).endsHere 8 k = true → (ending 1).lc k = 1) ∧
    nested.endsHere 8 1 = true ∧ nested.lc 1 ≠ 1 ∧ (∀ k : Lvl, 1 < k → nested.endsHere 8 k = true → nested.lc k = 1) ∧
    (∃ l : Lvl, (asks (ending 2) .untaken).endsHere (asks (ending 2) .untaken).pc l = true) ∧ (asks (ending 2) .skip).xfer = some { kind := .skip, target := 16 } ∧
    (ending 2).xfer = none ∧ (ending 2).delay = none ∧ (ending 3).lc 2 ≠ 0 ∧ (ending 3).lc 2 ≠ 1 ∧ (ending 3).lc 2 ≠ 2 ∧
    ((ending 3).leff[(2 : Lvl)]).leQ = [] ∧ (ending 3).lc 0 = 0 ∧ (8 : Word).toNat = ((ending 3).leff[(2 : Lvl)]).le.toNat ∧
    ¬((24 : Word).toNat = ((ending 3).leff[(2 : Lvl)]).le.toNat ∨ (24 : Word).toNat + 8 = ((ending 3).leff[(2 : Lvl)]).le.toNat) := by decide
/-- EXIT, YIELD and TEVAC: asked for, in the delay bundle, owed by a gang that something holds up or that nothing holds up. -/
theorem witness_ExitAndYield_owed :
    let s (c : Core → Core) : State := demoCore (fun k => c { k with owed := some { kind := .exit, target := 0 } })
    (asks Core.reset .exit).xfer = some { kind := .exit, target := 16 } ∧ (¬∃ l : Lvl, (asks Core.reset .exit).endsHere (asks Core.reset .exit).pc l = true) ∧
    (∃ l : Lvl, (asks (ending 2) .yld).endsHere (asks (ending 2) .yld).pc l = true) ∧ (owing Core.reset .exit noTarget).delay = some { kind := .exit, target := noTarget } ∧
    (owing Core.reset .exit noTarget).xfer = none ∧ (asks Core.reset .evac).xfer = some { kind := .evac, target := 16 } ∧
    ((s id).cores[(0 : CoreId)]).owed = some { kind := .exit, target := 0 } ∧ ((s id).cores[(0 : CoreId)]).sl = some 0 ∧
    (¬∃ c ∈ (s id).gang 0, ((s id).cores[c]).busy = true) ∧
    (∃ c ∈ (s (fun k => { k with acc := [(0, .store [(0, [1])])] })).gang 0,
      ((s (fun k => { k with acc := [(0, .store [(0, [1])])] })).cores[c]).busy = true) ∧ (0 : CoreId) ∈ (demo.slice! 0).cores := by decide

/-! ### Hypotheses that are met: further clauses -/

/-- Arrivals that wait on the tile agree with the configuration or do not; a mismatch that no core was told of. -/
theorem witness_BarriersAndVotes_come :
    let b := (demo.tiles[(0 : TileId)]).bars[(0 : Fin 4)]
    (b.from' ++ b.held).any (· != cfg1) = false ∧ (b.bad && !b.told) = false ∧ ([cfg1].any (· != { cfg1 with count := 2 })) = true ∧
    (({ b with bad := true } : Barrier).bad && !({ b with bad := true } : Barrier).told) = true := by decide
/-- A duplicate whose response is kept, and one whose response is not. -/
theorem witness_DeliveryIsInOrder_response :
    let p := msg 0 .void
    let r : State := { demo with rxSeq := [((0, 0, 0), 1)], kept := [msg 3 (.reply 7 .flagsOnly 0)] }
    p.seq < lookupSeq r.rxSeq p.key ∧ (∃ q ∈ r.kept, q.src = p.dst ∧ q.dst = p.src ∧ q.body.answers = some p.id) ∧
    ∀ q ∈ ({ r with kept := [] } : State).kept, ¬(q.src = p.dst ∧ q.dst = p.src ∧ q.body.answers = some p.id) := by decide
/-- The reads of a copy's beat and of a bank load, what comes back, and the refusal of one of a load's pieces. -/
theorem witness_RequestsArePerformedAndAnswered_reads :
    let r := msg 0 (.read (.peer 0 0 0 0) 0 128 0 false)
    let l := { msg 0 (.read (.hbm 0) 0x4000000000000000 256 0 true) with id := 4 }
    requestOf r.body = some (.peer 0 0 0 0, 0, 128, false) ∧ requestOf l.body = some (.hbm 0, 0x4000000000000000, 256, false) ∧
    (msg 3 (.data 4 [0])).body = .data 4 [0] ∧ isLoadReq (({ demo with kept := [l] } : State).keptReq 4) = true ∧
    isLoadReq (({ demo with kept := [r] } : State).keptReq 4) = false ∧ isCopyReq (({ demo with kept := [l] } : State).keptReq 4) = false := by decide
/-- The pre-emption reaches a tile of the halted context; it reaches one after the context went on, and one of another owner. -/
theorem witness_SlicesProceedHaltAndReplay_preempt :
    let h := demoTerr (fun y => { y with halted := true })
    (arrived (msg 5 .preempt)).Arriving 7 (msg 5 .preempt) ∧ nodeTile (msg 5 .preempt).dst = some 0 ∧ (h.terr! (msg 5 .preempt).terr).halted = true ∧
    (h.tiles[(0 : TileId)]).owner = some (msg 5 .preempt).terr ∧ (demo.terr! (msg 5 .preempt).terr).halted = false ∧ (State.reset.tiles[(0 : TileId)]).owner ≠ some 0 :=
  ⟨arriving _ _, by decide, by decide, by decide, by decide, by decide⟩
/-- A slice that something has ended already, and one that nothing has. -/
theorem witness_SlicesProceedHaltAndReplay_stopped :
    ({ slice0 with st := .exiting, how := .dissolved } : Slice).stopped = true ∧ slice0.stopped = false ∧ slice0.st = .running := by decide
/-- Of three results that land together two are s3's; a park at whose end one result is missing, and one that has all. -/
theorem witness_ResultsLandAfterTheirLatency_lists :
    let f (w : Wr) : Flight := { dist := 1, wr := w, flags := 0 }
    let fs := [f (.scalar 3 1), f (.scalar 3 2), f (.sys .trapv 8)]
    let c (g : Option (Wr × BitVec 6)) : Core := { Core.reset with pend := [{ id := 4, reg := some (.scalar 3), got := g }] }
    fs = [f (.scalar 3 1)] ++ f (.scalar 3 2) :: [f (.sys .trapv 8)] ∧ (Wr.scalar 3 2).reg = some (.scalar 3) ∧
    (∀ g ∈ [f (.sys .trapv 8)], g.wr.reg ≠ some (.scalar 3)) ∧ (∀ g ∈ fs, g.wr.reg ≠ some (.vector 3)) ∧ (∀ g ∈ fs, g.wr.reg ≠ some (.sys .fpflags)) ∧
    (∃ q ∈ (c none).pend, q.got = none) ∧ (∀ q ∈ (c (some (.scalar 3 7, 0))).pend, q.got.isSome = true) := by decide
/-- A halted context whose ring has a pull begun: its controller still moves. -/
theorem witness_StreamsAndTicksProceed_moves (r : RingSt) :
    (streaming r).ringMoves? ((streaming r).slice! 0) r = true ∧
    (((streaming storeRing).modTerr 0 (fun y => { y with halted := true })).ringMoves? ((streaming storeRing).slice! 0)
      { storeRing with sub := some { taken0 with segs := [{ seg0 with store := true, req := none }] } } = true) :=
  ⟨rfl, by decide⟩
/-- A tick that steps domain 0, one that waits for a port's increment; cells that step within their range, and one that leaves it. -/
theorem witness_StreamsAndTicksProceed_cells :
    let tick := demoCore (fun c => { c with orr := c.orr.modDom 0 (fun d => { d with run := true, period := 8 }) })
    let cell (y : BitVec 32) : Cell := { y := y, res := 0, dz := 0, dx := 512, dy := [0, 0x3FF, 0x3FF, 0x3FF] }
    let at' (y : BitVec 32) : State := tick.modCur (fun c => { c with orr := { c.orr with cells := [(0, cell y)] } })
    let ported := tick.modCur (fun c => { c with orr := { c.orr with cells := [(0, { cell 0 with dx := 528 })] } })
    let ins : TickIn := { go := [0], incs := [], took := [] }
    ((tick.c.orr).doms[(0 : Fin 4)]).steps? = true ∧ ((demo.c.orr).doms[(0 : Fin 4)]).steps? = false ∧
    (∃ d ∈ [(0 : Fin 4)], ∃ p ∈ ported.c.orr.domPorts d, ported.portNext 0 p = none) ∧ (at' 0).c.orr.domPorts 0 = [] ∧
    (∀ k : Fin 16, tick.tapStuck 0 [0] tick.c.orr.taps[k] = false) ∧ ([(0 : Fin 4)]).Nodup ∧ (((at' 0).c.orr.cells).map (·.1)).Nodup ∧
    overruns (at' 0).c.orr ins (phase1All (at' 0).c.orr ins) = [] ∧
    overruns (at' 0x80000000).c.orr ins (phase1All (at' 0x80000000).c.orr ins) = [(0, 0, 0)] ∧ tick.c.orr.late = [] ∧ (∀ f ∈ tick.c.flight, f.src = none) ∧ tick.c.replay = none := by
  decide
/-- A gang of two cores that issues a bundle of zeros; plain words, a core that may lag, accesses that wait. -/
def pair0 : State := ((demoSlice (fun x => { x with cores := [0, 1] })).modCore 0 (fun c => { c with gsize := 1 })).modCore 1
  (fun _ => { Core.reset with sl := some 0, pos := 1, gsize := 1 })

theorem witness_StepRunsTheDecodedBundle_gang : pair0.dev.power = .on ∧ pair0.due = [] ∧ pair0.moves = [.issue 0] ∧ pair0.issuers 0 = [0, 1] ∧
    pair0.joiners 0 = [] ∧ pair0.gang 0 = [0, 1] ∧ ([0, 1] : List CoreId).Nodup ∧ pair0.fetch 0 = .ok 0 ∧
    bundleWords (decodeBundle 0x00000000F2140000) = [.tthaw true] ∧ isEmulation (.tthaw true) = false := by
  refine ⟨by decide, by decide, by rfl, by decide, by decide, by decide, by decide, by rfl, by decide, by decide⟩
theorem witness_StepRunsTheDecodedBundle_accesses :
    let s := pair0.modCore 1 (fun c => { c with acc := [(0, .load 0 3 .x8)] })
    (∀ d ∈ ([0, 1] : List CoreId), (s.cores[d]).pos ≤ 3) ∧ (∀ i ∈ bundleWords (decodeBundle 0), isPlain i = true) ∧
    (∀ d ∈ ([0, 1] : List CoreId), (s.cores[d]).dbgHalt = false ∧ (s.cores[d]).rendez = none) ∧ (s.cores[(1 : CoreId)]).acc = [(0, .load 0 3 .x8)] ∧
    (s.cores[(1 : CoreId)]).mayLag = 1 ∧ (s.cores[(0 : CoreId)]).mayLag = 0 ∧ (demo.cores[(0 : CoreId)]).after = none ∧
    (∀ x, (demo.cores[(0 : CoreId)]).xfer = some x → x.kind ≠ .rett) := by
  refine ⟨by decide, by decide, by decide, by decide, by decide, by decide, by decide, fun x h => ?_⟩
  rw [show (demo.cores[(0 : CoreId)]).xfer = none from by decide] at h
  cases h
theorem witness_EncodedInstructionsDecodeBack_words : isCWord (.nopC true) = true ∧ isLone (.liHbm false 6 0x200000#48) = true := by decide

/-- The worked case of 00 R4: the tile at (19, 8). -/
theorem test_place_of_tile_19_8 : tileXY 19 8 = some 275 ∧ dieOf 275 = 1 ∧ sectorOf 275 = 6 ∧ islandOf 275 = 20 := by decide

end Sys2Proof.Tests
end

section
/-! PROOFS. Memory reads back what was written, and what was cleared reads 0 (00 R2, 04 R89, log 4). -/

namespace Sys2Proof.Machine

open Sys2Proof

section
variable {s : State} (h : Memory.wf s.mem = true)
include h

/-- Bytes written read back as a list. -/
theorem State.bytes_setBytes (k : Nat) (bs : List Byte) : (s.setBytes k bs).bytes k bs.length = bs :=
  List.ext_getElem (by simp [State.bytes]) fun i _ hi => by simpa [State.bytes] using State.byte_setBytes h hi

/-- A cleared range reads 0, and every other byte as before. -/
theorem State.byte_clear (k n a : Nat) : (s.clear k n).byte a = if k ≤ a ∧ a < k + n then 0 else s.byte a := sget_clearBytes h

end

/-- Settles O58, from the rules of one write and of one cleared range. -/
theorem memoryReadsBack : Obligations.MemoryReadsBack := by
  intro s k n bs h
  refine ⟨State.setBytes_wf s k bs h, fun a ha => State.byte_setBytes_ne h ha, State.bytes_setBytes h k bs, State.clear_wf s k n h,
    fun a ha => ?_, fun a hk hn => ?_⟩
  · rw [State.byte_clear h, if_neg (by omega)]
  · rw [State.byte_clear h, if_pos ⟨hk, hn⟩]

end Sys2Proof.Machine
end

section
/-! PROOFS. Memory keeps its canonical form (04 R80, R82, R86, log 4): what a meaning answers, and the shapes that meanings share. -/

namespace Sys2Proof.Machine

open Sys2Proof

/-! ### Answers that keep the form -/

/-- The state that a check and effect answer, if they answer one, has memory in its canonical form. -/
def Res.Canonical : Res → Prop
  | .ok s => Memory.wf s.mem = true
  | .trap _ => True
  | .freeze _ => True

@[simp] theorem Res.canonical_ok (s : State) : (Res.ok s).Canonical ↔ Memory.wf s.mem = true := Iff.rfl
@[simp] theorem Res.canonical_trap (t : TrapRec) : (Res.trap t).Canonical := trivial
@[simp] theorem Res.canonical_freeze (f : Freeze) : (Res.freeze f).Canonical := trivial

/-- So does the state that a command's part answers, and what follows its acceptance keeps the form. -/
def CmdRes.Canonical : CmdRes → Prop
  | .bad _ => True
  | .done s _ => Memory.wf s.mem = true
  | .later s next => Memory.wf s.mem = true ∧ ∀ u : State, Memory.wf u.mem = true → Memory.wf (next u).mem = true

@[simp] theorem CmdRes.canonical_bad (n : Nat) : (CmdRes.bad n).Canonical := trivial
@[simp] theorem CmdRes.canonical_done (s : State) (b : Body) : (CmdRes.done s b).Canonical ↔ Memory.wf s.mem = true := Iff.rfl
@[simp] theorem CmdRes.canonical_later (s : State) (next : State → State) : (CmdRes.later s next).Canonical ↔
    Memory.wf s.mem = true ∧ ∀ u : State, Memory.wf u.mem = true → Memory.wf (next u).mem = true := Iff.rfl

/-- The state that a meaning answers has memory in its canonical form. -/
def AnswersCanonical : Out → Prop
  | .next t => Memory.wf t.mem = true
  | .fault _ => True
  | .refused _ => True

@[simp] theorem answersCanonical_next (t : State) : AnswersCanonical (.next t) ↔ Memory.wf t.mem = true := Iff.rfl

/-- The state that an agent's move answers, if the move may be made, has memory in its canonical form. -/
def MaybeCanonical (o : Option State) : Prop := ∀ t ∈ o, Memory.wf t.mem = true

@[simp] theorem maybeCanonical_none : MaybeCanonical none := by simp [MaybeCanonical]
@[simp] theorem maybeCanonical_some (t : State) : MaybeCanonical (some t) ↔ Memory.wf t.mem = true := by simp [MaybeCanonical]
@[simp] theorem maybeCanonical_map {α : Type} (o : Option α) (f : α → State) : MaybeCanonical (o.map f) ↔ ∀ x ∈ o, Memory.wf (f x).mem = true := by
  simp [MaybeCanonical]

section
variable {s : State} (h : Memory.wf s.mem = true)
include h

/-! ### The shapes of words -/

theorem finish_canonical {r : Res} (hr : r.Canonical) : AnswersCanonical (finish s r) := by
  cases r with
  | ok s' => simpa [finish] using hr
  | trap t => simpa [finish] using h
  | freeze f => simpa [finish] using h

theorem aluWord_canonical (g : Guard) (reads : List RegId) (writes : List (RegId × Option Nat)) (w : Wr) (n : Nat) (fl : BitVec 6) :
    AnswersCanonical (aluWord g reads writes w n fl s) := by
  unfold aluWord
  split
  · split
    · exact finish_canonical h trivial
    · exact finish_canonical h (by simpa using h)
  · exact finish_canonical h h

theorem cWord_canonical {m : Bool} {reads : List RegId} {writes : List (RegId × Option Nat)} {k : State → Res} (hk : (k s).Canonical) :
    AnswersCanonical (cWord m reads writes k s) := by
  obtain ⟨s', hs, e⟩ | ⟨t, e⟩ | ⟨f, -, e⟩ := cWord_cases m reads writes k s <;> rw [e]
  · rw [hs] at hk
    simpa [State.after, State.issued] using hk
  · simpa using h
  · simpa using h

theorem cWordNoDelay_canonical {m : Bool} {reads : List RegId} {writes : List (RegId × Option Nat)} {k : State → Res}
    (hk : (k s).Canonical) : AnswersCanonical (cWordNoDelay m reads writes k s) := by
  unfold cWordNoDelay
  split
  · exact finish_canonical h trivial
  · exact cWord_canonical h hk

theorem cResult_canonical (m : Bool) (reads : List RegId) (writes : List (RegId × Option Nat)) (w : State → Wr) (n : Nat) :
    AnswersCanonical (cResult m reads writes w n s) :=
  cWord_canonical h (by simpa using h)

/-! ### Messages and commands -/

@[simp] theorem State.arrive_wf (p : Packet) {act : State → State} (hact : ∀ u : State, Memory.wf u.mem = true → Memory.wf (act u).mem = true) :
    Memory.wf (s.arrive p act).mem = true := by
  unfold State.arrive
  dsimp only
  split
  · exact hact _ (by simpa using h)
  · (repeat' split) <;> simpa using h

theorem State.runCmd_canonical (hd : Hdr) (code : Nat) (state : State → Bool) (needTerr : Bool) {k : State → CmdRes} (hk : (k s).Canonical) :
    AnswersCanonical (s.runCmd hd code state needTerr k) := by
  unfold State.runCmd
  split
  · split <;> simpa using h
  · split
    · simpa using h
    · split
      · simpa using h
      · split
        · simpa using h
        · split
          · simpa using h
          · split
            · simpa using h
            · cases e : k s with
              | bad st => simpa using h
              | done s' b => rw [e] at hk; simpa using hk
              | later s' f =>
                rw [e] at hk
                obtain ⟨hs, hf⟩ := hk
                simpa using hf (s'.accept hd true) (by simpa using hs)

end

end Sys2Proof.Machine
end

section
/-! PROOFS. The checks and effects that words and commands share keep memory's canonical form. -/

namespace Sys2Proof.Machine

open Sys2Proof

section
variable {s : State} (h : Memory.wf s.mem = true)
include h

/-! ### Accesses (04 R81, R89) -/

@[simp] theorem State.withLocal_canonical (a : Word) (size align : Nat) (store : Bool) {k : Nat → State}
    (hk : ∀ off, Memory.wf (k off).mem = true) : (s.withLocal a size align store k).Canonical := by
  unfold State.withLocal
  split
  · trivial
  · split
    · exact hk _
    · exact h

omit h in
@[simp] theorem State.withFar_canonical (a : Word) (size align : Nat) (store : Bool) {t : State} (ht : Memory.wf t.mem = true) :
    (s.withFar a size align store t).Canonical := by
  unfold State.withFar
  split
  · trivial
  · exact ht

@[simp] theorem State.loadAny_canonical (r : Reach) (ad : Word) (n : Nat) (d : Reg) (sz : MemSz) : (s.loadAny r ad n d sz).Canonical := by
  unfold State.loadAny
  split
  · trivial
  · split <;> simp [h]

@[simp] theorem lanesLoadRes_canonical (addr : Nat → Word) (sz : MemSz) (d : Reg) : (lanesLoadRes s addr sz d).Canonical := by
  unfold lanesLoadRes
  split <;> simp [h]

@[simp] theorem lanesStoreRes_canonical (addr : Nat → Word) (sz : MemSz) (d : Reg) : (lanesStoreRes s addr sz d).Canonical := by
  unfold lanesStoreRes
  split <;> simp [h]

@[simp] theorem fenceRes_canonical (sc : Scope) : (fenceRes sc s).Canonical := by
  unfold fenceRes
  split <;> simp [h]

/-! ### Control (02 R34, R47 to R50) -/

@[simp] theorem State.ctlOnly_canonical {k : State → Res} (hk : (k s).Canonical) : (s.ctlOnly k).Canonical := by
  unfold State.ctlOnly
  split
  · exact hk
  · exact h

/-- A call that spills writes the spill area. -/
@[simp] theorem State.pushRet_canonical (ret : Word) : (s.pushRet ret).Canonical := by
  unfold State.pushRet
  dsimp only
  (repeat' split) <;> simp [h]

@[simp] theorem State.popRet_canonical : s.popRet.Canonical := by
  unfold State.popRet
  dsimp only
  (repeat' split) <;> simp [h]

@[simp] theorem State.callTo_canonical (target : Word) : (s.callTo target).Canonical := by
  have hp := State.pushRet_canonical h (s.pcNow + 16)
  unfold State.callTo
  cases e : s.pushRet (s.pcNow + 16) with
  | ok s' => rw [e] at hp; simpa using hp
  | trap t => trivial
  | freeze f => trivial

@[simp] theorem State.openLoop_canonical (l : Lvl) (count : BitVec 32) (fin : BitVec 10) : (s.openLoop l count fin).Canonical := by
  unfold State.openLoop
  dsimp only
  split
  · trivial
  · rw [Res.canonical_ok]
    split <;> simp [h]

@[simp] theorem State.returnRes_canonical (up : Bool) : (s.returnRes up).Canonical := by
  unfold State.returnRes
  dsimp only
  (repeat' split) <;> simp [h]

/-! ### The Orrery (12 R272) -/

@[simp] theorem State.osetCell_canonical (cell : Nat) (w : OrrWrite) : (s.osetCell cell w).Canonical := by
  unfold State.osetCell
  split <;> simp [h]

@[simp] theorem State.bindPort_canonical (k : Fin 16) (ring : Fin 16) (unb : Bool) : (s.bindPort k ring unb).Canonical := by
  unfold State.bindPort
  dsimp only
  (repeat' split) <;> simp [h]

@[simp] theorem State.oget_canonical (c : Reg) (r : OrrRead) : (s.oget c r).Canonical := by
  unfold State.oget
  simpa using h

/-! ### Host commands (16 R298, R309, 03 R78) -/

@[simp] theorem State.createWith_canonical (hd : Hdr) (ver : Nat) (tiles : List (Nat × Nat × Nat)) (minA maxB : Nat) :
    (s.createWith hd ver tiles minA maxB).Canonical := by
  unfold State.createWith
  dsimp only
  split
  · trivial
  · split
    · trivial
    · rw [CmdRes.canonical_done]
      refine State.foldl_wf _ _ _ (fun u e hu => ?_) h
      split <;> simp [hu]

@[simp] theorem State.fwAnchor_canonical (terr idx : Nat) (on : Bool) : (s.fwAnchor terr idx on).Canonical := by
  unfold State.fwAnchor
  (repeat' split) <;> simp [h]

@[simp] theorem State.policySet_canonical (hd : Hdr) (id v : Nat) : (s.policySet hd id v).Canonical := by
  unfold State.policySet State.devPol State.terrPol
  dsimp only
  (repeat' split) <;> simp [h]

theorem State.runPolicy_canonical (hd : Hdr) (id v : Nat) : AnswersCanonical (s.runPolicy hd id v) :=
  State.runCmd_canonical h _ _ _ _ (State.policySet_canonical h hd id v)

theorem State.runDebug_canonical (hd : Hdr) (sl : Nat) (ok : State → Slice → Bool) {k : State → Slice → CmdRes}
    (hk : ∀ x, (k s x).Canonical) : AnswersCanonical (s.runDebug hd sl ok k) := by
  refine State.runCmd_canonical h _ _ _ _ ?_
  split
  · trivial
  · exact hk _

@[simp] theorem State.dbgStore_canonical (x : Slice) (c : CoreId) (w : DbgWrite) : (s.dbgStore x c w).Canonical := by
  unfold State.dbgStore
  split
  · split <;> simp [h]
  · split <;> simp [h]

/-! ### Requests and slices -/

/-- A request performed at its home writes the bytes it names, or none. -/
@[simp] theorem State.perform_wf (p : Packet) (f : Found) {wrote : State → State} (hw : ∀ u : State, (wrote u).mem = u.mem) :
    Memory.wf (s.perform p f wrote).mem = true := by
  unfold State.perform
  dsimp only
  (repeat' split) <;> simp [h, hw]

omit h in
@[simp] theorem State.spawnSlice_mem (s : State) (x : Slice) (bs : List Byte) : (s.spawnSlice x bs).1.mem = s.mem := by
  unfold State.spawnSlice
  dsimp only
  (repeat' split) <;> simp

end

/-! ### The answers of the mesh and the engines -/

@[simp] theorem State.dataBack_mem (s : State) (p : Packet) (req : Nat) (bs : List Byte) : (s.dataBack p req bs).mem = s.mem := by
  unfold State.dataBack
  dsimp only
  (repeat' split) <;> simp

@[simp] theorem State.preemptAt_mem (s : State) (p : Packet) : (s.preemptAt p).mem = s.mem := by
  unfold State.preemptAt
  (repeat' split) <;> simp

end Sys2Proof.Machine
end

section
/-! PROOFS. One lemma for each meaning that is no A-word: it keeps memory's canonical form. Most meanings are checks, each of which ends in a trap,
a freeze, a refusal or no change, before an effect composed of shared operations: there the case split follows the checks, and the operations' own
lemmas close each case. Those with another argument, such as an effect on a message that is accepted only later, give it. -/

namespace Sys2Proof.Machine

open Sys2Proof

section
variable {s : State} (h : Memory.wf s.mem = true)
include h

/-! ### Loads, stores, atomics, fences (11 R231 to R239) -/

theorem execLd_canonical {m d a sz disp} : AnswersCanonical (execLd m d a sz disp s) := cWord_canonical h (by simp [h])

theorem execSt_canonical {m d a sz disp} : AnswersCanonical (execSt m d a sz disp s) := cWord_canonical h (by simp [h])

theorem execLda_canonical {m d a sz sc disp} : AnswersCanonical (execLda m d a sz sc disp s) := cWord_canonical h (by simp [h])

theorem execStl_canonical {m d a sz sc disp} : AnswersCanonical (execStl m d a sz sc disp s) := by
  unfold execStl
  split
  · refine cWord_canonical h ?_
    dsimp only
    split <;> simp [h]
  · simpa using h

theorem execLdp_canonical {m d a sz disp} : AnswersCanonical (execLdp m d a sz disp s) := cWord_canonical h (by simp [h])

theorem execStp_canonical {m d a sz disp} : AnswersCanonical (execStp m d a sz disp s) := cWord_canonical h (by simp [h])

theorem execVld_canonical {m d a disp} : AnswersCanonical (execVld m d a disp s) := cWord_canonical h (by simp [h])

theorem execVst_canonical {m d a disp} : AnswersCanonical (execVst m d a disp s) := cWord_canonical h (by simp [h])

theorem execVldp_canonical {m d a disp} : AnswersCanonical (execVldp m d a disp s) := cWord_canonical h (by simp [h])

theorem execVstp_canonical {m d a disp} : AnswersCanonical (execVstp m d a disp s) := cWord_canonical h (by simp [h])

theorem execVlds_canonical {m d a b sz} : AnswersCanonical (execVlds m d a b sz s) := cWord_canonical h (by simp [h])

theorem execVsts_canonical {m d a b sz} : AnswersCanonical (execVsts m d a b sz s) := cWord_canonical h (by simp [h])

theorem execVgath_canonical {m d a b sz} : AnswersCanonical (execVgath m d a b sz s) := cWord_canonical h (by simp [h])

theorem execVscat_canonical {m d a b sz} : AnswersCanonical (execVscat m d a b sz s) := cWord_canonical h (by simp [h])

theorem execAtom_canonical {m d a b op ty} : AnswersCanonical (execAtom m d a b op ty s) := cWord_canonical h (by simp [h])

theorem execAtomp_canonical {m d a b op ty} : AnswersCanonical (execAtomp m d a b op ty s) := cWord_canonical h (by simp [h])

theorem execFence_canonical {m sc} : AnswersCanonical (execFence m sc s) := cWord_canonical h (by simp [h])

theorem execFencesc_canonical {m sc} : AnswersCanonical (execFencesc m sc s) := cWord_canonical h (by simp [h])

theorem execPeerRequestArrival_canonical {k} : AnswersCanonical (execPeerRequestArrival k s) := by
  unfold execPeerRequestArrival
  split
  · exact h
  · split
    · exact State.arrive_wf h _ fun u hu => State.perform_wf (by split <;> simpa using hu) _ _ fun _ => rfl
    · exact h

theorem execVariableLatencyResponse_canonical {k} : AnswersCanonical (execVariableLatencyResponse k s) := by
  unfold execVariableLatencyResponse
  (repeat' split) <;> simp [h]

theorem execRefusalArrival_canonical {k} : AnswersCanonical (execRefusalArrival k s) := by
  unfold execRefusalArrival
  (repeat' split) <;> simp [h]

theorem execRetransmitTimeout_canonical {k} : AnswersCanonical (execRetransmitTimeout k s) := by
  unfold execRetransmitTimeout
  (repeat' split) <;> simp [h]

/-! ### Control, loops, traps, system registers (09 R182 to R199) -/

theorem execBr_canonical {m disp} : AnswersCanonical (execBr m disp s) := cWordNoDelay_canonical h (by simp [h])

theorem execBrp_canonical {m n p disp} : AnswersCanonical (execBrp m n p disp s) := cWordNoDelay_canonical h (by simp [h])

theorem execJmp_canonical {m a} : AnswersCanonical (execJmp m a s) := cWordNoDelay_canonical h (by simp [h])

theorem execCall_canonical {m disp} : AnswersCanonical (execCall m disp s) := cWordNoDelay_canonical h (by simp [h])

theorem execCallr_canonical {m a} : AnswersCanonical (execCallr m a s) := cWordNoDelay_canonical h (by simp [h])

theorem execRet_canonical {m} : AnswersCanonical (execRet m s) := cWordNoDelay_canonical h (by simp [h])

theorem execLoop_canonical {m lvl count fin} : AnswersCanonical (execLoop m lvl count fin s) := cWordNoDelay_canonical h (by simp [h])

theorem execLoopr_canonical {m lvl a fin} : AnswersCanonical (execLoopr m lvl a fin s) := cWordNoDelay_canonical h (by simp [h])

theorem execMvtl_canonical {m lp a} : AnswersCanonical (execMvtl m lp a s) := by
  refine cWord_canonical h (State.ctlOnly_canonical h ?_)
  dsimp only
  (repeat' split) <;> simp [h]

theorem execMvfl_canonical {m d lp} : AnswersCanonical (execMvfl m d lp s) := cResult_canonical h _ _ _ _ _

theorem execTrap_canonical {m imm} : AnswersCanonical (execTrap m imm s) := cWord_canonical h (by simp [h])

theorem execBkpt_canonical {m imm} : AnswersCanonical (execBkpt m imm s) := cWord_canonical h (by simp [h])

theorem execRett_canonical {m} : AnswersCanonical (execRett m s) := cWordNoDelay_canonical h (by simp [h])

theorem execUpret_canonical {m} : AnswersCanonical (execUpret m s) := cWordNoDelay_canonical h (by simp [h])

theorem execExit_canonical {m} : AnswersCanonical (execExit m s) := by
  refine cWordNoDelay_canonical h ?_
  split <;> simp [h]

theorem execYld_canonical {m} : AnswersCanonical (execYld m s) := by
  refine cWordNoDelay_canonical h ?_
  split
  · trivial
  · refine State.ctlOnly_canonical h ?_
    (repeat' split) <;> simp [h]

theorem execDetach_canonical {m disp} : AnswersCanonical (execDetach m disp s) := by
  refine cWordNoDelay_canonical h ?_
  split <;> simp [h]

theorem execAttach_canonical {m disp} : AnswersCanonical (execAttach m disp s) := by
  refine cWordNoDelay_canonical h ?_
  dsimp only
  (repeat' split) <;> simp [h]

theorem execMfs_canonical {m d r} : AnswersCanonical (execMfs m d r s) := cResult_canonical h _ _ _ _ _

theorem execMts_canonical {m r a} : AnswersCanonical (execMts m r a s) := by
  refine cWord_canonical h ?_
  split <;> simp [h]

theorem execDisc_canonical {m d n} : AnswersCanonical (execDisc m d n s) := cResult_canonical h _ _ _ _ _

theorem execCycle_canonical {m d} : AnswersCanonical (execCycle m d s) := cResult_canonical h _ _ _ _ _

theorem execSeal_canonical {m a b} : AnswersCanonical (execSeal m a b s) := by
  refine cWord_canonical h (State.ctlOnly_canonical h ?_)
  dsimp only
  (repeat' split) <;> simp [h]

theorem execSpawn_canonical {m d a} : AnswersCanonical (execSpawn m d a s) := by
  refine cWord_canonical h ?_
  (repeat' split) <;> simp [h]

theorem execIllegalInstruction_canonical {w1} : AnswersCanonical (execIllegalInstruction w1 s) := finish_canonical h (Res.canonical_trap _)

theorem execEmulation_canonical {w1} : AnswersCanonical (execEmulation w1 s) := by
  unfold execEmulation
  dsimp only
  split
  · exact finish_canonical h (State.emulate_wf _ _ _ h)
  · exact finish_canonical (s := { s with stepNo := s.stepNo + 1 }) h (Res.canonical_trap _)

/-! ### Tag-matched messages and chains (11 R248 to R256) -/

theorem execMsend_canonical {m a b} : AnswersCanonical (execMsend m a b s) := by
  refine cWord_canonical h ?_
  dsimp only
  (repeat' split) <;> simp [h]

theorem execMrecv_canonical {m d a b} : AnswersCanonical (execMrecv m d a b s) := by
  refine cWord_canonical h ?_
  dsimp only
  (repeat' split) <;> simp [h]

theorem execMprobe_canonical {m d b} : AnswersCanonical (execMprobe m d b s) := by
  refine cWord_canonical h ?_
  dsimp only
  split <;> simp [h]

theorem execMessageArrival_canonical {k} : AnswersCanonical (execMessageArrival k s) := by
  unfold execMessageArrival
  split
  · exact h
  · split
    · exact State.arrive_wf h _ fun u hu => by (repeat' split) <;> simp [hu]
    · exact h

theorem execMres_canonical {m a} : AnswersCanonical (execMres m a s) := by
  refine cWord_canonical h ?_
  dsimp only
  (repeat' split) <;> simp [h]

theorem execChainReservation_canonical {k} : AnswersCanonical (execChainReservation k s) := by
  unfold execChainReservation
  split
  · exact h
  · split
    · split
      · exact h
      · exact State.arrive_wf h _ fun u hu => by dsimp only; (repeat' split) <;> simp [hu]
    · exact h

theorem execChainAnswer_canonical {k} : AnswersCanonical (execChainAnswer k s) := by
  unfold execChainAnswer
  split
  · exact h
  · split
    · exact State.arrive_wf h _ fun u hu => by dsimp only; (repeat' split) <;> simp [hu]
    · exact h

theorem execMcast_canonical {m a} : AnswersCanonical (execMcast m a s) := by
  refine cWord_canonical h ?_
  dsimp only
  (repeat' split) <;> simp [h]

theorem execChainPayload_canonical {k} : AnswersCanonical (execChainPayload k s) := by
  unfold execChainPayload
  split
  · exact h
  · split
    · split
      · exact h
      · exact State.arrive_wf h _ fun u hu => State.payloadAt_wf _ _ _ _ _ _ _ _ _ (by split <;> simpa using hu)
    · exact h

theorem execChainRelease_canonical {k} : AnswersCanonical (execChainRelease k s) := by
  unfold execChainRelease
  (repeat' split) <;> simp [h]

/-! ### Barriers and votes (11 R240 to R243) -/

theorem execBarcfg_canonical {m id x0 y0 x1 y1 cnt} : AnswersCanonical (execBarcfg m id x0 y0 x1 y1 cnt s) := by
  refine cWord_canonical h ?_
  dsimp only
  (repeat' split) <;> simp [h]

theorem execBar_canonical {m id} : AnswersCanonical (execBar m id s) := by
  refine cWord_canonical h ?_
  dsimp only
  split <;> simp [h]

theorem execBarq_canonical {m d id} : AnswersCanonical (execBarq m d id s) := cResult_canonical h _ _ _ _ _

theorem execVote_canonical {m d a op} : AnswersCanonical (execVote m d a op s) := by
  refine cWord_canonical h ?_
  dsimp only
  split <;> simp [h]

theorem execBarrierArrival_canonical {k} : AnswersCanonical (execBarrierArrival k s) := by
  unfold execBarrierArrival
  split
  · exact h
  · split
    · exact State.arrive_wf h _ fun u hu => by dsimp only; split <;> simp [hu]
    · simp [h]
    · exact h

theorem execBarrierRelease_canonical {k} : AnswersCanonical (execBarrierRelease k s) := by
  unfold execBarrierRelease
  split
  · exact h
  · split
    · exact State.arrive_wf h _ fun u hu => by dsimp only; (repeat' split) <;> simp [hu]
    · exact h

theorem execVoteContribution_canonical {k} : AnswersCanonical (execVoteContribution k s) := by
  unfold execVoteContribution
  (repeat' split) <;> simp [h]

/-! ### Rings and streams (11 R244 to R247) -/

theorem execRget_canonical {m d ring} : AnswersCanonical (execRget m d ring s) := by
  refine cWord_canonical h ?_
  dsimp only
  (repeat' split) <;> simp [h]

theorem execRrel_canonical {m ring} : AnswersCanonical (execRrel m ring s) := by
  refine cWord_canonical h ?_
  (repeat' split) <;> simp [h]

theorem execRput_canonical {m ring} : AnswersCanonical (execRput m ring s) := by
  refine cWord_canonical h ?_
  (repeat' split) <;> simp [h]

theorem execRwait_canonical {m ring n limit} : AnswersCanonical (execRwait m ring n limit s) := by
  refine cWord_canonical h ?_
  (repeat' split) <;> simp [h]

theorem execRwaitTimeout_canonical {core} : AnswersCanonical (execRwaitTimeout core s) := by
  unfold execRwaitTimeout
  dsimp only
  (repeat' split) <;> simp [h]

theorem execRsub_canonical {m a ring} : AnswersCanonical (execRsub m a ring s) := by
  refine cWord_canonical h ?_
  dsimp only
  (repeat' split) <;> simp [h]

theorem execStreamPush_canonical {sl ring} : AnswersCanonical (execStreamPush sl ring s) := by
  unfold execStreamPush
  split
  · split
    · exact State.arrive_wf h _ fun u hu => by dsimp only; split <;> simp [hu]
    · exact h
  · simp [h]
  · exact h

theorem execStreamPull_canonical {sl ring} : AnswersCanonical (execStreamPull sl ring s) := by
  unfold execStreamPull
  dsimp only
  (repeat' split) <;> simp [h]

theorem execHbmAccess_canonical {k} : AnswersCanonical (execHbmAccess k s) := by
  unfold execHbmAccess
  split
  · exact h
  · split
    · simp [h]
    · simp [h]
    · simp [h]
    · exact State.arrive_wf h _ fun u hu => State.performRow_wf _ _ hu
    · exact State.arrive_wf h _ fun u hu => State.performRow_wf _ _ hu
    · split
      · exact State.arrive_wf h _ fun u hu => State.perform_wf hu _ _ fun _ => State.markDirty_mem _ _ _
      · exact h

theorem execAckArrival_canonical {k} : AnswersCanonical (execAckArrival k s) := by
  unfold execAckArrival
  (repeat' split) <;> simp [h]

theorem execLoopCountBlockReady_canonical {sl ring} : AnswersCanonical (execLoopCountBlockReady sl ring s) := by
  unfold execLoopCountBlockReady
  (repeat' split) <;> simp [h]

/-! ### The copy engine (12 R260 to R265) -/

theorem execCopy_canonical {m a b c tag} : AnswersCanonical (execCopy m a b c tag s) := by
  refine cWord_canonical h ?_
  dsimp only
  (repeat' split) <;> simp [h]

theorem execCwait_canonical {m mask} : AnswersCanonical (execCwait m mask s) := cWord_canonical h (by simp [h])

theorem execCquery_canonical {m c} : AnswersCanonical (execCquery m c s) := cResult_canonical h _ _ _ _ _

theorem execCopyBeat_canonical {tile k} : AnswersCanonical (execCopyBeat tile k s) := by
  unfold execCopyBeat
  (repeat' split) <;> simp [h]

theorem execCopyComplete_canonical {tile k} : AnswersCanonical (execCopyComplete tile k s) := by
  unfold execCopyComplete
  split <;> simp [h]

theorem execCopyFailure_canonical {k} : AnswersCanonical (execCopyFailure k s) := by
  unfold execCopyFailure
  split
  · exact h
  · split
    · split
      · exact h
      · exact State.arrive_wf h _ fun u hu => by dsimp only; split <;> simp [hu]
    · exact h

/-! ### The matrix unit (12 R263, R266 to R270) -/

theorem execMmul_canonical {m a b c acc bank stream f32 m1} : AnswersCanonical (execMmul m a b c acc bank stream f32 m1 s) := by
  refine cWord_canonical h ?_
  dsimp only
  (repeat' split) <;> simp [h]

theorem execMlw_canonical {m a bank fmt} : AnswersCanonical (execMlw m a bank fmt s) := by
  refine cWord_canonical h ?_
  dsimp only
  (repeat' split) <;> simp [h]

theorem execMfmt_canonical {m stream fmt} : AnswersCanonical (execMfmt m stream fmt s) := by
  refine cWord_canonical h ?_
  split <;> simp [h]

theorem execMout_canonical {m a cnt} : AnswersCanonical (execMout m a cnt s) := by
  refine cWord_canonical h ?_
  dsimp only
  (repeat' split) <;> simp [h]

theorem execMdrain_canonical {m a b acc cnt} : AnswersCanonical (execMdrain m a b acc cnt s) := by
  refine cWord_canonical h ?_
  dsimp only
  (repeat' split) <;> simp [h]

theorem execMver_canonical {m c acc} : AnswersCanonical (execMver m c acc s) := cResult_canonical h _ _ _ _ _

theorem execMzero_canonical {m b acc} : AnswersCanonical (execMzero m b acc s) := by
  refine cWord_canonical h ?_
  split <;> simp [h]

theorem execMwait_canonical {m b acc} : AnswersCanonical (execMwait m b acc s) := cWord_canonical h (by simp [h])

theorem execCopym_canonical {m a tag} : AnswersCanonical (execCopym m a tag s) := by
  refine cWord_canonical h ?_
  dsimp only
  (repeat' split) <;> simp [h]

theorem execMatrixStart_canonical {core k} : AnswersCanonical (execMatrixStart core k s) := by
  unfold execMatrixStart
  dsimp only
  (repeat' split) <;> simp [h]

theorem execMatrixComplete_canonical {core k} : AnswersCanonical (execMatrixComplete core k s) := by
  unfold execMatrixComplete
  (repeat' split) <;> simp [h]

/-! ### The Orrery (12 R271 to R274) -/

theorem execOpatch_canonical {m a cnt} : AnswersCanonical (execOpatch m a cnt s) := by
  refine cWord_canonical h ?_
  dsimp only
  (repeat' split) <;> simp [h]

theorem execOclk_canonical {m dom n} : AnswersCanonical (execOclk m dom n s) := by
  refine cWord_canonical h ?_
  split <;> simp [h]

theorem execOsetY_canonical {m a cell} : AnswersCanonical (execOsetY m a cell s) := cWord_canonical h (by simp [h])

theorem execOsetRes_canonical {m a cell} : AnswersCanonical (execOsetRes m a cell s) := cWord_canonical h (by simp [h])

theorem execOsetPort_canonical {m a port} : AnswersCanonical (execOsetPort m a port s) := by
  refine cWord_canonical h ?_
  (repeat' split) <;> simp [h]

theorem execOsetBind_canonical {m port ring unb} : AnswersCanonical (execOsetBind m port ring unb s) := by
  refine cWord_canonical h ?_
  split <;> simp [h]

theorem execOgetY_canonical {m c cell} : AnswersCanonical (execOgetY m c cell s) := by
  refine cWord_canonical h ?_
  split <;> simp [h]

theorem execOgetRes_canonical {m c cell} : AnswersCanonical (execOgetRes m c cell s) := by
  refine cWord_canonical h ?_
  split <;> simp [h]

theorem execOgetTap_canonical {m c tap} : AnswersCanonical (execOgetTap m c tap s) := by
  refine cWord_canonical h ?_
  split <;> simp [h]

theorem execOgetDom_canonical {m c dom} : AnswersCanonical (execOgetDom m c dom s) := by
  refine cWord_canonical h ?_
  split <;> simp [h]

theorem execOstep_canonical {m mask} : AnswersCanonical (execOstep m mask s) := cWord_canonical h (by simp [h])

theorem execOrun_canonical {m a mask} : AnswersCanonical (execOrun m a mask s) := by
  refine cWord_canonical h ?_
  dsimp only
  split <;> simp [h]

theorem execOhalt_canonical {m mask} : AnswersCanonical (execOhalt m mask s) := cWord_canonical h (by simp [h])

theorem execOtap_canonical {m a tap} : AnswersCanonical (execOtap m a tap s) := by
  refine cWord_canonical h ?_
  dsimp only
  (repeat' split) <;> simp [h]

theorem execOrreryTick_canonical {core} : AnswersCanonical (execOrreryTick core s) := by
  unfold execOrreryTick
  split <;> simp [h]

theorem execOrreryCountEnd_canonical {core dom} : AnswersCanonical (execOrreryCountEnd core dom s) := by
  unfold execOrreryCountEnd
  split <;> simp [h]

theorem execOsave_canonical {m a} : AnswersCanonical (execOsave m a s) := by
  refine cWord_canonical h ?_
  dsimp only
  (repeat' split) <;> simp [h]

theorem execOrst_canonical {m a} : AnswersCanonical (execOrst m a s) := by
  refine cWord_canonical h ?_
  dsimp only
  (repeat' split) <;> simp [h]

/-! ### Slices (02 R23 to R33, 09 R189 to R199) -/

theorem execHeldSlicePlacement_canonical {sl} : AnswersCanonical (execHeldSlicePlacement sl s) := by
  unfold execHeldSlicePlacement
  dsimp only
  (repeat' split) <;> simp [h]

theorem execUpcallArrival_canonical {k} : AnswersCanonical (execUpcallArrival k s) := by
  unfold execUpcallArrival
  split
  · exact h
  · split
    · exact State.arrive_wf h _ fun u hu => by dsimp only; split <;> simp [hu]
    · exact h

theorem execDispatch_canonical {tile} : AnswersCanonical (execDispatch tile s) := by
  unfold execDispatch
  (repeat' split) <;> simp [h]

theorem execSpawnPlacement_canonical {core} : AnswersCanonical (execSpawnPlacement core s) := by
  unfold execSpawnPlacement
  (repeat' split) <;> simp [h]

theorem execSliceCompletion_canonical {sl} : AnswersCanonical (execSliceCompletion sl s) := by
  unfold execSliceCompletion
  dsimp only
  (repeat' split) <;> simp [h]

theorem execResultRead_canonical {sl} : AnswersCanonical (execResultRead sl s) := by
  unfold execResultRead
  dsimp only
  (repeat' split) <;> simp [h]

theorem execLaunchCompletion_canonical {la} : AnswersCanonical (execLaunchCompletion la s) := by
  unfold execLaunchCompletion
  (repeat' split) <;> simp [h]

theorem execBudgetExhausted_canonical {sl} : AnswersCanonical (execBudgetExhausted sl s) := by
  unfold execBudgetExhausted
  (repeat' split) <;> simp [h]

theorem execBudgetGraceExpiry_canonical {sl} : AnswersCanonical (execBudgetGraceExpiry sl s) := by
  unfold execBudgetGraceExpiry
  (repeat' split) <;> simp [h]

theorem execSliceLate_canonical {sl} : AnswersCanonical (execSliceLate sl s) := by
  unfold execSliceLate
  (repeat' split) <;> simp [h]

theorem execFreezeRelease_canonical {core} : AnswersCanonical (execFreezeRelease core s) := by
  unfold execFreezeRelease
  (repeat' split) <;> simp [h]

theorem execAsyncTrapEntry_canonical {core} : AnswersCanonical (execAsyncTrapEntry core s) := by
  unfold execAsyncTrapEntry
  split <;> simp [h]

theorem execPreemptionHalt_canonical {core} : AnswersCanonical (execPreemptionHalt core s) := by
  unfold execPreemptionHalt
  dsimp only
  (repeat' split) <;> simp [h]

theorem execReplayAbort_canonical {sl} : AnswersCanonical (execReplayAbort sl s) := by
  unfold execReplayAbort
  (repeat' split) <;> simp [h]

/-! ### Territories (03, 12 R275 to R280) -/

theorem execEpochEnd_canonical : AnswersCanonical (execEpochEnd s) := h

theorem execPhaseStart_canonical {tile} : AnswersCanonical (execPhaseStart tile s) := by
  unfold execPhaseStart
  dsimp only
  (repeat' split) <;> simp [h]

theorem execSizeRequest_canonical {k} : AnswersCanonical (execSizeRequest k s) := by
  unfold execSizeRequest
  split
  · exact h
  · split
    · exact State.arrive_wf h _ fun u hu => by dsimp only; (repeat' split) <;> simp [hu]
    · exact h

theorem execSizeGrant_canonical {k} : AnswersCanonical (execSizeGrant k s) := by
  unfold execSizeGrant
  (repeat' split) <;> simp [h]

theorem execSizeGrantReturn_canonical {k} : AnswersCanonical (execSizeGrantReturn k s) := by
  unfold execSizeGrantReturn
  (repeat' split) <;> simp [h]

theorem execMoveCommit_canonical {tile} : AnswersCanonical (execMoveCommit tile s) := by
  unfold execMoveCommit
  (repeat' split) <;> simp [h]

theorem execEvacuationExpiry_canonical {tile} : AnswersCanonical (execEvacuationExpiry tile s) := by
  unfold execEvacuationExpiry
  (repeat' split) <;> simp [h]

theorem execCessionClearing_canonical {tile} : AnswersCanonical (execCessionClearing tile s) := by
  unfold execCessionClearing
  (repeat' split) <;> simp [h]

theorem execCessionJoining_canonical {tile} : AnswersCanonical (execCessionJoining tile s) := by
  unfold execCessionJoining
  dsimp only
  (repeat' split) <;> simp [h]

theorem execFreezeMark_canonical {k} : AnswersCanonical (execFreezeMark k s) := by
  unfold execFreezeMark
  split
  · exact h
  · split
    · exact State.arrive_wf h _ fun u hu => by dsimp only; split <;> simp [hu]
    · exact h

theorem execFreezeTakesHold_canonical {terr} : AnswersCanonical (execFreezeTakesHold terr s) := by
  unfold execFreezeTakesHold
  (repeat' split) <;> simp [h]

theorem execThawRequest_canonical {k} : AnswersCanonical (execThawRequest k s) := by
  unfold execThawRequest
  (repeat' split) <;> simp [h]

theorem execAnchorRequest_canonical {k} : AnswersCanonical (execAnchorRequest k s) := by
  unfold execAnchorRequest
  split
  · exact h
  · split
    · exact State.arrive_wf h _ fun u hu => by
        dsimp only
        split
        · simpa using hu
        · split
          · simpa using hu
          · rw [State.send_mem]
            split <;> simpa using hu
    · exact h

theorem execAnchorApply_canonical {k} : AnswersCanonical (execAnchorApply k s) := by
  unfold execAnchorApply
  split
  · exact h
  · split
    · exact State.arrive_wf h _ fun u hu => by
        dsimp only
        split
        · simpa using hu
        · rw [State.send_mem]
          split <;> simpa using hu
    · exact h

theorem execShapeSnapshot_canonical {k} : AnswersCanonical (execShapeSnapshot k s) := by
  unfold execShapeSnapshot
  (repeat' split) <;> simp [h]

theorem execHandlerTileAnswer_canonical {k} : AnswersCanonical (execHandlerTileAnswer k s) := by
  unfold execHandlerTileAnswer
  split
  · exact h
  · split
    · simp [h]
    · simp [h]
    · exact State.arrive_wf h _ fun u hu => State.snapBack_wf _ _ _ _ _ _ _ (by simpa using hu)
    · exact h

theorem execTshape_canonical {m c a} : AnswersCanonical (execTshape m c a s) := by
  refine cWord_canonical h ?_
  dsimp only
  (repeat' split) <;> simp [h]

theorem execTmap_canonical {m c a} : AnswersCanonical (execTmap m c a s) := cWord_canonical h (by simp [h])

theorem execTpress_canonical {m a} : AnswersCanonical (execTpress m a s) := cWord_canonical h (by simp [h])

theorem execTanchor_canonical {m a on} : AnswersCanonical (execTanchor m a on s) := cWord_canonical h (by simp [h])

theorem execTfreeze_canonical {m} : AnswersCanonical (execTfreeze m s) := cWord_canonical h (by simp [h])

theorem execTthaw_canonical {m} : AnswersCanonical (execTthaw m s) := cWord_canonical h (by simp [h])

theorem execTevac_canonical {m} : AnswersCanonical (execTevac m s) := by
  refine cWordNoDelay_canonical h ?_
  split
  · trivial
  · refine State.ctlOnly_canonical h ?_
    split <;> simp [h]

/-! ### Host commands (16 R295 to R310) -/

theorem execUnknownCommand_canonical {hd code} : AnswersCanonical (execUnknownCommand hd code s) := by
  unfold execUnknownCommand
  (repeat' split) <;> simp [h]

theorem execCreate_canonical {hd tiles minA maxB} : AnswersCanonical (execCreate hd tiles minA maxB s) :=
  State.runCmd_canonical h _ _ _ _ (by simp [h])

theorem execCreateIndexed_canonical {hd version tiles minA maxB} : AnswersCanonical (execCreateIndexed hd version tiles minA maxB s) :=
  State.runCmd_canonical h _ _ _ _ (by simp [h])

theorem execDissolve_canonical {hd} : AnswersCanonical (execDissolve hd s) :=
  State.runCmd_canonical h _ _ _ _ ⟨by simpa using h, fun _ hu => State.tryDissolve_wf _ _ hu⟩

theorem execPolicy_canonical {hd id value} : AnswersCanonical (execPolicy hd id value s) := State.runPolicy_canonical h _ _ _

theorem execPolicySetAnchor_canonical {hd value} : AnswersCanonical (execPolicySetAnchor hd value s) := State.runPolicy_canonical h _ _ _

theorem execPolicyClearAnchor_canonical {hd value} : AnswersCanonical (execPolicyClearAnchor hd value s) := State.runPolicy_canonical h _ _ _

theorem execPxpeers_canonical {hd value} : AnswersCanonical (execPxpeers hd value s) := State.runPolicy_canonical h _ _ _

theorem execOps_canonical {hd value} : AnswersCanonical (execOps hd value s) := State.runPolicy_canonical h _ _ _

theorem execMapPages_canonical {hd va len psize perm} : AnswersCanonical (execMapPages hd va len psize perm s) := by
  refine State.runCmd_canonical h _ _ _ _ ?_
  dsimp only
  (repeat' split) <;> simp [h]

theorem execUnmap_canonical {hd va len} : AnswersCanonical (execUnmap hd va len s) := by
  refine State.runCmd_canonical h _ _ _ _ ?_
  dsimp only
  split <;> simp [h]

theorem execProtect_canonical {hd va len perm} : AnswersCanonical (execProtect hd va len perm s) := by
  refine State.runCmd_canonical h _ _ _ _ ?_
  dsimp only
  split <;> simp [h]

theorem execLoadCode_canonical {hd body dimg} : AnswersCanonical (execLoadCode hd body dimg s) := by
  refine State.runCmd_canonical h _ _ _ _ ?_
  dsimp only
  split
  · trivial
  · split
    · simpa using h
    · split
      · next s2 e =>
        have hs : Memory.wf s2.mem = true := State.writeHbm_wf e (by simpa using h)
        simpa using hs
      · trivial

theorem execLaunch_canonical {hd body} : AnswersCanonical (execLaunch hd body s) := by
  refine State.runCmd_canonical h _ _ _ _ ?_
  dsimp only
  (repeat' split) <;> simp [h]

theorem execPreempt_canonical {hd} : AnswersCanonical (execPreempt hd s) := State.runCmd_canonical h _ _ _ _ (by simp [h])

theorem execResume_canonical {hd} : AnswersCanonical (execResume hd s) := State.runCmd_canonical h _ _ _ _ (by simp [h])

theorem execDebugClaim_canonical {hd sl} : AnswersCanonical (execDebugClaim hd sl s) := State.runDebug_canonical h _ _ _ fun x => by simp [h]

theorem execDebugRelease_canonical {hd sl} : AnswersCanonical (execDebugRelease hd sl s) := State.runDebug_canonical h _ _ _ fun x => by simp [h]

theorem execDebugHalt_canonical {hd sl} : AnswersCanonical (execDebugHalt hd sl s) := State.runDebug_canonical h _ _ _ fun x => by simp [h]

theorem execDebugRead_canonical {hd sl} : AnswersCanonical (execDebugRead hd sl s) := State.runDebug_canonical h _ _ _ fun x => by simp [h]

theorem execDebugWrite_canonical {hd sl pos wr} : AnswersCanonical (execDebugWrite hd sl pos wr s) := by
  refine State.runDebug_canonical h _ _ _ fun x => ?_
  split <;> simp [h]

theorem execDebugStep_canonical {hd sl} : AnswersCanonical (execDebugStep hd sl s) := State.runDebug_canonical h _ _ _ fun x => by simp [h]

theorem execDebugGo_canonical {hd sl} : AnswersCanonical (execDebugGo hd sl s) := State.runDebug_canonical h _ _ _ fun x => by simp [h]

/-! ### Sessions and interfaces (17) -/

theorem execOpenSession_canonical {hd fa nonce} : AnswersCanonical (execOpenSession hd fa nonce s) := by
  unfold execOpenSession
  split
  · exact h
  · split
    · exact State.runCmd_canonical h _ _ _ _ trivial
    · (repeat' split) <;> simpa using h

theorem execReceipt_canonical {hd} : AnswersCanonical (execReceipt hd s) := State.runCmd_canonical h _ _ _ _ (by simp [h])

theorem execClose_canonical {hd} : AnswersCanonical (execClose hd s) := State.runCmd_canonical h _ _ _ _ (by simp [h])

theorem execEvlog_canonical {hd first count} : AnswersCanonical (execEvlog hd first count s) := State.runCmd_canonical h _ _ _ _ (by simp [h])

theorem execEpadd_canonical {hd idx fa job ports} : AnswersCanonical (execEpadd hd idx fa job ports s) := by
  refine State.runCmd_canonical h _ _ _ _ ?_
  split <;> simp [h]

theorem execEpdel_canonical {hd idx} : AnswersCanonical (execEpdel hd idx s) := by
  refine State.runCmd_canonical h _ _ _ _ ?_
  split <;> simp [h]

theorem execIfRead_canonical {hd reg} : AnswersCanonical (execIfRead hd reg s) := by
  refine State.runCmd_canonical h _ _ _ _ ?_
  split <;> simp [h]

theorem execIfWrite_canonical {hd reg value} : AnswersCanonical (execIfWrite hd reg value s) := by
  refine State.runCmd_canonical h _ _ _ _ ?_
  split
  · trivial
  · split
    · exact ⟨h, fun u hu => State.ifError_wf _ _ (by simpa using hu)⟩
    · split
      · simpa using h
      · trivial

theorem execGetCertificate_canonical {sess slot} : AnswersCanonical (execGetCertificate sess slot s) := by
  unfold execGetCertificate
  split <;> simp [h]

theorem execChallenge_canonical {sess nonce} : AnswersCanonical (execChallenge sess nonce s) := by
  unfold execChallenge
  split <;> simp [h]

theorem execGetMeasurements_canonical {sess index} : AnswersCanonical (execGetMeasurements sess index s) := by
  unfold execGetMeasurements
  (repeat' split) <;> simp [h]

theorem execSpdmSessionStart_canonical {o} : AnswersCanonical (execSpdmSessionStart o s) := by
  unfold execSpdmSessionStart
  split <;> simp [h]

theorem execSpdmSessionEnd_canonical {sess} : AnswersCanonical (execSpdmSessionEnd sess s) := by
  unfold execSpdmSessionEnd
  split
  · simpa using h
  · exact State.foldl_wf _ _ _ (fun _ _ hu => State.ifError_wf _ _ hu) h

theorem execGetDeviceInterfaceReport_canonical {sess terr} : AnswersCanonical (execGetDeviceInterfaceReport sess terr s) := by
  unfold execGetDeviceInterfaceReport
  (repeat' split) <;> simp [h]

theorem execLockInterfaceRequest_canonical {sess terr} : AnswersCanonical (execLockInterfaceRequest sess terr s) := by
  unfold execLockInterfaceRequest
  (repeat' split) <;> simp [h]

theorem execStartInterfaceRequest_canonical {sess terr nonce} : AnswersCanonical (execStartInterfaceRequest sess terr nonce s) := by
  unfold execStartInterfaceRequest
  (repeat' split) <;> simp [h]

theorem execStopInterfaceRequest_canonical {sess terr} : AnswersCanonical (execStopInterfaceRequest sess terr s) := by
  unfold execStopInterfaceRequest
  (repeat' split) <;> simp [h]

omit h in
theorem execDeviceReset_canonical : AnswersCanonical (execDeviceReset s) := State.reset_mem

theorem execFwwrite_canonical {hd off bytes} : AnswersCanonical (execFwwrite hd off bytes s) := by
  refine State.runCmd_canonical h _ _ _ _ ?_
  split <;> simp [h]

theorem execFwactivate_canonical {hd force} : AnswersCanonical (execFwactivate hd force s) := by
  unfold execFwactivate
  refine State.runCmd_canonical h _ _ _ _ ?_
  split
  · trivial
  · split
    · trivial
    · exact ⟨h, fun u hu => State.foldl_wf _ _ _ (fun _ _ hv => State.endForUpdate_wf _ _ hv) hu⟩

theorem execFwcommit_canonical {hd} : AnswersCanonical (execFwcommit hd s) := by
  refine State.runCmd_canonical h _ _ _ _ ?_
  dsimp only
  (repeat' split) <;> simp [h]

/-! ### Images and checkpoints (20) -/

theorem execQuiescenceComplete_canonical {tile} : AnswersCanonical (execQuiescenceComplete tile s) := by
  unfold execQuiescenceComplete
  split <;> simp [h]

theorem execSave_canonical {hd off full} : AnswersCanonical (execSave hd off full s) := by
  refine State.runCmd_canonical h _ _ _ _ ?_
  split <;> simp [h]

theorem execRestore_canonical {hd off} : AnswersCanonical (execRestore hd off s) := by
  refine State.runCmd_canonical h _ _ _ _ ?_
  dsimp only
  (repeat' split) <;> simp [h]

theorem execCheckpoint_canonical {hd body} : AnswersCanonical (execCheckpoint hd body s) := by
  refine State.runCmd_canonical h _ _ _ _ ?_
  (repeat' split) <;> simp [h]

theorem execDirty_canonical {hd first count} : AnswersCanonical (execDirty hd first count s) := by
  refine State.runCmd_canonical h _ _ _ _ ?_
  split <;> simp [h]

theorem execLoadpages_canonical {hd off} : AnswersCanonical (execLoadpages hd off s) := by
  refine State.runCmd_canonical h _ _ _ _ ?_
  dsimp only
  (repeat' split) <;> simp [h]

theorem execPxsend_canonical {hd off buddy boff bpoff} : AnswersCanonical (execPxsend hd off buddy boff bpoff s) := by
  refine State.runCmd_canonical h _ _ _ _ ?_
  split <;> simp [h]

theorem execLinkLoss_canonical {k} : AnswersCanonical (execLinkLoss k s) := by
  unfold execLinkLoss
  simp [h]

theorem execParallaxAck_canonical {k status} : AnswersCanonical (execParallaxAck k status s) := by
  unfold execParallaxAck
  split <;> simp [h]

theorem execParallaxStreamArrival_canonical {k} : AnswersCanonical (execParallaxStreamArrival k s) := by
  unfold execParallaxStreamArrival
  dsimp only
  (repeat' split) <;> simp [h]

/-! ### The module (21) -/

theorem execRmaWrite_canonical {sess terr va bytes} : AnswersCanonical (execRmaWrite sess terr va bytes s) := by
  unfold execRmaWrite
  rw [answersCanonical_next]
  split
  · simpa using h
  · split
    · simpa using h
    · split
      · next e => simpa using State.writeHbm_wf e h
      · simpa using h

theorem execRmaRead_canonical {sess terr va len} : AnswersCanonical (execRmaRead sess terr va len s) := by
  unfold execRmaRead
  (repeat' split) <;> simp [h]

theorem execUnsupportedPacket_canonical : AnswersCanonical (execUnsupportedPacket s) := h

theorem execCounters_canonical {hd first count} : AnswersCanonical (execCounters hd first count s) := by
  unfold execCounters
  refine State.runCmd_canonical h _ _ _ _ ?_
  (repeat' split) <;> simp [h]

theorem execTelemetry_canonical {hd} : AnswersCanonical (execTelemetry hd s) := State.runCmd_canonical h _ _ _ _ (by simp [h])

theorem execFenceTile_canonical {hd x y} : AnswersCanonical (execFenceTile hd x y s) := by
  refine State.runCmd_canonical h _ _ _ _ ?_
  split <;> simp [h]

theorem execPatrolScrub_canonical {page corrected uncorrectable} : AnswersCanonical (execPatrolScrub page corrected uncorrectable s) := by
  unfold execPatrolScrub
  split <;> simp [h]

theorem execIslandPowerWindow_canonical {isl watts16 module16} : AnswersCanonical (execIslandPowerWindow isl watts16 module16 s) := by
  unfold execIslandPowerWindow
  dsimp only
  (repeat' split) <;> simp [h]

theorem execThermalThrottle_canonical {isl} : AnswersCanonical (execThermalThrottle isl s) := by
  unfold execThermalThrottle
  split <;> simp [h]

theorem execThermalCooled_canonical {isl} : AnswersCanonical (execThermalCooled isl s) := h

theorem execThermalShutdown_canonical {isl} : AnswersCanonical (execThermalShutdown isl s) := h

theorem execPowerLoss_canonical : AnswersCanonical (execPowerLoss s) := h

/-! ### NOP and LI (09 R200, R207) -/

theorem execNopC_canonical {m} : AnswersCanonical (execNopC m s) := cWord_canonical h (by simp [h])

theorem execNopA_canonical {g} : AnswersCanonical (execNopA g s) := finish_canonical h ((Res.canonical_ok s).2 h)

theorem execLiSigned_canonical {m d p} : AnswersCanonical (execLiSigned m d p s) := cResult_canonical h _ _ _ _ _

theorem execLiHbm_canonical {m d p} : AnswersCanonical (execLiHbm m d p s) := cResult_canonical h _ _ _ _ _

theorem execLiPeer_canonical {m d p} : AnswersCanonical (execLiPeer m d p s) := cResult_canonical h _ _ _ _ _

theorem execLiShifted_canonical {m d p} : AnswersCanonical (execLiShifted m d p s) := cResult_canonical h _ _ _ _ _

end

end Sys2Proof.Machine
end

section
/-! PROOFS. The meaning of every instruction and event keeps memory's canonical form. -/

namespace Sys2Proof.Machine

open Sys2Proof

/-- Every meaning keeps the form: an A-word by its shape, which writes no memory, any other by its own lemma. -/
theorem exec_canonical {s : State} (h : Memory.wf s.mem = true) (i : Instr) : AnswersCanonical (exec i s) := by
  cases i with
  | nopC => exact execNopC_canonical h
  | ret => exact execRet_canonical h
  | rett => exact execRett_canonical h
  | upret => exact execUpret_canonical h
  | exit => exact execExit_canonical h
  | yld => exact execYld_canonical h
  | trap => exact execTrap_canonical h
  | bkpt => exact execBkpt_canonical h
  | fence => exact execFence_canonical h
  | fencesc => exact execFencesc_canonical h
  | br => exact execBr_canonical h
  | brp => exact execBrp_canonical h
  | call => exact execCall_canonical h
  | detach => exact execDetach_canonical h
  | attach => exact execAttach_canonical h
  | loop => exact execLoop_canonical h
  | loopr => exact execLoopr_canonical h
  | jmp => exact execJmp_canonical h
  | callr => exact execCallr_canonical h
  | mvtl => exact execMvtl_canonical h
  | mvfl => exact execMvfl_canonical h
  | mfs => exact execMfs_canonical h
  | mts => exact execMts_canonical h
  | disc => exact execDisc_canonical h
  | cycle => exact execCycle_canonical h
  | spawn => exact execSpawn_canonical h
  | ld => exact execLd_canonical h
  | st => exact execSt_canonical h
  | lda m _ _ _ sc => exact execLda_canonical h (m := m) (sc := sc)
  | stl => exact execStl_canonical h
  | ldp => exact execLdp_canonical h
  | stp => exact execStp_canonical h
  | vld => exact execVld_canonical h
  | vst => exact execVst_canonical h
  | vldp => exact execVldp_canonical h
  | vstp => exact execVstp_canonical h
  | vlds => exact execVlds_canonical h
  | vsts => exact execVsts_canonical h
  | vgath => exact execVgath_canonical h
  | vscat => exact execVscat_canonical h
  | atom => exact execAtom_canonical h
  | atomp => exact execAtomp_canonical h
  | bar => exact execBar_canonical h
  | barq => exact execBarq_canonical h
  | vote => exact execVote_canonical h
  | rsub => exact execRsub_canonical h
  | rget => exact execRget_canonical h
  | rput => exact execRput_canonical h
  | rrel => exact execRrel_canonical h
  | barcfg => exact execBarcfg_canonical h
  | msend => exact execMsend_canonical h
  | mrecv => exact execMrecv_canonical h
  | mprobe => exact execMprobe_canonical h
  | mcast => exact execMcast_canonical h
  | mres => exact execMres_canonical h
  | nopA g => exact execNopA_canonical h (g := g)
  | liSigned => exact execLiSigned_canonical h
  | liHbm => exact execLiHbm_canonical h
  | liPeer => exact execLiPeer_canonical h
  | liShifted => exact execLiShifted_canonical h
  | rwait m => exact execRwait_canonical h (m := m)
  | copy => exact execCopy_canonical h
  | copym => exact execCopym_canonical h
  | cwait => exact execCwait_canonical h
  | cquery => exact execCquery_canonical h
  | mlw => exact execMlw_canonical h
  | mfmt => exact execMfmt_canonical h
  | mmul => exact execMmul_canonical h
  | mout => exact execMout_canonical h
  | mdrain => exact execMdrain_canonical h
  | mver => exact execMver_canonical h
  | mzero => exact execMzero_canonical h
  | mwait => exact execMwait_canonical h
  | opatch => exact execOpatch_canonical h
  | oclk => exact execOclk_canonical h
  | osetY => exact execOsetY_canonical h
  | osetRes => exact execOsetRes_canonical h
  | osetPort => exact execOsetPort_canonical h
  | osetBind => exact execOsetBind_canonical h
  | ogetY => exact execOgetY_canonical h
  | ogetRes => exact execOgetRes_canonical h
  | ogetTap => exact execOgetTap_canonical h
  | ogetDom => exact execOgetDom_canonical h
  | ostep => exact execOstep_canonical h
  | orun => exact execOrun_canonical h
  | ohalt => exact execOhalt_canonical h
  | osave => exact execOsave_canonical h
  | orst => exact execOrst_canonical h
  | otap => exact execOtap_canonical h
  | tshape => exact execTshape_canonical h
  | tmap => exact execTmap_canonical h
  | tpress => exact execTpress_canonical h
  | tanchor => exact execTanchor_canonical h
  | tfreeze => exact execTfreeze_canonical h
  | tthaw => exact execTthaw_canonical h
  | tevac => exact execTevac_canonical h
  | illegalInstruction => exact execIllegalInstruction_canonical h
  | emulation => exact execEmulation_canonical h
  | chainRelease => exact execChainRelease_canonical h
  | sizeGrantReturn => exact execSizeGrantReturn_canonical h
  | handlerTileAnswer => exact execHandlerTileAnswer_canonical h
  | spawnPlacement => exact execSpawnPlacement_canonical h
  | variableLatencyResponse => exact execVariableLatencyResponse_canonical h
  | freezeRelease => exact execFreezeRelease_canonical h
  | asyncTrapEntry => exact execAsyncTrapEntry_canonical h
  | dispatch => exact execDispatch_canonical h
  | heldSlicePlacement => exact execHeldSlicePlacement_canonical h
  | budgetExhausted => exact execBudgetExhausted_canonical h
  | budgetGraceExpiry => exact execBudgetGraceExpiry_canonical h
  | sliceLate => exact execSliceLate_canonical h
  | sliceCompletion => exact execSliceCompletion_canonical h
  | resultRead => exact execResultRead_canonical h
  | launchCompletion => exact execLaunchCompletion_canonical h
  | peerRequestArrival => exact execPeerRequestArrival_canonical h
  | hbmAccess => exact execHbmAccess_canonical h
  | refusalArrival => exact execRefusalArrival_canonical h
  | ackArrival => exact execAckArrival_canonical h
  | retransmitTimeout => exact execRetransmitTimeout_canonical h
  | messageArrival => exact execMessageArrival_canonical h
  | chainReservation => exact execChainReservation_canonical h
  | chainAnswer => exact execChainAnswer_canonical h
  | chainPayload => exact execChainPayload_canonical h
  | barrierArrival => exact execBarrierArrival_canonical h
  | barrierRelease => exact execBarrierRelease_canonical h
  | voteContribution => exact execVoteContribution_canonical h
  | copyBeat => exact execCopyBeat_canonical h
  | copyComplete => exact execCopyComplete_canonical h
  | copyFailure => exact execCopyFailure_canonical h
  | matrixStart => exact execMatrixStart_canonical h
  | matrixComplete => exact execMatrixComplete_canonical h
  | streamPush => exact execStreamPush_canonical h
  | streamPull => exact execStreamPull_canonical h
  | loopCountBlockReady => exact execLoopCountBlockReady_canonical h
  | rwaitTimeout => exact execRwaitTimeout_canonical h
  | orreryTick => exact execOrreryTick_canonical h
  | orreryCountEnd => exact execOrreryCountEnd_canonical h
  | epochEnd => exact execEpochEnd_canonical h
  | phaseStart => exact execPhaseStart_canonical h
  | sizeRequest => exact execSizeRequest_canonical h
  | sizeGrant => exact execSizeGrant_canonical h
  | moveCommit => exact execMoveCommit_canonical h
  | evacuationExpiry => exact execEvacuationExpiry_canonical h
  | cessionClearing => exact execCessionClearing_canonical h
  | cessionJoining => exact execCessionJoining_canonical h
  | upcallArrival => exact execUpcallArrival_canonical h
  | freezeMark => exact execFreezeMark_canonical h
  | freezeTakesHold => exact execFreezeTakesHold_canonical h
  | thawRequest => exact execThawRequest_canonical h
  | anchorRequest => exact execAnchorRequest_canonical h
  | anchorApply => exact execAnchorApply_canonical h
  | shapeSnapshot => exact execShapeSnapshot_canonical h
  | preemptionHalt => exact execPreemptionHalt_canonical h
  | quiescenceComplete => exact execQuiescenceComplete_canonical h
  | replayAbort => exact execReplayAbort_canonical h
  | patrolScrub => exact execPatrolScrub_canonical h
  | islandPowerWindow => exact execIslandPowerWindow_canonical h
  | thermalThrottle => exact execThermalThrottle_canonical h
  | thermalCooled => exact execThermalCooled_canonical h
  | thermalShutdown isl => exact execThermalShutdown_canonical h (isl := isl)
  | deviceReset => exact execDeviceReset_canonical
  | powerLoss => exact execPowerLoss_canonical h
  | spdmSessionEnd => exact execSpdmSessionEnd_canonical h
  | linkLoss => exact execLinkLoss_canonical h
  | parallaxStreamArrival => exact execParallaxStreamArrival_canonical h
  | parallaxAck => exact execParallaxAck_canonical h
  | rmaWrite => exact execRmaWrite_canonical h
  | rmaRead => exact execRmaRead_canonical h
  | unsupportedPacket => exact execUnsupportedPacket_canonical h
  | create => exact execCreate_canonical h
  | dissolve => exact execDissolve_canonical h
  | policy => exact execPolicy_canonical h
  | policySetAnchor => exact execPolicySetAnchor_canonical h
  | policyClearAnchor => exact execPolicyClearAnchor_canonical h
  | pxpeers => exact execPxpeers_canonical h
  | ops => exact execOps_canonical h
  | mapPages => exact execMapPages_canonical h
  | unmap => exact execUnmap_canonical h
  | protect => exact execProtect_canonical h
  | loadCode => exact execLoadCode_canonical h
  | launch => exact execLaunch_canonical h
  | preempt => exact execPreempt_canonical h
  | save => exact execSave_canonical h
  | restore => exact execRestore_canonical h
  | resume => exact execResume_canonical h
  | debugClaim => exact execDebugClaim_canonical h
  | debugRelease => exact execDebugRelease_canonical h
  | debugHalt => exact execDebugHalt_canonical h
  | debugRead => exact execDebugRead_canonical h
  | debugWrite => exact execDebugWrite_canonical h
  | debugStep => exact execDebugStep_canonical h
  | debugGo => exact execDebugGo_canonical h
  | fwwrite => exact execFwwrite_canonical h
  | fwactivate => exact execFwactivate_canonical h
  | fwcommit => exact execFwcommit_canonical h
  | openSession => exact execOpenSession_canonical h
  | close => exact execClose_canonical h
  | receipt => exact execReceipt_canonical h
  | evlog => exact execEvlog_canonical h
  | epadd => exact execEpadd_canonical h
  | epdel => exact execEpdel_canonical h
  | ifRead => exact execIfRead_canonical h
  | ifWrite => exact execIfWrite_canonical h
  | getCertificate => exact execGetCertificate_canonical h
  | challenge => exact execChallenge_canonical h
  | getMeasurements => exact execGetMeasurements_canonical h
  | getDeviceInterfaceReport => exact execGetDeviceInterfaceReport_canonical h
  | lockInterfaceRequest => exact execLockInterfaceRequest_canonical h
  | startInterfaceRequest => exact execStartInterfaceRequest_canonical h
  | stopInterfaceRequest => exact execStopInterfaceRequest_canonical h
  | createIndexed => exact execCreateIndexed_canonical h
  | dirty => exact execDirty_canonical h
  | checkpoint => exact execCheckpoint_canonical h
  | pxsend => exact execPxsend_canonical h
  | loadpages => exact execLoadpages_canonical h
  | counters => exact execCounters_canonical h
  | telemetry => exact execTelemetry_canonical h
  | fenceTile => exact execFenceTile_canonical h
  | spdmSessionStart => exact execSpdmSessionStart_canonical h
  | unknownCommand => exact execUnknownCommand_canonical h
  | _ => ?_
  -- SEAL, whose case has a keyword of Lean as its name, comes first; the A-words are left.
  · exact execSeal_canonical h
  all_goals exact aluWord_canonical h _ _ _ _ _ _

end Sys2Proof.Machine
end

section
/-! PROOFS. A bundle, a move and a step keep memory's canonical form. -/

namespace Sys2Proof.Machine

open Sys2Proof

section
variable {s : State} (h : Memory.wf s.mem = true)
include h

/-! ### The words of a bundle (08 R156, 16 R308) -/

theorem nextOr_exec_wf {u : State} (hu : Memory.wf u.mem = true) (i : Instr) : Memory.wf (nextOr (exec i u) s).mem = true := by
  have hi := exec_canonical hu i
  unfold nextOr
  split
  · next e => rw [e] at hi; exact hi
  · exact h

theorem State.runWord_wf (before : List Pend) (i : Instr) : Memory.wf (s.runWord before i).mem = true := by
  have hn := nextOr_exec_wf h (u := s.modCur (fun c => { c with pend := before })) (by simpa using h) i
  unfold State.runWord
  dsimp only
  split
  · simpa using hn
  · exact hn

theorem State.emulWord_wf (n : Nat) (i : Instr) : Memory.wf (s.emulWord n i).mem = true := by
  have hn := nextOr_exec_wf h (u := s.modCur (fun c => c.emulating n)) (by simpa using h) i
  unfold State.emulWord
  dsimp only
  split
  · simpa using hn
  · exact h

theorem State.emulWords_wf (n : Nat) : Memory.wf (s.emulWords n).mem = true :=
  State.foldl_wf _ _ _ (fun _ _ hu => State.emulWord_wf hu _ _) h

end

theorem Run.held_st (r : Run) (core : CoreId) (c : Core) : (r.held core c).st = r.st := by
  unfold Run.held
  split <;> rfl

theorem Run.word_wf {r : Run} (h : Memory.wf r.st.mem = true) (before : List Pend) (core : CoreId) (i : Instr) :
    Memory.wf (Run.word before core r i).st.mem = true := by
  have hw := State.runWord_wf h before i
  unfold Run.word
  dsimp only
  split
  · exact h
  · split
    · dsimp only
      split
      · exact State.emulWords_wf hw _
      · exact hw
    · exact h
    · rw [Run.held_st]
      exact h

theorem Run.core_wf {r : Run} (h : Memory.wf r.st.mem = true) (is : List Instr) (core : CoreId) :
    Memory.wf (Run.core is r core).st.mem = true :=
  List.foldlRecOn is _ (motive := fun r : Run => Memory.wf r.st.mem = true) h fun _ hr i _ => Run.word_wf hr _ core i

section
variable {s : State} (h : Memory.wf s.mem = true)
include h

theorem State.runBundle_wf (u : CoreId) (g : List CoreId) (pc : Word) (w : BitVec 64) :
    Memory.wf (s.runBundle u g pc w).st.mem = true :=
  List.foldlRecOn g _ (motive := fun r : Run => Memory.wf r.st.mem = true) (by simpa using h) fun _ hr c _ => Run.core_wf hr _ c

/-- A bundle of a unit: the accesses under way reach their banks, and its words have their effects or none. -/
theorem State.issue'_wf (u : CoreId) : Memory.wf (s.issue' u).mem = true := by
  unfold State.issue'
  dsimp only
  split
  · simp [h]
  · next w _ =>
    have hr := State.runBundle_wf (s := ((s.performFor (s.issuers u) w).modCores (s.joiners u) Core.rejoin).modCores (s.issuers u) Core.hold)
      (by simp [h]) u (s.issuers u) (s.cores[u]).pc w
    split
    · simp [h]
    · split
      · simp [h]
      · split
        · simp [h]
        · split
          · simp [h]
          · rw [State.bundleDone_mem, State.foldl_mem _ _ _ (fun _ _ => State.modCore_mem _ _ _)]
            exact hr

/-! ### What a unit, a park, a controller or the command processor may do -/

/-- EXIT, TEVAC or YIELD takes effect. -/
theorem State.payOwed_canonical (u : CoreId) : MaybeCanonical (s.payOwed u) := by
  unfold State.payOwed
  dsimp only
  (repeat' split) <;> simp [h]

theorem State.ringPark_canonical (core : CoreId) (ring : Ring) (n : Nat) (b : Back) : MaybeCanonical (s.ringPark core ring n b) := by
  unfold State.ringPark
  (repeat' split) <;> simp [h]

theorem State.parkOver_canonical (core : CoreId) (p : Park) : MaybeCanonical (s.parkOver core p) := by
  unfold State.parkOver
  dsimp only
  (repeat' split) <;> simp [h, State.ringPark_canonical h]

theorem State.stepEnd_canonical (core : CoreId) : MaybeCanonical (s.stepEnd core) := by
  unfold State.stepEnd
  dsimp only
  split <;> simp [h]

theorem State.parkStep_canonical (core : CoreId) : MaybeCanonical (s.parkStep core) := by
  unfold State.parkStep
  dsimp only
  (repeat' split) <;> simp [h, State.stepEnd_canonical h, State.parkOver_canonical h]

theorem State.loadStep_canonical (x : Slice) (ring : Nat) (r : RingSt) (b : Sub) (t : TileId) : MaybeCanonical (s.loadStep x ring r b t) := by
  unfold State.loadStep
  dsimp only
  (repeat' split) <;> simp [h]

theorem State.storeStep_canonical (x : Slice) (ring : Nat) (r : RingSt) (b : Sub) (t : TileId) : MaybeCanonical (s.storeStep x ring r b t) := by
  unfold State.storeStep
  (repeat' split) <;> simp [h]

theorem State.lcbStep_canonical (x : Slice) (ring : Nat) (b : Sub) (va : Nat) : MaybeCanonical (s.lcbStep x ring b va) := by
  unfold State.lcbStep
  (repeat' split) <;> simp [h]

theorem State.controller_canonical (sl ring : Nat) : MaybeCanonical (s.controller sl ring) := by
  unfold State.controller
  (repeat' split) <;> simp [State.lcbStep_canonical h, State.storeStep_canonical h, State.loadStep_canonical h]

theorem State.saveStep_canonical (terr : Nat) : MaybeCanonical (s.saveStep terr) := by
  unfold State.saveStep
  dsimp only
  (repeat' split) <;> simp [h]

theorem State.pxStep_canonical (k : Nat) : MaybeCanonical (s.pxStep k) := by
  unfold State.pxStep
  dsimp only
  (repeat' split) <;> simp [h]

theorem State.takeMessage_wf (k : Nat) : Memory.wf (s.takeMessage k).mem = true := by
  unfold State.takeMessage
  (repeat' split) <;> simp [h]

theorem State.getD_wf {o : Option State} (ho : MaybeCanonical o) : Memory.wf (o.getD s).mem = true := by
  cases o with
  | none => exact h
  | some t => exact (maybeCanonical_some t).1 ho

/-! ### Moves and steps (00 R8) -/

theorem exec_inputs_canonical (i : Instr) (r : List Instr) : AnswersCanonical (exec i { s with inputs := r }) :=
  exec_canonical (s := { s with inputs := r }) h i

theorem State.makeMove_canonical (m : Move) : AnswersCanonical (s.makeMove m) := by
  cases m with
  | event i => exact exec_canonical h i
  | input =>
    simp only [State.makeMove]
    split
    · exact exec_inputs_canonical h _ _
    · exact h
  | issue u => exact State.issue'_wf h u
  | access c => exact State.performAcc_wf _ _ h
  | park c => exact State.getD_wf h (State.parkStep_canonical h c)
  | owed u => exact State.getD_wf h (State.payOwed_canonical h u)
  | controller sl ring => exact State.getD_wf h (State.controller_canonical h sl ring)
  | fill t id => exact State.fillStep_wf _ _ _ h
  | message k => exact State.takeMessage_wf h k
  | askAgain c => simpa [State.makeMove] using h
  | save terr => exact State.getD_wf h (State.saveStep_canonical h terr)
  | stream k => exact State.getD_wf h (State.pxStep_canonical h k)
  | fade terr => exact State.tryDissolve_wf _ _ h
  | update => exact State.updated_wf _ h
  | read k n => simpa [State.makeMove] using h
  | error => simpa [State.makeMove] using h
  | tick => simpa [State.makeMove] using h

theorem State.pick_canonical : AnswersCanonical s.pick := by
  unfold State.pick
  split
  · simpa using h
  · exact State.makeMove_canonical h _
  · exact State.makeMove_canonical (s := { s with stepNo := s.stepNo + 1 }) h _

theorem State.unpowered_canonical : AnswersCanonical s.unpowered := by
  unfold State.unpowered
  split
  · trivial
  · exact exec_inputs_canonical h _ _
  · exact exec_inputs_canonical h _ _
  · exact h

theorem step_canonical : AnswersCanonical (step s) := by
  by_cases hp : s.dev.power = .on
  · cases hd : s.due with
    | nil => rw [step_pick hp hd]; exact State.pick_canonical h
    | cons i r => rw [step_due hp hd]; exact exec_canonical (s := { s with due := r }) h i
  · rw [step_unpowered hp]
    exact State.unpowered_canonical h

end

/-- Settles O59: every move is made of operations that write memory byte by byte, clear it or leave it alone, and each of these keeps the keys
rising and no zero byte listed. -/
theorem stepKeepsMemoryCanonical : Obligations.StepKeepsMemoryCanonical := by
  intro s t hs e
  have ht := step_canonical hs
  rw [e] at ht
  exact ht

end Sys2Proof.Machine
end

section
/-! PROOFS. The meaning of every A-word has the one shape that its guard switches off (01 R12). -/

namespace Sys2Proof.Machine

/-- Behind a guard stands NOP, or one result and the register checks of the operands that 02 R38 gives the word. -/
theorem exec_aWord_cases {i : Instr} {g : Guard} (h : guardOf i = some g) (s : State) :
    i = .nopA g ∨ ∃ reads writes w n fl, operandsOf i = some (reads, writes) ∧ exec i s = aluWord g reads writes w n fl s := by
  unfold guardOf at h
  -- One case for each A-word, NOP first; the last, of the instructions without a guard, contradicts `h`.
  split at h <;> cases h
  · exact .inl rfl
  all_goals exact .inr ⟨_, _, _, _, _, rfl, rfl⟩

/-- Settles O13: NOP changes nothing whatever its guard, and every other A-word looks at its registers only behind its guard. -/
theorem guardedOffHasNoEffect : Obligations.GuardedOffHasNoEffect := by
  intro i g s hi hg
  obtain rfl | ⟨reads, writes, w, n, fl, -, e⟩ := exec_aWord_cases hi s
  · rfl
  · rw [e, aluWord_off hg]

end Sys2Proof.Machine
end

section
/-! PROOFS. Control words: branches, calls, returns, the opening of loops, DETACH and ATTACH (02 R34, R36, R47, R48, 08 R178). -/

namespace Sys2Proof.Machine

open Sys2Proof

/-! ### Register checks, delay bundles, attached followers -/

/-- A word of fewer operands meets no register fault where one of more meets none. -/
theorem State.Ready.mono {s : State} {r r' : List RegId} {w w' : List (RegId × Option Nat)} (h : s.Ready r w) (hr : r' ⊆ r) (hw : w' ⊆ w) :
    s.Ready r' w' := ⟨fun x hx => h.1 x (hr hx), fun x hx => h.2 x (hw hx)⟩

/-- The target as the spec writes it: PC + 8 × SignExt(disp). -/
theorem branchTarget_eq {n : Nat} (pc : Word) (disp : BitVec n) : branchTarget pc disp = pc + disp.signExtend 64 * 8#64 := by
  unfold branchTarget BitVec.signExtend
  rw [BitVec.ofInt_mul]
  rfl

theorem State.ctlOnly_own {s : State} {k : State → Res} (h : s.ownsControl = true) : s.ctlOnly k = k s := if_pos h

theorem State.ctlOnly_follower {s : State} {k : State → Res} (h : s.ownsControl = false) : s.ctlOnly k = .ok s := by
  simp [State.ctlOnly, h]

theorem State.ctlWrites_own {s : State} {w : List (RegId × Option Nat)} (h : s.ownsControl = true) : s.ctlWrites w = w := if_pos h

theorem State.ctlWrites_follower {s : State} {w : List (RegId × Option Nat)} (h : s.ownsControl = false) : s.ctlWrites w = [] := by
  simp [State.ctlWrites, h]

section
variable {m : Bool} {reads : List RegId} {writes : List (RegId × Option Nat)} {k : State → Res} {s s' : State} {t : TrapRec}

theorem cWordNoDelay_ok (hd : s.ctl.delay = none) (h : s.Ready reads writes) (hk : k s = .ok s') :
    cWordNoDelay m reads writes k s = .next (s'.after m) := by rw [cWordNoDelay_eq hd, cWord_ok h hk]

theorem cWordNoDelay_trap (hd : s.ctl.delay = none) (h : s.Ready reads writes) (hk : k s = .trap t) :
    cWordNoDelay m reads writes k s = .next (s.preciseTrap t) := by rw [cWordNoDelay_eq hd, cWord_trap h hk]

end

/-! ### The return-address store (02 R47) -/

/-- Updates of the issuing core agree where they agree on that core. -/
theorem State.modCur_congr {s : State} {f g : Core → Core} (h : f s.c = g s.c) : s.modCur f = s.modCur g :=
  congrArg (fun c => { s with cores := vset s.cores s.cur c }) h

/-- An update of the issuing core sets it to what it then is. -/
theorem State.modCur_const (s : State) (f : Core → Core) : s.modCur f = s.modCur (fun _ => (s.modCur f).c) :=
  State.modCur_congr (State.modCur_c s f).symm

section
variable {s : State}

theorem State.pushRet_room {ret : Word} (h : s.c.ras.length < 16) : s.pushRet ret = .ok (s.modCur (fun c => { c with ras := ret :: c.ras })) := by
  simp [State.pushRet, h]

theorem State.pushRet_spill {ret last : Word} {rest : List Word} (h : s.c.ras = rest ++ [last]) (hl : rest.length = 15) (hs : s.c.spilled < 240) :
    s.pushRet ret = .ok ((s.setBytes (scratchKey s.tile (reservedBase + s.c.rsp.toNat)) (leBytes 8 last.toNat)).modCur (fun c => { c with
      ras := ret :: rest, spilled := c.spilled + 1, rsp := c.rsp + 8, freeze := some (.until' (s.coreCycle s.tile 3)) })) := by
  have hlen : ¬ s.c.ras.length < 16 := by simp [h, hl]
  have hsp : ¬ 240 ≤ s.c.spilled := by omega
  have hlast : s.c.ras.getLastD 0 = last := by simp [h]
  simp only [State.pushRet, if_neg hlen, if_neg hsp, hlast, State.spillFreeze]
  refine congrArg Res.ok (State.modCur_congr ?_)
  have hrest : s.c.ras.dropLast = rest := by simp [h]
  exact congrArg (fun r => ({ s.c with
    ras := ret :: r, spilled := s.c.spilled + 1, rsp := s.c.rsp + 8, freeze := some (.until' (s.coreCycle s.tile 3)) } : Core)) hrest

theorem State.pushRet_overflow {ret : Word} (h : 16 ≤ s.c.ras.length) (hs : 240 ≤ s.c.spilled) : s.pushRet ret = .trap (cause 0x06 s.c.rsp 0) := by
  have hlen : ¬ s.c.ras.length < 16 := by omega
  simp [State.pushRet, hlen, hs]

theorem State.popRet_newest {t : Word} {r : List Word} (h : s.c.ras = t :: r) :
    s.popRet = .ok ((s.modCur (fun c => { c with ras := r })).transfer .jump t) := by
  simp [State.popRet, h]

theorem State.popRet_refill (h : s.c.ras = []) (hs : s.c.spilled ≠ 0) : s.popRet = .ok ((s.modCur (fun c => { c with
      spilled := c.spilled - 1, rsp := c.rsp - 8, freeze := some (.until' (s.coreCycle s.tile 3)) })).transfer .jump
      (BitVec.ofNat 64 (s.num (scratchKey s.tile (reservedBase + (s.c.rsp - 8).toNat)) 8))) := by
  simp only [State.popRet, h, if_neg hs]
  rfl

theorem State.popRet_underflow (h : s.c.ras = []) (hs : s.c.spilled = 0) : s.popRet = .trap (cause 0x0F 0 0) := by
  simp [State.popRet, h, hs]

variable {m : Bool} {a : Reg} {disp : BitVec 24} (hb : s.MayBranch)
include hb

/-- Both calls transfer from the state in which the return address has been pushed. -/
theorem exec_calls_ok (hr : s.Ready [.scalar a] []) {s1 : State} (hp : s.pushRet (s.pcNow + 16) = .ok s1) :
    exec (.call m disp) s = .next ((s1.transfer .jump (s.pcNow + disp.signExtend 64 * 8#64)).after m) ∧
    exec (.callr m a) s = .next ((s1.transfer .jump (s.rs a)).after m) := by
  obtain ⟨ho, hd⟩ := hb
  rw [← branchTarget_eq]
  exact ⟨cWordNoDelay_ok hd s.ready_nil (by simp only [State.ctlOnly_own ho, State.callTo, hp]),
    cWordNoDelay_ok hd hr (by simp only [State.ctlOnly_own ho, State.callTo, hp])⟩

/-- Both calls take the fault that the push takes. -/
theorem exec_calls_trap (hr : s.Ready [.scalar a] []) {t : TrapRec} (hp : s.pushRet (s.pcNow + 16) = .trap t) :
    exec (.call m disp) s = .next (s.preciseTrap t) ∧ exec (.callr m a) s = .next (s.preciseTrap t) :=
  ⟨cWordNoDelay_trap hb.2 s.ready_nil (by simp only [State.ctlOnly_own hb.1, State.callTo, hp]),
    cWordNoDelay_trap hb.2 hr (by simp only [State.ctlOnly_own hb.1, State.callTo, hp])⟩

theorem exec_ret_ok {s1 : State} (hp : s.popRet = .ok s1) : exec (.ret m) s = .next (s1.after m) :=
  cWordNoDelay_ok hb.2 s.ready_nil (by rw [State.ctlOnly_own hb.1, hp])

theorem exec_ret_trap {t : TrapRec} (hp : s.popRet = .trap t) : exec (.ret m) s = .next (s.preciseTrap t) :=
  cWordNoDelay_trap hb.2 s.ready_nil (by rw [State.ctlOnly_own hb.1, hp])

end

/-- Settles O15: both calls go by what the push does, RET by what the pop does. -/
theorem callsAndReturns : Obligations.CallsAndReturns := by
  refine ⟨fun s m a disp hb hr => ⟨fun h => exec_calls_ok hb hr (State.pushRet_room h), fun last rest h hl hs =>
      exec_calls_ok hb hr (State.pushRet_spill h hl hs), fun h hs => exec_calls_trap hb hr (State.pushRet_overflow h hs)⟩,
    fun s m hb => ⟨fun t r h => exec_ret_ok hb (State.popRet_newest h), fun h hs => exec_ret_ok hb (State.popRet_refill h hs),
      fun h hs => exec_ret_trap hb (State.popRet_underflow h hs)⟩⟩

/-! ### Words without a transfer (02 R34, 08 R178) -/

/-- Settles O17: a control word's effect is only the owner's, and the check for a delay bundle comes first. -/
theorem whereControlWordsDoNotTransfer : Obligations.WhereControlWordsDoNotTransfer := by
  refine ⟨fun s m n p a b disp d20 l count fin lp ho hd hr => ?_, fun s m n p a disp d20 l count fin hd => ?_⟩
  · have ra : s.Ready [.scalar a] [] := hr.mono (by simp) (by simp)
    have rab : s.Ready [.scalar a, .scalar b] [] := hr.mono (by simp) (by simp)
    have rl (w : List (RegId × Option Nat)) : s.Ready [] (s.ctlWrites w) := State.ctlWrites_follower (w := w) ho ▸ s.ready_nil
    have rla (w : List (RegId × Option Nat)) : s.Ready [.scalar a] (s.ctlWrites w) := State.ctlWrites_follower (w := w) ho ▸ ra
    have keeps (k : State → Res) : s.ctlOnly k = .ok s := State.ctlOnly_follower ho
    have hm := rla [(.loopReg lp, some 1)]
    exact ⟨cWordNoDelay_ok hd s.ready_nil (keeps _), cWordNoDelay_ok hd ra (keeps _), cWordNoDelay_ok hd (hr.mono (by simp) (by simp)) (keeps _),
      cWordNoDelay_ok hd s.ready_nil (keeps _), cWordNoDelay_ok hd ra (keeps _), cWordNoDelay_ok hd s.ready_nil (keeps _),
      cWordNoDelay_ok hd (rl (loopWrites l)) (keeps _), cWordNoDelay_ok hd (rla (loopWrites l)) (keeps _), (exec_mvtl m lp a s).trans (cWord_ok hm (keeps _)),
      (exec_seal m a b s).trans (cWord_ok rab (keeps _))⟩
  · exact ⟨cWordNoDelay_delay hd, cWordNoDelay_delay hd, cWordNoDelay_delay hd, cWordNoDelay_delay hd, cWordNoDelay_delay hd,
      cWordNoDelay_delay hd, cWordNoDelay_delay hd, cWordNoDelay_delay hd, cWordNoDelay_delay hd, cWordNoDelay_delay hd,
      cWordNoDelay_delay hd, cWordNoDelay_delay hd, cWordNoDelay_delay hd, cWordNoDelay_delay hd, cWordNoDelay_delay hd⟩

/-! ### Gangs (02 R36, 09 R193) -/

section
variable {s : State} {m : Bool} {disp : BitVec 24} (hd : s.ctl.delay = none)
include hd

theorem exec_detach_owner (ho : s.ownsControl = true) : exec (.detach m disp) s = .next (s.after m) :=
  cWordNoDelay_ok hd s.ready_nil (if_pos ho)

theorem exec_detach_follower (ho : s.ownsControl = false) :
    exec (.detach m disp) s = .next ((s.modCur (fun c => { c with
      det := true, pc := branchTarget s.pcNow disp, lreg := Vector.replicate 9 0, leff := Vector.replicate 3 { lb := 0, le := 0, leQ := [] },
      ras := [], spilled := 0, rsp := BitVec.ofNat 64 (spillBase s.cur), delay := none, rendez := none,
      issuedAt := some s.issueCycle })).after m) :=
  cWordNoDelay_ok hd s.ready_nil (if_neg (by simp [ho]))

theorem exec_attach_attached (hdet : s.c.det = false) : exec (.attach m disp) s = .next (s.after m) :=
  cWordNoDelay_ok hd s.ready_nil (if_neg (by simp [hdet]))

theorem exec_attach_ok (hdet : s.c.det = true) (hin : (branchTarget s.pcNow disp).toNat < s.codeSize) :
    exec (.attach m disp) s = .next ((s.modCur (fun c => { c with rendez := some (branchTarget s.pcNow disp) })).after m) :=
  cWordNoDelay_ok hd s.ready_nil (by rw [if_pos hdet]; exact if_neg (Nat.not_le.2 hin))

theorem exec_attach_outside (hdet : s.c.det = true) (hout : s.codeSize ≤ (branchTarget s.pcNow disp).toNat) :
    exec (.attach m disp) s = .next (s.preciseTrap (cause 0x06 (branchTarget s.pcNow disp) 0)) :=
  cWordNoDelay_trap hd s.ready_nil (by rw [if_pos hdet]; exact if_pos hout)

end

/-- Settles O20: the five cases of DETACH and ATTACH. -/
theorem gangsSplitAndMeet : Obligations.GangsSplitAndMeet := by
  intro s m disp hd
  dsimp only
  rw [← branchTarget_eq]
  refine ⟨exec_detach_owner hd, fun ho => ⟨_, exec_detach_follower hd ho, ?_⟩, exec_attach_attached hd, exec_attach_ok hd, exec_attach_outside hd⟩
  exact ⟨State.modCur_const s _, by simp [Core.lc, spillBase]⟩

end Sys2Proof.Machine
end

section
/-! PROOFS. Register faults: a word with a pending operand or a colliding result takes the register's own trap (02 R39, R40, R43). -/

namespace Sys2Proof.Machine

open Sys2Proof

/-! ### What the register checks find -/

section
variable {s : State} {reads : List RegId} {writes : List (RegId × Option Nat)}

/-- The first pending operand is found. -/
theorem State.checkRegs_pending {pre post : List RegId} {r : RegId} (he : reads = pre ++ r :: post) (hpre : ∀ q ∈ pre, s.c.isPend q = false)
    (hr : s.c.isPend r = true) : s.checkRegs reads writes = some (cause 0x03 (r.code (Config.freeWord s.stepNo)) 0) := by
  have hf : reads.find? (fun r => s.c.isPend r) = some r := by
    rw [he, List.find?_append, List.find?_eq_none.2 (by simpa using hpre)]
    simp [hr]
  simp [State.checkRegs, hf]

/-- Where no operand is pending, the first colliding result is found. -/
theorem State.checkRegs_collision (hr : ∀ r ∈ reads, s.c.isPend r = false) {pre post : List (RegId × Option Nat)} {w : RegId × Option Nat}
    (he : writes = pre ++ w :: post) (hpre : ∀ v ∈ pre, s.c.collides v = false) (hw : s.c.collides w = true) :
    s.checkRegs reads writes =
      some (cause 0x04 (w.1.code (Config.freeWord s.stepNo)) (landingInfo (Config.freeWord s.stepNo) w.2)) := by
  have hf : writes.find? (fun d => s.c.collides d) = some w := by
    rw [he, List.find?_append, List.find?_eq_none.2 (by simpa using hpre)]
    simp [hw]
  have hn : reads.find? (fun r => s.c.isPend r) = none := List.find?_eq_none.2 (by simpa using hr)
  simp [State.checkRegs, hf, hn]

/-- A word with the one scalar operand `a` that is pending. -/
theorem State.checkRegs_scalar {a : Reg} {rs : List RegId} (h : s.c.isPend (.scalar a) = true) :
    s.checkRegs (.scalar a :: rs) writes = some (cause 0x03 (BitVec.ofNat 64 a.val) 0) :=
  State.checkRegs_pending (pre := []) rfl (by simp) h

theorem State.checkRegs_pred {p : PReg} (h : s.c.isPend (.pred p) = true) :
    s.checkRegs [.pred p] writes = some (cause 0x03 (BitVec.ofNat 64 (512 + p.val)) 0) :=
  State.checkRegs_pending (pre := []) rfl (by simp) h

/-- A word that writes loop registers at latency 1 and meets a result on one of them. -/
theorem State.checkRegs_loopRegs (hr : ∀ r ∈ reads, s.c.isPend r = false) {ls pre post : List LReg} {r : LReg} (he : ls = pre ++ r :: post)
    (hpre : ∀ q ∈ pre, s.c.collides (.loopReg q, some 1) = false) (h : s.c.collides (.loopReg r, some 1) = true) :
    s.checkRegs reads (ls.map (fun l => (.loopReg l, some 1))) = some (cause 0x04 (BitVec.ofNat 64 (1024 + r.val)) 1) := by
  refine State.checkRegs_collision hr (pre := pre.map (fun l => (.loopReg l, some 1))) (w := (.loopReg r, some 1))
    (post := post.map (fun l => (.loopReg l, some 1))) ?_ (by simpa using hpre) h
  rw [he, List.map_append, List.map_cons]

end

/-! ### Words that check their registers first -/

/-- Words of one shape that have operands and no guard check their registers before anything else. -/
theorem exec_cWord_shape {i : Instr} {reads : List RegId} {writes : List (RegId × Option Nat)} (h : operandsOf i = some (reads, writes))
    (hg : guardOf i = none) (s : State) : ∃ m k, exec i s = cWord m reads writes k s := by
  unfold operandsOf at h
  -- One case for each word with operands: the A-words contradict `hg`, and the last, of the words without, contradicts `h`.
  split at h <;> cases h <;> cases hg
  all_goals exact ⟨_, _, by
    unfold exec
    -- The words whose whole effect is one result are C-words too.
    dsimp only [execMvfl, execMfs, execDisc, execCycle, execBarq, execLiSigned, execLiHbm, execLiPeer, execLiShifted, execCquery, execMver, cResult] <;> rfl⟩

/-- A register fault of a word with operands, whose guard holds if it has one, is the trap the word takes. -/
theorem exec_checkRegs_fault {i : Instr} {reads : List RegId} {writes : List (RegId × Option Nat)} {s : State} {t : TrapRec}
    (h : operandsOf i = some (reads, writes)) (hg : ∀ g, guardOf i = some g → s.guardOn g = true) (ht : s.checkRegs reads writes = some t) :
    exec i s = .next (s.preciseTrap t) := by
  cases hgi : guardOf i with
  | none =>
    obtain ⟨m, k, e⟩ := exec_cWord_shape h hgi s
    rw [e, cWord_fault ht]
  | some g =>
    obtain rfl | ⟨reads', writes', w, n, fl, h', e⟩ := exec_aWord_cases hgi s
    · cases h
      cases ht
    · cases h.symm.trans h'
      rw [e, aluWord_fault (hg g hgi) ht]

/-- Every word with a guard has operands. -/
theorem operandsOf_isSome {i : Instr} {g : Guard} (h : guardOf i = some g) : (operandsOf i).isSome = true := by
  obtain rfl | ⟨_, _, _, _, _, h', -⟩ := exec_aWord_cases h State.reset
  · rfl
  · rw [h']
    rfl

/-- Outside a delay bundle, a word that may not stand in one takes its register fault. -/
theorem cWordNoDelay_fault {m : Bool} {reads : List RegId} {writes : List (RegId × Option Nat)} {k : State → Res} {s : State} {t : TrapRec}
    (hd : s.ctl.delay = none) (h : s.checkRegs reads writes = some t) : cWordNoDelay m reads writes k s = .next (s.preciseTrap t) := by
  rw [cWordNoDelay_eq hd, cWord_fault h]

theorem loopWrites_eq (l : Lvl) : loopWrites l = [lcId l, lbId l, leId l].map (fun r => (.loopReg r, some 1)) := rfl

/-- STL that no longer waits is a C-word like any other (11 R235). -/
theorem exec_stl_fault {m : Bool} {d a : Reg} {sz : MemSz} {sc : Scope} {disp : BitVec 9} {s : State} {t : TrapRec}
    (hf : s.fenced s.cur sc = true) (hs : s.c.stlRefused sc = false) (h : s.checkRegs [.scalar a, .scalar d] [] = some t) :
    exec (.stl m d a sz sc disp) s = .next (s.preciseTrap t) := by
  rw [exec_stl, execStl, hf, hs]
  exact (if_pos rfl).trans (cWord_fault h)

/-! ### Collisions -/

theorem Core.clash_iff {c : Core} {r : RegId} {n : Nat} : c.clash r n = true ↔
    (∃ f ∈ c.flight, f.dist = n ∧ f.wr.reg = some r) ∨ ∃ a ∈ c.acc, a.2.lands = some (r, n + a.1) := by
  simp [Core.clash]

/-- Settles O52: words with operands by `exec_checkRegs_fault`, the control words and STL by their own shapes. -/
theorem registerFaults : Obligations.RegisterFaults := by
  refine ⟨fun s i reads writes h hg => ⟨fun pre r post he hpre hr => exec_checkRegs_fault h hg (State.checkRegs_pending he hpre hr),
      fun hr pre w post he hpre hw => exec_checkRegs_fault h hg (State.checkRegs_collision hr he hpre hw)⟩,
    fun i g h => operandsOf_isSome h, fun s m n a d p d20 l count fin lp sz sc disp => ⟨fun hf hs ha => exec_stl_fault hf hs (State.checkRegs_scalar ha),
      fun hd => ⟨fun ha => ?_, fun hp => cWordNoDelay_fault hd (State.checkRegs_pred hp), fun ho ha pre r post he hpre hr => ?_⟩,
      fun ha => (exec_mvtl m lp a s).trans (cWord_fault (State.checkRegs_scalar ha)),
      fun ho ha hc => (exec_mvtl m lp a s).trans (cWord_fault ?_)⟩,
    fun c r n k free x p l => ⟨by simp [Core.collides], by simp [Core.collides], Core.clash_iff, rfl, rfl, rfl, rfl, rfl⟩⟩
  · exact ⟨cWordNoDelay_fault hd (State.checkRegs_scalar ha), cWordNoDelay_fault hd (State.checkRegs_scalar ha),
      cWordNoDelay_fault hd (State.checkRegs_scalar ha)⟩
  · refine ⟨cWordNoDelay_fault hd ?_, cWordNoDelay_fault hd ?_⟩
    · rw [State.ctlWrites_own ho, loopWrites_eq]
      exact State.checkRegs_loopRegs (by simp) he hpre hr
    · rw [State.ctlWrites_own ho, loopWrites_eq]
      exact State.checkRegs_loopRegs (by simpa using ha) he hpre hr
  · rw [State.ctlWrites_own ho]
    exact State.checkRegs_loopRegs (ls := [lp]) (pre := []) (by simpa using ha) rfl (by simp) hc

end Sys2Proof.Machine
end

section
/-! PROOFS. Hardware loops: LOOP, LOOPR, MVTL, MVFL, and the checks at an end bundle (02 R48 to R50, 09 R185, R186). -/

namespace Sys2Proof.Machine

open Sys2Proof

/-! ### The words -/

section
variable {s : State}

theorem State.openLoop_inside {l : Lvl} {count : BitVec 32} {fin : BitVec 10}
    (h : (s.pcNow + BitVec.ofNat 64 (8 * fin.toNat)).toNat < s.codeSize) :
    s.openLoop l count fin = .ok (
      let le := s.pcNow + BitVec.ofNat 64 (8 * fin.toNat)
      let s1 := ((s.landAt (.loopReg (lcId l) count true) 1 0).landAt (.loopReg (lbId l) ((s.pcNow + 8).setWidth 32) true) 1 0).landAt
        (.loopReg (leId l) (le.setWidth 32) true) 1 0
      if count = 0 then s1.transfer .skip (le + 8) else s1) := if_neg (Nat.not_le.2 h)

theorem State.openLoop_outside {l : Lvl} {count : BitVec 32} {fin : BitVec 10}
    (h : s.codeSize ≤ (s.pcNow + BitVec.ofNat 64 (8 * fin.toNat)).toNat) :
    s.openLoop l count fin = .trap (cause 0x06 (s.pcNow + BitVec.ofNat 64 (8 * fin.toNat)) 0) := if_pos h

variable {m : Bool} {l : Lvl} {a : Reg} {fin : BitVec 10} {count : BitVec 12} (hb : s.MayBranch) (hr : s.Ready [.scalar a] (loopWrites l))
include hb hr

/-- LOOP and LOOPR go on from the state in which the loop has been opened. -/
theorem exec_loops_ok {opened : BitVec 32 → State} (h : ∀ n, s.openLoop l n fin = .ok (opened n)) :
    exec (.loop m l count fin) s = .next ((opened (count.setWidth 32)).after m) ∧
    exec (.loopr m l a fin) s = .next ((opened ((s.rs a).setWidth 32)).after m) := by
  obtain ⟨ho, hd⟩ := hb
  have hw : s.ctlWrites (loopWrites l) ⊆ loopWrites l := by rw [State.ctlWrites_own ho]; exact List.Subset.refl _
  exact ⟨cWordNoDelay_ok hd (hr.mono (by simp) hw) (by rw [State.ctlOnly_own ho, h]),
    cWordNoDelay_ok hd (hr.mono (by simp) hw) (by rw [State.ctlOnly_own ho, h])⟩

/-- They take the fault that the opening takes. -/
theorem exec_loops_trap {t : TrapRec} (h : ∀ n, s.openLoop l n fin = .trap t) :
    exec (.loop m l count fin) s = .next (s.preciseTrap t) ∧ exec (.loopr m l a fin) s = .next (s.preciseTrap t) := by
  obtain ⟨ho, hd⟩ := hb
  have hw : s.ctlWrites (loopWrites l) ⊆ loopWrites l := by rw [State.ctlWrites_own ho]; exact List.Subset.refl _
  exact ⟨cWordNoDelay_trap hd (hr.mono (by simp) hw) (by rw [State.ctlOnly_own ho, h]),
    cWordNoDelay_trap hd (hr.mono (by simp) hw) (by rw [State.ctlOnly_own ho, h])⟩

end

/-- MVTL checks an address, alignment first, and else has its result in flight. -/
theorem exec_mvtl_owner {s : State} {m : Bool} {lp : LReg} {a : Reg} (ho : s.ownsControl = true)
    (hr : s.Ready [.scalar a] [(.loopReg lp, some 1)]) : exec (.mvtl m lp a) s = .next (
      let x := s.rs a
      if 3 ≤ lp.val ∧ x.toNat % 8 ≠ 0 then s.preciseTrap (cause 0x05 x 8)
      else if 3 ≤ lp.val ∧ s.codeSize ≤ x.toNat then s.preciseTrap (cause 0x06 x 0)
      else (s.landAt (.loopReg lp (x.setWidth 32) false) 1 0).after m) := by
  rw [exec_mvtl, execMvtl, State.ctlWrites_own ho]
  dsimp only
  split
  · next h => exact cWord_trap hr (by rw [State.ctlOnly_own ho, if_pos h])
  · next h =>
    split
    · next h' => exact cWord_trap hr (by rw [State.ctlOnly_own ho, if_neg h, if_pos h'])
    · next h' => exact cWord_ok hr (by rw [State.ctlOnly_own ho, if_neg h, if_neg h'])

/-! ### The registers of a level -/

@[simp] theorem lregLevel_lcId (l : Lvl) : lregLevel (lcId l) = l := Fin.ext (by simp [lregLevel, lcId])
@[simp] theorem lregLevel_lbId (l : Lvl) : lregLevel (lbId l) = l := Fin.ext (by simp [lregLevel, lbId])
@[simp] theorem lregLevel_leId (l : Lvl) : lregLevel (leId l) = l := Fin.ext (by simp [lregLevel, leId]; omega)

theorem lcId_inj {k l : Lvl} : lcId k = lcId l ↔ k = l := by simp [lcId, Fin.ext_iff]

theorem lcId_lt (l : Lvl) : (lcId l).val < 3 := l.isLt

theorem lcId_ne {l : Lvl} {r : LReg} (h : 3 ≤ r.val) : r ≠ lcId l := fun e => by
  have := lcId_lt l
  rw [← e] at this
  omega

theorem lcId_ne_lbId (k l : Lvl) : lcId k ≠ lbId l := (lcId_ne (by simp [lbId])).symm
theorem lcId_ne_leId (k l : Lvl) : lcId k ≠ leId l := (lcId_ne (by simp [leId]; omega)).symm

/-! ### Synchronising a level -/

/-- Only loop registers and what is in effect of them differ, and of the registers only counts. -/
def Core.SameButLoops (c d : Core) : Prop := d = { c with lreg := d.lreg, leff := d.leff } ∧ ∀ r : LReg, 3 ≤ r.val → d.lreg[r] = c.lreg[r]

theorem Core.SameButLoops.refl (c : Core) : c.SameButLoops c := ⟨rfl, fun _ _ => rfl⟩

theorem Core.SameButLoops.trans {c d e : Core} (h : c.SameButLoops d) (h' : d.SameButLoops e) : c.SameButLoops e := by
  obtain ⟨hd, hr⟩ := h
  obtain ⟨he, hr'⟩ := h'
  exact ⟨by rw [he, hd], fun r hr3 => (hr' r hr3).trans (hr r hr3)⟩

@[simp] theorem Core.syncLoop_lreg (c : Core) (l : Lvl) : (c.syncLoop l).lreg = c.lreg := by
  unfold Core.syncLoop
  split <;> rfl

@[simp] theorem Core.syncLoop_lc (c : Core) (k l : Lvl) : (c.syncLoop l).lc k = c.lc k := by simp [Core.lc]

theorem Core.syncLoop_active {c : Core} {l : Lvl} (h : c.lc l ≠ 0) : c.syncLoop l = c := if_neg h

theorem Core.syncLoop_inactive {c : Core} {l : Lvl} (h : c.lc l = 0) :
    (c.syncLoop l).leff[l] = { lb := c.lreg[lbId l], le := c.lreg[leId l], leQ := [] } := by
  rw [Core.syncLoop, if_pos h]
  exact vset_self _ _ _

theorem Core.syncLoop_leff_ne {c : Core} {k l : Lvl} (h : k ≠ l) : (c.syncLoop l).leff[k] = c.leff[k] := by
  unfold Core.syncLoop
  split
  · exact vset_ne _ _ h
  · rfl

theorem Core.syncLoop_same (c : Core) (l : Lvl) : c.SameButLoops (c.syncLoop l) := by
  unfold Core.syncLoop
  split <;> exact ⟨rfl, fun _ _ => rfl⟩

/-! ### The check of a level -/

/-- The core of an end check whose level stays active. -/
def Core.checked (c : Core) (l : Lvl) : Core :=
  { c with lreg := vset c.lreg (lcId l) (c.lc l - 1), leff := vset c.leff l ((c.leff[l]).tick c.lreg[lbId l]) }

theorem Core.checkLevel_last {c : Core} {l : Lvl} (h : c.lc l = 1) : c.checkLevel l = ((c.checked l).syncLoop l, none) := by
  unfold Core.checkLevel
  exact if_pos (by rw [h]; rfl)

theorem Core.checkLevel_more {c : Core} {l : Lvl} (h : c.lc l ≠ 1) : c.checkLevel l = (c.checked l, some ((c.leff[l]).lb.setWidth 64)) := by
  unfold Core.checkLevel
  exact if_neg (by bv_omega)

theorem Core.checked_lc (c : Core) (l : Lvl) : (c.checked l).lc l = c.lc l - 1 := vset_self _ _ _

theorem Core.checked_lc_ne (c : Core) {k l : Lvl} (h : k ≠ l) : (c.checked l).lc k = c.lc k := vset_ne _ _ (mt lcId_inj.1 h)

theorem Core.checked_leff (c : Core) (l : Lvl) : (c.checked l).leff[l] = (c.leff[l]).tick c.lreg[lbId l] := vset_self _ _ _

theorem Core.checked_leff_ne (c : Core) {k l : Lvl} (h : k ≠ l) : (c.checked l).leff[k] = c.leff[k] := vset_ne _ _ h

theorem Core.checked_lreg {c : Core} {l : Lvl} {r : LReg} (h : 3 ≤ r.val) : (c.checked l).lreg[r] = c.lreg[r] := vset_ne _ _ (lcId_ne h)

theorem Core.checked_same (c : Core) (l : Lvl) : c.SameButLoops (c.checked l) := ⟨rfl, fun _ h => Core.checked_lreg h⟩

theorem Core.checkLevel_same (c : Core) (l : Lvl) : c.SameButLoops (c.checkLevel l).1 := by
  by_cases h : c.lc l = 1
  · rw [Core.checkLevel_last h]
    exact (c.checked_same l).trans (Core.syncLoop_same _ l)
  · rw [Core.checkLevel_more h]
    exact c.checked_same l

theorem Core.endsHere_iff {c : Core} {pc : Word} {l : Lvl} :
    c.endsHere pc l = true ↔ c.lc l ≠ 0 ∧ (c.leff[l]).le.setWidth 64 = pc := by simp [Core.endsHere]

theorem Core.endsHere_congr {c d : Core} {pc : Word} {k : Lvl} (h : d.lc k = c.lc k) (h' : d.leff[k] = c.leff[k]) :
    d.endsHere pc k = c.endsHere pc k := by simp [Core.endsHere, h, h']

theorem Core.endsAny_iff {c : Core} {pc : Word} : c.endsAny pc = true ↔ ∃ l : Lvl, c.endsHere pc l = true := by
  simp only [Core.endsAny, List.any_eq_true]
  refine ⟨?_, fun ⟨l, h⟩ => ⟨l, by fin_cases l <;> simp, h⟩⟩
  rintro ⟨l, -, h⟩
  exact ⟨l, h⟩

/-! ### The checks of all levels -/

/-- One level's part in the end checks: nothing once issue has branched back. -/
def Core.endStep (pc : Word) (r : Core × Option Word) (l : Lvl) : Core × Option Word := match r.2 with
  | some _ => r
  | none => if r.1.endsHere pc l then r.1.checkLevel l else r

theorem Core.endChecks_eq (c : Core) (pc : Word) : c.endChecks pc = [(2 : Lvl), 1, 0].foldl (Core.endStep pc) (c, none) := rfl

/-- After a branch back no further level is checked. -/
theorem Core.endStep_foldl_some (pc w : Word) (c : Core) (ls : List Lvl) : ls.foldl (Core.endStep pc) (c, some w) = (c, some w) := by
  induction ls with
  | nil => rfl
  | cons l ls ih => exact ih

theorem Core.endStep_same (pc : Word) (c : Core) (r : Core × Option Word) (l : Lvl) (h : c.SameButLoops r.1) :
    c.SameButLoops (Core.endStep pc r l).1 := by
  unfold Core.endStep
  split
  · exact h
  · split
    · exact h.trans (Core.checkLevel_same _ l)
    · exact h

/-- The end checks change no register but the counts. -/
theorem Core.endChecks_same (c : Core) (pc : Word) : c.SameButLoops (c.endChecks pc).1 :=
  List.foldlRecOn (motive := fun r : Core × Option Word => c.SameButLoops r.1) _ _ (.refl c) fun r h l _ => Core.endStep_same pc c r l h

/-- Levels whose counts run out here, if they end here: none branches back, each is left at 0, and other levels are as before. -/
theorem Core.endStep_foldl_last (pc : Word) (ls : List Lvl) (hn : ls.Nodup) (c : Core) (h : ∀ k ∈ ls, c.endsHere pc k = true → c.lc k = 1) :
    ∃ d, ls.foldl (Core.endStep pc) (c, none) = (d, none) ∧ (∀ k ∈ ls, d.lc k = if c.endsHere pc k then 0 else c.lc k) ∧
      ∀ k ∉ ls, d.lc k = c.lc k ∧ d.leff[k] = c.leff[k] := by
  induction ls generalizing c with
  | nil => exact ⟨c, rfl, by simp, fun k _ => ⟨rfl, rfl⟩⟩
  | cons l ls ih =>
    obtain ⟨hl, hn⟩ := List.nodup_cons.1 hn
    obtain ⟨c1, e1, hs, hf⟩ : ∃ c1, Core.endStep pc (c, none) l = (c1, none) ∧ (c1.lc l = if c.endsHere pc l then 0 else c.lc l) ∧
        ∀ k, k ≠ l → c1.lc k = c.lc k ∧ c1.leff[k] = c.leff[k] := by
      by_cases he : c.endsHere pc l = true
      · have h1 := h l (by simp) he
        refine ⟨(c.checked l).syncLoop l, ?_, ?_, fun k hk => ⟨?_, ?_⟩⟩
        · simp only [Core.endStep, he, if_true, Core.checkLevel_last h1]
        · rw [if_pos he, Core.syncLoop_lc, Core.checked_lc, h1]
          rfl
        · rw [Core.syncLoop_lc, Core.checked_lc_ne c hk]
        · rw [Core.syncLoop_leff_ne hk, Core.checked_leff_ne c hk]
      · exact ⟨c, by simp [Core.endStep, he], by rw [if_neg he], fun k _ => ⟨rfl, rfl⟩⟩
    have hne {k : Lvl} (hk : k ∈ ls) : k ≠ l := fun e => hl (e ▸ hk)
    have hh {k : Lvl} (hk : k ∈ ls) : c1.endsHere pc k = c.endsHere pc k := Core.endsHere_congr (hf k (hne hk)).1 (hf k (hne hk)).2
    obtain ⟨d, e2, hd, hf2⟩ := ih hn c1 fun k hk he => (hf k (hne hk)).1 ▸ h k (by simp [hk]) (hh hk ▸ he)
    refine ⟨d, by rw [List.foldl_cons, e1, e2], fun k hk => ?_, fun k hk => ?_⟩
    · obtain rfl | hk := List.mem_cons.1 hk
      · rw [(hf2 k hl).1, hs]
      · rw [hd k hk, hh hk, (hf k (hne hk)).1]
    · obtain ⟨hkl, hk⟩ := not_or.1 (mt List.mem_cons.2 hk)
      exact ⟨(hf2 k hk).1.trans (hf k hkl).1, (hf2 k hk).2.trans (hf k hkl).2⟩

/-- The levels checked before a level are those above it. -/
theorem levels_split (l : Lvl) : ∃ pre post, [(2 : Lvl), 1, 0] = pre ++ l :: post ∧ (pre ++ l :: post).Nodup ∧ ∀ k, k ∈ pre ↔ l < k := by
  fin_cases l
  · exact ⟨[2, 1], [], rfl, by decide, by decide⟩
  · exact ⟨[2], [0], rfl, by decide, by decide⟩
  · exact ⟨[], [1, 0], rfl, by decide, by decide⟩

/-- The first level, from 2 down, that ends here with iterations left branches back, and the levels below it are not checked. -/
theorem Core.endChecks_back {c : Core} {pc : Word} {l : Lvl} (he : c.endsHere pc l = true) (hc : c.lc l ≠ 1)
    (hup : ∀ k : Lvl, l < k → c.endsHere pc k = true → c.lc k = 1) :
    (c.endChecks pc).2 = some ((c.leff[l]).lb.setWidth 64) ∧ (c.endChecks pc).1.lc l = c.lc l - 1 ∧
    (∀ k : Lvl, l < k → (c.endChecks pc).1.lc k = if c.endsHere pc k then 0 else c.lc k) ∧
    ∀ k : Lvl, k < l → (c.endChecks pc).1.lc k = c.lc k := by
  obtain ⟨pre, post, hls, hn, hmem⟩ := levels_split l
  have hl : l ∉ pre := fun h => lt_irrefl l ((hmem l).1 h)
  obtain ⟨d, e, hd, hf⟩ := Core.endStep_foldl_last pc pre hn.of_append_left c fun k hk => hup k ((hmem k).1 hk)
  obtain ⟨hlc, hle⟩ := hf l hl
  have hdl : d.lc l ≠ 1 := hlc ▸ hc
  have hr : c.endChecks pc = (d.checked l, some ((d.leff[l]).lb.setWidth 64)) := by
    rw [Core.endChecks_eq, hls, List.foldl_append, e, List.foldl_cons, ← Core.checkLevel_more hdl]
    have hs : Core.endStep pc (d, none) l = d.checkLevel l := if_pos ((Core.endsHere_congr hlc hle).trans he)
    rw [hs, Core.checkLevel_more hdl, Core.endStep_foldl_some]
  rw [hr]
  refine ⟨by rw [hle], by rw [Core.checked_lc, hlc], fun k hk => ?_, fun k hk => ?_⟩
  · rw [Core.checked_lc_ne d hk.ne', hd k ((hmem k).2 hk)]
  · rw [Core.checked_lc_ne d hk.ne, (hf k fun h => lt_asymm hk ((hmem k).1 h)).1]

/-- Where every level that ends here is in its last iteration, issue goes on. -/
theorem Core.endChecks_on {c : Core} {pc : Word} (h : ∀ k : Lvl, c.endsHere pc k = true → c.lc k = 1) :
    (c.endChecks pc).2 = none ∧ ∀ l : Lvl, (c.endChecks pc).1.lc l = if c.endsHere pc l then 0 else c.lc l := by
  obtain ⟨d, e, hd, -⟩ := Core.endStep_foldl_last pc [(2 : Lvl), 1, 0] (by decide) c fun k _ => h k
  rw [Core.endChecks_eq, e]
  exact ⟨rfl, fun l => hd l (by fin_cases l <;> simp)⟩

/-! ### How control moves on at an end bundle -/

theorem Core.advance_plain {c : Core} (hx : c.xfer = none) (hd : c.delay = none) : c.advance = c.fallThrough c.pc (c.pc + 8) := by
  simp [Core.advance, hx, hd]

theorem Core.advance_skip {c : Core} {x : Xfer} (hx : c.xfer = some x) (hk : x.kind = .skip) : c.advance = c.fallThrough c.pc x.target := by
  simp [Core.advance, hx, hk]

theorem Core.advance_untaken {c : Core} {x : Xfer} (hx : c.xfer = some x) (hk : x.kind = .untaken) : c.advance = c.checksBefore c.pc .untaken := by
  simp [Core.advance, hx, hk]

theorem Core.checksBefore_ends {c : Core} {pc : Word} {kind : XferKind} (h : ∃ l : Lvl, c.endsHere pc l = true) :
    c.checksBefore pc kind = { (c.endChecks pc).1 with
      delay := some { kind := if kind = .untaken then .jump else kind, target := (c.endChecks pc).2.getD (pc + 16) }, pc := pc + 8 } :=
  if_pos (Core.endsAny_iff.2 h)

/-! ### When a value that MVTL writes takes effect (02 R50) -/

section
variable (c : Core) (pc : Word) (l : Lvl) (x : BitVec 32)

/-- The core with a loop register written and nothing of it in effect yet. -/
def Core.setLoop (r : LReg) : Core := { c with lreg := vset c.lreg r x }

theorem Core.setLoop_lreg (r : LReg) : (c.setLoop x r).lreg[r] = x := vset_self _ _ _

theorem Core.setLoop_lc {r : LReg} (h : 3 ≤ r.val) : (c.setLoop x r).lc l = c.lc l := vset_ne _ _ (lcId_ne h).symm

theorem Core.landLoop_lcId : c.landLoop pc (lcId l) x false = (c.setLoop x (lcId l)).syncLoop l := by
  simp [Core.landLoop, Core.setLoop, lcId_lt l]

theorem Core.landLoop_inactive {r : LReg} (hr : 3 ≤ r.val) (hl : lregLevel r = l) (h : c.lc l = 0) :
    c.landLoop pc r x false = (c.setLoop x r).syncLoop l := by
  have hc : (c.setLoop x r).lc l = 0 := (c.setLoop_lc l x hr).trans h
  have h3 : ¬ r.val < 3 := by omega
  simp only [Core.setLoop] at hc
  simp [Core.landLoop, Core.setLoop, h3, hl, hc]

theorem Core.landLoop_lbId_active (h : c.lc l ≠ 0) : c.landLoop pc (lbId l) x false = c.setLoop x (lbId l) := by
  have hc : (c.setLoop x (lbId l)).lc l ≠ 0 := fun e => h ((c.setLoop_lc l x (by simp [lbId])).symm.trans e)
  have h3 : ¬ (lbId l).val < 3 := by simp [lbId]
  have h6 : (lbId l).val < 6 := by simp [lbId]; omega
  simp only [Core.landLoop, h3, h6, lregLevel_lbId, if_true, if_false, Bool.false_eq_true]
  exact if_neg hc

theorem Core.landLoop_leId_active (h : c.lc l ≠ 0) : c.landLoop pc (leId l) x false = { c.setLoop x (leId l) with
    leff := vset c.leff l { c.leff[l] with leQ := (c.leff[l]).leQ ++
      [(if pc.toNat = (c.leff[l]).le.toNat ∨ pc.toNat + 8 = (c.leff[l]).le.toNat then 2 else 1, x)] } } := by
  have hc : (c.setLoop x (leId l)).lc l ≠ 0 := fun e => h ((c.setLoop_lc l x (by simp [leId]; omega)).symm.trans e)
  have h3 : ¬ (leId l).val < 3 := by simp [leId]; omega
  have h6 : ¬ (leId l).val < 6 := by simp [leId]
  simp only [Core.landLoop, h3, h6, lregLevel_leId, if_false, Bool.false_eq_true, Bool.or_eq_true, decide_eq_true_eq]
  exact if_neg hc

end

/-- A value that waits for one check is in effect after it. -/
theorem LoopEff.tick_one (e : LoopEff) (lb x : BitVec 32) (h : e.leQ = [(1, x)]) : e.tick lb = { lb := lb, le := x, leQ := [] } := by
  simp [LoopEff.tick, h]

/-- One that waits for two waits on after the first. -/
theorem LoopEff.tick_two (e : LoopEff) (lb x : BitVec 32) (h : e.leQ = [(2, x)]) : e.tick lb = { lb := lb, le := e.le, leQ := [(1, x)] } := by
  simp [LoopEff.tick, h]

/-- An lc written is in force at once, and makes lb and le take effect where it is 0. -/
theorem Core.landLoop_lc_effect (c : Core) (pc : Word) (l : Lvl) (x : BitVec 32) :
    (c.landLoop pc (lcId l) x false).lc l = x ∧ (x ≠ 0 → (c.landLoop pc (lcId l) x false).leff = c.leff) := by
  have hx : (c.setLoop x (lcId l)).lc l = x := c.setLoop_lreg x _
  rw [Core.landLoop_lcId]
  exact ⟨by rw [Core.syncLoop_lc, hx], fun h => by rw [Core.syncLoop_active (by rwa [hx])]; rfl⟩

/-- For a level that is not active, lb and le take effect at once. -/
theorem Core.landLoop_inactive_effect (c : Core) (pc : Word) (l : Lvl) (x : BitVec 32) (h : c.lc l = 0) :
    ((c.landLoop pc (lbId l) x false).leff[l]).lb = x ∧ ((c.landLoop pc (leId l) x false).leff[l]).le = x := by
  have hb : 3 ≤ (lbId l).val := by simp [lbId]
  have he : 3 ≤ (leId l).val := by simp [leId]; omega
  rw [c.landLoop_inactive pc l x hb (by simp) h, c.landLoop_inactive pc l x he (by simp) h,
    Core.syncLoop_inactive ((c.setLoop_lc l x hb).trans h), Core.syncLoop_inactive ((c.setLoop_lc l x he).trans h)]
  exact ⟨c.setLoop_lreg x _, c.setLoop_lreg x _⟩

/-- For an active level, lb takes effect after the next end check. -/
theorem Core.landLoop_lb_effect (c : Core) (pc : Word) (l : Lvl) (x : BitVec 32) (h : c.lc l ≠ 0) :
    let b := c.landLoop pc (lbId l) x false
    b.leff = c.leff ∧ b.lreg[lbId l] = x ∧ (c.lc l ≠ 1 → ((b.checkLevel l).1.leff[l]).lb = x) := by
  have hc : (c.setLoop x (lbId l)).lc l = c.lc l := c.setLoop_lc l x (by simp [lbId])
  dsimp only
  rw [c.landLoop_lbId_active pc l x h]
  refine ⟨rfl, c.setLoop_lreg x _, fun h1 => ?_⟩
  rw [Core.checkLevel_more (by rwa [hc]), Core.checked_leff]
  exact c.setLoop_lreg x _

/-- For an active level, le takes effect after the next end check, or, from the last two bundles of the body, after the one that follows it. -/
theorem Core.landLoop_le_effect (c : Core) (pc : Word) (l : Lvl) (x : BitVec 32) (h0 : c.lc l ≠ 0) (h1 : c.lc l ≠ 1) (h2 : c.lc l ≠ 2)
    (hq : (c.leff[l]).leQ = []) :
    let b := c.landLoop pc (leId l) x false
    let last : Prop := pc.toNat = (c.leff[l]).le.toNat ∨ pc.toNat + 8 = (c.leff[l]).le.toNat
    b.lreg[leId l] = x ∧ (b.leff[l]).le = (c.leff[l]).le ∧ (¬last → ((b.checkLevel l).1.leff[l]).le = x) ∧
      (last → ((b.checkLevel l).1.leff[l]).le = (c.leff[l]).le ∧ ((((b.checkLevel l).1).checkLevel l).1.leff[l]).le = x) := by
  intro b last
  have hb : b = { c.setLoop x (leId l) with leff := vset c.leff l { c.leff[l] with leQ := [(if last then 2 else 1, x)] } } := by
    simp only [b, last, c.landLoop_leId_active pc l x h0, hq]
    rfl
  have hl : b.leff[l] = { c.leff[l] with leQ := [(if last then 2 else 1, x)] } := by rw [hb]; exact vset_self _ _ _
  have hr : b.lreg[leId l] = x := by rw [hb]; exact c.setLoop_lreg x _
  have hc : b.lc l = c.lc l := by rw [hb]; exact c.setLoop_lc l x (by simp [leId]; omega)
  have hk : (b.checkLevel l).1 = b.checked l := by rw [Core.checkLevel_more (by rwa [hc])]
  refine ⟨hr, by rw [hl], fun hn => ?_, fun hy => ?_⟩
  · rw [hk, Core.checked_leff, LoopEff.tick_one _ _ x (by rw [hl, if_neg hn])]
  · have ht : (b.checked l).leff[l] = { lb := b.lreg[lbId l], le := (b.leff[l]).le, leQ := [(1, x)] } := by
      rw [Core.checked_leff, LoopEff.tick_two _ _ x (by rw [hl, if_pos hy])]
    have hk2 : ((b.checked l).checkLevel l).1 = (b.checked l).checked l := by
      rw [Core.checkLevel_more (by rw [Core.checked_lc, hc]; bv_omega)]
    rw [hk, hk2, ht]
    exact ⟨by rw [hl], by rw [Core.checked_leff, LoopEff.tick_one _ _ x (by rw [ht])]⟩

/-- Settles O16: the words by the opening of a loop, the end checks level by level, and MVTL's values by what is in effect of them. -/
theorem loopRegisters : Obligations.LoopRegisters := by
  refine ⟨fun s m l count fin a d lp => ⟨fun hb hr hin => exec_loops_ok hb hr fun n => State.openLoop_inside hin,
      fun hb hr hout => exec_loops_trap hb hr fun n => State.openLoop_outside hout, exec_mvtl_owner,
      fun hr => (exec_mvfl m d lp s).trans (cResult_ready hr)⟩,
    fun c pc l => ⟨Core.endsHere_iff, (c.endChecks_same pc).1, (c.endChecks_same pc).2, Core.endChecks_back,
      fun h => ⟨(Core.endChecks_on h).1, (Core.endChecks_on h).2 l⟩⟩,
    fun c x => ⟨Core.advance_plain, Core.advance_skip, fun hx hk he => ?_⟩,
    fun c pc l x => ⟨(c.landLoop_lc_effect pc l x).1, (c.landLoop_lc_effect pc l x).2, c.landLoop_inactive_effect pc l x,
      c.landLoop_lb_effect pc l x, c.landLoop_le_effect pc l x⟩⟩
  rw [Core.advance_untaken hx hk, Core.checksBefore_ends he]
  rfl

end Sys2Proof.Machine
end

section
/-! PROOFS. Results in flight, how they land, and the end of a marker's park (02 R38 to R40, R50, 05 R113, 09 R195). -/

namespace Sys2Proof.Machine

open Sys2Proof

/-! ### One result lands -/

@[simp] theorem Core.s_zero (c : Core) : c.s 0 = 0 := rfl

@[simp] theorem Core.p_zero (c : Core) : c.p 0 = true := rfl

theorem Core.setS_s (c : Core) (r q : Reg) (x : Word) : (c.setS r x).s q = if q = r ∧ r ≠ 0 then x else c.s q := by
  unfold Core.setS Core.s
  by_cases hr : r = 0
  · simp [hr]
  · by_cases hq : q = r
    · subst hq
      simp only [hr, if_false, ne_eq, not_false_eq_true, and_true, if_true]
      exact vset_self _ _ _
    · simp only [hr, hq, false_and, if_false, vset_ne _ _ hq]

theorem Core.setP_p (c : Core) (r q : PReg) (x : Bool) : (c.setP r x).p q = if q = r ∧ r ≠ 0 then x else c.p q := by
  unfold Core.setP Core.p
  by_cases hr : r = 0
  · simp [hr]
  · by_cases hq : q = r
    · subst hq
      simp only [hr, if_false, ne_eq, not_false_eq_true, and_true, if_true, vset_self]
      simp [hr]
    · simp only [hr, hq, false_and, if_false, vset_ne _ _ hq]

theorem Core.setV_v (c : Core) (r q : Reg) (x : Vec) : (c.setV r x).v q = if q = r then x else c.v q := by
  by_cases hq : q = r
  · rw [if_pos hq, hq]
    exact vset_self _ _ _
  · rw [if_neg hq]
    exact vset_ne _ _ hq

theorem Core.setS_eq (c : Core) (r : Reg) (x : Word) : c.setS r x = { c with sreg := (c.setS r x).sreg } := by
  unfold Core.setS
  split <;> rfl

theorem Core.setP_eq (c : Core) (r : PReg) (x : Bool) : c.setP r x = { c with preg := (c.setP r x).preg } := by
  unfold Core.setP
  split <;> rfl

/-- A loop register takes its value, whatever of it is in effect; every other one and every other field is left. -/
theorem Core.landLoop_eq (c : Core) (pc : Word) (r : LReg) (x : BitVec 32) (h : Bool) :
    c.landLoop pc r x h = { c with lreg := vset c.lreg r x, leff := (c.landLoop pc r x h).leff } := by
  unfold Core.landLoop Core.syncLoop
  dsimp only
  (repeat' split) <;> rfl

theorem Core.landLoop_lreg (c : Core) (pc : Word) (r q : LReg) (x : BitVec 32) (h : Bool) :
    (c.landLoop pc r x h).lreg[q] = if q = r then x else c.lreg[q] := by
  rw [Core.landLoop_eq]
  by_cases hq : q = r
  · rw [if_pos hq, hq]
    exact vset_self _ _ _
  · rw [if_neg hq]
    exact vset_ne _ _ hq

theorem Core.land_loopReg_eq (c : Core) (pc : Word) (r : LReg) (x : BitVec 32) (h : Bool) : let t := c.land pc (.loopReg r x h)
    t = { c with lreg := t.lreg, leff := t.leff } := by
  have e := c.landLoop_eq pc r x h
  have hl : (c.landLoop pc r x h).lreg = vset c.lreg r x := by rw [e]
  rw [← hl] at e
  exact e

theorem Core.landSys_other (c : Core) {r : SysReg} (x : Word) (h1 : r ≠ .trapv) (h2 : r ≠ .fpflags) (h3 : r ≠ .discsel) : c.landSys r x = c := by
  cases r with
  | trapv => exact absurd rfl h1
  | fpflags => exact absurd rfl h2
  | discsel => exact absurd rfl h3
  | _ => rfl

/-- What a result may change: registers, and what is in effect of the loop registers. -/
theorem Core.land_eq (c : Core) (pc : Word) (w : Wr) : let t := c.land pc w
    t = { c with sreg := t.sreg, vreg := t.vreg, preg := t.preg, lreg := t.lreg, leff := t.leff, trapv := t.trapv, fpflags := t.fpflags,
                 discsel := t.discsel } := by
  cases w with
  | scalar r x => rw [show c.land pc (.scalar r x) = c.setS r x from rfl, c.setS_eq]
  | vector r x => rfl
  | pred r x => rw [show c.land pc (.pred r x) = c.setP r x from rfl, c.setP_eq]
  | loopReg r x h => rw [show c.land pc (.loopReg r x h) = c.landLoop pc r x h from rfl, Core.landLoop_eq]
  | sys r x => cases r <;> rfl
  | flagsOnly => rfl

/-- A result leaves every register it does not write. -/
theorem Core.land_s_other (c : Core) (pc : Word) {w : Wr} {r : Reg} (h : w.reg ≠ some (.scalar r)) : (c.land pc w).s r = c.s r := by
  cases w with
  | scalar q x =>
    rw [show c.land pc (.scalar q x) = c.setS q x from rfl, Core.setS_s, if_neg]
    rintro ⟨rfl, hq⟩
    exact h (by simp [Wr.reg, hq])
  | vector q x => rfl
  | pred q x => rw [show c.land pc (.pred q x) = c.setP q x from rfl, c.setP_eq]; rfl
  | loopReg q x hd => rw [show c.land pc (.loopReg q x hd) = c.landLoop pc q x hd from rfl, Core.landLoop_eq]; rfl
  | sys q x => cases q <;> rfl
  | flagsOnly => rfl

theorem Core.land_v_other (c : Core) (pc : Word) {w : Wr} {r : Reg} (h : w.reg ≠ some (.vector r)) : (c.land pc w).v r = c.v r := by
  cases w with
  | scalar q x => rw [show c.land pc (.scalar q x) = c.setS q x from rfl, c.setS_eq]; rfl
  | vector q x =>
    rw [show c.land pc (.vector q x) = c.setV q x from rfl, Core.setV_v, if_neg]
    rintro rfl
    exact h rfl
  | pred q x => rw [show c.land pc (.pred q x) = c.setP q x from rfl, c.setP_eq]; rfl
  | loopReg q x hd => rw [show c.land pc (.loopReg q x hd) = c.landLoop pc q x hd from rfl, Core.landLoop_eq]; rfl
  | sys q x => cases q <;> rfl
  | flagsOnly => rfl

theorem Core.land_p_other (c : Core) (pc : Word) {w : Wr} {r : PReg} (h : w.reg ≠ some (.pred r)) : (c.land pc w).p r = c.p r := by
  cases w with
  | scalar q x => rw [show c.land pc (.scalar q x) = c.setS q x from rfl, c.setS_eq]; rfl
  | vector q x => rfl
  | pred q x =>
    rw [show c.land pc (.pred q x) = c.setP q x from rfl, Core.setP_p, if_neg]
    rintro ⟨rfl, hq⟩
    exact h (by simp [Wr.reg, hq])
  | loopReg q x hd => rw [show c.land pc (.loopReg q x hd) = c.landLoop pc q x hd from rfl, Core.landLoop_eq]; rfl
  | sys q x => cases q <;> rfl
  | flagsOnly => rfl

theorem Core.land_lreg_other (c : Core) (pc : Word) {w : Wr} {r : LReg} (h : w.reg ≠ some (.loopReg r)) : (c.land pc w).lreg[r] = c.lreg[r] := by
  cases w with
  | scalar q x => rw [show c.land pc (.scalar q x) = c.setS q x from rfl, c.setS_eq]
  | vector q x => rfl
  | pred q x => rw [show c.land pc (.pred q x) = c.setP q x from rfl, c.setP_eq]
  | loopReg q x hd =>
    rw [show c.land pc (.loopReg q x hd) = c.landLoop pc q x hd from rfl, Core.landLoop_lreg, if_neg]
    rintro rfl
    exact h rfl
  | sys q x => cases q <;> rfl
  | flagsOnly => rfl

/-- What a program may read back of the three system registers that MTS writes. -/
def Core.mtsRegs (c : Core) : Word × BitVec 6 × BitVec 8 := (c.trapv, c.fpflags, c.discsel)

/-- A result that is no system register's leaves these. -/
theorem Core.land_mtsRegs (c : Core) (pc : Word) {w : Wr} (h : ∀ r, w.reg ≠ some (.sys r)) : (c.land pc w).mtsRegs = c.mtsRegs := by
  cases w with
  | scalar q x => rw [show c.land pc (.scalar q x) = c.setS q x from rfl, c.setS_eq]; rfl
  | vector q x => rfl
  | pred q x => rw [show c.land pc (.pred q x) = c.setP q x from rfl, c.setP_eq]; rfl
  | loopReg q x hd => rw [show c.land pc (.loopReg q x hd) = c.landLoop pc q x hd from rfl, Core.landLoop_eq]; rfl
  | sys q x => exact absurd rfl (h q)
  | flagsOnly => rfl

/-- A system register's result leaves those of the three that it does not name. -/
theorem Core.land_sys_other (c : Core) (pc : Word) {w : Wr} :
    (w.reg ≠ some (.sys .trapv) → (c.land pc w).trapv = c.trapv) ∧ (w.reg ≠ some (.sys .fpflags) → (c.land pc w).fpflags = c.fpflags) ∧
    (w.reg ≠ some (.sys .discsel) → (c.land pc w).discsel = c.discsel) := by
  by_cases hw : ∃ r, w.reg = some (.sys r)
  · obtain ⟨r, hr⟩ := hw
    cases w with
    | sys q x => cases q <;> simp [Core.land, Core.landSys, Wr.reg]
    | scalar q x => simp only [Wr.reg] at hr; split at hr <;> cases hr
    | pred q x => simp only [Wr.reg] at hr; split at hr <;> cases hr
    | vector q x => cases hr
    | loopReg q x h => cases hr
    | flagsOnly => cases hr
  · have h := c.land_mtsRegs pc (not_exists.1 hw)
    exact ⟨fun _ => congrArg (·.1) h, fun _ => congrArg (·.2.1) h, fun _ => congrArg (·.2.2) h⟩

/-! ### Several results land together -/

theorem Core.landRegs_cons (c : Core) (pc : Word) (f : Flight) (fs : List Flight) : c.landRegs pc (f :: fs) = (c.land pc f.wr).landRegs pc fs := rfl

theorem Core.landRegs_append (c : Core) (pc : Word) (fs gs : List Flight) : c.landRegs pc (fs ++ gs) = (c.landRegs pc fs).landRegs pc gs :=
  List.foldl_append

theorem Core.landRegs_eq (c : Core) (pc : Word) (fs : List Flight) : let t := c.landRegs pc fs
    t = { c with sreg := t.sreg, vreg := t.vreg, preg := t.preg, lreg := t.lreg, leff := t.leff, trapv := t.trapv, fpflags := t.fpflags,
                 discsel := t.discsel } := by
  induction fs generalizing c with
  | nil => rfl
  | cons f fs ih =>
    dsimp only
    rw [Core.landRegs_cons]
    refine (ih (c.land pc f.wr)).trans ?_
    rw [c.land_eq pc f.wr]

section
variable {α : Type} {get : Core → α} {pc : Word} {r : RegId} (h : ∀ (c : Core) (w : Wr), w.reg ≠ some r → get (c.land pc w) = get c)
include h

/-- A register that none of the results writes is as it was. -/
theorem Core.landRegs_kept (c : Core) {fs : List Flight} (hk : ∀ f ∈ fs, f.wr.reg ≠ some r) : get (c.landRegs pc fs) = get c := by
  induction fs generalizing c with
  | nil => rfl
  | cons f fs ih =>
    rw [Core.landRegs_cons, ih _ fun g hg => hk g (by simp [hg]), h c f.wr (hk f (by simp))]

/-- Of several results on one register the last one counts. -/
theorem Core.landRegs_last {w : Wr} {x : α} (hx : ∀ c : Core, get (c.land pc w) = x) (c : Core) {fs : List Flight}
    (hl : ∃ pre f post, fs = pre ++ f :: post ∧ f.wr = w ∧ w.reg = some r ∧ ∀ g ∈ post, g.wr.reg ≠ some r) : get (c.landRegs pc fs) = x := by
  obtain ⟨pre, f, post, rfl, rfl, -, hp⟩ := hl
  rw [Core.landRegs_append, Core.landRegs_cons, Core.landRegs_kept h _ hp, hx]

end

/-- A result on a scalar register is never one on s0, which takes none. -/
theorem Wr.reg_scalar_ne_zero {r : Reg} {x : Word} {q : RegId} (h : (Wr.scalar r x).reg = some q) : r ≠ 0 := by
  rintro rfl
  cases h

theorem Wr.reg_pred_ne_zero {r : PReg} {x : Bool} {q : RegId} (h : (Wr.pred r x).reg = some q) : r ≠ 0 := by
  rintro rfl
  cases h

theorem flagsOf_foldl_getLsbD (fs : List Flight) (a : BitVec 6) (i : Nat) :
    (fs.foldl (fun a f => a ||| f.flags) a).getLsbD i = true ↔ a.getLsbD i = true ∨ ∃ f ∈ fs, f.flags.getLsbD i = true := by
  induction fs generalizing a with
  | nil => simp
  | cons f fs ih => simp [ih, or_assoc]

/-- The flags of results that land together are those of each. -/
theorem flagsOf_getLsbD (fs : List Flight) (i : Nat) : (flagsOf fs).getLsbD i = true ↔ ∃ f ∈ fs, f.flags.getLsbD i = true := by
  simp [flagsOf, flagsOf_foldl_getLsbD]

/-! ### Results come nearer (02 R38) -/

/-- A bundle issues while the only result in flight is further away. -/
theorem Core.age_far {c : Core} (pc : Word) {f : Flight} (ha : c.acc = []) (hf : c.flight = [f]) (h : 1 < f.dist) :
    c.age pc = { c with flight := [{ f with dist := f.dist - 1 }] } := by
  have hn : ¬ f.dist ≤ 1 := by omega
  simp [Core.age, Core.dueNext, Core.landRegs, hf, ha, h, hn]

/-- It lands as the last of its bundles issues. -/
theorem Core.age_due {c : Core} (pc : Word) {f : Flight} (ha : c.acc = []) (hf : c.flight = [f]) (h : f.dist ≤ 1) :
    c.age pc = ({ c with flight := [] } : Core).land pc f.wr := by
  have hn : ¬ 1 < f.dist := by omega
  simp [Core.age, Core.dueNext, Core.landRegs, hf, ha, h, hn]

/-- After fewer bundles than its latency it is that many nearer. -/
theorem Core.age_iterate {c : Core} (pc : Word) {f : Flight} (ha : c.acc = []) (hf : c.flight = [f]) {k : Nat} (h : k < f.dist) :
    (fun c : Core => c.age pc)^[k] c = { c with flight := [{ f with dist := f.dist - k }] } := by
  induction k with
  | zero => rw [Function.iterate_zero_apply, Nat.sub_zero, ← hf]
  | succ k ih =>
    rw [Function.iterate_succ_apply', ih (by omega)]
    exact Core.age_far (c := { c with flight := [{ f with dist := f.dist - k }] }) pc ha rfl (by dsimp only; omega)

/-! ### The end of a marker's park (02 R40) -/

/-- The results that have arrived, as they land when the park ends. -/
def Core.arrived (c : Core) : List Flight := c.pend.filterMap (fun p => p.got.map (fun x => { dist := 0, wr := x.1, flags := x.2 }))

theorem gotAll_iff {ps : List Pend} : gotAll ps = true ↔ ∀ q ∈ ps, q.got.isSome = true := by simp [gotAll]

/-- With every result there, all land, and no mark stays. -/
theorem Core.settled_all {c : Core} (h : ∀ q ∈ c.pend, q.got.isSome = true) :
    c.settled = (({ c with pend := [] } : Core).landRegs c.pc c.arrived).orFlags (flagsOf c.arrived) := by
  have hp : c.pend.filter (fun p => p.got.isNone) = [] := List.filter_eq_nil_iff.2 fun q hq => by simp [Option.isSome_iff_ne_none.1 (h q hq)]
  rw [Core.settled, hp]
  rfl

theorem State.parkOver_marker_waits {s : State} {core : CoreId} {marks : Bool} (h : ∃ q ∈ (s.cores[core]).pend, q.got = none) :
    s.parkOver core { why := .marker, marks := marks } = none := by
  obtain ⟨q, hq, hn⟩ := h
  exact if_neg fun ha => by simpa [hn] using gotAll_iff.1 ha q hq

theorem State.parkOver_marker {s : State} {core : CoreId} {marks : Bool} (h : ∀ q ∈ (s.cores[core]).pend, q.got.isSome = true) :
    s.parkOver core { why := .marker, marks := marks } = some ((s.settle core).modCore core (fun k => { k with park := none })) :=
  if_pos (gotAll_iff.2 h)

/-- Settles O53: each landing by the register it writes, several by induction on their list, ageing by the distance. -/
theorem resultsLandAfterTheirLatency : Obligations.ResultsLandAfterTheirLatency := by
  refine ⟨fun s w n fl => ⟨rfl, fun k hk => State.modCore_ne s _ hk, s.landAt_c w n fl⟩, fun c pc w n k fl hf ha hn => ⟨?_, ?_⟩,
    fun c pc => ⟨rfl, rfl⟩, fun c fs fl i => ⟨rfl, flagsOf_getLsbD fs i⟩, fun c pc fs => ?_, fun c pc r q p u x y b => ?_,
    fun c pc r l x y h => ?_, fun s core marks => ?_⟩
  · exact fun hk => Core.age_iterate pc ha hf hk
  · obtain ⟨m, rfl⟩ : ∃ m, n = m + 1 := ⟨n - 1, by omega⟩
    rw [Function.iterate_succ_apply', Core.age_iterate pc ha hf (Nat.lt_succ_self m)]
    exact Core.age_due (c := { c with flight := [{ dist := m + 1 - m, wr := w, flags := fl }] }) pc ha rfl (by dsimp only; omega)
  · refine ⟨c.landRegs_eq pc fs, fun r x hl => ?_, fun r hk => ?_, fun r x hl => ?_, fun r hk => ?_, fun r x hl => ?_, fun r hk => ?_,
      fun r x h hl => ?_, fun r hk => ?_, fun x hl => ?_, fun hk => ?_, fun x hl => ?_, fun hk => ?_, fun x hl => ?_, fun hk => ?_⟩
    · have hr : r ≠ 0 := by
        obtain ⟨_, _, _, _, _, hr, _⟩ := hl
        exact Wr.reg_scalar_ne_zero hr
      exact Core.landRegs_last (get := fun c => c.s r) (w := .scalar r x) (fun c w hw => c.land_s_other pc hw)
        (fun c => (c.setS_s r r x).trans (if_pos ⟨rfl, hr⟩)) c hl
    · exact Core.landRegs_kept (get := fun c => c.s r) (fun c w hw => c.land_s_other pc hw) c hk
    · exact Core.landRegs_last (get := fun c => c.v r) (w := .vector r x) (fun c w hw => c.land_v_other pc hw)
        (fun c => (c.setV_v r r x).trans (if_pos rfl)) c hl
    · exact Core.landRegs_kept (get := fun c => c.v r) (fun c w hw => c.land_v_other pc hw) c hk
    · have hr : r ≠ 0 := by
        obtain ⟨_, _, _, _, _, hr, _⟩ := hl
        exact Wr.reg_pred_ne_zero hr
      exact Core.landRegs_last (get := fun c => c.p r) (w := .pred r x) (fun c w hw => c.land_p_other pc hw)
        (fun c => (c.setP_p r r x).trans (if_pos ⟨rfl, hr⟩)) c hl
    · exact Core.landRegs_kept (get := fun c => c.p r) (fun c w hw => c.land_p_other pc hw) c hk
    · exact Core.landRegs_last (get := fun c => c.lreg[r]) (fun c w hw => c.land_lreg_other pc hw)
        (fun c => (c.landLoop_lreg pc r r x h).trans (if_pos rfl)) c hl
    · exact Core.landRegs_kept (get := fun c => c.lreg[r]) (fun c w hw => c.land_lreg_other pc hw) c hk
    · exact Core.landRegs_last (get := Core.trapv) (fun c w => (c.land_sys_other pc).1) (fun c => rfl) c hl
    · exact Core.landRegs_kept (get := Core.trapv) (fun c w => (c.land_sys_other pc).1) c hk
    · exact Core.landRegs_last (get := Core.fpflags) (fun c w => (c.land_sys_other pc).2.1) (fun c => rfl) c hl
    · exact Core.landRegs_kept (get := Core.fpflags) (fun c w => (c.land_sys_other pc).2.1) c hk
    · exact Core.landRegs_last (get := Core.discsel) (fun c w => (c.land_sys_other pc).2.2) (fun c => rfl) c hl
    · exact Core.landRegs_kept (get := Core.discsel) (fun c w => (c.land_sys_other pc).2.2) c hk
  · exact ⟨c.s_zero, c.p_zero, rfl, rfl, c.setS_eq r x, c.setS_s r q x, rfl, c.setV_v r q y, c.setP_eq p b, c.setP_p p u b⟩
  · exact ⟨rfl, rfl, rfl, c.landSys_other x, c.land_loopReg_eq pc l y h, fun q => c.landLoop_lreg pc l q y h⟩
  · refine ⟨State.parkOver_marker_waits, fun h => ⟨_, State.parkOver_marker h, rfl, fun k hk => ?_, fun x hx => ?_, ?_, ?_⟩⟩
    · rw [State.modCore_ne _ _ hk]
      exact State.modCore_ne s _ hk
    · exact State.modTile_ne _ _ hx
    · have hs : (s.settle core).cores[core] = (s.cores[core]).settled := State.modCore_self s core _
      rw [State.modCore_self, hs, Core.settled_all h]
      rfl
    · have hp : (s.cores[core]).pend.filter (fun p => p.got.isSome) = (s.cores[core]).pend := List.filter_eq_self.2 h
      rw [State.modCore_tiles, State.settle]
      dsimp only
      rw [State.modTile_self, hp]
      rfl

end Sys2Proof.Machine
end

section
/-! PROOFS. Trap entry on the cores of a gang, and the return from a handler (02 R42 to R46, 09 R188, 10 R230). -/

namespace Sys2Proof.Machine

open Sys2Proof

/-! ### Updates of several cores -/

section
variable (f : CoreId → Core → Core)

/-- An update of several cores changes nothing but cores. -/
theorem State.foldl_modCore_eq (g : List CoreId) (s : State) :
    g.foldl (fun s c => s.modCore c (f c)) s = { s with cores := (g.foldl (fun s c => s.modCore c (f c)) s).cores } := by
  induction g generalizing s with
  | nil => rfl
  | cons d g ih =>
    rw [List.foldl_cons]
    exact (ih (s.modCore d (f d))).trans rfl

/-- It leaves every core that it does not name. -/
theorem State.foldl_modCore_ne {g : List CoreId} (s : State) {c : CoreId} (h : c ∉ g) :
    (g.foldl (fun s c => s.modCore c (f c)) s).cores[c] = s.cores[c] := by
  induction g generalizing s with
  | nil => rfl
  | cons d g ih =>
    obtain ⟨hd, hg⟩ := not_or.1 (mt List.mem_cons.2 h)
    rw [List.foldl_cons, ih _ hg, State.modCore_ne s _ hd]

/-- Each core that it names once is updated once. -/
theorem State.foldl_modCore_self {g : List CoreId} (hn : g.Nodup) (s : State) {c : CoreId} (h : c ∈ g) :
    (g.foldl (fun s c => s.modCore c (f c)) s).cores[c] = f c s.cores[c] := by
  induction g generalizing s with
  | nil => cases h
  | cons d g ih =>
    obtain ⟨hd, hn⟩ := List.nodup_cons.1 hn
    rw [List.foldl_cons]
    obtain rfl | hg := List.mem_cons.1 h
    · rw [State.foldl_modCore_ne f _ hd, State.modCore_self]
    · rw [ih hn _ hg, State.modCore_ne s _ (fun e : c = d => hd (e ▸ hg))]

end

/-! ### Taking a trap (02 R44 to R46) -/

/-- With INH clear where there is a cause, every core of the gang takes the trap, with its own cause or code 0. -/
theorem State.trapGang_taken {s : State} {g : List CoreId} {ts : List (CoreId × TrapRec)} {tpc : Word} (h : ∀ e ∈ ts, (s.cores[e.1]).inh = false) :
    s.trapGang g ts tpc = g.foldl (fun s c => s.modCore c (fun k => k.unstep.takeTrap ((ts.find? (fun x => x.1 == c)).elim noCause (·.2)) tpc))
      { s with stepNo := s.stepNo + 1 } := by
  have hf : ts.find? (fun x => (s.cores[x.1]).inh) = none := List.find?_eq_none.2 fun e he => by rw [h e he]; simp
  simp only [State.trapGang, hf]

/-- A cause that meets INH ends the slice. -/
theorem State.trapGang_nested {s : State} {g : List CoreId} {c : CoreId} {t : TrapRec} {tpc : Word} {x : Nat} (h : (s.cores[c]).inh = true)
    (hx : (s.cores[c]).sl = some x) : s.trapGang g [(c, t)] tpc = ({ s with stepNo := s.stepNo + 1 } : State).stopSlice x (.nested t.code) := by
  simp only [State.trapGang, List.find?_singleton, h, if_true, hx]

/-- The cause of a core among those of one core. -/
theorem causeOf_single (c d : CoreId) (t : TrapRec) :
    ([(d, t)].find? (fun x => x.1 == c)).elim noCause (·.2) = if c = d then t else cause 0 0 0 := by
  by_cases h : c = d
  · simp [h]
  · simp [h, Ne.symm h, noCause]

theorem State.preciseTrap_taken {s : State} {t : TrapRec} (h : s.c.inh = false) : s.preciseTrap t =
    { (s.gang s.unit).foldl (fun u c => u.modCore c (fun k => k.unstep.takeTrap (if c = s.cur then t else cause 0 0 0) s.pcNow))
        { s with stepNo := s.stepNo + 1 } with issue := .trapped t } := by
  have ht : ∀ e ∈ [(s.cur, t)], (s.cores[e.1]).inh = false := fun e he => List.mem_singleton.1 he ▸ h
  rw [State.preciseTrap, State.trapGang_taken ht]
  simp only [causeOf_single]

theorem tcauseOf_inh (t : TrapRec) : (tcauseOf t).getLsbD 9 = true := by simp [tcauseOf]

theorem tcauseOf_code (t : TrapRec) : (tcauseOf t).setWidth 8 = t.code := by
  cases h : t.async <;> ext i hi <;> simp [tcauseOf, h]

/-! ### The return (02 R45, 10 R230) -/

/-- The interrupted stream comes back as it was, with INH clear. -/
theorem Core.takeTrap_resumed (c : Core) (t : TrapRec) (tpc : Word) : (c.takeTrap t tpc).resumed = { c.takeTrap t tpc with
    flight := c.flight, pend := c.pend, delay := c.delay, owed := c.owed, park := c.park, refused := c.refused, replay := none,
    tcause := tcauseOf t &&& ~~~0x200#64 } := by
  simp [Core.resumed, Core.takeTrap]

theorem Core.unstep_eq {c : Core} (h : c.dbgHeld = none) : c.unstep = c := by simp [Core.unstep, h]

section
variable {s : State} {core : CoreId} (h : (s.cores[core]).dbgHeld = none)
include h

theorem State.returnCore_drained (hf : (s.cores[core]).flight = []) (hp : (s.cores[core]).pend = []) :
    s.returnCore core = s.modCore core Core.resumed := by
  have hu : s.modCore core Core.unstep = s := State.modCore_id (Core.unstep_eq h)
  simp only [State.returnCore, hu, hf, hp]
  rfl

theorem State.returnCore_waits (hw : (s.cores[core]).flight ≠ [] ∨ (s.cores[core]).pend ≠ []) :
    s.returnCore core = s.modCore core (fun c =>
      { c with park := some { why := .returning (s.coreCycle (tileOf core) (s.cores[core]).maxDist), marks := false } }) := by
  have hu : s.modCore core Core.unstep = s := State.modCore_id (Core.unstep_eq h)
  have hb : ((s.cores[core]).flight.isEmpty && (s.cores[core]).pend.isEmpty) = false := by
    rw [Bool.and_eq_false_iff]
    exact hw.imp (by simp) (by simp)
  simp only [State.returnCore, hu, hb]
  rfl

end

/-- Settles O54: entry core by core, and the return as the inverse of entry on the interrupted stream. -/
theorem trapEntryAndReturn : Obligations.TrapEntryAndReturn := by
  refine ⟨fun s t => ⟨fun h hn => ?_, fun x h hx => ?_⟩, fun c t tpc => ?_, fun s core h => ⟨State.returnCore_drained h, State.returnCore_waits h⟩⟩
  · rw [State.preciseTrap_taken h]
    have e := State.foldl_modCore_eq (fun c k => k.unstep.takeTrap (if c = s.cur then t else cause 0 0 0) s.pcNow) (s.gang s.unit)
      { s with stepNo := s.stepNo + 1 }
    exact ⟨rfl, (congrArg State.mem e :), (congrArg State.tiles e :), (congrArg State.slices e :), (congrArg State.net e :), (congrArg State.outbox e :),
      fun c hc => State.foldl_modCore_ne _ _ hc, fun c hc => State.foldl_modCore_self _ hn _ hc⟩
  · exact congrArg (fun u : State => { u with issue := .trapped t }) (State.trapGang_nested h hx)
  · dsimp only
    rw [Core.takeTrap_resumed]
    exact ⟨tcauseOf_inh t, tcauseOf_code t, by simp [Core.inh], rfl, rfl, rfl, rfl, rfl, rfl, rfl, rfl, rfl, rfl⟩

end Sys2Proof.Machine
end

section
/-! PROOFS. Local accesses that reach their banks before a bundle issues (04 R89, 08 R180): which of a core's are left, and what they leave alone. -/

namespace Sys2Proof.Machine

open Sys2Proof

/-! ### One access -/

/-- A reading of cores that an update keeps is the same on every core after it. -/
theorem State.modCore_keeps {α : Type} {get : Core → α} {f : Core → Core} (h : ∀ k, get (f k) = get k) (s : State) (c d : CoreId) :
    get ((s.modCore c f).cores[d]) = get s.cores[d] := by
  by_cases e : d = c
  · rw [e, State.modCore_self, h]
  · rw [State.modCore_ne s f e]

/-- What an access leaves of its core: the accesses under way, and how far they may lag. -/
def Core.accLag (c : Core) : List (Nat × LocalAcc) × Nat := (c.acc, c.mayLag)

theorem Core.deliver_accLag (c : Core) (id : Nat) (w : Wr) (fl : BitVec 6) : (c.deliver id w fl).accLag = c.accLag := by
  unfold Core.deliver
  dsimp only
  split <;> rfl

theorem State.setBytes_foldl_eq (ws : List (Nat × List Byte)) (s : State) :
    ws.foldl (fun s w => s.setBytes w.1 w.2) s = { s with mem := (ws.foldl (fun s w => s.setBytes w.1 w.2) s).mem } := by
  induction ws generalizing s with
  | nil => rfl
  | cons w ws ih =>
    rw [List.foldl_cons]
    exact (ih (s.setBytes w.1 w.2)).trans rfl

theorem State.inFlight_accLag (s : State) (core : CoreId) (w : Wr) (n : Nat) (fl : BitVec 6) (d : CoreId) :
    ((s.inFlight core w n fl).cores[d]).accLag = (s.cores[d]).accLag :=
  State.modCore_keeps (get := Core.accLag) (f := fun c => { c with flight := c.flight ++ [{ dist := n, wr := w, flags := fl }] }) (fun _ => rfl) s core d

theorem State.reach_accLag (s : State) (core : CoreId) (lag : Nat) (a : LocalAcc) (d : CoreId) :
    ((s.reach core lag a).cores[d]).accLag = (s.cores[d]).accLag := by
  cases a with
  | load k r sz => exact s.inFlight_accLag core _ _ _ d
  | loadVec k r => exact s.inFlight_accLag core _ _ _ d
  | loadLanes ks r sz => exact s.inFlight_accLag core _ _ _ d
  | loadPend k r sz id => exact State.modCore_keeps (get := Core.accLag) (fun c => c.deliver_accLag id _ 0) s core d
  | store ws =>
    exact (congrArg (fun u : State => (u.cores[d]).accLag) (State.setBytes_foldl_eq ws s) :)
  | atom k r op ty x cmp => exact (s.setBytes k _).inFlight_accLag core _ _ _ d

theorem State.reach_slices (s : State) (core : CoreId) (lag : Nat) (a : LocalAcc) : (s.reach core lag a).slices = s.slices := by
  cases a with
  | store ws => exact (congrArg State.slices (State.setBytes_foldl_eq ws s) :)
  | load k r sz => rfl
  | loadVec k r => rfl
  | loadLanes ks r sz => rfl
  | loadPend k r sz id => rfl
  | atom k r op ty x cmp => rfl

/-! ### The accesses of a core that are old enough -/

theorem State.reach_foldl_accLag (as : List (Nat × LocalAcc)) (s : State) (core d : CoreId) :
    ((as.foldl (fun s a => s.reach core a.1 a.2) s).cores[d]).accLag = (s.cores[d]).accLag :=
  List.foldlRecOn (motive := fun u : State => (u.cores[d]).accLag = (s.cores[d]).accLag) as _ rfl
    fun u h a _ => (u.reach_accLag core a.1 a.2 d).trans h

theorem State.performFrom_self (s : State) (n : Nat) (c : CoreId) :
    ((s.performFrom n c).cores[c]).accLag = ((s.cores[c]).acc.filter (fun a => decide (a.1 < n)), (s.cores[c]).mayLag) := by
  refine (State.reach_foldl_accLag _ _ c c).trans ?_
  rw [State.modCore_self]
  rfl

theorem State.performFrom_ne (s : State) (n : Nat) {c d : CoreId} (h : d ≠ c) : ((s.performFrom n c).cores[d]).accLag = (s.cores[d]).accLag := by
  refine (State.reach_foldl_accLag _ _ c d).trans ?_
  rw [State.modCore_ne s _ h]

theorem State.performFrom_slices (s : State) (n : Nat) (c : CoreId) : (s.performFrom n c).slices = s.slices :=
  List.foldlRecOn (motive := fun u : State => u.slices = s.slices) _ _ rfl fun u h a _ => (u.reach_slices c a.1 a.2).trans h

/-! ### The accesses of a gang -/

/-- One pass of `State.performOld`: accesses that are `n` bundles old, on the cores whose accesses may be performed then. -/
def State.performPass (s : State) (least : Nat → Nat) (cs : List CoreId) (n : Nat) : State :=
  cs.foldl (fun s c => if least (s.cores[c]).mayLag ≤ n then s.performFrom n c else s) s

theorem State.performAccs_eq (s : State) (cs : List CoreId) :
    s.performAccs cs = [3, 2, 1, 0].foldl (fun s n => s.performPass (fun _ => 0) cs n) s := rfl

theorem State.performOld_mayLag_eq (s : State) (cs : List CoreId) :
    s.performOld Core.mayLag cs = [3, 2, 1, 0].foldl (fun s n => s.performPass id cs n) s := rfl

theorem State.performAccs_slices (s : State) (cs : List CoreId) : (s.performAccs cs).slices = s.slices := by
  refine List.foldlRecOn (motive := fun u : State => u.slices = s.slices) _ _ rfl fun u h n _ => ?_
  refine List.foldlRecOn (motive := fun v : State => v.slices = s.slices) _ _ h fun v hv c _ => ?_
  split
  · exact (v.performFrom_slices n c).trans hv
  · exact hv

theorem State.performPass_ne (least : Nat → Nat) (n : Nat) {cs : List CoreId} {c : CoreId} (h : c ∉ cs) (s : State) :
    ((s.performPass least cs n).cores[c]).accLag = (s.cores[c]).accLag := by
  refine List.foldlRecOn (motive := fun u : State => (u.cores[c]).accLag = (s.cores[c]).accLag) _ _ rfl fun u hu d hd => ?_
  split
  · exact (u.performFrom_ne n (fun e : c = d => h (e ▸ hd))).trans hu
  · exact hu

/-- A pass leaves of a core's accesses the younger ones, if they may be performed in it. -/
theorem State.performPass_self (least : Nat → Nat) (n : Nat) {cs : List CoreId} (hn : cs.Nodup) {c : CoreId} (h : c ∈ cs) (s : State) :
    ((s.performPass least cs n).cores[c]).accLag = (if least (s.cores[c]).mayLag ≤ n
      then (s.cores[c]).acc.filter (fun a => decide (a.1 < n)) else (s.cores[c]).acc, (s.cores[c]).mayLag) := by
  induction cs generalizing s with
  | nil => cases h
  | cons d cs ih =>
    obtain ⟨hd, hn⟩ := List.nodup_cons.1 hn
    rw [State.performPass, List.foldl_cons]
    obtain rfl | hc := List.mem_cons.1 h
    · refine (State.performPass_ne least n hd _).trans ?_
      split
      · exact s.performFrom_self n c
      · rfl
    · have hcd : c ≠ d := fun e => hd (e ▸ hc)
      have hk : ((if least (s.cores[d]).mayLag ≤ n then s.performFrom n d else s).cores[c]).accLag = (s.cores[c]).accLag := by
        split
        · exact s.performFrom_ne n hcd
        · rfl
      obtain ⟨ha, hl⟩ := Prod.mk.inj hk
      rw [← ha, ← hl]
      exact ih hn hc _

/-- Passes from 3 down to `m` keep what is younger than `m`. -/
theorem filter_passes {α : Type} (l : List (Nat × α)) {m : Nat} (hm : m ≤ 3) :
    [3, 2, 1, 0].foldl (fun l n => if m ≤ n then l.filter (fun a => decide (a.1 < n)) else l) l = l.filter (fun a => decide (a.1 < m)) := by
  have two {i j : Nat} (h : j ≤ i) : (l.filter fun a => decide (a.1 < i)).filter (fun a => decide (a.1 < j)) = l.filter (fun a => decide (a.1 < j)) := by
    rw [List.filter_filter]
    refine List.filter_congr fun a _ => ?_
    rw [Bool.eq_iff_iff, Bool.and_eq_true, decide_eq_true_eq, decide_eq_true_eq]
    omega
  have h32 := @two 3 2 (by omega)
  have h21 := @two 2 1 (by omega)
  have h10 := @two 1 0 (by omega)
  obtain rfl | rfl | rfl | rfl : m = 0 ∨ m = 1 ∨ m = 2 ∨ m = 3 := by omega
  all_goals simp only [List.foldl_cons, List.foldl_nil, Nat.reduceLeDiff, le_refl, if_true, if_false, h32, h21, h10]

/-- After all passes a core has left the accesses that may still lag. -/
theorem State.performPasses_acc (least : Nat → Nat) {cs : List CoreId} (hn : cs.Nodup) {c : CoreId} (h : c ∈ cs) (s : State)
    (hl : least (s.cores[c]).mayLag ≤ 3) : (([3, 2, 1, 0].foldl (fun s n => s.performPass least cs n) s).cores[c]).acc =
      (s.cores[c]).acc.filter (fun a => decide (a.1 < least (s.cores[c]).mayLag)) := by
  have pass (u : State) (n : Nat) := Prod.mk.inj (State.performPass_self least n hn h u)
  simp only [List.foldl_cons, List.foldl_nil]
  rw [(pass _ 0).1, (pass _ 1).1, (pass _ 1).2, (pass _ 2).1, (pass _ 2).2, (pass _ 3).1, (pass _ 3).2]
  exact filter_passes _ hl

/-- Every access of the cores is performed. -/
theorem State.performAccs_acc {cs : List CoreId} (hn : cs.Nodup) {c : CoreId} (h : c ∈ cs) (s : State) : ((s.performAccs cs).cores[c]).acc = [] := by
  rw [State.performAccs_eq, State.performPasses_acc (fun _ => 0) hn h s (Nat.zero_le 3)]
  simp

/-! ### The one access of one core -/

theorem Core.withAcc_eq {c : Core} {l : List (Nat × LocalAcc)} (h : l = c.acc) : { c with acc := l } = c := by rw [h]

section
variable {s : State} {c : CoreId}

theorem State.performFrom_none (h : (s.cores[c]).acc = []) (n : Nat) : s.performFrom n c = s := by
  have hm : s.modCore c (fun k => { k with acc := k.acc.filter (fun a => decide (a.1 < n)) }) = s := State.modCore_id (Core.withAcc_eq (by rw [h]; rfl))
  simp only [State.performFrom, h, List.filter_nil, List.foldl_nil]
  exact hm

theorem State.performFrom_one {x : Nat × LocalAcc} (h : (s.cores[c]).acc = [x]) (n : Nat) :
    s.performFrom n c = if n ≤ x.1 then s.performAcc c else s := by
  by_cases hx : n ≤ x.1
  · have hf : [x].filter (fun a => decide (n ≤ a.1)) = [x] := by simp [hx]
    have hm : s.modCore c (fun k => { k with acc := k.acc.filter (fun a => decide (a.1 < n)) }) = s.modCore c (fun k => { k with acc := [] }) := by
      have hg : ([x].filter fun a => decide (a.1 < n)) = [] := by simp [hx]
      simp only [State.modCore, vmod, h, hg]
    simp only [State.performFrom, State.performAcc, h, hf, hm, hx, if_true]
    rfl
  · have hf : [x].filter (fun a => decide (n ≤ a.1)) = [] := by simp; omega
    have hg : [x].filter (fun a => decide (a.1 < n)) = [x] := by simp; omega
    have hm : s.modCore c (fun k => { k with acc := k.acc.filter (fun a => decide (a.1 < n)) }) = s :=
      State.modCore_id (Core.withAcc_eq (by rw [h, hg]))
    simp only [State.performFrom, h, hf, hm, hx, if_false]
    rfl

theorem State.performAcc_acc {x : Nat × LocalAcc} (h : (s.cores[c]).acc = [x]) : ((s.performAcc c).cores[c]).acc = [] := by
  have e := congrArg Prod.fst (State.reach_accLag (s.modCore c (fun k => { k with acc := [] })) c x.1 x.2 c)
  rw [State.modCore_self] at e
  simp only [State.performAcc, h]
  exact e

/-- Passes for one core perform its one access in the first that finds it old enough. -/
theorem State.performPass_foldl_one {x : Nat × LocalAcc} (ns : List Nat) {s : State} (h : (s.cores[c]).acc = [x]) (hn : ∃ n ∈ ns, n ≤ x.1) :
    ns.foldl (fun s n => s.performPass (fun _ => 0) [c] n) s = s.performAcc c := by
  have pass (u : State) (n : Nat) : u.performPass (fun _ => 0) [c] n = u.performFrom n c := by simp [State.performPass]
  induction ns with
  | nil =>
    obtain ⟨n, hn, -⟩ := hn
    cases hn
  | cons n ns ih =>
    rw [List.foldl_cons, pass, State.performFrom_one h]
    by_cases hx : n ≤ x.1
    · rw [if_pos hx]
      refine List.foldlRecOn (motive := fun u : State => u = s.performAcc c) ns _ rfl fun u hu m _ => ?_
      rw [hu, pass, State.performFrom_none (State.performAcc_acc h)]
    · rw [if_neg hx]
      obtain ⟨m, hm, hmx⟩ := hn
      exact ih ⟨m, (List.mem_cons.1 hm).resolve_left (fun e => hx (e ▸ hmx)), hmx⟩

theorem State.performAccs_one {x : Nat × LocalAcc} (h : (s.cores[c]).acc = [x]) : s.performAccs [c] = s.performAcc c :=
  State.performPass_foldl_one _ h ⟨0, by simp, Nat.zero_le _⟩

end

/-! ### Those that come before a bundle -/

/-- Every word of the bundle changes nothing but registers and the frame, and no core of the gang makes a debugger's step or waits at a rendezvous. -/
def State.PlainBundle (s : State) (g : List CoreId) (w : BitVec 64) : Prop :=
  (∀ i ∈ bundleWords (decodeBundle w.toNat), isPlain i = true) ∧ ∀ d ∈ g, (s.cores[d]).dbgHalt = false ∧ (s.cores[d]).rendez = none

theorem State.performFor_iff (s : State) (g : List CoreId) (w : BitVec 64) :
    ((bundleWords (decodeBundle w.toNat)).all isPlain && g.all (fun c => !(s.cores[c]).dbgHalt && (s.cores[c]).rendez.isNone)) = true ↔
      s.PlainBundle g w := by
  simp only [State.PlainBundle, Bool.and_eq_true, List.all_eq_true, Bool.not_eq_true', Option.isNone_iff_eq_none]

theorem State.performFor_other {s : State} {g : List CoreId} {w : BitVec 64} (h : ¬ s.PlainBundle g w) : s.performFor g w = s.performAccs g :=
  if_neg (mt (s.performFor_iff g w).1 h)

theorem Core.mayLag_le {c : Core} (h : c.pos ≤ 3) : c.mayLag ≤ 3 := by
  unfold Core.mayLag
  split <;> omega

theorem State.performFor_plain_acc {s : State} {g : List CoreId} {w : BitVec 64} (h : s.PlainBundle g w) (hn : g.Nodup) {c : CoreId} (hc : c ∈ g)
    (hp : (s.cores[c]).pos ≤ 3) : ((s.performFor g w).cores[c]).acc = (s.cores[c]).acc.filter (fun a => decide (a.1 < (s.cores[c]).mayLag)) := by
  rw [State.performFor, if_pos ((s.performFor_iff g w).2 h), State.performOld_mayLag_eq]
  exact State.performPasses_acc id hn hc s (Core.mayLag_le hp)

end Sys2Proof.Machine
end

section
/-! PROOFS. The events of slices and cores: dispatch, placement, budgets, completion, reading of buffers, halts, replays (02 R25 to R33, R44,
04 R102, 16 R305, R310 to R312, R317). -/

namespace Sys2Proof.Machine

open Sys2Proof

/-! ### Dispatch, SPAWN, freezes, asynchronous traps -/

section
variable {s : State} {tile : TileId} {core : CoreId} {sl : Nat} {x : Slice}

theorem exec_dispatch_head {cs : List CoreId} {tb : Nat} {res : List Nat} (h : s.dispatchOn tile = some (x, cs, tb, res)) :
    let s1 := s.modTile tile (fun y => { y with resident := res })
    let s2 := if x.fresh then s1.clear (scratchKey tile x.fbase) x.fsize else s1
    exec (.dispatch tile) s = .next (((s2.startOn x tb tile cs).modSlice x.uid (fun y => { y with
      st := .running, cores := cs, saved := [], table := some tb, fresh := false, recCharged := y.charged, noReplay := false })).giveUpcalls tile x.uid) := by
  simp only [exec_dispatch, execDispatch, h]

theorem exec_spawnPlacement_ready {d : Reg} {a : Word} {req u : Nat} (hp : (s.cores[core]).spawnPark = some (d, a, req))
    (hs : (s.cores[core]).sl = some u) (hr : s.spawnReady core = true) :
    let r := s.spawnSlice (s.slice! u) (s.bytes (sliceKey (s.slice! u) a.toNat) 32)
    exec (.spawnPlacement core) s = .next ((r.1.modCores (s.gang core) (fun c => c.deliver req (if d = 0 then .flagsOnly else .scalar d r.2) 0)).modCore
      core Core.endPark) := by
  simp only [exec_spawnPlacement, execSpawnPlacement, hp, hs, hr]
  rfl

theorem exec_freezeRelease_over {f : Freeze} (hf : (s.cores[core]).freeze = some f) (ho : s.freezeOver core f = true) :
    let s1 := s.modCore core (fun c => { c with freeze := none })
    (f.abandoned = false → exec (.freezeRelease core) s = .next s1) ∧
    (f.abandoned = true → exec (.freezeRelease core) s = .next (s1.modCores (s.gang ({ s with cur := core } : State).ctlId)
      (fun c => { c with orr := { c.orr with lastTick := some s.now } }))) := by
  simp only [exec_freezeRelease, execFreezeRelease, hf, ho, if_true]
  exact ⟨fun ha => by rw [ha]; rfl, fun ha => by rw [ha]; rfl⟩

theorem exec_asyncTrapEntry_ready (h : s.asyncReady core = true) : exec (.asyncTrapEntry core) s =
    .next (((s.performAccs (s.gang core)).modCores (s.gang core) (fun c => { c with causes := c.causes.tail })).trapGang (s.gang core)
      (s.firstCauses (s.gang core)) (s.cores[core]).pc) := by
  simp only [exec_asyncTrapEntry, execAsyncTrapEntry, h, if_true]

/-! ### Held slices, budgets, lateness -/

theorem State.slice!_found (h : s.findSlice sl = some x) : s.slice! sl = x := by simp [State.slice!, h]

theorem exec_heldSlicePlacement_away (hx : s.findSlice sl = some x) (hr : s.heldReady sl = some tile) (h : x.home.isSome = true ∨ x.tile = none) :
    exec (.heldSlicePlacement sl) s = .next (s.place sl tile) := by
  have hc : (x.home.isNone && x.tile.isSome) = false := by
    rw [Bool.and_eq_false_iff]
    exact h.imp Option.isNone_eq_false_iff.2 (fun h => by simp [h])
  simp only [exec_heldSlicePlacement, execHeldSlicePlacement, hr, State.slice!_found hx, hc]
  rfl

theorem exec_heldSlicePlacement_here (hx : s.findSlice sl = some x) (hr : s.heldReady sl = some tile) (hh : x.home = none) (ht : x.tile.isSome = true) :
    exec (.heldSlicePlacement sl) s = .next (s.modSlice sl (fun y => { y with st := .queued })) := by
  simp only [exec_heldSlicePlacement, execHeldSlicePlacement, hr, State.slice!_found hx, hh, ht]
  rfl

theorem exec_budgetExhausted_due (hx : s.findSlice sl = some x) (hl : x.left = 0) (hg : x.grace = none) (hc : x.cores ≠ [])
    (hst : x.st = .running ∨ (x.st = .exiting ∧ (x.how = .exit ∨ x.how = .evacuated))) : exec (.budgetExhausted sl) s =
      .next ((s.causeLeader sl { code := 0x0E, i0 := BitVec.ofNat 64 x.declared, i1 := BitVec.ofNat 64 x.charged, async := true }).modSlice sl
        (fun y => { y with grace := some 8192 })) := by
  simp only [exec_budgetExhausted, execBudgetExhausted, hx]
  exact if_pos (by simp [hl, hg, hc, hst])

theorem exec_budgetGraceExpiry_due (hx : s.findSlice sl = some x) (hg : x.grace = some 0) (hst : x.st = .running) (he : s.hasExited x = false) :
    exec (.budgetGraceExpiry sl) s = .next (s.stopSlice sl .budget) := by
  simp only [exec_budgetGraceExpiry, execBudgetGraceExpiry, hx]
  exact if_pos (by simp [hg, hst, he])

theorem exec_sliceLate_due (hx : s.findSlice sl = some x) (ht : x.tile = some tile) (hl : x.late = false) (hd : x.deadline.toNat < s.now)
    (hst : x.st = .queued ∨ x.st = .running ∨ x.st = .exiting) :
    exec (.sliceLate sl) s = .next ((s.modSlice sl (fun y => { y with late := true })).bump tile 6) := by
  simp only [exec_sliceLate, execSliceLate, hx, ht]
  exact if_pos (by simpa [State.isLate, hl, hd, or_assoc] using hst)

/-! ### Completion -/

section
variable (hx : s.findSlice sl = some x)
include hx

theorem exec_sliceCompletion_replay (ht : x.tile = some tile) (hd : s.sliceDone x tile = true) (hh : x.how = .replay) :
    exec (.sliceCompletion sl) s = .next (s.requeue x tile) := by
  simp [execSliceCompletion, hx, ht, hd, hh]

/-- A slice that is done and not to be replayed leaves, unless it has buffers to be read. -/
theorem exec_sliceCompletion_done (ht : x.tile = some tile) (hd : s.sliceDone x tile = true) (hh : x.how ≠ .replay) :
    let s1 := (s.release x tile).noteEnd x
    let y := s1.slice! sl
    (x.how = .exit → y.seals ≠ [] → exec (.sliceCompletion sl) s = .next s1) ∧
    (x.how = .exit → y.seals = [] → exec (.sliceCompletion sl) s = .next ((s1.dropSlice y).tryDissolve x.terr)) ∧
    (x.how ≠ .exit → exec (.sliceCompletion sl) s = .next ((s1.dropSlice y).tryDissolve x.terr)) := by
  refine ⟨fun he hs => ?_, fun he hs => ?_, fun he => ?_⟩
  · simp [execSliceCompletion, hx, ht, hd, he, hs]
  · simp [execSliceCompletion, hx, ht, hd, he, hs]
  · simp [execSliceCompletion, hx, ht, hd, hh, he]

/-! ### Reading of buffers -/

section
variable (hst : x.st = .ended) (hif : (s.terr! x.terr).iface.st ≠ .error)
include hst hif

theorem exec_resultRead_none (hs : x.seals = []) : exec (.resultRead sl) s = .next ((s.dropSlice x).tryDissolve x.terr) := by
  simp [execResultRead, hx, hst, hif, hs]

/-- The words picked of the first buffer do not translate, are the last of it, or are not. -/
theorem exec_resultRead_words {b : Word × Nat} {bs : List (Word × Nat)} (hs : x.seals = b :: bs) :
    let va := b.1.toNat % 2 ^ 48
    let n := sealWords va b.2
    let is := pickWords s.stepNo (wordsLeft n x.read)
    let s1 : State := { s with stepNo := s.stepNo + 1 }
    (s.sealRead x.terr va is = none → exec (.resultRead sl) s = .next (s1.sealDone x (.error (transFault va 0)))) ∧
    ∀ got, s.sealRead x.terr va is = some got →
      (wordsLeft n (x.read ++ got) = [] → exec (.resultRead sl) s =
        .next (s1.sealDone x (.ok (((wordBytes n (x.read ++ got)).drop (va % 8)).take b.2)))) ∧
      (wordsLeft n (x.read ++ got) ≠ [] → exec (.resultRead sl) s = .next (s1.modSlice sl (fun y => { y with read := x.read ++ got }))) := by
  have hst' : (x.st != .ended) = false := by simp [hst]
  have hif' : ((s.terr! x.terr).iface.st == .error) = false := by simp [hif]
  have hva : b.1.toNat % 2 ^ 48 = b.1.toNat % 281474976710656 := rfl
  dsimp only
  rw [hva]
  simp only [exec_resultRead, execResultRead, hx, hst', hif', hs]
  refine ⟨fun hn => ?_, fun got hg => ⟨fun hw => ?_, fun hw => ?_⟩⟩
  · simp [hn]
  · simp [hg, hw]
  · simp [hg, hw]

end

end

/-! ### Launches -/

theorem exec_launchCompletion_done {l : Launch} (hl : s.launches.find? (fun l => l.id == sl) = some l) (ho : l.open' = 0) (hf : l.forced = none) :
    ∃ t : State, exec (.launchCompletion sl) s = .next t ∧
      t.outbox = s.outbox ++ [.completion l.sess l.seq l.status l.nslice l.late l.replays l.first (if l.status = 3 then l.cause else 0)] ∧
      t.launches = s.launches.filter (fun l => l.id != sl) ∧ t.mem = s.mem := by
  refine ⟨{ s with
    stepNo := s.stepNo + 1, launches := s.launches.filter (fun l => l.id != sl),
    outbox := s.outbox ++ [.completion l.sess l.seq l.status l.nslice l.late l.replays l.first (if l.status = 3 then l.cause else 0)] },
    ?_, rfl, rfl, rfl⟩
  simp [execLaunchCompletion, hl, ho, hf]

/-! ### Halts and quiescence -/

theorem exec_preemptionHalt_at {u : Nat} (hs : (s.cores[core]).sl = some u) (hh : (s.terr! (s.slice! u).terr).halted = true)
    (hn : (s.cores[core]).halted = false) (hp : (s.tiles[tileOf core]).preempt = true) :
    let halts (s : State) : Out := .next ((s.modCore core (fun c => { c with halted := true, freeze := none })).tryHalted (s.slice! u).terr)
    ((s.cores[core]).freeze = none → (s.cores[core]).acc = [] → exec (.preemptionHalt core) s = halts s) ∧
    ∀ f, (s.cores[core]).freeze = some f → f.abandoned = true →
      exec (.preemptionHalt core) s = halts (s.performAccs (s.gang ({ s with cur := core } : State).ctlId)) := by
  have hp' : s.preempted core = true := hp
  refine ⟨fun hf ha => ?_, fun f hf ha => ?_⟩
  · have hm : (s.cores[core]).mayHalt = true := by simp only [Core.mayHalt, hn, hf, ha]; rfl
    simp only [exec_preemptionHalt, execPreemptionHalt, hs, hh, hp', hm, hf]
    rfl
  · have hm : (s.cores[core]).mayHalt = true := by simp only [Core.mayHalt, hn, hf, ha]; rfl
    have hu : (s.performAccs (s.gang ({ s with cur := core } : State).ctlId)).slice! u = s.slice! u := by
      simp only [State.slice!, State.findSlice, State.performAccs_slices]
    simp only [exec_preemptionHalt, execPreemptionHalt, hs, hh, hp', hm, hf, hu]
    rfl

/-- A pre-emption that reaches a tile of its territory, which is to be halted, is noted there; any other is only acknowledged. -/
theorem makeMove_preempt {k : Nat} {p : Packet} (h : s.Arriving k p) (hb : p.body = .preempt) (hd : nodeTile p.dst = some tile) :
    let t := (s.accepted p).sendAck p
    ((s.terr! p.terr).halted = true → (s.tiles[tile]).owner = some p.terr →
      s.makeMove (.message k) = .next (t.modTile tile (fun x => { x with preempt := true }))) ∧
    ((s.terr! p.terr).halted = false ∨ (s.tiles[tile]).owner ≠ some p.terr → s.makeMove (.message k) = .next t) := by
  obtain ⟨hf, hq⟩ := h
  have e : s.makeMove (.message k) = .next ((s.accepted p).preemptAt p) := by
    simp only [State.makeMove, State.takeMessage, hf, hb, State.arrive_next hq]
  have hc : (s.accepted p).preemptAt p = if (s.terr! p.terr).halted && (s.tiles[tile]).owner == some p.terr
      then ((s.accepted p).sendAck p).modTile tile (fun x => { x with preempt := true }) else (s.accepted p).sendAck p := by
    simp only [State.preemptAt, hd]
    rfl
  rw [e, hc]
  refine ⟨fun hh ho => congrArg Host.Outcome.next (if_pos ?_), fun hn => congrArg Host.Outcome.next (if_neg ?_)⟩
  · rw [hh, ho]
    simp
  · obtain hn | hn := hn <;> simp only [hn, Bool.false_and, Bool.and_eq_true, beq_iff_eq, and_false, Bool.false_eq_true, not_false_eq_true]

theorem exec_quiescenceComplete_can (h : s.canQuiesce tile = true) : exec (.quiescenceComplete tile) s =
    .next (((coresOf tile).foldl (fun s c => s.parkChain tile c) s).modTile tile (fun x => { x with quiet := true })) := by
  simp only [exec_quiescenceComplete, execQuiescenceComplete, h]
  rfl

/-! ### Replays -/

theorem exec_replayAbort_on (hx : s.findSlice sl = some x) (ht : x.tile = some tile) (hst : x.st = .running ∨ x.st = .exiting) :
    let s1 := s.bump tile 11
    (x.stopped = true → exec (.replayAbort sl) s = .next s1) ∧
    (x.stopped = false → (x.noReplay = true ∨ 3 ≤ x.replays) → exec (.replayAbort sl) s = .next ((s1.stopSlice sl .dataLoss).sendUpcall tile x.terr
      { code := 0x31, i0 := 0, i1 := BitVec.ofNat 64 (s.tiles[tile]).lidx, async := true })) ∧
    (x.stopped = false → x.noReplay = false → x.replays < 3 → exec (.replayAbort sl) s =
      .next (((((s1.stopSlice sl .replay).bump tile 15).modSlice sl (fun y => { y with replays := y.replays + 1 })).modLaunch x.launch
        (fun l => { l with replays := l.replays + 1 })).modSession (s.terr! x.terr).sess (fun y => { y with replays := y.replays + 1 }))) := by
  have hr : (x.st == .running || x.st == .exiting) = true := by simpa using hst
  simp only [exec_replayAbort, execReplayAbort, hx, ht, hr]
  refine ⟨fun h => ?_, fun h hn => ?_, fun h hn h3 => ?_⟩
  · rw [h]
    rfl
  · have hc : (x.noReplay || decide (3 ≤ x.replays)) = true := by simpa using hn
    rw [h, hc]
    rfl
  · have hc : (x.noReplay || decide (3 ≤ x.replays)) = false := by simp [hn, h3]
    rw [h, hc]
    rfl

end

/-- Settles O48: one lemma for each event. -/
theorem slicesProceedHaltAndReplay : Obligations.SlicesProceedHaltAndReplay := by
  refine ⟨fun s tile core sl x => ⟨fun cs tb res h => exec_dispatch_head h, fun d a req u hp hs hr => exec_spawnPlacement_ready hp hs hr,
      fun f hf ho => exec_freezeRelease_over hf ho, exec_asyncTrapEntry_ready, fun hx => ?_, fun l hl ho hf => exec_launchCompletion_done hl ho hf⟩,
    fun s tile core sl u x => ⟨fun hs hh hn hp => exec_preemptionHalt_at hs hh hn hp, fun k p h hb hd => makeMove_preempt h hb hd, exec_quiescenceComplete_can, exec_replayAbort_on⟩⟩
  exact ⟨exec_heldSlicePlacement_away hx, exec_heldSlicePlacement_here hx, exec_budgetExhausted_due hx, exec_budgetGraceExpiry_due hx,
    fun ht => ⟨exec_sliceLate_due hx ht, fun hd => ⟨exec_sliceCompletion_replay hx ht hd, exec_sliceCompletion_done hx ht hd⟩⟩,
    fun hst hif => ⟨exec_resultRead_none hx hst hif, fun b bs hs => exec_resultRead_words hx hst hif hs⟩⟩

end Sys2Proof.Machine
end

section
/-! PROOFS. Issue of a bundle: its words on one core, a gang's cores in the order of positions, and what becomes of the whole (02 R34, 08 R156). -/

namespace Sys2Proof.Machine

open Sys2Proof

/-! ### One word of a bundle (08 R156) -/

theorem State.modCore_modCore (s : State) (u : CoreId) (f g : Core → Core) : (s.modCore u f).modCore u g = s.modCore u (fun c => g (f c)) := by
  simp [State.modCore, vmod, vset]

theorem State.modCur_modCur (s : State) (f g : Core → Core) : (s.modCur f).modCur g = s.modCur (fun c => g (f c)) := s.modCore_modCore s.cur f g

/-- What a word leaves, with what an instruction that is emulated does besides (16 R308). -/
def State.withEmulated (s : State) (i : Instr) (n : Nat) : State := if isEmulation i then s.emulWords n else s

section
variable {core : CoreId} {r : Run} {i : Instr} {t : State} {before : List Pend}

/-- After a fault of its core no word of a bundle runs. -/
theorem Run.word_after_trap (hr : r.traps.any (fun t => t.1 == core) = true) : Run.word before core r i = r := if_pos hr

theorem Run.words_after_trap (hr : r.traps.any (fun t => t.1 == core) = true) (is : List Instr) : is.foldl (Run.word before core) r = r := by
  induction is with
  | nil => rfl
  | cons i is ih => rw [List.foldl_cons, Run.word_after_trap hr, ih]

variable (hr : r.traps.any (fun t => t.1 == core) = false) (h : exec i (r.st.modCur (fun c => { c with pend := before })) = .next t)
include hr h

/-- A word that issues leaves its state, in which what was pending before it is pending too. -/
theorem Run.word_issues (hi : t.issue = .issued) : Run.word before core r i =
    { r with st := (t.modCur (fun c => { c with pend := r.st.c.pend ++ c.pend.drop before.length })).withEmulated i r.st.stepNo } := by
  have e : (t.modCur (fun c => { c with pend := r.st.c.pend ++ c.pend.drop before.length })).issue = .issued := hi
  simp only [Run.word, hr, r.st.runWord_issued h hi, e]
  rfl

/-- A word that traps adds its cause. -/
theorem Run.word_traps {tr : TrapRec} (hi : t.issue = .trapped tr) : Run.word before core r i = { r with traps := r.traps ++ [(core, tr)] } := by
  simp only [Run.word, hr, r.st.runWord_other h (by simp [hi]), hi]
  rfl

/-- A word that waits is held. -/
theorem Run.word_waits (hi : t.issue = .stalled) : Run.word before core r i = r.held core t.cores[core] := by
  simp only [Run.word, hr, r.st.runWord_other h (by simp [hi]), hi]
  rfl

end

theorem Run.held_freeze {r : Run} {core : CoreId} {c : Core} {f : Freeze} (hf : c.freeze = some f) : r.held core c =
    { r with stall := r.stall.orElse fun _ => some (core, f.after r.tile r.st.tiles[tileOf core]) } := by
  simp [Run.held, hf]

theorem Run.held_park {r : Run} {core : CoreId} {c : Core} {p : Park} (hf : c.freeze = none) (hp : c.park = some p) :
    r.held core c = { r with waits := r.waits ++ [(core, p)] } := by
  simp [Run.held, hf, hp]

/-- With nothing taken by lower positions, a freeze needs what it needs. -/
theorem Freeze.after_same (f : Freeze) (x : Tile) : f.after x x = f := by
  cases f <;> simp [Freeze.after]

/-- The words that a bundle ends with for its switch marker: none, or a NOP that carries it. -/
def markerTail (m : Bool) : List Instr := if m then [.nopC true] else []

/-- They only mark. -/
theorem Run.word_marker {before : List Pend} {core : CoreId} {r : Run} (hr : r.traps.any (fun t => t.1 == core) = false) :
    Run.word before core r (.nopC true) = { r with st := r.st.after true } := by
  have h : exec (.nopC true) (r.st.modCur (fun c => { c with pend := before })) = .next ((r.st.modCur (fun c => { c with pend := before })).after true) :=
    cWord_ok (State.ready_nil _) rfl
  have hc : ({ Core.mark { r.st.c with pend := before } with
      pend := r.st.c.pend ++ (Core.mark { r.st.c with pend := before }).pend.drop before.length } : Core) = r.st.c.mark := by
    have hm : (Core.mark { r.st.c with pend := before }).pend = before := by
      unfold Core.mark
      split <;> rfl
    rw [hm, List.drop_length, List.append_nil]
    unfold Core.mark
    split <;> simp_all
  have e : ((r.st.modCur (fun c => { c with pend := before })).modCur Core.mark).modCur
      (fun c => { c with pend := r.st.c.pend ++ c.pend.drop before.length }) = r.st.modCur Core.mark := by
    rw [State.modCur_modCur, State.modCur_modCur]
    exact State.modCur_congr hc
  rw [Run.word_issues hr h rfl]
  exact congrArg (fun v : State => { r with st := { v with issue := .issued } }) e

theorem Run.words_marker {before : List Pend} {core : CoreId} {r : Run} {m : Bool} (hr : r.traps.any (fun t => t.1 == core) = false) :
    (markerTail m).foldl (Run.word before core) r = { r with st := if m then r.st.after true else r.st } := by
  cases m with
  | false => rfl
  | true => exact Run.word_marker hr

/-! ### What becomes of a bundle -/

/-- The state in which the words of a bundle begin: accesses that come first performed, a debugger's step a stream of its own. -/
def State.beforeBundle (s : State) (g : List CoreId) (w : BitVec 64) : State := (s.performFor g w).modCores g Core.hold

section
variable {s : State} {u : CoreId} {g : List CoreId} {w : BitVec 64} (hi : s.issuers u = g) (hj : s.joiners u = []) (hg : s.gang u = g)
  (hf : s.fetch u = .ok w)
include hi hj hg hf

/-- The bundle's outcome by how its words fared. -/
theorem State.issue'_eq : s.issue' u =
    let r := (s.beforeBundle g w).runBundle u g (s.cores[u]).pc w
    let a := s.performAccs g
    if !r.waits.isEmpty then r.waits.foldl (fun s w => s.modCore w.1 (fun c => { c with park := some w.2 })) a
    else if !(r.traps.filter (fun t => g.contains t.1)).isEmpty then a.trapBundle g (r.traps.filter (fun t => g.contains t.1)) (s.cores[u]).pc
    else if !r.traps.isEmpty then a.trapBundle g r.traps (s.cores[u]).pc
    else match r.stall with
      | some (c, f) => s.modCore c (fun k => { k with freeze := some f })
      | none => (g.foldl (fun s' c => s'.modCore c (fun k => k.orFlags (flagsOf ((s.beforeBundle g w).cores[c]).dueNext))) r.st).bundleDone u g := by
  unfold State.issue'
  simp only [hi, hj, hg, hf]
  rfl

section
variable {r : Run} (hrun : (s.beforeBundle g w).runBundle u g (s.cores[u]).pc w = r)
include hrun

theorem State.issue'_waits {c : CoreId} {p : Park} (hw : r.waits = [(c, p)]) :
    s.issue' u = (s.performAccs g).modCore c (fun k => { k with park := some p }) := by
  rw [State.issue'_eq hi hj hg hf]
  simp only [hrun, hw]
  rfl

theorem State.issue'_traps (hw : r.waits = []) (ht : r.traps ≠ []) (hm : ∀ t ∈ r.traps, t.1 ∈ g) :
    s.issue' u = ((s.performAccs g).trapGang g r.traps (s.cores[u]).pc).modCores g (fun c => { c with dbgSteps := 0 }) := by
  have hfil : r.traps.filter (fun t => g.contains t.1) = r.traps := List.filter_eq_self.2 fun t h => by simpa using hm t h
  have hne : r.traps.isEmpty = false := by simpa using ht
  rw [State.issue'_eq hi hj hg hf]
  simp only [hrun, hw, hfil, hne]
  rfl

theorem State.issue'_frozen (hw : r.waits = []) (ht : r.traps = []) {c : CoreId} {f : Freeze} (hs : r.stall = some (c, f)) :
    s.issue' u = s.modCore c (fun k => { k with freeze := some f }) := by
  rw [State.issue'_eq hi hj hg hf]
  simp only [hrun, hw, ht, hs]
  rfl

theorem State.issue'_issues (hw : r.waits = []) (ht : r.traps = []) (hs : r.stall = none) : s.issue' u =
    (g.foldl (fun s' c => s'.modCore c (fun k => k.orFlags (flagsOf ((s.beforeBundle g w).cores[c]).dueNext))) r.st).bundleDone u g := by
  rw [State.issue'_eq hi hj hg hf]
  simp only [hrun, hw, ht, hs]
  rfl

end

end

/-! ### A bundle of one core -/

/-- The core of a unit as its bundle's words find it. -/
def State.atBundle (s : State) (u : CoreId) (w : BitVec 64) : State :=
  { (s.beforeBundle [u] w).modCore u (fun c => c.age (s.cores[u]).pc) with cur := u }

/-- Before its first word. -/
def State.runStart (s : State) (u : CoreId) (w : BitVec 64) : Run :=
  { tile := (s.beforeBundle [u] w).tiles[tileOf u], st := s.atBundle u w, traps := [], stall := none, waits := [] }

theorem State.runBundle_one (s : State) (u : CoreId) (w : BitVec 64) : (s.beforeBundle [u] w).runBundle u [u] (s.cores[u]).pc w =
    (bundleWords (decodeBundle w.toNat)).foldl (Run.word (s.atBundle u w).c.pend u) (s.runStart u w) := rfl

section
variable {s : State} {u : CoreId} {w : BitVec 64}

/-- The first word of a bundle finds the marks as they are. -/
theorem State.exec_first {i : Instr} {t : State} (h : exec i (s.atBundle u w) = .next t) :
    exec i ((s.runStart u w).st.modCur (fun c => { c with pend := (s.atBundle u w).c.pend })) = .next t := by
  have e : (s.runStart u w).st.modCur (fun c => { c with pend := (s.atBundle u w).c.pend }) = s.atBundle u w := State.modCur_pend _
  rw [e, h]

/-- A state that keeps the marks of before is the one with those of before and its own. -/
theorem State.modCur_keeps_pend {t : State} {ps : List Pend} (h : t.c.pend.take ps.length = ps) :
    t.modCur (fun c => { c with pend := ps ++ c.pend.drop ps.length }) = t := by
  have e : ps ++ t.c.pend.drop ps.length = t.c.pend := by
    conv_lhs => rw [← h]
    rw [h]
    conv_rhs => rw [← List.take_append_drop ps.length t.c.pend, h]
  exact State.modCore_id (by show ({ t.c with pend := ps ++ t.c.pend.drop ps.length } : Core) = t.c; rw [e])

theorem Run.first_issues {i : Instr} {t : State} (h : exec i (s.atBundle u w) = .next t) (hi : t.issue = .issued)
    (hp : t.c.pend.take (s.atBundle u w).c.pend.length = (s.atBundle u w).c.pend) :
    Run.word (s.atBundle u w).c.pend u (s.runStart u w) i = { s.runStart u w with st := t.withEmulated i (s.atBundle u w).stepNo } := by
  rw [Run.word_issues rfl (State.exec_first h) hi]
  exact congrArg (fun v : State => { s.runStart u w with st := v.withEmulated i (s.atBundle u w).stepNo }) (State.modCur_keeps_pend hp)

theorem Run.first_traps {i : Instr} {t : State} {r : TrapRec} (h : exec i (s.atBundle u w) = .next t) (hi : t.issue = .trapped r) :
    Run.word (s.atBundle u w).c.pend u (s.runStart u w) i = { s.runStart u w with traps := [(u, r)] } := Run.word_traps rfl (State.exec_first h) hi

theorem State.runStart_tile (s : State) (u : CoreId) (w : BitVec 64) : (s.runStart u w).st.tiles[tileOf u] = (s.runStart u w).tile := rfl

theorem Run.first_frozen {i : Instr} {t : State} {f : Freeze} (h : exec i (s.atBundle u w) = .next t) (hi : t.issue = .stalled)
    (hf : (t.cores[u]).freeze = some f) : Run.word (s.atBundle u w).c.pend u (s.runStart u w) i = { s.runStart u w with stall := some (u, f) } := by
  rw [Run.word_waits rfl (State.exec_first h) hi, Run.held_freeze hf, State.runStart_tile, Freeze.after_same]
  rfl

theorem Run.first_parks {i : Instr} {t : State} {p : Park} (h : exec i (s.atBundle u w) = .next t) (hi : t.issue = .stalled)
    (hf : (t.cores[u]).freeze = none) (hp : (t.cores[u]).park = some p) :
    Run.word (s.atBundle u w).c.pend u (s.runStart u w) i = { s.runStart u w with waits := [(u, p)] } := by
  rw [Run.word_waits rfl (State.exec_first h) hi, Run.held_park hf hp]
  rfl

end

/-! ### What becomes of a bundle of one core -/

section
variable {s : State} {u : CoreId} {w : BitVec 64} (hi : s.issuers u = [u]) (hj : s.joiners u = []) (hg : s.gang u = [u]) (hf : s.fetch u = .ok w)

/-- The bundle's run, from that of its words. -/
theorem State.runBundle_words {is : List Instr} {r : Run} (hw : bundleWords (decodeBundle w.toNat) = is)
    (hr : is.foldl (Run.word (s.atBundle u w).c.pend u) (s.runStart u w) = r) :
    (s.beforeBundle [u] w).runBundle u [u] (s.cores[u]).pc w = r := by
  rw [State.runBundle_one, hw, hr]

section
variable {is : List Instr} {r : Run} (hw : bundleWords (decodeBundle w.toNat) = is)
  (hr : is.foldl (Run.word (s.atBundle u w).c.pend u) (s.runStart u w) = r)
include hi hj hg hf hw hr

/-- The words have issued. -/
theorem State.issue'_done (hwt : r.waits = []) (ht : r.traps = []) (hs : r.stall = none) : s.issue' u =
    (r.st.modCore u (fun k => k.orFlags (flagsOf ((s.beforeBundle [u] w).cores[u]).dueNext))).bundleDone u [u] :=
  State.issue'_issues hi hj hg hf (State.runBundle_words hw hr) hwt ht hs

/-- One has trapped. -/
theorem State.issue'_trapped (hwt : r.waits = []) {tr : TrapRec} (ht : r.traps = [(u, tr)]) : s.issue' u =
    ((s.performAccs [u]).trapGang [u] [(u, tr)] (s.cores[u]).pc).modCore u (fun c => { c with dbgSteps := 0 }) := by
  rw [State.issue'_traps hi hj hg hf (State.runBundle_words hw hr) hwt (by simp [ht]) (by simp [ht]), ht]
  rfl

/-- One has frozen. -/
theorem State.issue'_held (hwt : r.waits = []) (ht : r.traps = []) {f : Freeze} (hs : r.stall = some (u, f)) :
    s.issue' u = s.modCore u (fun k => { k with freeze := some f }) :=
  State.issue'_frozen hi hj hg hf (State.runBundle_words hw hr) hwt ht hs

/-- One waits before it issues. -/
theorem State.issue'_parked {p : Park} (hwt : r.waits = [(u, p)]) : s.issue' u = (s.performAccs [u]).modCore u (fun k => { k with park := some p }) :=
  State.issue'_waits hi hj hg hf (State.runBundle_words hw hr) hwt

end

include hi hj hg hf

/-- A trap of the first word is the bundle's, whatever follows it. -/
theorem State.issue'_first_traps {i : Instr} {l : List Instr} (hw : bundleWords (decodeBundle w.toNat) = i :: l) {t : State} {r : TrapRec}
    (h : exec i (s.atBundle u w) = .next t) (ht : t.issue = .trapped r) : s.issue' u =
      ((s.performAccs [u]).trapGang [u] [(u, r)] (s.cores[u]).pc).modCore u (fun c => { c with dbgSteps := 0 }) := by
  refine State.issue'_trapped hi hj hg hf hw (r := { s.runStart u w with traps := [(u, r)] }) ?_ rfl rfl
  rw [List.foldl_cons, Run.first_traps h ht, Run.words_after_trap (by simp)]

/-! #### One word -/

section
variable {i : Instr} (hw : bundleWords (decodeBundle w.toNat) = [i]) {t : State} (h : exec i (s.atBundle u w) = .next t)
include hw h

theorem State.issue'_one_issues (ht : t.issue = .issued) (hp : t.c.pend.take (s.atBundle u w).c.pend.length = (s.atBundle u w).c.pend) :
    s.issue' u = ((t.withEmulated i (s.atBundle u w).stepNo).modCore u
      (fun k => k.orFlags (flagsOf ((s.beforeBundle [u] w).cores[u]).dueNext))).bundleDone u [u] :=
  State.issue'_done hi hj hg hf hw (r := { s.runStart u w with st := t.withEmulated i (s.atBundle u w).stepNo }) (Run.first_issues h ht hp) rfl rfl rfl

theorem State.issue'_one_frozen (ht : t.issue = .stalled) {f : Freeze} (hfr : (t.cores[u]).freeze = some f) :
    s.issue' u = s.modCore u (fun k => { k with freeze := some f }) :=
  State.issue'_held hi hj hg hf hw (Run.first_frozen h ht hfr) rfl rfl rfl

theorem State.issue'_one_parks (ht : t.issue = .stalled) (hfr : (t.cores[u]).freeze = none) {p : Park} (hp : (t.cores[u]).park = some p) :
    s.issue' u = (s.performAccs [u]).modCore u (fun k => { k with park := some p }) :=
  State.issue'_parked hi hj hg hf hw (Run.first_parks h ht hfr hp) rfl

end

/-! #### Two words, and a marker where the bundle has one -/

section
variable {c b : Instr} {m : Bool} (hw : bundleWords (decodeBundle w.toNat) = c :: b :: markerTail m) {t v : State}
  (h : exec c (s.atBundle u w) = .next t)
include hw h

section
variable (ht : t.issue = .stalled) (hb : exec b (s.atBundle u w) = .next v)
include ht hb

theorem State.issue'_pair_frozen {f : Freeze} (hfr : (t.cores[u]).freeze = some f) (hv : v.issue = .issued) :
    s.issue' u = s.modCore u (fun k => { k with freeze := some f }) := by
  refine State.issue'_held hi hj hg hf hw (r := ?_) ?_ ?_ ?_ ?_
  rotate_left
  · rw [List.foldl_cons, List.foldl_cons, Run.first_frozen h ht hfr,
      Run.word_issues (r := { s.runStart u w with stall := some (u, f) }) rfl (State.exec_first hb) hv, Run.words_marker rfl]
  all_goals rfl

theorem State.issue'_pair_frozen_traps {f : Freeze} (hfr : (t.cores[u]).freeze = some f) {r : TrapRec} (hv : v.issue = .trapped r) :
    s.issue' u = ((s.performAccs [u]).trapGang [u] [(u, r)] (s.cores[u]).pc).modCore u (fun c => { c with dbgSteps := 0 }) := by
  refine State.issue'_trapped hi hj hg hf hw (r := { s.runStart u w with stall := some (u, f), traps := [(u, r)] }) ?_ rfl rfl
  rw [List.foldl_cons, List.foldl_cons, Run.first_frozen h ht hfr,
    Run.word_traps (r := { s.runStart u w with stall := some (u, f) }) rfl (State.exec_first hb) hv]
  exact Run.words_after_trap (by simp) _

theorem State.issue'_pair_parks (hfr : (t.cores[u]).freeze = none) {p : Park} (hp : (t.cores[u]).park = some p) (hv : v.issue ≠ .stalled) :
    s.issue' u = (s.performAccs [u]).modCore u (fun k => { k with park := some p }) := by
  cases hv' : v.issue with
  | stalled => exact absurd hv' hv
  | issued =>
    refine State.issue'_parked hi hj hg hf hw (r := ?_) ?_ ?_
    rotate_left
    · rw [List.foldl_cons, List.foldl_cons, Run.first_parks h ht hfr hp,
        Run.word_issues (r := { s.runStart u w with waits := [(u, p)] }) rfl (State.exec_first hb) hv', Run.words_marker rfl]
    · rfl
  | trapped r =>
    refine State.issue'_parked hi hj hg hf hw (r := { s.runStart u w with waits := [(u, p)], traps := [(u, r)] }) ?_ rfl
    rw [List.foldl_cons, List.foldl_cons, Run.first_parks h ht hfr hp,
      Run.word_traps (r := { s.runStart u w with waits := [(u, p)] }) rfl (State.exec_first hb) hv']
    exact Run.words_after_trap (by simp) _

end

/-! #### Word 0 has issued: word 1 runs with the marks of before the bundle -/

section
variable (ht : t.issue = .issued) (hp : t.c.pend.take (s.atBundle u w).c.pend.length = (s.atBundle u w).c.pend)
  (hb : exec b ((t.withEmulated c (s.atBundle u w).stepNo).modCur (fun k => { k with pend := (s.atBundle u w).c.pend })) = .next v)
include ht hp hb

theorem State.issue'_second_issues (hv : v.issue = .issued) {more : State}
    (hmore : (v.modCur
        (fun k => { k with pend := (t.withEmulated c (s.atBundle u w).stepNo).c.pend ++ k.pend.drop (s.atBundle u w).c.pend.length })).withEmulated b
      (t.withEmulated c (s.atBundle u w).stepNo).stepNo = more) :
    s.issue' u = ((if m then more.after true else more).modCore u
      (fun k => k.orFlags (flagsOf ((s.beforeBundle [u] w).cores[u]).dueNext))).bundleDone u [u] := by
  refine State.issue'_done hi hj hg hf hw (r := { s.runStart u w with st := (if m then more.after true else more) }) ?_ rfl rfl rfl
  rw [List.foldl_cons, List.foldl_cons, Run.first_issues h ht hp,
    Run.word_issues (r := { s.runStart u w with st := t.withEmulated c (s.atBundle u w).stepNo }) rfl hb hv, Run.words_marker rfl]
  rw [hmore]

theorem State.issue'_second_traps {r : TrapRec} (hv : v.issue = .trapped r) :
    s.issue' u = ((s.performAccs [u]).trapGang [u] [(u, r)] (s.cores[u]).pc).modCore u (fun c => { c with dbgSteps := 0 }) := by
  refine State.issue'_trapped hi hj hg hf hw
    (r := { s.runStart u w with st := t.withEmulated c (s.atBundle u w).stepNo, traps := [(u, r)] }) ?_ rfl rfl
  rw [List.foldl_cons, List.foldl_cons, Run.first_issues h ht hp,
    Run.word_traps (r := { s.runStart u w with st := t.withEmulated c (s.atBundle u w).stepNo }) rfl hb hv]
  exact Run.words_after_trap (by simp) _

theorem State.issue'_second_frozen (hv : v.issue = .stalled) {f : Freeze} (hfr : (v.cores[u]).freeze = some f) :
    s.issue' u = s.modCore u (fun k => { k with
      freeze := some (f.after ((s.atBundle u w).tiles[tileOf u]) ((t.withEmulated c (s.atBundle u w).stepNo).tiles[tileOf u])) }) := by
  refine State.issue'_held hi hj hg hf hw (r := ?_) ?_ ?_ ?_ ?_
  rotate_left
  · rw [List.foldl_cons, List.foldl_cons, Run.first_issues h ht hp,
      Run.word_waits (r := { s.runStart u w with st := t.withEmulated c (s.atBundle u w).stepNo }) rfl hb hv, Run.held_freeze hfr, Run.words_marker rfl]
  all_goals rfl

theorem State.issue'_second_parks (hv : v.issue = .stalled) (hfr : (v.cores[u]).freeze = none) {p : Park} (hpk : (v.cores[u]).park = some p) :
    s.issue' u = (s.performAccs [u]).modCore u (fun k => { k with park := some p }) := by
  refine State.issue'_parked hi hj hg hf hw (r := ?_) ?_ ?_
  rotate_left
  · rw [List.foldl_cons, List.foldl_cons, Run.first_issues h ht hp,
      Run.word_waits (r := { s.runStart u w with st := t.withEmulated c (s.atBundle u w).stepNo }) rfl hb hv, Run.held_park hfr hpk, Run.words_marker rfl]
  all_goals rfl

end

end

end

end Sys2Proof.Machine
end

section
/-! PROOFS. A gang's bundle: one word on each of its cores in the order of positions, whole or not at all (02 R34). -/

namespace Sys2Proof.Machine

open Sys2Proof

/-! ### The word on one core of the gang -/

/-- The state in which the word of a position begins. -/
def State.onCore (s : State) (c : CoreId) : State := { s with cur := c }

theorem State.onCore_first (s : State) (c : CoreId) : (s.onCore c).modCur (fun k => { k with pend := (s.onCore c).c.pend }) = s.onCore c :=
  State.modCur_pend _

section
variable {i : Instr} {r : Run} {c : CoreId} {v : State} (hr : r.traps.any (fun t => t.1 == c) = false) (h : exec i (r.st.onCore c) = .next v)
include hr h

theorem Run.core_issues (he : isEmulation i = false) (hv : v.issue = .issued)
    (hp : v.c.pend.take (r.st.onCore c).c.pend.length = (r.st.onCore c).c.pend) : Run.core [i] r c = { r with st := v } := by
  have hw := Run.word_issues (r := { r with st := r.st.onCore c }) (before := (r.st.onCore c).c.pend) hr ((congrArg (exec i) (State.onCore_first _ _)).trans h) hv
  refine hw.trans (congrArg (fun x : State => { r with st := x }) ?_)
  rw [State.withEmulated, if_neg (by simp [he])]
  exact State.modCur_keeps_pend hp

theorem Run.core_traps {x : TrapRec} (hv : v.issue = .trapped x) :
    Run.core [i] r c = { r with st := r.st.onCore c, traps := r.traps ++ [(c, x)] } :=
  Run.word_traps (r := { r with st := r.st.onCore c }) hr ((congrArg (exec i) (State.onCore_first _ _)).trans h) hv

theorem Run.core_frozen (hv : v.issue = .stalled) {f : Freeze} (hf : (v.cores[c]).freeze = some f) : Run.core [i] r c =
    { r with st := r.st.onCore c, stall := r.stall.orElse fun _ => some (c, f.after r.tile r.st.tiles[tileOf c]) } :=
  (Run.word_waits (r := { r with st := r.st.onCore c }) hr ((congrArg (exec i) (State.onCore_first _ _)).trans h) hv).trans (Run.held_freeze hf)

end

/-! ### The word on each of them -/

/-- What the traps `o` of positions `k`, `k + 1`, … are on the cores that stand there. -/
def gangTraps (o : Nat → Option TrapRec) (g : List CoreId) (k : Nat) : List (CoreId × TrapRec) :=
  (g.zipIdx k).filterMap (fun e => (o e.2).map (fun r => (e.1, r)))

section
variable (o : Nat → Option TrapRec)

theorem gangTraps_cons (c : CoreId) (g : List CoreId) (k : Nat) :
    gangTraps o (c :: g) k = ((o k).map (fun r => (c, r))).toList ++ gangTraps o g (k + 1) := by
  cases h : o k <;> simp [gangTraps, h]

theorem gangTraps_eq_nil {g : List CoreId} {k : Nat} : gangTraps o g k = [] ↔ ∀ j < g.length, o (k + j) = none := by
  induction g generalizing k with
  | nil => simp [gangTraps]
  | cons c g ih =>
    rw [gangTraps_cons, List.append_eq_nil_iff, ih, List.length_cons, Nat.forall_lt_succ_left]
    have e (m : Nat) : k + 1 + m = k + (m + 1) := by omega
    simp [e]

theorem mem_of_mem_gangTraps {g : List CoreId} {k : Nat} {t : CoreId × TrapRec} (h : t ∈ gangTraps o g k) : t.1 ∈ g := by
  obtain ⟨⟨c, j⟩, hc, ht⟩ := List.mem_filterMap.1 h
  obtain ⟨r, -, rfl⟩ := Option.map_eq_some_iff.1 ht
  exact List.fst_mem_of_mem_zipIdx hc

end

section
variable (i : Instr) (t : Nat → State) (o : Nat → Option TrapRec)

/-- The word of position `k` issues on a core, and leaves what the next position begins with. -/
def WordIssues (k : Nat) (c : CoreId) : Prop := ∃ v, exec i ((t k).onCore c) = .next v ∧ v.issue = .issued ∧ v.cur = c ∧
  v.c.pend.take ((t k).onCore c).c.pend.length = ((t k).onCore c).c.pend ∧ o k = none ∧ t (k + 1) = v

/-- The word of position `k` traps on a core, and leaves nothing. -/
def WordTraps (k : Nat) (c : CoreId) : Prop := ∃ v r, exec i ((t k).onCore c) = .next v ∧ v.issue = .trapped r ∧ o k = some r ∧
  t (k + 1) = (t k).onCore c

variable {i t o} (he : isEmulation i = false)
include he

theorem Run.core_position {r : Run} {k : Nat} {c : CoreId} (hr : r.st = t k) (ht : r.traps.any (fun t => t.1 == c) = false)
    (hk : WordIssues i t o k c ∨ WordTraps i t o k c) :
    Run.core [i] r c = { r with st := t (k + 1), traps := r.traps ++ ((o k).map (fun r => (c, r))).toList } := by
  rcases hk with ⟨v, hv, hi, -, hp, ho, ht'⟩ | ⟨v, x, hv, hi, ho, ht'⟩ <;> rw [← hr] at hv
  · rw [← hr] at hp
    rw [Run.core_issues ht hv he hi hp, ho, ht']
    simp
  · rw [Run.core_traps ht hv hi, ho, ht', hr]
    simp

/-- On cores where the word issues or traps. -/
theorem Run.gang_positions {g : List CoreId} (hn : g.Nodup) {r : Run} {k : Nat} (hr : r.st = t k)
    (ht : ∀ c ∈ g, r.traps.any (fun t => t.1 == c) = false) (hg : ∀ j c, g[j]? = some c → WordIssues i t o (k + j) c ∨ WordTraps i t o (k + j) c) :
    g.foldl (Run.core [i]) r = { r with st := t (k + g.length), traps := r.traps ++ gangTraps o g k } := by
  induction g generalizing r k with
  | nil => simp [gangTraps, ← hr]
  | cons c g ih =>
    obtain ⟨hc, hn⟩ := List.nodup_cons.1 hn
    rw [List.foldl_cons, Run.core_position he hr (ht c List.mem_cons_self) (hg 0 c rfl), ih hn rfl ?_ ?_, gangTraps_cons]
    · simp [Nat.add_assoc, Nat.add_comm]
    · intro d hd
      have hne : c ≠ d := fun e => hc (e ▸ hd)
      rw [List.any_append, ht d (List.mem_cons_of_mem _ hd)]
      cases o k <;> simp [hne]
    · intro j d hd
      rw [Nat.add_assoc, Nat.add_comm 1]
      exact hg (j + 1) d hd

/-- On cores where the word issues. -/
theorem Run.gang_issues {g : List CoreId} (hn : g.Nodup) {r : Run} {k : Nat} (hr : r.st = t k) (ht : r.traps = [])
    (hg : ∀ j c, g[j]? = some c → WordIssues i t o (k + j) c) : g.foldl (Run.core [i]) r = { r with st := t (k + g.length) } := by
  have ho : gangTraps o g k = [] := (gangTraps_eq_nil o).2 fun j hj => by
    obtain ⟨v, -, -, -, -, ho, -⟩ := hg j g[j] (List.getElem?_eq_getElem hj)
    exact ho
  rw [Run.gang_positions he hn hr (by simp [ht]) (fun j c h => .inl (hg j c h)), ho, List.append_nil]

/-- On cores of which one freezes. -/
theorem Run.gang_freezes {g : List CoreId} (hn : g.Nodup) {r : Run} (hr : r.st = t 0) (ht : r.traps = []) (hs : r.stall = none) {j : Nat} {d : CoreId}
    (hd : g[j]? = some d) (hg : ∀ k c, g[k]? = some c → k ≠ j → WordIssues i t o k c) {v : State} {f : Freeze}
    (hv : exec i ((t j).onCore d) = .next v) (hi : v.issue = .stalled) (hf : (v.cores[d]).freeze = some f) (hj : t (j + 1) = (t j).onCore d) :
    g.foldl (Run.core [i]) r = { r with st := t g.length, stall := some (d, f.after r.tile (t j).tiles[tileOf d]) } := by
  obtain ⟨hlt, hgd⟩ := List.getElem?_eq_some_iff.1 hd
  have hsplit : g = g.take j ++ d :: g.drop (j + 1) := by rw [← hgd, List.cons_getElem_drop_succ, List.take_append_drop]
  have hlen : (g.take j).length = j := List.length_take_of_le hlt.le
  have hbefore := Run.gang_issues he (hn.sublist (List.take_sublist j g)) hr ht (k := 0) fun k c h => by
    have hk : k < j := lt_of_not_ge fun hk => by simp [hk.not_gt] at h
    rw [Nat.zero_add]
    exact hg k c (by rwa [List.getElem?_take_of_lt hk] at h) hk.ne
  have hat := Run.core_frozen (r := { r with st := t j }) (by simp [ht]) hv hi hf
  have hafter := Run.gang_issues he (hn.sublist (List.drop_sublist (j + 1) g)) (k := j + 1)
    (r := { r with st := t (j + 1), stall := some (d, f.after r.tile (t j).tiles[tileOf d]) }) rfl ht fun k c h => by
      rw [List.getElem?_drop] at h
      exact hg (j + 1 + k) c h (by omega)
  conv_lhs => rw [hsplit, List.foldl_append, List.foldl_cons, hbefore, hlen, Nat.zero_add, hat, hs, ← hj]
  refine hafter.trans ?_
  rw [List.length_drop, Nat.add_sub_cancel' hlt]

end

/-! ### What becomes of a gang's bundle -/

/-- Before its first word. -/
def State.gangStart (s : State) (u : CoreId) (g : List CoreId) (w : BitVec 64) : Run :=
  { tile := (s.beforeBundle g w).tiles[tileOf u], st := (s.beforeBundle g w).modCores g (fun c => c.age (s.cores[u]).pc),
    traps := [], stall := none, waits := [] }

section
variable {s : State} {u : CoreId} {g : List CoreId} {w : BitVec 64} {i : Instr} {t : Nat → State} {o : Nat → Option TrapRec}
  (hi : s.issuers u = g) (hj : s.joiners u = []) (hg : s.gang u = g) (hn : g.Nodup) (hf : s.fetch u = .ok w)
  (hw : bundleWords (decodeBundle w.toNat) = [i]) (he : isEmulation i = false) (h0 : t 0 = (s.gangStart u g w).st)

include hw in
theorem State.runBundle_gang {r : Run} (hr : g.foldl (Run.core [i]) (s.gangStart u g w) = r) :
    (s.beforeBundle g w).runBundle u g (s.cores[u]).pc w = r := by
  rw [← hr, ← hw]
  rfl

include h0 in
/-- Neither a debugger's hold nor the ageing of results touches a tile. -/
theorem State.gangStart_tile : (s.gangStart u g w).tile = (t 0).tiles[tileOf u] := by
  have h := State.foldl_modCore_eq (fun _ c => c.age (s.cores[u]).pc) g (s.beforeBundle g w)
  rw [h0]
  exact (congrArg (fun x : State => x.tiles[tileOf u]) h.symm :)

include hi hj hg hn hf hw he h0

theorem State.issue'_gang_issues (h : ∀ k c, g[k]? = some c → WordIssues i t o k c) : s.issue' u =
    (g.foldl (fun s' c => s'.modCore c (fun k => k.orFlags (flagsOf ((s.beforeBundle g w).cores[c]).dueNext))) (t g.length)).bundleDone u g := by
  have hr := Run.gang_issues he hn (r := s.gangStart u g w) (k := 0) h0.symm rfl fun k c hc => by
    rw [Nat.zero_add]
    exact h k c hc
  rw [State.issue'_issues hi hj hg hf (State.runBundle_gang hw hr) rfl rfl rfl, Nat.zero_add]

theorem State.issue'_gang_traps (h : ∀ k c, g[k]? = some c → WordIssues i t o k c ∨ WordTraps i t o k c) (hx : ∃ k < g.length, o k ≠ none) :
    s.issue' u = ((s.performAccs g).trapGang g (gangTraps o g 0) (s.cores[u]).pc).modCores g (fun c => { c with dbgSteps := 0 }) := by
  have hr := Run.gang_positions he hn (r := s.gangStart u g w) (k := 0) h0.symm (fun _ _ => rfl) fun k c hc => by
    rw [Nat.zero_add]
    exact h k c hc
  obtain ⟨k, hk, hok⟩ := hx
  refine State.issue'_traps hi hj hg hf (State.runBundle_gang hw hr) rfl (fun e => hok ?_) fun x hx => mem_of_mem_gangTraps o hx
  rw [← Nat.zero_add k]
  exact (gangTraps_eq_nil o).1 e k hk

theorem State.issue'_gang_freezes {j : Nat} {d : CoreId} (hjd : g[j]? = some d) (h : ∀ k c, g[k]? = some c → k ≠ j → WordIssues i t o k c)
    {v : State} {f : Freeze} (hv : exec i ((t j).onCore d) = .next v) (hvi : v.issue = .stalled) (hfr : (v.cores[d]).freeze = some f)
    (ht : t (j + 1) = (t j).onCore d) :
    s.issue' u = s.modCore d (fun k => { k with freeze := some (f.after ((t 0).tiles[tileOf u]) ((t j).tiles[tileOf d])) }) := by
  have hr := Run.gang_freezes he hn (r := s.gangStart u g w) h0.symm rfl rfl hjd h hv hvi hfr ht
  rw [State.gangStart_tile h0] at hr
  exact State.issue'_frozen hi hj hg hf (State.runBundle_gang hw hr) rfl rfl rfl

end

end Sys2Proof.Machine
end

section
/-! PROOFS. A step where issue is the only move runs the decoded bundle; what follows a bundle; a choice among moves (08 R156, 09 R182). -/

namespace Sys2Proof.Machine

open Sys2Proof

/-! ### One core -/

section
variable {s : State} {u : CoreId} {w : BitVec 64} (hp : s.dev.power = .on) (hd : s.due = []) (hm : s.moves = [.issue u])
include hp hd hm

/-- Where issuing a bundle is the only move, a step gives what becomes of it. -/
theorem step_issue {t : State} (e : s.issue' u = t) : step s = .next t := by
  rw [step_single hp hd hm, ← e]
  rfl

end

theorem State.modCur_of_cur {s : State} {u : CoreId} (h : s.cur = u) (f : Core → Core) : s.modCur f = s.modCore u f := by
  rw [State.modCur, h]

theorem State.preciseTrap_issue (s : State) (r : TrapRec) : (s.preciseTrap r).issue = .trapped r := rfl

/-- An extension word that its handler does not take is an illegal instruction (16 R308). -/
theorem exec_emulation_declined {w1 : Bool} {s : State} (h : Config.emulated s.stepNo = none) : exec (.emulation w1) s =
    .next (({ s with stepNo := s.stepNo + 1 } : State).preciseTrap (cause 0x01 s.pcNow (if w1 then 1 else 0))) := by
  show execEmulation w1 s = _
  simp only [execEmulation, h]
  rfl

/-! ### After the bundle -/

theorem Core.endChecks_xfer (c : Core) (pc : Word) : (c.endChecks pc).1.xfer = c.xfer := by
  rw [(c.endChecks_same pc).1]

theorem Core.checksBefore_xfer (c : Core) (pc : Word) (kind : XferKind) : (c.checksBefore pc kind).xfer = c.xfer := by
  unfold Core.checksBefore
  split
  · exact c.endChecks_xfer pc
  · rfl

theorem Core.fallThrough_xfer (c : Core) (pc next : Word) : (c.fallThrough pc next).xfer = c.xfer := c.endChecks_xfer pc

/-- The control state moves on; what the bundle asked for is cleared only once every core has issued. -/
theorem Core.advance_xfer (c : Core) : c.advance.xfer = c.xfer := by
  unfold Core.advance
  dsimp only
  split
  · split <;> simp only [Core.fallThrough_xfer, Core.checksBefore_xfer]
  · split
    · exact c.fallThrough_xfer _ _
    · split
      · rfl
      · split <;> simp only [Core.fallThrough_xfer]
      · split <;> simp only [Core.fallThrough_xfer]
      · exact Core.fallThrough_xfer _ _ _

theorem State.bundleDone_one {s : State} {u : CoreId} (ha : (s.cores[u]).after = none) (hx : ∀ x, (s.cores[u]).xfer = some x → x.kind ≠ .rett) :
    s.bundleDone u [u] = s.modCore u (fun c => c.advance.issuedIn s.now (s.cycleOf u)) := by
  have hcauses : s.afterCauses [u] = [] := by rw [State.afterCauses, List.filterMap_cons, ha]; rfl
  have hxfer : ((s.modCore u Core.advance).cores[u]).xfer = (s.cores[u]).xfer := by rw [State.modCore_self, Core.advance_xfer]
  have hreturns : (s.modCore u Core.advance).returns [u] = [] := by
    rw [State.returns, List.filter_cons, hxfer]
    cases h : (s.cores[u]).xfer with
    | none => rfl
    | some x => simp [hx x h]
  have hall : (s.modCore u Core.advance).returnAll u [u] = s.modCore u Core.advance := by rw [State.returnAll, hreturns]; rfl
  rw [State.bundleDone, hcauses, hall]
  exact s.modCore_modCore u Core.advance (fun c => c.issuedIn s.now (s.cycleOf u))

/-! ### Among several moves -/

theorem step_choice {s : State} (hp : s.dev.power = .on) (hd : s.due = []) (hm : 2 ≤ s.moves.length) :
    ∃ m ∈ s.moves, step s = ({ s with stepNo := s.stepNo + 1 } : State).makeMove m := by
  rw [step_pick hp hd, State.pick]
  match h : s.moves with
  | [] => simp [h] at hm
  | [m] => simp [h] at hm
  | m :: n :: r =>
    have hlt : Config.choice s.stepNo % ((n :: r).length + 1) < (m :: n :: r).length := Nat.mod_lt _ (Nat.succ_pos _)
    exact ⟨_, List.getElem_mem hlt, congrArg ({ s with stepNo := s.stepNo + 1 } : State).makeMove (List.getD_eq_getElem _ m hlt)⟩

/-- Settles O55: what becomes of a bundle by how its words fare, on one core and on a gang; what comes before and after it; and one move of several. -/
theorem stepRunsTheDecodedBundle : Obligations.StepRunsTheDecodedBundle := by
  unfold Obligations.StepRunsTheDecodedBundle
  refine ⟨?_, ?_, ?_, fun s u ha hx => State.bundleDone_one ha hx, fun s m hp hd hm => step_single hp hd hm,
    fun s hp hd hm => step_choice hp hd hm, fun s i r hp hd => step_due hp hd⟩
  · intro s u w hp hd hm hi hj hg hf pc is a h s1 ran done trapped frozen waits
    refine ⟨fun i hw => ⟨fun t ht hc hn hk => ?_, fun t r ht hn => ?_, fun t f ht hn hfr => ?_, fun t p ht hn hfr hpk => ?_⟩,
      fun i hb => ?_, fun c b hb => ?_, fun m l hb => ?_, fun w1 hb hpc => ?_, fun m w1 l hb he hpc => ?_,
      fun c b l hw hl t ht hc => ?_⟩
    · exact step_issue hp hd hm (State.issue'_one_issues hi hj hg hf hw ht hn hk)
    · exact step_issue hp hd hm (State.issue'_first_traps hi hj hg hf hw ht hn)
    · exact step_issue hp hd hm (State.issue'_one_frozen hi hj hg hf hw ht hn hfr)
    · exact step_issue hp hd hm (State.issue'_one_parks hi hj hg hf hw ht hn hfr hpk)
    · exact congrArg bundleWords hb
    · exact congrArg bundleWords hb
    · refine (congrArg bundleWords hb).trans ?_
      cases m with
      | true => rfl
      | false => exact List.append_nil l
    · rw [← hpc]
      exact step_issue hp hd hm (State.issue'_first_traps hi hj hg hf (congrArg bundleWords hb) rfl rfl)
    · rw [← hpc]
      exact step_issue hp hd hm (State.issue'_first_traps hi hj hg hf (congrArg bundleWords hb) (exec_emulation_declined he) (State.preciseTrap_issue _ _))
    · obtain ⟨m, rfl⟩ : ∃ m, l = markerTail m := hl.elim (fun e => ⟨false, e⟩) (fun e => ⟨true, e⟩)
      intro before t' more
      refine ⟨fun r hn => ?_, fun f v hn hfr hv hvn => ?_, fun f v r hn hfr hv hvn => ?_, fun p v hn hfr hpk hv hvn => ?_, fun hn hrc hk => ?_⟩
      · exact step_issue hp hd hm (State.issue'_first_traps hi hj hg hf hw ht hn)
      · exact step_issue hp hd hm (State.issue'_pair_frozen hi hj hg hf hw ht hn hv hfr hvn)
      · exact step_issue hp hd hm (State.issue'_pair_frozen_traps hi hj hg hf hw ht hn hv hfr hvn)
      · exact step_issue hp hd hm (State.issue'_pair_parks hi hj hg hf hw ht hn hv hfr hpk hvn)
      · have e : t' = (t.withEmulated c s1.stepNo).modCur (fun k => { k with pend := before }) := (State.modCur_of_cur hrc _).symm
        rw [e]
        refine ⟨fun v hv hvc hvn => ?_, fun v r hv hvn => ?_, fun v f hv hvn hfr => ?_, fun v p hv hvn hfr hpk => ?_⟩
        · have hmore := State.issue'_second_issues hi hj hg hf hw ht hn hk hv hvn (more := more v)
            (congrArg (fun x : State => x.withEmulated b t'.stepNo) (State.modCur_of_cur hvc _))
          cases m with
          | false => exact ⟨fun _ => step_issue hp hd hm hmore, fun e => absurd e (by simp [markerTail])⟩
          | true => exact ⟨fun e => absurd e (by simp [markerTail]), fun _ _ => step_issue hp hd hm hmore⟩
        · exact step_issue hp hd hm (State.issue'_second_traps hi hj hg hf hw ht hn hk hv hvn)
        · exact step_issue hp hd hm (State.issue'_second_frozen hi hj hg hf hw ht hn hk hv hvn hfr)
        · exact step_issue hp hd hm (State.issue'_second_parks hi hj hg hf hw ht hn hk hv hvn hfr hpk)
  · intro s u w g i t o hp hd hm hi hj hg hn hf hw he pc h at' h0 goes traps
    refine ⟨fun hgo => ?_, fun hgo hx => ?_, fun j d v f hjd hgo hv hvn hfr ht => ?_⟩
    · exact step_issue hp hd hm (State.issue'_gang_issues hi hj hg hn hf hw he h0 hgo)
    · exact step_issue hp hd hm (State.issue'_gang_traps hi hj hg hn hf hw he h0 hgo hx)
    · exact step_issue hp hd hm (State.issue'_gang_freezes hi hj hg hn hf hw he h0 hjd hgo hv hvn hfr ht)
  · intro s g w c hn hc hpos plain
    refine ⟨State.performAccs_acc hn hc s, State.performFor_other, fun h => State.performFor_plain_acc h hn hc (hpos c hc), rfl, fun hg x hx => ?_⟩
    rw [hg]
    exact State.performAccs_one hx

end Sys2Proof.Machine
end

section
/-! PROOFS. Far accesses: the words of the far spaces issue one request, and where that request goes (03 R71, 04 R83, R86, R93, R95, 11 R235). -/

namespace Sys2Proof.Machine

open Sys2Proof

/-! ### The message that is sent (11 R247) -/

/-- The message that State.send puts in flight. -/
def State.packet (s : State) (src dst cls : Nat) (who : Option Who) (terr : Nat) (body : Msg) : Packet :=
  { id := s.dev.nextReq, src := src, dst := dst, cls := cls, seq := lookupSeq s.txSeq (src, dst, cls), sent := s.now,
    ver := s.shapeVer terr, who := who, terr := terr, body := body }

section
variable (s : State) {src dst cls : Nat} {who : Option Who} {terr : Nat} {body : Msg}

theorem State.send_net : (s.send src dst cls who terr body).net = s.net ++ [s.packet src dst cls who terr body] := rfl

/-- Every class but that of acknowledgements keeps a copy. -/
theorem State.send_kept (h : cls ≠ 4) : (s.send src dst cls who terr body).kept = s.kept ++ [s.packet src dst cls who terr body] :=
  if_neg h

end

/-! ### An update of a core or a counter sends nothing -/

section
variable (s : State) (w : Who) (id : Nat)

@[simp] theorem State.modOwn_net (f : Core → Core) : (s.modOwn w f).net = s.net := by
  unfold State.modOwn
  (repeat' split) <;> rfl

@[simp] theorem State.modOwn_kept (f : Core → Core) : (s.modOwn w f).kept = s.kept := by
  unfold State.modOwn
  (repeat' split) <;> rfl

@[simp] theorem State.addOut_net : (s.addOut w id).net = s.net := State.modOwn_net _ _ _

@[simp] theorem State.addOut_kept : (s.addOut w id).kept = s.kept := State.modOwn_kept _ _ _

@[simp] theorem State.refuseNow_net (t : TrapRec) (own : Bool) : (s.refuseNow w id t own).net = s.net := State.modOwn_net _ _ _

@[simp] theorem State.refuseNow_kept (t : TrapRec) (own : Bool) : (s.refuseNow w id t own).kept = s.kept := State.modOwn_kept _ _ _

@[simp] theorem State.bump_net (t : TileId) (i : Fin 16) : (s.bump t i).net = s.net := by
  unfold State.bump
  split <;> rfl

@[simp] theorem State.bump_kept (t : TileId) (i : Fin 16) : (s.bump t i).kept = s.kept := by
  unfold State.bump
  split <;> rfl

end

/-! ### The words -/

section
variable {s : State} {m : Bool} {d a b : Reg} {ad : Word} {n al : Nat}

/-- The checks of a far word pass on a far address: it has its effect. -/
theorem State.withFar_isFar {st : Bool} (h : s.IsFar ad n al st) (k : State) : s.withFar ad n al st k = .ok k := by
  simp only [State.withFar, State.checkMem_far (r := .far) (by decide) h]

/-- A load from a far address is a far access that marks its destination. -/
theorem State.loadAny_isFar {r : Reach} (hr : r ≠ .near) (h : s.IsFar ad n n false) (sz : MemSz) :
    s.loadAny r ad n d sz = .ok (s.farAccess ad true (dstS d) (fun p => .load p ad n (.scalar d sz))) := by
  have hc := State.checkMem_far hr h
  obtain ⟨-, ⟨lidx, fid, off, hp, -⟩ | ⟨va, hp⟩⟩ := h
  · simp only [State.loadAny, hc, hp]
  · simp only [State.loadAny, hc, hp]

/-- A store to a far address is a far access that marks nothing. -/
theorem State.storeAny_isFar {st : Bool} (h : s.IsFar ad n al st) (bs : List Byte) :
    s.storeAny ad bs = s.farAccess ad false none (fun p => .store p ad bs) := by
  obtain ⟨-, ⟨lidx, fid, off, hp, -⟩ | ⟨va, hp⟩⟩ := h
  · simp only [State.storeAny, hp]
  · simp only [State.storeAny, hp]

theorem exec_ldp_isFar {sz : MemSz} {disp : BitVec 11} (hr : s.Ready [.scalar a] (wS d none))
    (h : s.IsFar (dispAddr (s.rs a) disp (sizeOf' sz)) (sizeOf' sz) (sizeOf' sz) false) :
    exec (.ldp m d a sz disp) s = .next ((s.farAccess (dispAddr (s.rs a) disp (sizeOf' sz)) true (dstS d)
      (fun p => .load p (dispAddr (s.rs a) disp (sizeOf' sz)) (sizeOf' sz) (.scalar d sz))).after m) := by
  rw [exec_ldp]
  exact cWord_ok hr (State.loadAny_isFar (by decide) h sz)

/-- LDA acts as if its bundle carried the switch marker (04 R93). -/
theorem exec_lda_isFar {sz : MemSz} {sc : Scope} {disp : BitVec 9} (hr : s.Ready [.scalar a] (wS d none))
    (h : s.IsFar (dispAddr (s.rs a) disp (sizeOf' sz)) (sizeOf' sz) (sizeOf' sz) false) :
    exec (.lda m d a sz sc disp) s = .next ((s.farAccess (dispAddr (s.rs a) disp (sizeOf' sz)) true (dstS d)
      (fun p => .load p (dispAddr (s.rs a) disp (sizeOf' sz)) (sizeOf' sz) (.scalar d sz))).after true) := by
  rw [exec_lda]
  exact cWord_ok hr (State.loadAny_isFar (by decide) h sz)

theorem exec_stp_isFar {sz : MemSz} {disp : BitVec 11} (hr : s.Ready [.scalar a, .scalar d] [])
    (h : s.IsFar (dispAddr (s.rs a) disp (sizeOf' sz)) (sizeOf' sz) (sizeOf' sz) true) :
    exec (.stp m d a sz disp) s = .next ((s.farAccess (dispAddr (s.rs a) disp (sizeOf' sz)) false none
      (fun p => .store p (dispAddr (s.rs a) disp (sizeOf' sz)) (storeBytes sz (s.rs d)))).after m) := by
  rw [exec_stp]
  exact cWord_ok hr ((State.withFar_isFar h _).trans (congrArg Res.ok (State.storeAny_isFar h _)))

theorem exec_vldp_isFar {disp : BitVec 11} (hr : s.Ready [.scalar a] (wV d none)) (h : s.IsFar (dispAddr (s.rs a) disp 128) 128 128 false) :
    exec (.vldp m d a disp) s = .next ((s.farAccess (dispAddr (s.rs a) disp 128) true (some (.vector d))
      (fun p => .load p (dispAddr (s.rs a) disp 128) 128 (.vector d))).after m) := by
  rw [exec_vldp]
  exact cWord_ok hr (State.withFar_isFar h _)

theorem exec_vstp_isFar {disp : BitVec 11} (hr : s.Ready [.scalar a, .vector d] []) (h : s.IsFar (dispAddr (s.rs a) disp 128) 128 128 true) :
    exec (.vstp m d a disp) s = .next ((s.farAccess (dispAddr (s.rs a) disp 128) false none
      (fun p => .store p (dispAddr (s.rs a) disp 128) (bytesOfVec (s.rv d)))).after m) := by
  rw [exec_vstp]
  exact cWord_ok hr ((State.withFar_isFar h _).trans (congrArg Res.ok (State.storeAny_isFar h _)))

/-- A slice that has issued a peer atomic is not replayed (16 R317). -/
theorem exec_atomp_isFar {op : AtomOp} {ty : AtomTy} (hr : s.Ready (atomReads op d a b) (wS d none)) (h : s.IsFar (s.rs a) 4 4 true) :
    exec (.atomp m d a b op ty) s = .next (((s.farAccess (s.rs a) true (dstS d)
      (fun p => .atom p (s.rs a) op ty ((s.rs b).setWidth 32) ((s.rs d).setWidth 32) d)).noReplay).after m) := by
  rw [exec_atomp]
  exact cWord_ok hr (State.withFar_isFar h _)

end

/-! ### The request (03 R71, 04 R83, R86) -/

/-- The state in which a far access that has marked its register, if it is to, sends its request. -/
def State.farMarked (s : State) (pends : Bool) (reg : Option RegId) : State := if pends then s.pendOn s.dev.nextReq reg else s

section
variable (s : State) (pends : Bool) (reg : Option RegId)

@[simp] theorem State.farMarked_net : (s.farMarked pends reg).net = s.net := by cases pends <;> rfl

@[simp] theorem State.farMarked_kept : (s.farMarked pends reg).kept = s.kept := by cases pends <;> rfl

@[simp] theorem State.farMarked_dev : (s.farMarked pends reg).dev = s.dev := by cases pends <;> rfl

end

section
variable {s : State} {a : Word} {pends : Bool} {reg : Option RegId} {mk : Place → Msg} {lidx fid off : Nat}

/-- A peer index that names a member now: the request goes to that member. -/
theorem State.farAccess_member {tile : TileId} (hp : parseAddr a = .peer lidx fid off) (ht : s.memberAt s.sl.terr lidx = some tile) :
    s.farAccess a pends reg mk = ((s.farMarked pends reg).send s.tile.val tile.val 0 (some s.me) s.sl.terr
      (mk (.peer tile lidx (if fid = 255 then s.sl.fid.getD 255 else fid) off))).addOut s.me s.dev.nextReq := by
  simp only [State.farAccess, hp, ht]
  rfl

/-- An address in HBM: the request goes to the stream controller that is its home. -/
theorem State.farAccess_hbm {va : Nat} (hp : parseAddr a = .hbm va) : s.farAccess a pends reg mk =
    ((s.farMarked pends reg).send s.tile.val (hbmNode va) 0 (some s.me) s.sl.terr (mk (.hbm va))).addOut s.me s.dev.nextReq := by
  simp only [State.farAccess, hp]
  rfl

/-- A hole: the tile counts it, and the core has its stale peer without a message. -/
theorem State.farAccess_hole (hp : parseAddr a = .peer lidx fid off) (ht : s.memberAt s.sl.terr lidx = none) :
    let s1 := s.farMarked pends reg
    s.farAccess a pends reg mk = ({ s1.bump s.tile 2 with dev := { s1.dev with nextReq := s.dev.nextReq + 1 } } : State).refuseNow s.me s.dev.nextReq
      (stalePeer lidx (s.shapeVer s.sl.terr)) pends := by
  simp only [State.farAccess, hp, ht]
  rfl

end

/-- What a far access in state `s` puts in flight when it sends `body` to node `dst`: one message of class 0, and a copy of it that is kept. -/
def State.SendsOne (s t : State) (dst : Nat) (body : Msg) : Prop :=
  ∃ p : Packet, t.net = s.net ++ [p] ∧ t.kept = s.kept ++ [p] ∧ p.id = s.dev.nextReq ∧ p.src = s.tile.val ∧ p.dst = dst ∧ p.cls = 0 ∧
    p.terr = s.sl.terr ∧ p.body = body

theorem State.farMarked_send_sendsOne (s : State) (pends : Bool) (reg : Option RegId) (w : Who) (id dst : Nat) (body : Msg) :
    s.SendsOne (((s.farMarked pends reg).send s.tile.val dst 0 (some w) s.sl.terr body).addOut w id) dst body := by
  refine ⟨(s.farMarked pends reg).packet s.tile.val dst 0 (some w) s.sl.terr body, ?_, ?_, ?_, rfl, rfl, rfl, rfl, rfl⟩
  · rw [State.addOut_net, State.send_net, State.farMarked_net]
  · rw [State.addOut_kept, State.send_kept _ (by decide), State.farMarked_kept]
  · exact congrArg Dev.nextReq (s.farMarked_dev pends reg)

/-- Settles O26: the words by the checks that pass on a far address, the request by what its address names. -/
theorem farAccessesSendRequests : Obligations.FarAccessesSendRequests := by
  unfold Obligations.FarAccessesSendRequests
  refine ⟨fun s m d a b sz sc disp d9 op ty => ⟨exec_ldp_isFar, exec_lda_isFar, exec_stp_isFar, exec_vldp_isFar, exec_vstp_isFar, exec_atomp_isFar⟩,
    fun s a pends reg mk => ⟨State.farAccess_mem s a pends reg mk, fun lidx fid off tile hp ht => ?_, fun va hp => ?_, fun lidx fid off hp ht => ?_⟩⟩
  · rw [State.farAccess_member hp ht]
    exact s.farMarked_send_sendsOne pends reg _ _ _ _
  · obtain ⟨p, hnet, hkept, hid, hsrc, hdst, hcls, -, hbody⟩ := s.farMarked_send_sendsOne pends reg s.me s.dev.nextReq (hbmNode va) (mk (.hbm va))
    rw [State.farAccess_hbm hp]
    exact ⟨p, hnet, hkept, hid, hsrc, hdst, hcls, hbody⟩
  · rw [State.farAccess_hole hp ht]
    simp

end Sys2Proof.Machine
end

section
/-! PROOFS. Borders: pressure, claims, commits, cessions and grants (03 R53 to R66). -/

namespace Sys2Proof.Machine

open Sys2Proof

/-! ### Members -/

theorem Tile.owner_of_isMember {x : Tile} {a : Nat} (h : x.isMember a = true) : x.owner = some a := by
  simp only [Tile.isMember, Bool.and_eq_true, beq_iff_eq] at h
  obtain ⟨⟨ho, -⟩, -⟩ := h
  exact ho

/-! ### The end of an epoch (03 R53, R54) -/

/-- A tile after the end of an epoch: a member has its new pressures, any other is left alone. -/
def State.afterEpoch (s : State) (u : TileId) : Tile :=
  let x := s.tiles[u]
  match x.owner with
  | some a => if x.isMember a then { x with press := s.smoothed u a, raw := s.rawPressure u } else x
  | none => x

theorem exec_epochEnd_tiles (s : State) : exec .epochEnd s = .next { s with tiles := Vector.ofFn s.afterEpoch } := rfl

section
variable {s : State} {u : TileId}

theorem State.afterEpoch_member {a : Nat} (h : (s.tiles[u]).isMember a = true) :
    s.afterEpoch u = { s.tiles[u] with press := s.smoothed u a, raw := s.rawPressure u } := by
  simp only [State.afterEpoch, Tile.owner_of_isMember h, h, if_true]

theorem State.afterEpoch_other (h : ∀ a, (s.tiles[u]).isMember a = false) : s.afterEpoch u = s.tiles[u] := by
  unfold State.afterEpoch
  dsimp only
  split
  · rw [h, if_neg Bool.false_ne_true]
  · rfl

end

/-! ### Claims and their commits (03 R56 to R60) -/

section
variable {s : State} {tile : TileId}

/-- Where a territory claims a tile, the claim is made unless the tile holds the losing territory together. -/
theorem exec_phaseStart_claims {b : Nat} (hb : s.claimant tile = some b) :
    let c : Claim := { start := s.now, gain := b, lose := (s.tiles[tile]).owner, lossOk := (s.tiles[tile]).owner.isNone, gainOk := false, dead := false }
    exec (.phaseStart tile) s = .next (if (s.tiles[tile]).owner.any (fun a => !s.connected tile a) then s.bump tile 1
      else (s.modTile tile (fun x => { x with claim := some c })).askSizes tile c) := by
  simp only [exec_phaseStart, execPhaseStart, hb]
  split <;> rfl

/-- A claim that may commit uses its grants: the tile begins to leave the territory that loses it, or to join from the free pool. -/
theorem exec_moveCommit_commits {c : Claim} (hc : (s.tiles[tile]).claim = some c) (hm : s.commits c = true) :
    let s2 := ((s.modTile tile (fun x => { x with claim := none })).bump tile 0).modTerr c.gain (fun y => y.ungrant false tile c.start)
    (∀ a, c.lose = some a → exec (.moveCommit tile) s =
      .next ((s2.modTerr a (fun y => (y.ungrant true tile c.start).unorder tile)).leave tile a (some c.gain) (s.now - 1))) ∧
    (c.lose = none → exec (.moveCommit tile) s = .next (s2.modTile tile (fun x => { x with joining := some (c.gain, s.now) }))) := by
  simp only [exec_moveCommit, execMoveCommit, hc, hm, if_true]
  exact ⟨fun a ha => by rw [ha], fun hn => by rw [hn]⟩

/-! ### Cessions (03 R61, R66) -/

section
variable {c : Cession} {a : Nat} (hc : (s.tiles[tile]).ceding = some c)
include hc

/-- The evacuation budget is over: slices that have issued no exit are stopped; while the context is halted those that an image holds end. -/
theorem exec_evacuationExpiry_over (ho : (s.tiles[tile]).owner = some a) (he : c.expired = false) (hl : c.lastCycle < s.now) :
    let s1 := s.modTile tile (fun x => { x with ceding := some { c with expired := true } })
    ((s.terr! a).halted = false → exec (.evacuationExpiry tile) s =
      .next ((s.slices.filter (fun x => x.tile == some tile && x.st == .running && !x.evacuated && !s1.hasExited x)).foldl (fun s x =>
        ((s.stopSlice x.uid .expired).bump tile 4).sendUpcall tile a (dataLoss 1 (s.tiles[tile]).lidx)) s1)) ∧
    ((s.terr! a).halted = true → (s.terr! a).imaged = true → exec (.evacuationExpiry tile) s = .next (s.imageKeeps tile c)) ∧
    ((s.terr! a).halted = true → (s.terr! a).imaged = false → exec (.evacuationExpiry tile) s = .next s) := by
  have hc0 : (c.expired || decide (s.now ≤ c.lastCycle)) = false := by simp [he, hl]
  simp only [exec_evacuationExpiry, execEvacuationExpiry, hc, ho, hc0, Bool.false_or]
  refine ⟨fun hh => ?_, fun hh hi => ?_, fun hh hi => ?_⟩
  · rw [hh]
    rfl
  · rw [hh, hi]
    rfl
  · rw [hh, hi]
    rfl

theorem exec_cessionClearing_drained (hn : c.cleared = false) (hd : s.tileDrained tile = true) :
    exec (.cessionClearing tile) s = .next ((s.clearTile tile).modTile tile (fun x => { x with ceding := some { c with cleared := true } })) := by
  simp only [exec_cessionClearing, execCessionClearing, hc, hn, hd]
  rfl

/-- A cleared tile joins the gaining territory, which stands. -/
theorem exec_cessionJoining_gains {b : Nat} {y : Terr} (ho : (s.tiles[tile]).owner = some a) (hd : c.cleared = true) (hg : c.gain = some b)
    (hy : s.findTerr b = some y) (hs : y.dying = none) :
    exec (.cessionJoining tile) s =
      .next ((((s.freeTile tile).modTile tile (fun x => { x with moved := some (s.now - 1) })).join tile b).tryDissolve a) := by
  simp only [exec_cessionJoining, execCessionJoining, hc, ho, hd, hg, hy, Option.any_some, hs]
  rfl

end

end

/-! ### Size requests and grants (03 R60) -/

section
variable {s : State} {k : Nat} {p : Packet} (h : s.Arriving k p)
include h

/-- A size request that reaches its handler tile is answered with whether it is granted. -/
theorem exec_sizeRequest_arriving {a n : Nat} {loss : Bool} {g t : TileId} {y : Terr} (hb : p.body = .sizeReq a loss g n)
    (hd : nodeTile p.dst = some t) (hy : s.findTerr a = some y) (ht : y.handler = t) :
    let u := (s.accepted p).sendAck p
    exec (.sizeRequest k) s = .next ((if s.maySize y loss then u.modTerr a (fun y => y.grant loss g n) else u).sendCtl t g a
      (.sizeGrant a loss (s.maySize y loss) g n)) := by
  have hy' : (s.accepted p).findTerr a = some y := hy
  have hok : (y.handler == t && (s.accepted p).maySize y loss) = s.maySize y loss := by
    rw [beq_iff_eq.2 ht, Bool.true_and]
    rfl
  simp only [exec_sizeRequest, execSizeRequest, h.1, hb, hd, State.arrive_next h.2, hy', hok]

theorem exec_sizeGrant_arriving {a n : Nat} {loss ok : Bool} {g : TileId} (hb : p.body = .sizeGrant a loss ok g n) :
    exec (.sizeGrant k) s = .next (((s.accepted p).sendAck p).grantBack g a loss ok n) := by
  simp only [exec_sizeGrant, execSizeGrant, h.1, hb, State.arrive_next h.2]

theorem exec_sizeGrantReturn_arriving {a n : Nat} {loss : Bool} {g : TileId} (hb : p.body = .sizeReturn a loss n) (hs : nodeTile p.src = some g) :
    exec (.sizeGrantReturn k) s = .next (((s.accepted p).sendAck p).modTerr a (fun y => (y.ungrant loss g n).unorder g)) := by
  simp only [exec_sizeGrantReturn, execSizeGrantReturn, h.1, hb, hs, State.arrive_next h.2]

end

/-- An answer that the tile's claim does not wait for: a grant goes back, a refusal is of no effect. -/
theorem State.grantBack_unwanted {s : State} {tile : TileId} {n : Nat} (h : ∀ c, (s.tiles[tile]).claim = some c → c.start ≠ n) (a : Nat)
    (loss ok : Bool) : s.grantBack tile a loss ok n = if ok then s.returnGrant tile a loss n else s := by
  unfold State.grantBack
  split
  · next c hc =>
    have hw : c.wants a loss n = false := by simp [Claim.wants, h c hc]
    simp only [hw, Bool.not_false, if_true]
  · rfl

/-- Settles O49: one lemma for each event; what an epoch's end gives each tile; an answer that no claim waits for. -/
theorem bordersMove : Obligations.BordersMove := by
  unfold Obligations.BordersMove
  refine fun s tile k => ⟨⟨_, exec_epochEnd_tiles s, rfl, fun u a => ?_⟩, fun b hb => ?_, fun c hc hm => exec_moveCommit_commits hc hm,
    fun c a hc ho => ⟨exec_evacuationExpiry_over hc ho, exec_cessionClearing_drained hc, fun hd b y hg hy hs => exec_cessionJoining_gains hc ho hd hg hy hs⟩,
    fun p h => ⟨fun a loss g n _ y hb hd hy ht => ?_, fun a loss ok g n hb => exec_sizeGrant_arriving h hb,
      fun a loss g n hb hs => exec_sizeGrantReturn_arriving h hb hs⟩,
    fun a loss n hn => ⟨State.grantBack_unwanted hn a loss true, State.grantBack_unwanted hn a loss false⟩⟩
  · have ht : (Vector.ofFn s.afterEpoch)[u] = s.afterEpoch u := by simp
    refine ⟨fun hm => ?_, fun hn => ht.trans (State.afterEpoch_other hn)⟩
    show (Vector.ofFn s.afterEpoch)[u].press = _ ∧ (Vector.ofFn s.afterEpoch)[u].raw = _
    rw [ht, State.afterEpoch_member hm]
    exact ⟨rfl, rfl⟩
  · have e := exec_phaseStart_claims hb
    refine ⟨fun hall => e.trans (congrArg Host.Outcome.next (if_neg ?_)), fun a ha hn => e.trans (congrArg Host.Outcome.next (if_pos ?_))⟩
    · rw [Option.any_eq_true]
      rintro ⟨a, ha, hn⟩
      rw [hall a ha] at hn
      cases hn
    · rw [ha, Option.any_some, hn]
      rfl
  · have e := exec_sizeRequest_arriving h hb hd hy ht
    exact ⟨fun hm => by rw [hm] at e; exact e, fun hm => by rw [hm] at e; exact e⟩

end Sys2Proof.Machine
end

section
/-! PROOFS. The handler tile: upcalls, freezing and thawing, anchors, snapshots of the shape (03 R65, R71, R74, 12 R275, R276, R278, R279). -/

namespace Sys2Proof.Machine

open Sys2Proof

/-! ### Freezing (03 R74, 12 R279) -/

/-- A park that waits for this answer, in the stream that runs, waits for nothing more. -/
theorem Core.answered_park {c : Core} {id : Nat} {p : Park} (hp : c.park = some p) (hw : p.why = .answer id) (hr : c.replay = none) :
    c.answered id = { c with park := some { p with why := .fence .c } } := by
  simp only [Core.answered, Machine.answered, hp, hw, hr, if_true, Option.map_none]

theorem exec_freezeTakesHold_still {s : State} {terr : Nat} {y : Terr} (hy : s.findTerr terr = some y) (hm : y.mark = true) (hf : y.frz = false)
    (hs : s.still terr = true) : exec (.freezeTakesHold terr) s =
      .next (((s.modTerr terr (fun y => { y with frz := true, waiting := [] })).evShape terr).endFreezes y.waiting) := by
  simp only [exec_freezeTakesHold, execFreezeTakesHold, hy, hm, hf, hs]
  rfl

section
variable {s : State} {k : Nat} {p : Packet} (h : s.Arriving k p)
include h

/-! ### Upcalls (03 R65) -/

/-- An upcall that reaches the handler tile of its territory, which owns that tile, is taken there. -/
theorem exec_upcallArrival_handler {terr : Nat} {tr : TrapRec} {t : TileId} {y : Terr} (hb : p.body = .upcall terr tr)
    (hd : nodeTile p.dst = some t) (hm : y ∈ s.terrs) (hi : y.id = terr) (hh : y.handler = t) (ho : (s.tiles[t]).owner = some terr) :
    exec (.upcallArrival k) s = .next (((s.accepted p).sendAck p).upcallAt t tr) := by
  have hc : (s.terrs.any (fun y => y.id == terr && y.handler == t) && (s.tiles[t]).owner == some terr) = true := by
    rw [Bool.and_eq_true, List.any_eq_true]
    exact ⟨⟨y, hm, by simp [hi, hh]⟩, beq_iff_eq.2 ho⟩
  simp only [exec_upcallArrival, execUpcallArrival, h.1, hb, hd, State.arrive_next h.2]
  exact congrArg Host.Outcome.next (if_pos hc)

/-! ### Requests to the handler tile `t` from tile `v` of the core `w` -/

section
variable {w : Who} {t v : TileId} (hw : p.who = some w) (hd : nodeTile p.dst = some t)
include hw hd

section
variable (hs : nodeTile p.src = some v)
include hs

/-- A TFREEZE is answered where the territory is frozen already; otherwise it marks the territory and waits. -/
theorem exec_freezeMark_arriving (hb : p.body = .freezeReq) :
    let u := (s.accepted p).sendAck p
    exec (.freezeMark k) s = .next (if (s.terr! p.terr).frz then u.answerTo t p.terr (w, p.id, v) .done
      else allTiles.foldl (fun s x => s.markClaim x p.terr)
        (u.modTerr p.terr (fun y => { y with mark := true, waiting := y.waiting ++ [(w, p.id, v)] }))) := by
  simp only [exec_freezeMark, execFreezeMark, h.1, hb, hw, hd, hs, State.arrive_next h.2]
  rfl

/-- A TTHAW clears mark and freeze, ends the waiting TFREEZEs and is answered. -/
theorem exec_thawRequest_arriving (hb : p.body = .thawReq) :
    let u := (s.accepted p).sendAck p
    exec (.thawRequest k) s = .next (((u.modTerr p.terr (fun y => { y with mark := false, frz := false, waiting := [] })).endFreezes
      (s.terr! p.terr).waiting).answerTo t p.terr (w, p.id, v) .done) := by
  simp only [exec_thawRequest, execThawRequest, h.1, hb, hw, hd, hs, State.arrive_next h.2]
  rfl

/-! ### Anchors (03 R73, 12 R278) -/

section
variable {lidx : Nat} {on : Bool} (hb : p.body = .anchorReq lidx on)
include hb

/-- A TANCHOR that names a hole is answered with a stale peer. -/
theorem exec_anchorRequest_hole (hm : s.memberAt p.terr lidx = none) :
    exec (.anchorRequest k) s = .next (((s.accepted p).sendAck p).answerTo t p.terr (w, p.id, v) (.fault (stalePeer lidx p.ver))) := by
  have hm' : (s.accepted p).memberAt p.terr lidx = none := hm
  simp only [exec_anchorRequest, execAnchorRequest, h.1, hb, hw, hd, hs, State.arrive_next h.2, hm']

/-- A TANCHOR that names a member is forwarded to it; where it asks for a further anchor it is counted, and refused where 16 are. -/
theorem exec_anchorRequest_member {x : TileId} (hm : s.memberAt p.terr lidx = some x) :
    let u := (s.accepted p).sendAck p
    let counted := on && !s.heldAnchor p.terr x
    exec (.anchorRequest k) s = .next (if counted && decide (16 ≤ s.anchors p.terr + (s.terr! p.terr).anchPending) then
        u.answerTo t p.terr (w, p.id, v) (.fault (cause 0x0B 0xFE 0xFFFFFFFF#64))
      else (if counted then u.modTerr p.terr (fun y => { y with anchPending := y.anchPending + 1 }) else u).send t.val x.val 5 (some w) p.terr
        (.anchorFwd v.val p.id p.ver on counted)) := by
  have hm' : (s.accepted p).memberAt p.terr lidx = some x := hm
  simp only [exec_anchorRequest, execAnchorRequest, h.1, hb, hw, hd, hs, State.arrive_next h.2, hm']
  rfl

end

end

/-- A forwarded TANCHOR at its target: one that is no member, or leaves in this cycle, drops it; another applies it. -/
theorem exec_anchorApply_arriving {home req : Nat} {ver : BitVec 32} {on counted : Bool} (hb : p.body = .anchorFwd home req ver on counted) :
    let u := ((s.accepted p).sendAck p).modTerr p.terr (fun y => { y with anchPending := y.anchPending - (if counted then 1 else 0) })
    let back (s : State) (a : AnswerKind) : State := s.send t.val home 5 (some w) p.terr (.answer req a)
    exec (.anchorApply k) s = .next (if !(s.tiles[t]).isMember p.terr || s.leaving t then back (u.bump t 2) (.fault (stalePeer (s.tiles[t]).lidx ver))
      else back (if on then u.anchorOn t else u.modTile t (fun x => { x with anchT := false })) .done) := by
  simp only [exec_anchorApply, execAnchorApply, h.1, hb, hw, hd, State.arrive_next h.2]
  rfl

end

/-! ### Snapshots (12 R275, R276) -/

theorem exec_shapeSnapshot_shape {d : Reg} {off : Nat} (hb : p.body = .snapReq d (.shape off)) :
    exec (.shapeSnapshot k) s = .next (((s.accepted p).sendAck p).send p.dst p.src 5 p.who p.terr
      (.snapAns p.id (snapWr d (s.shapeWord p.terr)) (s.shapeRecord p.terr) off)) := by
  simp only [exec_shapeSnapshot, execShapeSnapshot, h.1, hb, State.arrive_next h.2]
  rfl

theorem exec_shapeSnapshot_map {d : Reg} {idx : Nat} (hb : p.body = .snapReq d (.map idx)) :
    exec (.shapeSnapshot k) s = .next (((s.accepted p).sendAck p).send p.dst p.src 5 p.who p.terr
      (.snapAns p.id (snapWr d (s.mapWord p.terr idx)) [] 0)) := by
  simp only [exec_shapeSnapshot, execShapeSnapshot, h.1, hb, State.arrive_next h.2]
  rfl

end

/-- Settles O50: one lemma for each message and event of the handler tile, and the cases of its answer. -/
theorem handlerTileServes : Obligations.HandlerTileServes := by
  unfold Obligations.HandlerTileServes
  refine fun s k terr => ⟨fun y => exec_freezeTakesHold_still, fun c id p => Core.answered_park, fun p h =>
    ⟨fun tr t y hb hd hm hi hh ho => exec_upcallArrival_handler h hb hd hm hi hh ho,
      fun w t v hw hd hs => ⟨fun hb => ?_, exec_thawRequest_arriving h hw hd hs,
        fun lidx on hb => ⟨exec_anchorRequest_hole h hw hd hs hb, fun x hm hn => ?_, fun x hm ho hn => ⟨fun hl => ?_, fun hf => ?_⟩⟩⟩,
      fun w t home req ver on counted hw hd hb => ⟨fun hl => ?_, fun hm hl => ⟨fun ho => ?_, fun ho => ?_⟩⟩,
      fun d off hb => exec_shapeSnapshot_shape h hb, fun d idx hb => exec_shapeSnapshot_map h hb⟩⟩
  · have e := exec_freezeMark_arriving h hw hd hs hb
    exact ⟨fun hf => by rw [hf] at e; exact e, fun hf => by rw [hf] at e; exact e⟩
  · have e := exec_anchorRequest_member h hw hd hs hb hm
    have hc : (on && !s.heldAnchor p.terr x) = false := by
      obtain hn | hn := hn
      · rw [hn, Bool.false_and]
      · rw [hn, Bool.not_true, Bool.and_false]
    rw [hc] at e
    exact e
  · have e := exec_anchorRequest_member h hw hd hs hb hm
    subst ho
    rw [hn, decide_eq_false (Nat.not_le.2 hl)] at e
    exact e
  · have e := exec_anchorRequest_member h hw hd hs hb hm
    rw [ho, hn, decide_eq_true hf] at e
    exact e
  · have e := exec_anchorApply_arriving h hw hd hb
    have hc : (!(s.tiles[t]).isMember p.terr || s.leaving t) = true := by
      obtain hl | hl := hl
      · rw [hl, Bool.not_false, Bool.true_or]
      · rw [hl, Bool.or_true]
    rw [hc] at e
    exact e
  · have e := exec_anchorApply_arriving h hw hd hb
    rw [hm, hl, ho] at e
    exact e
  · have e := exec_anchorApply_arriving h hw hd hb
    rw [hm, hl, ho] at e
    exact e

end Sys2Proof.Machine
end

section
/-! PROOFS. The state right after reset (03 R52, R78, 08 R174, 17 R320, 21 R359). -/

namespace Sys2Proof.Machine

open Sys2Proof

/-- Of the positions below a bound that the fuses name, the first 8 are fenced (00 R2, 08 R174). -/
theorem length_filter_fusedOut (n : Nat) :
    ((List.range n).filter fusedOut).length = min ((List.range n).filter Config.fuseFenced).length 8 := by
  induction n with
  | zero => rfl
  | succ n ih =>
    rw [List.range_succ, List.filter_append, List.filter_append, List.length_append, List.length_append, ih]
    cases hf : Config.fuseFenced n with
    | false => simp [fusedOut, hf]
    | true =>
      by_cases h8 : ((List.range n).filter Config.fuseFenced).length < 8
      · simp [fusedOut, hf, h8]
        omega
      · simp [fusedOut, hf, h8]
        omega

theorem State.reset_tile (t : TileId) : State.reset.tiles[t] = { Tile.reset with fenced := fusedOut t.val } := by
  simp [State.reset]

theorem State.reset_core (c : CoreId) : State.reset.cores[c] = Core.reset := by
  simp [State.reset]

theorem Core.reset_s (r : Reg) : Core.reset.s r = 0 := by
  simp [Core.s, Core.reset]

theorem Core.reset_v (r : Reg) : Core.reset.v r = 0 := by
  simp [Core.v, Core.reset]

/-- Settles O60: the lists and settings as State.reset gives them; the fenced tiles by counting; tiles and cores by their reset values. -/
theorem resetState : Obligations.ResetState := by
  unfold Obligations.ResetState
  refine ⟨State.reset_mem, rfl, rfl, rfl, rfl, rfl, rfl, rfl, rfl, rfl, rfl, rfl, fun i => ?_, fun t => ?_, ?_, fun c => ?_⟩
  · simp [State.reset, Dev.reset]
  · rw [State.reset_tile]
    exact ⟨by simp [Tile.isFree, Tile.reset], rfl⟩
  · rw [length_filter_fusedOut]
    exact Nat.min_le_right _ _
  · rw [State.reset_core]
    exact ⟨rfl, Core.reset_s, Core.reset_v⟩

end Sys2Proof.Machine
end

section
/-! PROOFS. Delivery in order: a message that is not the next of its source, destination and class, and what its source does until it is
acknowledged (04 R91, 11 R247). -/

namespace Sys2Proof.Machine

open Sys2Proof

section
variable {s : State} {p : Packet} {act : State → State}

/-- A message's destination keeps a response to it where one of its kept messages goes back and answers it. -/
theorem State.respondsTo_iff : s.respondsTo p = true ↔ ∃ q ∈ s.kept, q.src = p.dst ∧ q.dst = p.src ∧ q.body.answers = some p.id := by
  simp [State.respondsTo, and_assoc]

/-- A duplicate is counted, and acknowledged again where no response does so. -/
theorem State.arrive_duplicate (h : p.seq < lookupSeq s.rxSeq p.key) : s.arrive p act =
    if s.respondsTo p then (s.takePacket p.id).bumpNode p.dst 13 else ((s.takePacket p.id).bumpNode p.dst 13).sendAck p := by
  simp only [State.arrive, if_neg h.ne, if_pos h]

/-- A message before which another is missing is counted and dropped. -/
theorem State.arrive_early (h : lookupSeq s.rxSeq p.key < p.seq) : s.arrive p act = (s.takePacket p.id).bumpNode p.dst 14 := by
  simp only [State.arrive, if_neg h.ne', if_neg h.not_gt]

end

section
variable {s : State} {k : Nat} {p : Packet}

/-- A source whose message has waited 16,384 cycles for its acknowledgement resends. -/
theorem exec_retransmitTimeout_late (hk : s.keptReq k = some p) (ht : p.sent + 16384 ≤ s.now) :
    exec (.retransmitTimeout k) s = .next (s.resend p.key) := by
  simp only [exec_retransmitTimeout, execRetransmitTimeout, hk]
  exact if_pos ht

/-- The source of an acknowledged message forgets its copy, and its core counts it as outstanding no longer (04 R92). -/
def State.acked (s : State) (p : Packet) (k req : Nat) : State :=
  p.who.elim ((s.takePacket k).forget req) (fun w => ((s.takePacket k).forget req).doneOut w req)

section
variable (s : State) (p : Packet) (k req : Nat)

@[simp] theorem State.acked_mem : (s.acked p k req).mem = s.mem := by
  unfold State.acked
  cases p.who <;> simp

@[simp] theorem State.acked_net : (s.acked p k req).net = s.net.eraseP (fun q => q.id == k) := by
  unfold State.acked
  cases p.who
  · rfl
  · exact State.modOwn_net _ _ _

@[simp] theorem State.acked_kept : (s.acked p k req).kept = s.kept.filter (fun q => q.id != req) := by
  unfold State.acked
  cases p.who
  · rfl
  · exact State.modOwn_kept _ _ _

end

/-- An acknowledgement that arrives ends its message at the source; besides, a copy counts its beat, or a ring its write. -/
theorem exec_ackArrival_acked {req : Nat} (hf : s.firstPacket k = some p) (hb : p.body = .ack req) :
    (∃ (t : TileId) (f : Tile → Tile), exec (.ackArrival k) s = .next ((s.acked p k req).modTile t f)) ∨
    (∃ (u : Nat) (f : Slice → Slice), exec (.ackArrival k) s = .next ((s.acked p k req).modSlice u f)) ∨
    exec (.ackArrival k) s = .next (s.acked p k req) := by
  simp only [exec_ackArrival, execAckArrival, hf, hb, State.acked]
  cases hw : p.who <;> cases hd : nodeTile p.dst
  · exact .inr (.inr rfl)
  · exact .inl ⟨_, _, rfl⟩
  · exact .inr (.inl ⟨_, _, rfl⟩)
  · exact .inl ⟨_, _, rfl⟩

end

/-- Settles O43: the three places of a message's number before, at and after the next, the timer of the source, and the acknowledgement. -/
theorem deliveryIsInOrder : Obligations.DeliveryIsInOrder := by
  unfold Obligations.DeliveryIsInOrder
  refine fun s p act k => ⟨State.arrive_next, fun h hn => ?_, fun h hk => ?_, fun _ _ _ _ _ _ => ⟨rfl, rfl, rfl⟩, State.arrive_early,
    exec_retransmitTimeout_late, fun req hf hb => ?_⟩
  · rw [State.arrive_duplicate h, if_neg]
    rw [State.respondsTo_iff]
    rintro ⟨q, hq, hqp⟩
    exact hn q hq hqp
  · rw [State.arrive_duplicate h, if_pos (State.respondsTo_iff.2 hk)]
  · obtain ⟨t, f, e⟩ | ⟨u, f, e⟩ | e := exec_ackArrival_acked hf hb
    · exact ⟨_, e, by simp, by simp, State.acked_kept s p k req⟩
    · exact ⟨_, e, by simp, by simp, State.acked_kept s p k req⟩
    · exact ⟨_, e, by simp, by simp, State.acked_kept s p k req⟩

end Sys2Proof.Machine
end

section
/-! PROOFS. Accesses to the slice's own frame: which of their checks stops them, and what their issue and their bank do (04 R81, R89, R98,
11 R231). -/

namespace Sys2Proof.Machine

open Sys2Proof

/-! ### The checks in their order (04 R81) -/

/-- Only the far opcodes refuse the address of a frame (08 R177). -/
theorem Reach.accepts_local {r : Reach} (hr : r ≠ .far) (off : Nat) : r.accepts (.local' off) = true := by
  cases r with
  | far => exact absurd rfl hr
  | _ => rfl

theorem Reach.accepts_reserved {r : Reach} (hr : r ≠ .far) (off : Nat) : r.accepts (.reserved off) = true := by
  cases r with
  | far => exact absurd rfl hr
  | _ => rfl

/-- Only the near ones refuse that of a peer. -/
theorem Reach.accepts_peer {r : Reach} (hr : r ≠ .near) (lidx fid off : Nat) : r.accepts (.peer lidx fid off) = true := by
  cases r with
  | near => exact absurd rfl hr
  | _ => rfl

section
variable {s : State} {r : Reach} {a : Word} {n al off : Nat} {st : Bool} {t : TrapRec}

/-- An address of no space, or of one that the opcode does not accept. -/
theorem State.checkAccess_space (h : r.accepts (parseAddr a) = false) : s.checkAccess r a n al = some (cause 0x06 a 0) := by
  simp only [State.checkAccess, h, Bool.not_false, if_true]

theorem State.checkAccess_reserved (hr : r ≠ .far) (hp : parseAddr a = .reserved off) : s.checkAccess r a n al = some (cause 0x13 s.pcNow 0) := by
  simp [State.checkAccess, State.privileged, hp, Reach.accepts_reserved hr]

section
variable (hr : r ≠ .far) (hp : parseAddr a = .local' off)
include hr hp

theorem State.checkAccess_misaligned (ha : a.toNat % al ≠ 0) : s.checkAccess r a n al = some (cause 0x05 a (BitVec.ofNat 64 al)) := by
  simp [State.checkAccess, hp, Reach.accepts_local hr, ha]

section
variable (ha : a.toNat % al = 0)
include ha

/-- An aligned access to the frame is checked for its bytes only. -/
theorem State.checkAccess_aligned : s.checkAccess r a n al =
    if s.sl.fid.isNone || decide (s.sl.fsize < off + n) then some (cause 0x06 a 0) else none := by
  simp [State.checkAccess, hp, Reach.accepts_local hr, ha]

theorem State.checkAccess_outside (h : s.sl.fid = none ∨ s.sl.fsize < off + n) : s.checkAccess r a n al = some (cause 0x06 a 0) := by
  rw [State.checkAccess_aligned hr hp ha, if_pos (by simpa using h)]

theorem State.checkAccess_inside (hf : s.sl.fid.isSome = true) (hs : off + n ≤ s.sl.fsize) : s.checkAccess r a n al = none := by
  rw [State.checkAccess_aligned hr hp ha, if_neg]
  rw [Bool.or_eq_true, decide_eq_true_eq, Option.isNone_iff_eq_none, not_or]
  exact ⟨Option.isSome_iff_ne_none.1 hf, hs.not_gt⟩

end

end

/-- An aligned peer address is refused only where it means the own frame of a slice that has none. -/
theorem State.checkAccess_peer {lidx fid : Nat} (hr : r ≠ .near) (hp : parseAddr a = .peer lidx fid off) (ha : a.toNat % al = 0)
    (hf : fid = 255 → s.sl.fid.isSome = true) : s.checkAccess r a n al = none := by
  have hf' : fid = 255 → s.sl.fid ≠ none := fun e => Option.isSome_iff_ne_none.1 (hf e)
  simpa [State.checkAccess, hp, Reach.accepts_peer hr, ha] using hf'

theorem State.checkMem_of_checkAccess (h : s.checkAccess r a n al = some t) : s.checkMem r a n al st = some t := by
  simp only [State.checkMem, h]

/-! ### Range locks (04 R98) -/

/-- The range lock that an access at scratchpad offset `off` of its own tile meets refuses it. -/
theorem State.checkLock_hit {k : Nat} (h : (s.tiles[s.tile]).lockHit off n st = some k) :
    s.checkLock a off n st = some (cause 0x08 a (BitVec.ofNat 64 k)) := by
  simp only [State.checkLock, h]

theorem State.checkMem_locked {k : Nat} (hc : s.checkAccess r a n al = none) (hp : parseAddr a = .local' off)
    (h : (s.tiles[s.tile]).lockHit (s.sl.fbase + off) n st = some k) : s.checkMem r a n al st = some (cause 0x08 a (BitVec.ofNat 64 k)) := by
  simp only [State.checkMem, hc, State.checkLocks, hp, State.checkLock_hit h]

/-- A peer address that names the issuing tile meets its range locks too. -/
theorem State.checkMem_locked_peer {lidx fid q k : Nat} (hc : s.checkAccess r a n al = none) (hp : parseAddr a = .peer lidx fid off)
    (ho : s.ownPeer lidx fid off = some q) (h : (s.tiles[s.tile]).lockHit q n st = some k) :
    s.checkMem r a n al st = some (cause 0x08 a (BitVec.ofNat 64 k)) := by
  simp only [State.checkMem, hc, State.checkLocks, hp, ho, Option.bind_some, State.checkLock_hit h]

/-! ### The shapes of accesses -/

theorem State.withLocal_trap (h : s.checkMem .near a n al st = some t) (k : Nat → State) : s.withLocal a n al st k = .trap t := by
  simp only [State.withLocal, h]

theorem State.withFar_trap (h : s.checkMem .far a n al st = some t) (k : State) : s.withFar a n al st k = .trap t := by
  simp only [State.withFar, h]

/-- An access that finds its frame has its effect on the offset. -/
theorem State.withLocal_inFrame (h : s.InFrame a off n al st) (k : Nat → State) : s.withLocal a n al st k = .ok (k off) := by
  simp only [State.withLocal, State.checkMem_inFrame (r := .near) (by decide) h, h.1]

/-- A store that finds its frame goes to the bank. -/
theorem State.storeAny_inFrame (h : s.InFrame a off n al st) (bs : List Byte) : s.storeAny a bs = s.setAcc (.store [(s.frameKey off, bs)]) := by
  simp only [State.storeAny, h.1]

/-- A core's oldest access under way leaves its list as it reaches its bank. -/
theorem State.performAcc_cons {core : CoreId} {lag : Nat} {x : LocalAcc} {rest : List (Nat × LocalAcc)}
    (h : (s.cores[core]).acc = (lag, x) :: rest) :
    s.performAcc core = (s.modCore core (fun c => { c with acc := rest })).reach core lag x := by
  simp only [State.performAcc, h]

end

/-! ### Loads and stores that a check stops (11 R231, R234, R235) -/

section
variable {s : State} {m : Bool} {d a : Reg} {sz : MemSz} {disp : BitVec 11} {t : TrapRec}

/-- A result of a variable latency collides with nothing that one of a fixed latency does not collide with (02 R39). -/
theorem State.Ready.anyLatency {reads : List RegId} {n : Nat} (h : s.Ready reads (wS d (some n))) : s.Ready reads (wS d none) := by
  refine ⟨h.1, fun w hw => ?_⟩
  unfold wS at hw
  split at hw
  · cases hw
  · next hd =>
    obtain rfl := List.mem_singleton.1 hw
    have hc := h.2 (.scalar d, some n) (by simp [wS, hd])
    simp only [Core.collides, Bool.or_eq_false_iff, and_true] at hc ⊢
    exact hc.1

theorem exec_ld_trap (hr : s.Ready [.scalar a] (wS d (some 5)))
    (h : s.checkMem .near (dispAddr (s.rs a) disp (sizeOf' sz)) (sizeOf' sz) (sizeOf' sz) false = some t) :
    exec (.ld m d a sz disp) s = .next (s.preciseTrap t) := by
  rw [exec_ld]
  exact cWord_trap hr (State.withLocal_trap h _)

theorem exec_st_trap (hr : s.Ready [.scalar a, .scalar d] [])
    (h : s.checkMem .near (dispAddr (s.rs a) disp (sizeOf' sz)) (sizeOf' sz) (sizeOf' sz) true = some t) :
    exec (.st m d a sz disp) s = .next (s.preciseTrap t) := by
  rw [exec_st]
  exact cWord_trap hr (State.withLocal_trap h _)

theorem exec_ldp_trap (hr : s.Ready [.scalar a] (wS d none))
    (h : s.checkMem .far (dispAddr (s.rs a) disp (sizeOf' sz)) (sizeOf' sz) (sizeOf' sz) false = some t) :
    exec (.ldp m d a sz disp) s = .next (s.preciseTrap t) := by
  rw [exec_ldp]
  refine cWord_trap hr ?_
  simp only [State.loadAny, h]

theorem exec_stp_trap (hr : s.Ready [.scalar a, .scalar d] [])
    (h : s.checkMem .far (dispAddr (s.rs a) disp (sizeOf' sz)) (sizeOf' sz) (sizeOf' sz) true = some t) :
    exec (.stp m d a sz disp) s = .next (s.preciseTrap t) := by
  rw [exec_stp]
  exact cWord_trap hr (State.withFar_trap h _)

/-- What 04 R81 refuses stops a load and a store alike. -/
theorem exec_ld_st_trap (hl : s.Ready [.scalar a] (wS d (some 5))) (hs : s.Ready [.scalar a, .scalar d] [])
    (h : s.checkAccess .near (dispAddr (s.rs a) disp (sizeOf' sz)) (sizeOf' sz) (sizeOf' sz) = some t) :
    exec (.ld m d a sz disp) s = .next (s.preciseTrap t) ∧ exec (.st m d a sz disp) s = .next (s.preciseTrap t) :=
  ⟨exec_ld_trap hl (State.checkMem_of_checkAccess h), exec_st_trap hs (State.checkMem_of_checkAccess h)⟩

end

/-- Settles O28: each check by what its address and the frame are, then the words that it stops. -/
theorem accessChecksTrap : Obligations.AccessChecksTrap := by
  unfold Obligations.AccessChecksTrap
  refine fun s m d a sz disp hl hs => ⟨fun h => ?_, fun ⟨o, hp⟩ => ?_, fun off hp ha => ?_, fun off hp ha hout => ?_,
    fun off k hp ha hf hin hk => ?_, fun off k hp ha hf hin hk => ?_, fun lidx fid off q k hp ha hf ho => ⟨fun hk => ?_, fun hk => ?_⟩⟩
  · refine exec_ld_st_trap hl hs (State.checkAccess_space ?_)
    obtain hp | ⟨va, hp⟩ | ⟨l, f, o, hp⟩ := h
    · exact congrArg (Reach.accepts .near) hp
    · exact congrArg (Reach.accepts .near) hp
    · exact congrArg (Reach.accepts .near) hp
  · exact exec_ld_st_trap hl hs (State.checkAccess_reserved (by decide) hp)
  · exact exec_ld_st_trap hl hs (State.checkAccess_misaligned (by decide) hp ha)
  · exact exec_ld_st_trap hl hs (State.checkAccess_outside (by decide) hp ha hout)
  · exact exec_st_trap hs (State.checkMem_locked (State.checkAccess_inside (by decide) hp ha hf hin) hp hk)
  · exact exec_ld_trap hl (State.checkMem_locked (State.checkAccess_inside (by decide) hp ha hf hin) hp hk)
  · exact exec_ldp_trap hl.anyLatency (State.checkMem_locked_peer (State.checkAccess_peer (by decide) hp ha hf) hp ho hk)
  · exact exec_stp_trap hs (State.checkMem_locked_peer (State.checkAccess_peer (by decide) hp ha hf) hp ho hk)

end Sys2Proof.Machine
end

section
/-! PROOFS. Atomics on the slice's own frame (04 R95, 11 R238). -/

namespace Sys2Proof.Machine

open Sys2Proof

/-! ### The values of the operations -/

section
variable {w : Nat} (x y : BitVec w)

/-- A choice by the signed order is the extremum of the Int values. -/
theorem ite_slt_eq_min : (if y.slt x then y else x) = BitVec.ofInt w (min x.toInt y.toInt) := by
  by_cases h : y.toInt < x.toInt
  · rw [if_pos (BitVec.slt_iff_toInt_lt.2 h), min_eq_right h.le, BitVec.ofInt_toInt]
  · rw [if_neg (mt BitVec.slt_iff_toInt_lt.1 h), min_eq_left (not_lt.1 h), BitVec.ofInt_toInt]

theorem ite_slt_eq_max : (if x.slt y then y else x) = BitVec.ofInt w (max x.toInt y.toInt) := by
  by_cases h : x.toInt < y.toInt
  · rw [if_pos (BitVec.slt_iff_toInt_lt.2 h), max_eq_right h.le, BitVec.ofInt_toInt]
  · rw [if_neg (mt BitVec.slt_iff_toInt_lt.1 h), max_eq_left (not_lt.1 h), BitVec.ofInt_toInt]

/-- A choice by the unsigned order is the extremum of the unsigned values. -/
theorem ite_ult_eq_min : (if y.ult x then y else x) = BitVec.ofNat w (min x.toNat y.toNat) := by
  by_cases h : y.toNat < x.toNat
  · rw [if_pos (BitVec.ult_iff_lt.2 h), min_eq_right h.le, BitVec.ofNat_toNat, BitVec.setWidth_eq]
  · rw [if_neg (mt BitVec.ult_iff_lt.1 h), min_eq_left (not_lt.1 h), BitVec.ofNat_toNat, BitVec.setWidth_eq]

theorem ite_ult_eq_max : (if x.ult y then y else x) = BitVec.ofNat w (max x.toNat y.toNat) := by
  by_cases h : x.toNat < y.toNat
  · rw [if_pos (BitVec.ult_iff_lt.2 h), max_eq_right h.le, BitVec.ofNat_toNat, BitVec.setWidth_eq]
  · rw [if_neg (mt BitVec.ult_iff_lt.1 h), max_eq_left (not_lt.1 h), BitVec.ofNat_toNat, BitVec.setWidth_eq]

end

/-- A sum of integers sets no flag. -/
theorem atomNew_add_int {ty : AtomTy} (h : ty ≠ .f32) (old x cmp : BitVec 32) : atomNew .add ty old x cmp = (old + x, 0) := by
  cases ty with
  | f32 => exact absurd rfl h
  | _ => rfl

/-! ### The word and its access -/

theorem exec_atom_inFrame {s : State} {m : Bool} {d a b : Reg} {op : AtomOp} {ty : AtomTy} {off : Nat}
    (hr : s.Ready (atomReads op d a b) (wS d (some 6))) (h : s.InFrame (s.rs a) off 4 4 true) : exec (.atom m d a b op ty) s =
      .next ((s.setAcc (.atom (s.frameKey off) d op ty ((s.rs b).setWidth 32) ((s.rs d).setWidth 32))).after m) := by
  rw [exec_atom]
  exact cWord_ok hr (State.withLocal_inFrame h _)

section
variable {s : State} {core : CoreId} {key lag : Nat} {d : Reg} {op : AtomOp} {ty : AtomTy} {x cmp : BitVec 32} {rest : List (Nat × LocalAcc)}
  (h : (s.cores[core]).acc = (lag, .atom key d op ty x cmp) :: rest)
include h

/-- At the bank an atomic writes its new value, and its old one is in flight to the core with the flags. -/
theorem State.performAcc_atom : let old : BitVec 32 := BitVec.ofNat 32 (leNat (s.bytes key 4))
    let r := atomNew op ty old x cmp
    s.performAcc core = { s.modCore core (fun c => { c with
      acc := rest, flight := c.flight ++ [{ dist := 6 - lag, wr := .scalar d (atomOld ty old), flags := r.2 }] }) with
        mem := writeBytes s.mem key (leBytes 4 r.1.toNat) } := by
  intro old r
  rw [State.performAcc_cons h]
  exact congrArg (fun u : State => { u with mem := writeBytes s.mem key (leBytes 4 r.1.toNat) })
    (s.modCore_modCore core (fun c => { c with acc := rest })
      (fun c => { c with flight := c.flight ++ [{ dist := 6 - lag, wr := .scalar d (atomOld ty old), flags := r.2 }] }))

/-- The only bytes that change are those of the atomic. -/
theorem State.byte_performAcc_atom (a : Nat) : let old : BitVec 32 := BitVec.ofNat 32 (leNat (s.bytes key 4))
    (s.performAcc core).byte a = (s.setBytes key (leBytes 4 (atomNew op ty old x cmp).1.toNat)).byte a := by
  intro old
  rw [State.performAcc_atom h]
  rfl

end

/-- Settles O25: the word by its checks, its access at the bank, and the values operation by operation. -/
theorem localAtomicsAndTheirValues : Obligations.LocalAtomicsAndTheirValues := by
  unfold Obligations.LocalAtomicsAndTheirValues
  refine ⟨fun s m d a b op ty off => exec_atom_inFrame, fun s core key lag d op ty x cmp rest hi h => ?_, fun old x cmp ty =>
    ⟨fun h => atomNew_add_int h old x cmp, rfl, rfl, rfl, rfl, rfl, rfl, congrArg (·, 0) (ite_slt_eq_min old x),
      congrArg (·, 0) (ite_slt_eq_max old x), congrArg (·, 0) (ite_ult_eq_min old x), congrArg (·, 0) (ite_ult_eq_max old x)⟩⟩
  intro t old r
  have hlen : (leBytes 4 r.1.toNat).length = 4 := leBytes_length 4 _
  have hbyte (a : Nat) : t.byte a = (s.setBytes key (leBytes 4 r.1.toNat)).byte a := State.byte_performAcc_atom h a
  refine ⟨?_, fun a ha => ?_, fun i hlt => ?_⟩
  · show s.performAcc core = { s.modCore core _ with mem := (s.performAcc core).mem }
    rw [State.performAcc_atom h]
  · rw [hbyte, State.byte_setBytes_ne hi (by rwa [hlen])]
  · rw [hbyte, State.byte_setBytes hi (by rwa [hlen])]
    exact Option.some.inj ((List.getElem?_eq_getElem _).symm.trans (leBytes_get 4 r.1.toNat i hlt))

end Sys2Proof.Machine
end

section
/-! PROOFS. Releasing stores, acquiring loads and fences (04 R92, R93, R94, 11 R235, R239). -/

namespace Sys2Proof.Machine

open Sys2Proof

section
variable {s : State} {m : Bool} {d a : Reg} {sz : MemSz} {sc : Scope} {disp : BitVec 9} {off : Nat}

/-! ### STL -/

/-- An STL that has nothing to wait for and no refusal to take makes the checks of a plain store, and stores. -/
theorem exec_stl_checked (hf : s.fenced s.cur sc = true) (hn : s.c.stlRefused sc = false) (hr : s.Ready [.scalar a, .scalar d] [])
    (hc : s.checkMem .any (dispAddr (s.rs a) disp (sizeOf' sz)) (sizeOf' sz) (sizeOf' sz) true = none) : exec (.stl m d a sz sc disp) s =
      .next ((s.storeAny (dispAddr (s.rs a) disp (sizeOf' sz)) (storeBytes sz (s.rs d))).after m) := by
  rw [exec_stl, execStl, hf, hn]
  refine (if_pos rfl).trans (cWord_ok hr ?_)
  simp only [hc]

theorem exec_stl_inFrame (hf : s.fenced s.cur sc = true) (hn : s.c.stlRefused sc = false) (hr : s.Ready [.scalar a, .scalar d] [])
    (h : s.InFrame (dispAddr (s.rs a) disp (sizeOf' sz)) off (sizeOf' sz) (sizeOf' sz) true) : exec (.stl m d a sz sc disp) s =
      .next ((s.setAcc (.store [(s.frameKey off, storeBytes sz (s.rs d))])).after m) := by
  rw [exec_stl_checked hf hn hr (State.checkMem_inFrame (by decide) h), State.storeAny_inFrame h]

theorem exec_stl_isFar (hf : s.fenced s.cur sc = true) (hn : s.c.stlRefused sc = false) (hr : s.Ready [.scalar a, .scalar d] [])
    (h : s.IsFar (dispAddr (s.rs a) disp (sizeOf' sz)) (sizeOf' sz) (sizeOf' sz) true) : exec (.stl m d a sz sc disp) s =
      .next ((s.farAccess (dispAddr (s.rs a) disp (sizeOf' sz)) false none
        (fun p => .store p (dispAddr (s.rs a) disp (sizeOf' sz)) (storeBytes sz (s.rs d)))).after m) := by
  rw [exec_stl_checked hf hn hr (State.checkMem_far (by decide) h), State.storeAny_isFar h]

/-- One that has something to wait for, or a refusal to take, parks and has not issued. -/
theorem exec_stl_waits (h : s.fenced s.cur sc = false ∨ s.c.stlRefused sc = true) :
    exec (.stl m d a sz sc disp) s = .next (s.waitFirst (.storeRelease sc)) := by
  have hc : ¬(s.fenced s.cur sc && !s.c.stlRefused sc) = true := by
    obtain h | h := h <;> simp [h]
  rw [exec_stl, execStl, if_neg hc]

/-! ### LDA and the fences -/

/-- An acquiring load of the frame marks its destination and goes to the bank; its bundle carries the switch marker. -/
theorem exec_lda_inFrame (hr : s.Ready [.scalar a] (wS d none))
    (h : s.InFrame (dispAddr (s.rs a) disp (sizeOf' sz)) off (sizeOf' sz) (sizeOf' sz) false) : exec (.lda m d a sz sc disp) s =
      .next ((({ s.pendOn s.dev.nextReq (dstS d) with dev := { s.dev with nextReq := s.dev.nextReq + 1 } } : State).setAcc
        (.loadPend (s.frameKey off) d sz s.dev.nextReq)).after true) := by
  rw [exec_lda]
  refine cWord_ok hr ?_
  simp only [State.loadAny, State.checkMem_inFrame (r := .any) (by decide) h, h.1]

theorem fenceRes_eq (sc : Scope) (s : State) : fenceRes sc s = .ok (if sc = .c then s else s.parkOn (.fence sc)) :=
  (apply_ite Res.ok _ _ _).symm

/-- Both fences do the same: one core moves per step, which gives the one order of 04 R94. -/
theorem exec_fences (m : Bool) (sc : Scope) (s : State) :
    exec (.fence m sc) s = .next ((if sc = .c then s else s.parkOn (.fence sc)).after m) ∧
    exec (.fencesc m sc) s = .next ((if sc = .c then s else s.parkOn (.fence sc)).after m) := by
  rw [exec_fence, exec_fencesc]
  exact ⟨cWord_ok s.ready_nil (fenceRes_eq sc s), cWord_ok s.ready_nil (fenceRes_eq sc s)⟩

end

/-- A core's accesses are complete at scope c at once, at scope t once its own tile has performed its requests, and above once every one is
acknowledged. -/
theorem State.fenced_iff (s : State) (core : CoreId) (sc : Scope) :
    s.fenced core sc = true ↔ sc = .c ∨ (s.selfPending core = false ∧ (sc = .t ∨ (s.cores[core]).outst = [])) := by
  simp [State.fenced]

/-- An acquiring load's value is delivered as it reaches the bank. -/
theorem State.performAcc_loadPend {s : State} {core : CoreId} {d : Reg} {sz : MemSz} {key id lag : Nat} {rest : List (Nat × LocalAcc)}
    (h : (s.cores[core]).acc = (lag, .loadPend key d sz id) :: rest) : s.performAcc core =
      s.modCore core (fun c => ({ c with acc := rest }).deliver id (.scalar d (loadVal sz (s.bytes key (sizeOf' sz)))) 0) := by
  rw [State.performAcc_cons h]
  exact s.modCore_modCore core _ _

/-- Settles O27: STL by whether it waits, LDA and the fences by what they issue, and what complete means at each scope. -/
theorem acquireReleaseAndFences : Obligations.AcquireReleaseAndFences := by
  unfold Obligations.AcquireReleaseAndFences
  exact ⟨fun s m d a sz sc disp off => ⟨fun hf hn hr => ⟨exec_stl_inFrame hf hn hr, exec_stl_isFar hf hn hr⟩,
      fun h => ⟨_, exec_stl_waits h, rfl⟩, exec_lda_inFrame, (exec_fences m sc s).1, (exec_fences m sc s).2⟩,
    fun s core sc d sz key id lag rest => ⟨s.fenced_iff core sc, State.performAcc_loadPend⟩⟩

end Sys2Proof.Machine
end

section
/-! PROOFS. Barrier words and VOTE (04 R99 to R101, 11 R240 to R243, 14 R285). -/

namespace Sys2Proof.Machine

open Sys2Proof

/-! ### Where a barrier may be configured (04 R99) -/

/-- The configuration `b` of barrier `id` fits the issuing tile: its rectangle holds the tile, is of members only, and no core of the tile
stands in the barrier. -/
def State.barFits (s : State) (id : Bar) (b : BarCfg) : Prop :=
  (b.x0 ≤ tileX s.tile ∧ tileX s.tile ≤ b.x1 ∧ b.y0 ≤ tileY s.tile ∧ tileY s.tile ≤ b.y1) ∧
    (∀ x y, b.x0 ≤ x → x ≤ b.x1 → b.y0 ≤ y → y ≤ b.y1 → ∃ t, tileXY x y = some t ∧ (s.tiles[t]).isMember s.sl.terr = true) ∧
    ∀ k : Fin 4, (s.cores[coreOf s.tile k]).inBar id = false

/-- A place of a rectangle that is no member of a territory. -/
def State.noMember (s : State) (terr : Nat) : Option TileId → Bool
  | some t => !(s.tiles[t]).isMember terr
  | none => true

/-- What BARCFG refuses. -/
def State.barRefused (s : State) (id : Bar) (b : BarCfg) : Bool :=
  !b.contains s.tile || decide (b.x1 < b.x0) || decide (b.y1 < b.y0) || b.tiles.any (s.noMember s.sl.terr) ||
    (coresOf s.tile).any (fun c => (s.cores[c]).inBar id)

theorem BarCfg.contains_iff (b : BarCfg) (t : TileId) :
    b.contains t = true ↔ b.x0 ≤ tileX t ∧ tileX t ≤ b.x1 ∧ b.y0 ≤ tileY t ∧ tileY t ≤ b.y1 := by
  simp [BarCfg.contains, and_assoc]

theorem BarCfg.mem_tiles {b : BarCfg} {o : Option TileId} :
    o ∈ b.tiles ↔ ∃ x y, b.x0 ≤ x ∧ x ≤ b.x1 ∧ b.y0 ≤ y ∧ y ≤ b.y1 ∧ tileXY x y = o := by
  simp only [BarCfg.tiles, List.mem_flatMap, List.mem_map, List.mem_range]
  constructor
  · rintro ⟨i, hi, j, hj, rfl⟩
    exact ⟨b.x0 + i, b.y0 + j, by omega, by omega, by omega, by omega, rfl⟩
  · rintro ⟨x, y, hx0, hx1, hy0, hy1, rfl⟩
    refine ⟨x - b.x0, by omega, y - b.y0, by omega, ?_⟩
    rw [Nat.add_sub_cancel' hx0, Nat.add_sub_cancel' hy0]

theorem State.noMember_eq_false {s : State} {terr : Nat} {o : Option TileId} :
    s.noMember terr o = false ↔ ∃ t, o = some t ∧ (s.tiles[t]).isMember terr = true := by
  cases o <;> simp [State.noMember]

theorem State.tiles_any_noMember {s : State} {terr : Nat} {b : BarCfg} : b.tiles.any (s.noMember terr) = false ↔
    ∀ x y, b.x0 ≤ x → x ≤ b.x1 → b.y0 ≤ y → y ≤ b.y1 → ∃ t, tileXY x y = some t ∧ (s.tiles[t]).isMember terr = true := by
  simp only [List.any_eq_false, Bool.not_eq_true, State.noMember_eq_false, BarCfg.mem_tiles]
  constructor
  · exact fun h x y hx0 hx1 hy0 hy1 => h _ ⟨x, y, hx0, hx1, hy0, hy1, rfl⟩
  · rintro h _ ⟨x, y, hx0, hx1, hy0, hy1, rfl⟩
    exact h x y hx0 hx1 hy0 hy1

theorem State.coresOf_any_inBar {s : State} {t : TileId} {id : Bar} :
    (coresOf t).any (fun c => (s.cores[c]).inBar id) = false ↔ ∀ k : Fin 4, (s.cores[coreOf t k]).inBar id = false := by
  simp [coresOf]

/-- BARCFG accepts exactly the configurations that fit: a rectangle that holds the tile is not empty. -/
theorem State.barRefused_eq_false {s : State} {id : Bar} {b : BarCfg} : s.barRefused id b = false ↔ s.barFits id b := by
  simp only [State.barRefused, State.barFits, Bool.or_eq_false_iff, Bool.not_eq_false', BarCfg.contains_iff, decide_eq_false_iff_not,
    State.tiles_any_noMember, State.coresOf_any_inBar]
  constructor
  · exact fun ⟨⟨⟨⟨hc, _⟩, _⟩, hm⟩, hb⟩ => ⟨hc, hm, hb⟩
  · exact fun ⟨hc, hm, hb⟩ => ⟨⟨⟨⟨hc, by omega⟩, by omega⟩, hm⟩, hb⟩

/-! ### BARCFG -/

/-- The issuing tile's barrier newly configured. -/
def State.barSet (s : State) (id : Bar) (b : BarCfg) : State := s.modBar s.tile id (fun old => old.configure b)

section
variable {s : State} {m : Bool} {id : Bar} {x0 x1 : BitVec 5} {y0 y1 : BitVec 4} {cnt : BitVec 2} {b : BarCfg}

theorem exec_barcfg_eq (hb : b = { x0 := x0.toNat, y0 := y0.toNat, x1 := x1.toNat, y1 := y1.toNat, count := cnt.toNat + 1 }) :
    exec (.barcfg m id x0 y0 x1 y1 cnt) s = cWord m [] [] (fun s => if s.barRefused id b then .trap (barFault id.val)
      else .ok (if ((s.tiles[s.tile]).bars[id]).mismatch b then (s.barSet id b).barFail s.tile s.sl.terr id none else s.barSet id b)) s := by
  subst hb
  rfl

theorem exec_barcfg_fits (hb : b = { x0 := x0.toNat, y0 := y0.toNat, x1 := x1.toNat, y1 := y1.toNat, count := cnt.toNat + 1 })
    (h : s.barFits id b) : exec (.barcfg m id x0 y0 x1 y1 cnt) s = .next ((if ((s.tiles[s.tile]).bars[id]).mismatch b
      then (s.barSet id b).barFail s.tile s.sl.terr id none else s.barSet id b).after m) := by
  rw [exec_barcfg_eq hb]
  refine cWord_ok s.ready_nil (if_neg ?_)
  rw [State.barRefused_eq_false.2 h]
  decide

theorem exec_barcfg_refused (hb : b = { x0 := x0.toNat, y0 := y0.toNat, x1 := x1.toNat, y1 := y1.toNat, count := cnt.toNat + 1 })
    (h : ¬s.barFits id b) : exec (.barcfg m id x0 y0 x1 y1 cnt) s = .next (s.preciseTrap (barFault id.val)) := by
  rw [exec_barcfg_eq hb]
  refine cWord_trap s.ready_nil (if_pos ?_)
  rwa [← Bool.not_eq_false, State.barRefused_eq_false]

end

/-! ### BAR and BARQ -/

/-- BAR refuses an id that is not configured, or whose barrier is no longer valid. -/
theorem Barrier.unset_iff (b : Barrier) : (b.cfg.isNone || !b.valid) = true ↔ b.cfg = none ∨ b.valid = false := by
  simp

section
variable {s : State} {m : Bool} {d : Reg} {id : Bar}

theorem exec_bar_valid (hc : ((s.tiles[s.tile]).bars[id]).cfg.isSome = true) (hv : ((s.tiles[s.tile]).bars[id]).valid = true) :
    exec (.bar m id) s = .next ((s.parkOn (.barFence id)).after m) := by
  rw [exec_bar]
  refine cWord_ok s.ready_nil (if_neg ?_)
  rw [Barrier.unset_iff, not_or]
  exact ⟨Option.isSome_iff_ne_none.1 hc, Bool.not_eq_false _ ▸ hv⟩

theorem exec_bar_invalid (h : ((s.tiles[s.tile]).bars[id]).cfg = none ∨ ((s.tiles[s.tile]).bars[id]).valid = false) :
    exec (.bar m id) s = .next (s.preciseTrap (barFault id.val)) := by
  rw [exec_bar]
  exact cWord_trap s.ready_nil (if_pos ((Barrier.unset_iff _).2 h))

/-- What BARQ reads: configured and valid, the arrivals up to the count, and the phase. -/
theorem barqVal_eq (b : Barrier) : barqVal b = BitVec.ofNat 64
    ((if b.cfg.isSome && b.valid then 16 else 0) + (b.cfg.elim 0 (fun c => min b.arr c.count)) * 2 + if b.phase then 1 else 0) := by
  unfold barqVal
  cases b.cfg <;> rfl

theorem exec_barq_ready (h : s.Ready [] (wS d (some 1))) :
    exec (.barq m d id) s = .next ((s.landAt (.scalar d (barqVal ((s.tiles[s.tile]).bars[id]))) 1 0).after m) := by
  rw [exec_barq]
  exact cResult_ready h

end

/-! ### VOTE -/

section
variable (s : State)

@[simp] theorem State.noReplay_net : s.noReplay.net = s.net := by
  unfold State.noReplay
  split <;> rfl

@[simp] theorem State.noReplay_dev : s.noReplay.dev = s.dev := by
  unfold State.noReplay
  split <;> rfl

@[simp] theorem State.noReplay_tiles : s.noReplay.tiles = s.tiles := by
  unfold State.noReplay
  split <;> rfl

@[simp] theorem State.noReplay_c : s.noReplay.c = s.c := by
  unfold State.noReplay
  split <;> rfl

end

/-- A VOTE of the issuing tile noted there, and in its territory where it is the first of its vote. -/
def State.voteNoted (s : State) (op : VoteOp) : State :=
  let no := (s.tiles[s.tile]).voteNo
  (s.modTile s.tile (fun x => { x with votes := x.votes ++ [(no, s.dev.nextReq, s.me)], voteNo := no + 1 })).modTerr s.sl.terr (fun y =>
    if y.nextVote ≤ no then { y with nextVote := no + 1, votes := y.votes ++
      [{ no := no, op := none, x := if op = .and then BitVec.allOnes 64 else 0, todo := s.members s.sl.terr, voters := [], bad := false }] }
    else y)

/-- The state in which a VOTE sends its message: its result is pending, and its slice is not replayed any more (16 R317). -/
def State.voting (s : State) (d : Reg) (op : VoteOp) : State := ((s.voteNoted op).pendOn s.dev.nextReq (dstS d)).noReplay

section
variable (s : State) (d : Reg) (op : VoteOp)

@[simp] theorem State.voting_net : (s.voting d op).net = s.net := State.noReplay_net _

@[simp] theorem State.voting_mem : (s.voting d op).mem = s.mem := by
  simp [State.voting, State.voteNoted]

@[simp] theorem State.voting_dev : (s.voting d op).dev = s.dev := State.noReplay_dev _

theorem State.voting_c : (s.voting d op).c = { s.c with pend := s.c.pend ++ [{ id := s.dev.nextReq, reg := dstS d, got := none }] } :=
  (State.noReplay_c _).trans (State.pendOn_c (s.voteNoted op) _ _)

/-- The tile counts the vote, and keeps it until it is answered. -/
theorem State.voting_tile : (s.voting d op).tiles[s.tile] = { s.tiles[s.tile] with
    votes := (s.tiles[s.tile]).votes ++ [((s.tiles[s.tile]).voteNo, s.dev.nextReq, s.me)], voteNo := (s.tiles[s.tile]).voteNo + 1 } := by
  rw [State.voting, State.noReplay_tiles]
  exact State.modTile_self _ _ _

end

section
variable {s : State} {m : Bool} {d a : Reg} {op : VoteOp} (hr : s.Ready [.scalar a] (wS d none))
include hr

/-- With four votes of the tile in flight the core freezes. -/
theorem exec_vote_full (h : 4 ≤ (s.tiles[s.tile]).votes.length) : exec (.vote m d a op) s = .next (s.frozenBy (.votes 1)) := by
  rw [exec_vote]
  exact cWord_freeze hr (if_pos h)

/-- Otherwise it sends its operand to the handler tile. -/
theorem exec_vote_sends (h : (s.tiles[s.tile]).votes.length < 4) : exec (.vote m d a op) s =
    .next (((s.voting d op).send s.tile.val (s.terr! s.sl.terr).handler.val 5 (some s.me) s.sl.terr
      (.vote (s.tiles[s.tile]).voteNo op (s.rs a) d)).after m) := by
  rw [exec_vote]
  exact cWord_ok hr (if_neg h.not_ge)

end

/-- Settles O29: BARCFG by whether the configuration fits and whether a mismatch is met, BAR by the state of its id, VOTE by the votes in
flight. -/
theorem barriersAndVotes : Obligations.BarriersAndVotes := by
  unfold Obligations.BarriersAndVotes
  intro s m d a id x0 x1 y0 y1 cnt op b cfg fault fits come set met
  refine ⟨fun hf hm => ?_, fun hf hm => ?_, exec_barcfg_refused rfl, exec_bar_valid, exec_bar_invalid, fun hr => ?_, fun hr =>
    ⟨exec_vote_full hr, fun hl => ?_⟩⟩
  · exact (exec_barcfg_fits rfl hf).trans (congrArg (fun u : State => Host.Outcome.next (u.after m)) (if_neg (Bool.eq_false_iff.1 hm)))
  · exact (exec_barcfg_fits rfl hf).trans (congrArg (fun u : State => Host.Outcome.next (u.after m)) (if_pos hm))
  · rw [exec_barq_ready hr, barqVal_eq]
  · have hid : (s.voting d op).dev.nextReq = s.dev.nextReq := congrArg Dev.nextReq (s.voting_dev d op)
    refine ⟨_, (s.voting d op).packet s.tile.val (s.terr! s.sl.terr).handler.val 5 (some s.me) s.sl.terr
        (.vote (s.tiles[s.tile]).voteNo op (s.rs a) d), exec_vote_sends hr hl, (State.send_mem ..).trans (s.voting_mem d op), ?_,
      rfl, rfl, rfl, rfl, ?_, ?_, ?_, ?_⟩
    · rw [State.send_net, State.voting_net]
    · rw [State.send_tiles, State.voting_tile]
      exact congrArg (fun n => (s.tiles[s.tile]).votes ++ [((s.tiles[s.tile]).voteNo, n, s.me)]) hid.symm
    · rw [State.send_tiles, State.voting_tile]
    · show (s.voting d op).c.pend = _
      rw [State.voting_c]
      exact congrArg (fun n => s.c.pend ++ [{ id := n, reg := dstS d, got := none }]) hid.symm
    · show (s.voting d op).c.sreg = _
      rw [State.voting_c]

end Sys2Proof.Machine
end

section
/-! PROOFS. Requests at their home, and the answers that come back (04 R84 to R87, 11 R246, R247, 12 R265, R270, R275, R278). -/

namespace Sys2Proof.Machine

open Sys2Proof

/-! ### What a request finds (04 R84 to R87) -/

section
variable {s : State} {t : TileId} {terr lidx fid off n : Nat} {ver : BitVec 32} {a : Word}

/-- A target that has gone is a stale peer. -/
theorem State.findPeer_gone (h : s.isHere t terr lidx ver = false) :
    s.findPeer t terr lidx fid off n ver a = .refused (stalePeer lidx ver) := by
  simp only [State.findPeer, h, Bool.not_false, if_true]

section
variable (h : s.isHere t terr lidx ver = true)
include h

theorem State.findPeer_stale (hf : s.liveFrame t terr fid = none) : s.findPeer t terr lidx fid off n ver a = .refused (cause 0x09 a 0) := by
  simp [State.findPeer, h, hf]

section
variable {x : Slice} (hf : s.liveFrame t terr fid = some x)
include hf

theorem State.findPeer_small (hs : x.fsize < off + n) : s.findPeer t terr lidx fid off n ver a = .refused (cause 0x06 a 0) := by
  simp [State.findPeer, h, hf, hs]

theorem State.findPeer_at (hs : off + n ≤ x.fsize) : s.findPeer t terr lidx fid off n ver a = .at' (scratchKey t (x.fbase + off)) := by
  simp [State.findPeer, h, hf, hs.not_gt]

end

end

end

section
variable {s : State} {terr va : Nat} {wr : Bool}

theorem State.findHbm_error {i1 : Word} (h : s.translate terr va wr = .error i1) : s.findHbm terr va wr = .refused (transFault va i1) := by
  simp only [State.findHbm, h]

theorem State.findHbm_ok {pa : Nat} (h : s.translate terr va wr = .ok pa) : s.findHbm terr va wr = .at' (hbmKey pa) := by
  simp only [State.findHbm, h]

end

/-! ### Requests that arrive -/

section
variable {s : State} {k : Nat} {p : Packet} (h : s.Arriving k p)
include h

/-! #### At a peer tile -/

section
variable {tile : TileId} {u : TileId} {lidx fid off n : Nat} {a : Word} {wr : Bool} (hd : nodeTile p.dst = some tile)
  (hq : requestOf p.body = some (.peer u lidx fid off, a, n, wr))
include hd hq

/-- A request that finds nothing is counted at its target, and refused. -/
theorem exec_peerRequestArrival_refused {tr : TrapRec} {i : Fin 16} (hi : refusalCounter tr = i)
    (hf : (s.accepted p).findPeer tile p.terr lidx fid off n p.issued a = .refused tr) : exec (.peerRequestArrival k) s =
      .next (((s.accepted p).bump tile i).answer p (.refuse p.id tr (ownPark p.body tr))) := by
  simp only [exec_peerRequestArrival, execPeerRequestArrival, h.1, hd, hq, State.arrive_next h.2, hf, hi]
  rfl

theorem exec_peerRequestArrival_found {key : Nat} (hf : (s.accepted p).findPeer tile p.terr lidx fid off n p.issued a = .at' key) :
    exec (.peerRequestArrival k) s = .next ((s.accepted p).perform p (.at' key) id) := by
  simp only [exec_peerRequestArrival, execPeerRequestArrival, h.1, hd, hq, State.arrive_next h.2, hf]

end

/-! #### At an HBM home -/

/-- A request for an HBM address is performed where its page is mapped, and refused otherwise. -/
theorem exec_hbmAccess_request {va n : Nat} {a : Word} {wr : Bool} (hq : requestOf p.body = some (.hbm va, a, n, wr)) :
    exec (.hbmAccess k) s =
      .next ((s.accepted p).perform p ((s.accepted p).findHbm p.terr va wr) (fun s => s.markDirty p.terr va)) := by
  rw [exec_hbmAccess, execHbmAccess, h.1]
  dsimp only
  split <;> rename_i hb
  · rw [hb] at hq; cases hq
  · rw [hb] at hq; cases hq
  · rw [hb] at hq; cases hq
  · rw [hb] at hq; cases hq
  · rw [hb] at hq; cases hq
  · simp only [hq, State.arrive_next h.2]

/-- A piece that a ring's controller reads or writes is performed at its home. -/
theorem exec_hbmAccess_rowRead {sl ring va n : Nat} (hb : p.body = .rowRead sl ring va n) :
    exec (.hbmAccess k) s = .next ((s.accepted p).performRow p) := by
  simp only [exec_hbmAccess, execHbmAccess, h.1, hb, State.arrive_next h.2]

theorem exec_hbmAccess_rowWrite {sl ring va : Nat} {bs : List Byte} (hb : p.body = .rowWrite sl ring va bs) :
    exec (.hbmAccess k) s = .next ((s.accepted p).performRow p) := by
  simp only [exec_hbmAccess, execHbmAccess, h.1, hb, State.arrive_next h.2]

end

section
variable {s : State} {p : Packet} {sl ring va : Nat}

section
variable {n : Nat} (hb : p.body = .rowRead sl ring va n)
include hb

theorem State.performRow_read_error {i1 : Word} (e : s.translate p.terr va false = .error i1) :
    s.performRow p = s.answer p (.rowBad sl ring p.id (transFault va i1)) := by
  simp only [State.performRow, hb, State.findHbm_error e]

theorem State.performRow_read_ok {pa : Nat} (e : s.translate p.terr va false = .ok pa) :
    s.performRow p = s.answer p (.rowData sl ring p.id (s.bytes (hbmKey pa) n)) := by
  simp only [State.performRow, hb, State.findHbm_ok e]

end

section
variable {bs : List Byte} (hb : p.body = .rowWrite sl ring va bs)
include hb

theorem State.performRow_write_error {i1 : Word} (e : s.translate p.terr va true = .error i1) :
    s.performRow p = s.answer p (.rowBad sl ring p.id (transFault va i1)) := by
  simp only [State.performRow, hb, State.findHbm_error e]

theorem State.performRow_write_ok {pa : Nat} (e : s.translate p.terr va true = .ok pa) :
    s.performRow p = ((s.setBytes (hbmKey pa) bs).markDirty p.terr va).sendAck p := by
  simp only [State.performRow, hb, State.findHbm_ok e]

end

end

/-! ### Answers that arrive -/

section
variable {s : State} {k : Nat} {p : Packet} (h : s.Arriving k p)
include h

/-! #### At a ring's controller (06 R139) -/

theorem exec_hbmAccess_fetched {sl ring j : Nat} {bs : List Byte} (hb : p.body = .fetched sl ring j bs) :
    exec (.hbmAccess k) s = .next (((s.accepted p).sendAck p).slotBack sl ring j bs) := by
  simp only [exec_hbmAccess, execHbmAccess, h.1, hb, State.arrive_next h.2]

theorem exec_hbmAccess_rowData {sl ring req : Nat} {bs : List Byte} (hb : p.body = .rowData sl ring req bs) :
    exec (.hbmAccess k) s = .next ((((s.accepted p).sendAck p).forget req).modSub sl ring (fun b => b.fill req bs)) := by
  simp only [exec_hbmAccess, execHbmAccess, h.1, hb, State.arrive_next h.2]

theorem exec_hbmAccess_rowBad {sl ring req : Nat} {tr : TrapRec} (hb : p.body = .rowBad sl ring req tr) :
    exec (.hbmAccess k) s = .next ((((s.accepted p).sendAck p).forget req).modSub sl ring (fun b => b.drop req tr)) := by
  simp only [exec_hbmAccess, execHbmAccess, h.1, hb, State.arrive_next h.2]

/-! #### At the stream of the core `w` -/

section
variable {w : Who} {req : Nat} (hw : p.who = some w)
include hw

/-- The source's request is answered: its copy is forgotten, and it is outstanding at its core no longer. -/
theorem exec_variableLatencyResponse_arriving {wr : Wr} {fl : BitVec 6} (hb : p.body = .reply req wr fl) :
    exec (.variableLatencyResponse k) s = .next ((((((s.accepted p).sendAck p).forget req).doneOut w req).dropVote p.dst req).modOwn w
      (fun c => c.deliver req wr fl)) := by
  simp only [exec_variableLatencyResponse, execVariableLatencyResponse, h.1, hb, hw, State.arrive_next h.2]

section
variable {tr : TrapRec} {own : Bool} (hb : p.body = .refuse req tr own) (hc : isCopyReq (s.keptReq req) = false)
include hb hc

/-- A refusal waits for a park of the stream that issued the request. -/
theorem exec_refusalArrival_word (hl : isLoadReq (s.keptReq req) = false) : exec (.refusalArrival k) s =
    .next ((((((s.accepted p).sendAck p).forget req).doneOut w req).dropVote p.dst req).modOwn w (fun c => c.refuse req tr own)) := by
  simp [execRefusalArrival, h.1, hb, hw, hc, hl, State.arrive_next h.2]

/-- That of an MLW's piece stays with the command (12 R270). -/
theorem exec_refusalArrival_load (hl : isLoadReq (s.keptReq req) = true) : exec (.refusalArrival k) s =
    .next ((((s.accepted p).sendAck p).forget req).modOwn w (fun c => c.refuseLoad req tr)) := by
  simp [execRefusalArrival, h.1, hb, hw, hc, hl, State.arrive_next h.2]

end

theorem exec_refusalArrival_chain {tr : TrapRec} (hb : p.body = .chainFault req tr) : exec (.refusalArrival k) s =
    .next (((s.accepted p).sendAck p).modOwn w (fun c => c.refuse req tr false)) := by
  simp only [exec_refusalArrival, execRefusalArrival, h.1, hb, hw, State.arrive_next h.2]

/-- The data of a copy's beat or of an MLW's piece comes back to both: only the one that asked has the request's number. -/
theorem makeMove_data {bs : List Byte} (hb : p.body = .data req bs) : s.makeMove (.message k) = .next
    ((match nodeTile p.dst with
      | some tile => (((s.accepted p).sendAck p).forget req).modTile tile (fun x => { x with copyQ := fillCopies x.copyQ req bs })
      | none => ((s.accepted p).sendAck p).forget req).modOwn w (fun c => c.modLoads (fun segs bad => (fillSegs segs req bs, bad)))) := by
  cases hd : nodeTile p.dst with
  | none => simp only [State.makeMove, State.takeMessage, h.1, hb, State.arrive_next h.2, State.dataBack, hw, hd]
  | some tile => simp only [State.makeMove, State.takeMessage, h.1, hb, State.arrive_next h.2, State.dataBack, hw, hd]

/-- The handler tile's answers: done, a fault, or a snapshot (12 R275, R278). -/
theorem exec_handlerTileAnswer_arriving {tile : TileId} (hd : nodeTile p.dst = some tile) :
    (p.body = .answer req .done → exec (.handlerTileAnswer k) s = .next (((s.accepted p).sendAck p).modOwn w (fun c => c.answered req))) ∧
    (∀ tr, p.body = .answer req (.fault tr) →
      exec (.handlerTileAnswer k) s = .next (((s.accepted p).sendAck p).modOwn w (fun c => c.refuse req tr false))) ∧
    (∀ wr rec off, p.body = .snapAns req wr rec off →
      exec (.handlerTileAnswer k) s = .next (((s.accepted p).sendAck p).snapBack tile w req wr rec off)) := by
  refine ⟨fun hb => ?_, fun tr hb => ?_, fun wr rec off hb => ?_⟩
  · simp only [exec_handlerTileAnswer, execHandlerTileAnswer, h.1, hb, hw, hd, State.arrive_next h.2]
  · simp only [exec_handlerTileAnswer, execHandlerTileAnswer, h.1, hb, hw, hd, State.arrive_next h.2]
  · simp only [exec_handlerTileAnswer, execHandlerTileAnswer, h.1, hb, hw, hd, State.arrive_next h.2]

end

end

/-- Settles O44: what a request finds and what is then done with it, and one lemma for each answer. -/
theorem requestsArePerformedAndAnswered : Obligations.RequestsArePerformedAndAnswered := by
  unfold Obligations.RequestsArePerformedAndAnswered
  refine ⟨fun s k p h => ⟨
      fun tile u lidx fid off a n wr hd hq => ⟨fun hg => ?_, fun hh => ⟨fun hf => ?_, fun x hx => ⟨fun hs => ?_, fun hs => ?_⟩⟩⟩,
      fun va a n wr hq => ⟨fun i1 e => ?_, fun pa e => ?_⟩, fun sl ring va n hb => ⟨fun i1 e => ?_, fun pa e => ?_⟩,
      fun sl ring va bs hb => ⟨fun i1 e => ?_, fun pa e => ?_⟩,
      fun sl ring j bs => exec_hbmAccess_fetched h, fun sl ring req bs => exec_hbmAccess_rowData h,
      fun sl ring req tr => exec_hbmAccess_rowBad h⟩,
    fun s k p w req h hw => ⟨fun wr fl => exec_variableLatencyResponse_arriving h hw,
      fun tr own hb hc => ⟨exec_refusalArrival_word h hw hb hc, exec_refusalArrival_load h hw hb hc⟩, fun bs hb => makeMove_data h hw hb,
      fun tr => exec_refusalArrival_chain h hw, fun tile => exec_handlerTileAnswer_arriving h hw⟩⟩
  · exact exec_peerRequestArrival_refused h hd hq rfl (State.findPeer_gone hg)
  · exact exec_peerRequestArrival_refused h hd hq rfl (State.findPeer_stale hh hf)
  · exact exec_peerRequestArrival_refused h hd hq rfl (State.findPeer_small hh hx hs)
  · exact exec_peerRequestArrival_found h hd hq (State.findPeer_at hh hx hs)
  · rw [exec_hbmAccess_request h hq, State.findHbm_error e]
    rfl
  · rw [exec_hbmAccess_request h hq, State.findHbm_ok e]
    rfl
  · rw [exec_hbmAccess_rowRead h hb, State.performRow_read_error hb e]
  · rw [exec_hbmAccess_rowRead h hb, State.performRow_read_ok hb e]
  · rw [exec_hbmAccess_rowWrite h hb, State.performRow_write_error hb e]
  · rw [exec_hbmAccess_rowWrite h hb, State.performRow_write_ok hb e]

end Sys2Proof.Machine
end

section
/-! PROOFS. Ring words: RSUB, RGET, RREL, RPUT, RWAIT (06 R135 to R138, 11 R244, R245). -/

namespace Sys2Proof.Machine

open Sys2Proof

/-! ### What a ring answers to a word that names it (06 R136) -/

section
variable {s : State} {k : Nat} {r : RingSt}

theorem State.ringReady_undeclared (h : s.sl.rings[k]? = none) : s.ringReady k = .error (ringState k) := by
  simp only [State.ringReady, State.ringNamed, h]

theorem State.ringReady_unsubscribed (h : s.ringNamed k = .ok r) (hd : r.dir = none) : s.ringReady k = .error (ringState k) := by
  simp only [State.ringReady, h, hd, Option.isNone_none, if_true]

end

/-- The Orrery works the ring, or the core holds too many of its slots or too few: the ring's state refuses the word. -/
theorem RingSt.busy_iff {r : RingSt} {p : Prop} [Decidable p] : (r.user.isSome || decide p) = true ↔ r.user.isSome = true ∨ p := by
  rw [Bool.or_eq_true, decide_eq_true_eq]

theorem RingSt.not_busy {r : RingSt} {p : Prop} [Decidable p] (hu : r.user = none) (hp : ¬p) : ¬(r.user.isSome || decide p) = true := by
  rw [RingSt.busy_iff, hu]
  simpa using hp

theorem RingSt.free {r : RingSt} (hl : r.live = false) (hu : r.user = none) : (r.live || r.user.isSome) = false := by
  rw [hl, hu]
  rfl

/-- An item is in its slot when the slot's tag is the item's number (06 R134). -/
theorem RingSt.has_iff {r : RingSt} {j : Nat} : r.has j = true ↔ r.tagOf j = BitVec.ofNat 16 j := beq_iff_eq

/-! ### RSUB (06 R138) -/

/-- The bytes that a word reads from its frame lie at the offset its address names. -/
theorem State.frameBytes_inFrame {s : State} {a : Word} {off n al k : Nat} {st : Bool} (h : s.InFrame a off n al st) :
    s.frameBytes a.toNat k = s.bytes (scratchKey s.tile (s.sl.fbase + off)) k := by
  rw [(parseAddr_local h.1).1]
  rfl

section
variable {s : State} {m : Bool} {a : Reg} {ring : Ring} {off : Nat} {r : RingSt} (hn : s.ringNamed ring.val = .ok r)
  (hr : s.Ready [.scalar a] []) (hf : s.InFrame (s.rs a) off 80 16 false)
include hn hr hf

theorem exec_rsub_live (h : r.live = true ∨ r.user.isSome = true) :
    exec (.rsub m a ring) s = .next (s.preciseTrap (ringState ring.val)) := by
  rw [exec_rsub]
  refine cWord_trap hr ?_
  simp only [State.checkMem_inFrame (r := .near) (by decide) hf, hn]
  exact if_pos (by simpa using h)

section
variable (hl : r.live = false) (hu : r.user = none)
include hl hu

theorem exec_rsub_badDescriptor (h : parseSub (s.bytes (scratchKey s.tile (s.sl.fbase + off)) 80) r.bytes = none) :
    exec (.rsub m a ring) s = .next (s.preciseTrap (cause 0x06 (s.rs a) 0)) := by
  rw [exec_rsub]
  refine cWord_trap hr ?_
  simp only [State.checkMem_inFrame (r := .near) (by decide) hf, hn, RingSt.free hl hu, State.frameBytes_inFrame hf, h]
  rfl

theorem exec_rsub_subscribes {store : Bool} {b : Sub}
    (h : parseSub (s.bytes (scratchKey s.tile (s.sl.fbase + off)) 80) r.bytes = some (store, b)) :
    exec (.rsub m a ring) s = .next ((s.modRing s.uid ring.val (fun r => r.subscribe store b)).after m) := by
  rw [exec_rsub]
  refine cWord_ok hr ?_
  simp only [State.checkMem_inFrame (r := .near) (by decide) hf, hn, RingSt.free hl hu, State.frameBytes_inFrame hf, h]
  rfl

end

end

/-! ### A ring that may not be used -/

section
variable {s : State} {m : Bool} {d : Reg} {ring : Ring} {n : BitVec 9} {limit : BitVec 32} {t : TrapRec} (h : s.ringReady ring.val = .error t)
include h

theorem exec_rget_unready (hr : s.Ready [] (wS d (some 1))) : exec (.rget m d ring) s = .next (s.preciseTrap t) := by
  rw [exec_rget]
  exact cWord_trap hr (by simp only [h])

theorem exec_rrel_unready : exec (.rrel m ring) s = .next (s.preciseTrap t) := by
  rw [exec_rrel]
  exact cWord_trap s.ready_nil (by simp only [h])

theorem exec_rput_unready : exec (.rput m ring) s = .next (s.preciseTrap t) := by
  rw [exec_rput]
  exact cWord_trap s.ready_nil (by simp only [h])

theorem exec_rwait_unready : exec (.rwait m ring n limit) s = .next (s.preciseTrap t) := by
  rw [exec_rwait]
  exact cWord_trap s.ready_nil (by simp only [h])

end

/-! ### Words on a ring in use (06 R135, R137) -/

section
variable {s : State} {m : Bool} {ring : Ring} {r : RingSt} (h : s.ringReady ring.val = .ok r)
include h

section
variable {d : Reg} (hr : s.Ready [] (wS d (some 1)))
include hr

theorem exec_rget_refused (hb : r.user.isSome = true ∨ r.got = r.slots) :
    exec (.rget m d ring) s = .next (s.preciseTrap (ringState ring.val)) := by
  rw [exec_rget]
  refine cWord_trap hr ?_
  simp only [h]
  exact if_pos (RingSt.busy_iff.2 hb)

section
variable (hu : r.user = none) (hg : r.got ≠ r.slots)
include hu hg

/-- The item whose tag is in its slot is taken. -/
theorem exec_rget_tag (ht : r.tagOf (r.count + r.got) = BitVec.ofNat 16 (r.count + r.got)) :
    exec (.rget m d ring) s = .next (((s.modRing s.uid ring.val (fun r => { r with got := r.got + 1 })).landAt
      (.scalar d (BitVec.ofNat 64 (r.slotOff (r.count + r.got)))) 1 0).after m) := by
  rw [exec_rget]
  refine cWord_ok hr ?_
  simp only [h]
  rw [if_neg (RingSt.not_busy hu hg), if_pos (RingSt.has_iff.2 ht)]

/-- Otherwise the ring's fault record is the cause, or the tag that stands there. -/
theorem exec_rget_noTag (ht : r.tagOf (r.count + r.got) ≠ BitVec.ofNat 16 (r.count + r.got)) :
    exec (.rget m d ring) s = .next (s.preciseTrap (r.fault.getD (cause 0x0B (BitVec.ofNat 64 ring.val)
      (BitVec.ofNat 64 ((r.count + r.got) % 65536 * 65536 + (r.tagOf (r.count + r.got)).toNat))))) := by
  rw [exec_rget]
  refine cWord_trap hr ?_
  simp only [h]
  rw [if_neg (RingSt.not_busy hu hg), if_neg (mt RingSt.has_iff.1 ht)]
  cases r.fault <;> rfl

end

end

section
variable (hd : r.dir = some false)
include hd

theorem exec_rrel_frees (hu : r.user = none) (hg : r.got ≠ 0) : exec (.rrel m ring) s =
    .next ((s.modRing s.uid ring.val (fun r => { r.freeSlot s.issueCycle with got := r.got - 1 })).after m) := by
  rw [exec_rrel]
  refine cWord_ok s.ready_nil ?_
  simp only [h, hd]
  rw [if_neg (by decide), if_neg (RingSt.not_busy hu hg)]

theorem exec_rrel_refused (hb : r.user.isSome = true ∨ r.got = 0) :
    exec (.rrel m ring) s = .next (s.preciseTrap (ringState ring.val)) := by
  rw [exec_rrel]
  refine cWord_trap s.ready_nil ?_
  simp only [h, hd]
  rw [if_neg (by decide), if_pos (RingSt.busy_iff.2 hb)]

theorem exec_rput_loadRing : exec (.rput m ring) s = .next (s.preciseTrap (cause 0x01 s.pcNow 0)) := by
  rw [exec_rput]
  refine cWord_trap s.ready_nil ?_
  simp only [h]
  exact if_pos hd

end

section
variable (hd : r.dir = some true)
include hd

theorem exec_rput_hands (hu : r.user = none) (hg : r.got ≠ 0) (hp : r.pastEnd = false) : exec (.rput m ring) s =
    .next ((s.modRing s.uid ring.val (fun r => { r with tail := r.tail + 1, got := r.got - 1 })).after m) := by
  rw [exec_rput]
  refine cWord_ok s.ready_nil ?_
  simp only [h, hd, hp, Bool.or_false]
  rw [if_neg (by decide), if_neg (RingSt.not_busy hu hg)]

theorem exec_rput_refused (hb : r.user.isSome = true ∨ r.got = 0 ∨ r.pastEnd = true) :
    exec (.rput m ring) s = .next (s.preciseTrap (ringState ring.val)) := by
  rw [exec_rput]
  refine cWord_trap s.ready_nil ?_
  simp only [h, hd]
  rw [if_neg (by decide), if_pos (by simpa [or_assoc] using hb)]

theorem exec_rrel_storeRing : exec (.rrel m ring) s = .next (s.preciseTrap (cause 0x01 s.pcNow 0)) := by
  rw [exec_rrel]
  refine cWord_trap s.ready_nil ?_
  simp only [h]
  exact if_pos hd

end

section
variable {n : BitVec 9} {limit : BitVec 32}

theorem exec_rwait_fault {t : TrapRec} (hf : r.fault = some t) : exec (.rwait m ring n limit) s = .next (s.preciseTrap t) := by
  rw [exec_rwait]
  exact cWord_trap s.ready_nil (by simp only [h, hf])

variable (hf : r.fault = none)
include hf

theorem exec_rwait_done (hw : r.waitDone n.toNat = true) : exec (.rwait m ring n limit) s = .next (s.after true) := by
  rw [exec_rwait]
  refine cWord_ok s.ready_nil ?_
  simp only [h, hf]
  exact if_pos hw

variable (hw : r.waitDone n.toNat = false)
include hw

theorem exec_rwait_limitZero (hl : limit = 0) : exec (.rwait m ring n limit) s = .next (s.preciseTrap (ringTimeout ring.val r)) := by
  rw [exec_rwait]
  refine cWord_trap s.ready_nil ?_
  simp only [h, hf]
  rw [if_neg (Bool.eq_false_iff.1 hw), if_pos hl]

theorem exec_rwait_parks (hl : limit ≠ 0) : exec (.rwait m ring n limit) s =
    .next ((s.parkOn (.rwait ring n.toNat (s.now + limit.toNat) s.backNow)).after true) := by
  rw [exec_rwait]
  refine cWord_ok s.ready_nil ?_
  simp only [h, hf]
  rw [if_neg (Bool.eq_false_iff.1 hw), if_neg hl]

end

end

/-- Settles O30: RSUB by the ring and its descriptor, the other words by whether the ring may be used, its direction and its slots held. -/
theorem ringWords : Obligations.RingWords := by
  unfold Obligations.RingWords
  intro s m d a ring n limit off r trap refused illegal
  refine ⟨fun hn hr hf => ⟨exec_rsub_live hn hr hf, exec_rsub_badDescriptor hn hr hf,
      fun _ _ hl hu => exec_rsub_subscribes hn hr hf hl hu⟩,
    fun t h => ⟨exec_rget_unready h, exec_rrel_unready h, exec_rput_unready h, exec_rwait_unready h⟩,
    fun h => h.elim State.ringReady_undeclared fun ⟨hn, hd⟩ => State.ringReady_unsubscribed hn hd,
    fun h => ⟨fun hr => ⟨exec_rget_refused h hr, exec_rget_tag h hr, fun hu hg ht => ⟨fun t hf => ?_, fun hf => ?_⟩⟩,
      fun hd => ⟨exec_rrel_frees h hd, exec_rrel_refused h hd, exec_rput_loadRing h hd⟩,
      fun hd => ⟨exec_rput_hands h hd, exec_rput_refused h hd, exec_rrel_storeRing h hd⟩,
      fun t hf => exec_rwait_fault h hf, exec_rwait_done h, exec_rwait_limitZero h, exec_rwait_parks h⟩⟩
  · rw [exec_rget_noTag h hr hu hg ht, hf]
    rfl
  · rw [exec_rget_noTag h hr hu hg ht, hf]
    rfl

end Sys2Proof.Machine
end

section
/-! PROOFS. Matrix words, and the end of an MWAIT's park (06 R125 to R130, 12 R257, R258, R266 to R269). -/

namespace Sys2Proof.Machine

open Sys2Proof

/-! ### Checks and stalls (12 R257, R258) -/

/-- A weight format's code is below 4. -/
theorem WFmt.ofCode_eq_none {k : Nat} (h : 4 ≤ k) : WFmt.ofCode k = none := by
  obtain ⟨j, rfl⟩ := Nat.exists_eq_add_of_le' h
  rfl

/-- An activation format's code is below 5. -/
theorem AFmt.ofCode_eq_none {k : Nat} (h : 5 ≤ k) : AFmt.ofCode k = none := by
  obtain ⟨j, rfl⟩ := Nat.exists_eq_add_of_le' h
  rfl

/-- No range lock refuses an access that finds its frame. -/
theorem State.checkLocks_inFrame {s : State} {a : Word} {off n al : Nat} {st : Bool} (h : s.InFrame a off n al st) :
    s.checkLocks a n st = none := by
  obtain ⟨hp, -, -, -, hl⟩ := h
  simp only [State.checkLocks, hp, State.checkLock, hl]

section
variable {s : State} {n : Nat}

theorem State.matrixStall_full (h : 16 ≤ s.c.mq.length) : s.matrixStall n = some .matrixQueue := if_pos h

/-- With room in the queue, only the range table can stall a matrix command. -/
theorem State.matrixStall_room (h : s.c.mq.length < 16) :
    s.matrixStall n = if (s.tiles[s.tile]).freeLocks < n then some (.locks n) else none := if_neg h.not_ge

theorem State.matrixStall_queue_iff : s.matrixStall n = some .matrixQueue ↔ 16 ≤ s.c.mq.length := by
  refine ⟨fun h => ?_, State.matrixStall_full⟩
  by_contra hq
  rw [State.matrixStall_room (not_le.1 hq)] at h
  split at h <;> cases h

theorem State.matrixStall_locks_iff :
    (∃ k, s.matrixStall n = some (.locks k)) ↔ s.c.mq.length < 16 ∧ (s.tiles[s.tile]).freeLocks < n := by
  by_cases hq : s.c.mq.length < 16
  · rw [State.matrixStall_room hq]
    split
    · next hl => exact ⟨fun _ => ⟨hq, hl⟩, fun _ => ⟨n, rfl⟩⟩
    · next hl => exact ⟨fun ⟨_, hk⟩ => (nomatch hk), fun h => absurd h.2 hl⟩
  · simp [State.matrixStall_full (not_lt.1 hq), hq]

end

/-! ### MLW and MFMT (12 R267, R268) -/

section
variable {s : State} {m : Bool} {a : Reg} {bank : Fin 2} {code : BitVec 3} (hr : s.Ready [.scalar a] [])
include hr

section
variable {wf : WFmt} (hw : WFmt.ofCode code.toNat = some wf) (hc : s.checkMlw (s.rs a) (wBytes wf) = none)
include hw hc

theorem exec_mlw_freezes {f : Freeze} (hs : s.matrixStall (s.mlwLock (s.rs a) (wBytes wf)).toList.length = some f) :
    exec (.mlw m a bank code) s = .next (s.frozenBy f) := by
  rw [exec_mlw]
  exact cWord_freeze hr (by simp only [hw, Option.elim_some, hc, hs])

/-- A bank load is queued with its source's range, and the bank takes its format at once. -/
theorem exec_mlw_queues (hs : s.matrixStall (s.mlwLock (s.rs a) (wBytes wf)).toList.length = none) :
    exec (.mlw m a bank code) s =
      .next (((s.queueEntry (.load bank wf (s.rs a) [] none) 0 0 false false (s.mlwLock (s.rs a) (wBytes wf))).modCur (fun c =>
        { c with banks := vmod c.banks bank (fun b => { b with fmt := wf, loading := b.loading + 1 }) })).after m) := by
  rw [exec_mlw]
  exact cWord_ok hr (by simp only [hw, Option.elim_some, hc, hs])

end

/-- A code without a format is refused once the address has passed the checks of 32,768 bytes (log 59). -/
theorem exec_mlw_badCode (hk : 4 ≤ code.toNat) (hc : s.checkMlw (s.rs a) 32768 = none) :
    exec (.mlw m a bank code) s = .next (s.preciseTrap (cause 0x01 s.pcNow 0)) := by
  rw [exec_mlw]
  refine cWord_trap hr ?_
  simp only [WFmt.ofCode_eq_none hk, Option.elim_none, hc]
  rfl

end

section
variable {s : State} {m : Bool} {stream : Fin 4} {code : BitVec 3}

theorem exec_mfmt_sets {f : AFmt} (h : AFmt.ofCode code.toNat = some f) :
    exec (.mfmt m stream code) s = .next ((s.modCur (fun c => { c with streams := vset c.streams stream f })).after m) := by
  rw [exec_mfmt]
  exact cWord_ok s.ready_nil (by simp only [h])

theorem exec_mfmt_badCode (h : 5 ≤ code.toNat) : exec (.mfmt m stream code) s = .next (s.preciseTrap (cause 0x01 s.pcNow 0)) := by
  rw [exec_mfmt]
  refine cWord_trap s.ready_nil ?_
  simp only [AFmt.ofCode_eq_none h]
  rfl

end

/-! ### MMUL, MOUT, MDRAIN, MZERO (12 R266, R269) -/

section
variable {s : State} {m : Bool} {a b c : Reg} {acc : Fin 8} {bank : Fin 2} {stream : Fin 4} {f32 : Bool} {m1 : BitVec 2}
  (hr : s.Ready [.scalar a, .scalar b, .scalar c] [])
include hr

theorem exec_mmul_trap {t : TrapRec} (hc : s.checkMmul (s.rs a) bank s.c.streams[stream] f32 (m1.toNat + 1) (s.rs c) = some t) :
    exec (.mmul m a b c acc bank stream f32 m1) s = .next (s.preciseTrap t) := by
  rw [exec_mmul]
  exact cWord_trap hr (by simp only [hc])

variable (hc : s.checkMmul (s.rs a) bank s.c.streams[stream] f32 (m1.toNat + 1) (s.rs c) = none)
include hc

theorem exec_mmul_freezes {f : Freeze} (hs : s.matrixStall 1 = some f) :
    exec (.mmul m a b c acc bank stream f32 m1) s = .next (s.frozenBy f) := by
  rw [exec_mmul]
  exact cWord_freeze hr (by simp only [hc, hs])

theorem exec_mmul_queues (hs : s.matrixStall 1 = none) : exec (.mmul m a b c acc bank stream f32 m1) s =
    .next ((s.queueMmul (s.rs a) acc ((s.rs b).setWidth 16) bank s.c.streams[stream] f32 (m1.toNat + 1) (s.rs c) false).after m) := by
  rw [exec_mmul]
  exact cWord_ok hr (by simp only [hc, hs])

end

/-- MOUT binds a list whose entries are all in range. -/
theorem exec_mout_binds {s : State} {m : Bool} {a : Reg} {cnt : BitVec 6} {off : Nat} {l : List Outlier} (hr : s.Ready [.scalar a] [])
    (hf : s.InFrame (s.rs a) off (8 * (cnt.toNat + 1)) 8 false)
    (hl : parseOutl (s.frameBytes (s.rs a).toNat (8 * (cnt.toNat + 1))) (cnt.toNat + 1) = l) (hin : ∀ o ∈ l, o.k < 128 ∧ o.n < 1024) :
    exec (.mout m a cnt) s = .next ((s.modCur (fun c => { c with outl := l })).after m) := by
  have hfind : l.zipIdx.find? (fun e => decide (128 ≤ e.1.k) || decide (1024 ≤ e.1.n)) = none := by
    refine List.find?_eq_none.2 fun e he => ?_
    obtain ⟨hk, hn⟩ := hin e.1 (List.fst_mem_of_mem_zipIdx he)
    simp [hk, hn]
  rw [exec_mout]
  refine cWord_ok hr ?_
  simp only [State.checkAccess_inFrame (r := .near) (by decide) hf, hl, hfind, State.checkLocks_inFrame hf]

section
variable {s : State} {m : Bool} {a b : Reg} {acc : Fin 8} {n : BitVec 10} (hr : s.Ready [.scalar a, .scalar b] [])
  (hc : s.checkAccess .near (s.rs a) (4 * (n.toNat + 1)) 8 = none)
include hr hc

theorem exec_mdrain_freezes {f : Freeze} (hs : s.matrixStall 1 = some f) : exec (.mdrain m a b acc n) s = .next (s.frozenBy f) := by
  rw [exec_mdrain]
  exact cWord_freeze hr (by simp only [hc, hs])

/-- A drain is queued with the range it writes, and its core parks for it. -/
theorem exec_mdrain_queues (hs : s.matrixStall 1 = none) : exec (.mdrain m a b acc n) s =
    .next (((s.queueEntry (.drain (s.rs a).toNat (n.toNat + 1)) acc ((s.rs b).setWidth 16) false true
      (some (s.sl.fbase + (s.rs a).toNat, 4 * (n.toNat + 1), true))).parkOn (.drain acc ((s.rs b).setWidth 16) s.dev.nextReq)).after m) := by
  rw [exec_mdrain]
  exact cWord_ok hr (by simp only [hc, hs])

end

section
variable {s : State} {m : Bool} {b : Reg} {acc : Fin 8} (hr : s.Ready [.scalar b] [])
include hr

theorem exec_mzero_freezes {f : Freeze} (hs : s.matrixStall 0 = some f) : exec (.mzero m b acc) s = .next (s.frozenBy f) := by
  rw [exec_mzero]
  exact cWord_freeze hr (by simp only [hs])

theorem exec_mzero_queues (hs : s.matrixStall 0 = none) :
    exec (.mzero m b acc) s = .next ((s.queueEntry .zero acc ((s.rs b).setWidth 16) false true none).after m) := by
  rw [exec_mzero]
  exact cWord_ok hr (by simp only [hs])

theorem exec_mwait_parks : exec (.mwait m b acc) s = .next ((s.parkOn (.mwait acc ((s.rs b).setWidth 16))).after m) := by
  rw [exec_mwait]
  exact cWord_ok hr rfl

end

theorem exec_mver_reads {s : State} {m : Bool} {d : Reg} {acc : Fin 8} (hr : s.Ready [] (wS d (some 1))) :
    exec (.mver m d acc) s = .next ((s.landAt (.scalar d (mverVal s.c.accs[acc])) 1 0).after m) := by
  rw [exec_mver]
  exact cResult_ready hr

/-! ### The end of an MWAIT's park (06 R129, R130) -/

/-- The flags of commands, ORed in the order of their versions. -/
theorem foldl_flags_getLsbD (fs : List (BitVec 16 × BitVec 6)) (x : BitVec 6) (j : Nat) :
    (fs.foldl (fun x e => x ||| e.2) x).getLsbD j = true ↔ x.getLsbD j = true ∨ ∃ e ∈ fs, e.2.getLsbD j = true := by
  induction fs generalizing x with
  | nil => simp
  | cons e fs ih => simp [ih, or_assoc]

section
variable {c : Core} {acc : Fin 8} {ver : BitVec 16}

theorem Core.matrixEnd_accs_self : (c.matrixEnd acc ver).1.accs[acc] = { c.accs[acc] with
    flags := (c.accs[acc]).flags.filter (fun e => !covers ver e.1), ovfSeen := (c.accs[acc]).ovfAt ver } := vset_self _ _ _

theorem Core.matrixEnd_accs_ne {i : Fin 8} (h : i ≠ acc) : (c.matrixEnd acc ver).1.accs[i] = c.accs[i] := vset_ne _ _ h

/-- FPFLAGS gains the flags of the commands that the version covers. -/
theorem Core.matrixEnd_fpflags (j : Nat) : (c.matrixEnd acc ver).1.fpflags.getLsbD j = true ↔
    c.fpflags.getLsbD j = true ∨ ∃ e ∈ (c.accs[acc]).flags, covers ver e.1 = true ∧ e.2.getLsbD j = true := by
  refine (foldl_flags_getLsbD _ _ _).trans ?_
  simp only [List.mem_filter, and_assoc]

end

section
variable {s : State} {core : CoreId} {acc : Fin 8} {ver : BitVec 16} {marks : Bool}

theorem State.parkOver_mwait_waits :
    s.parkOver core { why := .mwait acc ver, marks := marks } = none ↔ covers ((s.cores[core]).accs[acc]).ver ver = false := by
  simp [State.parkOver]

theorem State.parkOver_mwait_covered (h : covers ((s.cores[core]).accs[acc]).ver ver = true) :
    s.parkOver core { why := .mwait acc ver, marks := marks } = some (s.endWith core ((s.cores[core]).matrixEnd acc ver)) := if_pos h

end

/-- Settles O33: each word by its checks and what stalls it, the end of an MWAIT's park by what it takes of its accumulator. -/
theorem matrixWords : Obligations.MatrixWords := by
  unfold Obligations.MatrixWords
  intro s m d a b c acc bank code wf stream f f32 m1 cnt n off base ver frozen illegal
  exact ⟨fun hr hw hc => ⟨fun _ => exec_mlw_freezes hr hw hc, exec_mlw_queues hr hw hc⟩, exec_mlw_badCode, exec_mfmt_sets, exec_mfmt_badCode,
    fun hr => ⟨fun _ => exec_mmul_trap hr, fun hc => ⟨fun _ => exec_mmul_freezes hr hc, exec_mmul_queues hr hc⟩⟩,
    fun hr hf => exec_mout_binds hr hf rfl, fun hr hc => ⟨fun _ => exec_mdrain_freezes hr hc, exec_mdrain_queues hr hc⟩, exec_mver_reads,
    fun hr => ⟨fun _ => exec_mzero_freezes hr, exec_mzero_queues hr, exec_mwait_parks hr⟩,
    fun core => ⟨State.parkOver_mwait_waits, State.parkOver_mwait_covered, rfl, rfl, fun _ => Core.matrixEnd_accs_ne, Core.matrixEnd_accs_self,
      fun j _ => Core.matrixEnd_fpflags j⟩,
    State.matrixStall_queue_iff, State.matrixStall_locks_iff⟩

end Sys2Proof.Machine
end

section
/-! PROOFS. Stream controllers: loop-count blocks, load and store rings, pushes and pulls, acknowledged writes (06 R134, R138 to R140, 13 R283). -/

namespace Sys2Proof.Machine

open Sys2Proof

/-! ### Which of its steps a controller takes (06 R138 to R140) -/

section
variable {s : State} {sl ring : Nat} {x : Slice} {r : RingSt} {b : Sub} {t : TileId} (hsub : s.subOf sl ring = some (x, r, b)) (ht : x.tile = some t)
  (hm : s.ringMoves? x r = true) (hs : b.stopped = false)
include hsub ht hm hs

theorem State.controller_block (hw : b.waitsLcb = true) : s.controller sl ring = s.lcbStep x ring b (b.lcb.getD 0) := by
  simp only [State.controller, hsub, ht, hm, hs, hw]
  rfl

theorem State.controller_store (hw : b.waitsLcb = false) (hd : r.dir = some true) : s.controller sl ring = s.storeStep x ring r b t := by
  simp only [State.controller, hsub, ht, hm, hs, hw, hd]
  rfl

theorem State.controller_load (hw : b.waitsLcb = false) (hd : r.dir = some false) : s.controller sl ring = s.loadStep x ring r b t := by
  simp only [State.controller, hsub, ht, hm, hs, hw, hd]
  rfl

end

/-! ### The loop-count block (06 R139) -/

section
variable {s : State} {x : Slice} {ring va : Nat} {b : Sub}

/-- A page of the block that does not translate stops the subscription (log 66). -/
theorem State.lcbStep_stops {e : Nat × Nat × TrapRec} (h : b.bad = some e) :
    s.lcbStep x ring b va = some (s.modRing x.uid ring (fun r => r.stop e.2.2)) := by
  simp only [State.lcbStep, h]

section
variable (hb : b.bad = none)
include hb

theorem State.lcbStep_asks (hg : b.segs = []) :
    s.lcbStep x ring b va = some (s.sendSegs x ring b [if b.seen then blockSeg 0 va 12 else blockSeg 12 (va + 12) 4]) := by
  simp only [State.lcbStep, hb, hg]

theorem State.lcbStep_sees {g : Seg} {l : List Seg} {bs : List Byte} (hg : b.segs = g :: l) (hn : b.seen = false) (hbs : g.bytes = some bs) :
    s.lcbStep x ring b va = some (s.modSub x.uid ring (fun b => { b with segs := [], seen := decide (leNat bs = b.flagv.toNat) })) := by
  simp only [State.lcbStep, hb, hg, hn, hbs]
  rfl

end

/-- The counts that stand in place of the descriptor's. -/
theorem exec_loopCountBlockReady_counts {sl : Nat} {r : RingSt} {bs : List Byte} (hsub : s.subOf sl ring = some (x, r, b))
    (hm : s.terrMoves x = true) (hc : b.counts = some bs) : exec (.loopCountBlockReady sl ring) s = .next (s.modSub sl ring (fun b => { b with
      c0 := fieldAt bs 0 4, c1 := fieldAt bs 4 4, c2 := fieldAt bs 8 4, waitsLcb := false, segs := [] })) := by
  simp only [exec_loopCountBlockReady, execLoopCountBlockReady, hsub, hc, hm]
  rfl

end

/-! ### A load ring's controller (06 R134, R138, R140) -/

section
variable {s : State} {x : Slice} {ring : Nat} {r : RingSt} {b : Sub} {t : TileId}

/-- It stops at an item with a refusal once the items before it are pushed. -/
theorem State.loadStep_stops {e : Nat × Nat × TrapRec} (hb : b.bad = some e) (he : e.1 = r.tail) (hi : b.allIn r.tail = true) :
    s.loadStep x ring r b t = some (s.modRing x.uid ring (fun r => r.stop e.2.2)) := by
  have hc : (b.bad.any (fun e => e.1 == r.tail) && b.allIn r.tail) = true := by simp [hb, he, hi]
  rw [State.loadStep, if_pos hc, hb]
  rfl

/-- The controller takes up an item: it asks for its pieces, or notes that a row lies outside the address space. -/
def State.takeUp (s : State) (x : Slice) (ring : Nat) (b : Sub) : State :=
  let s1 := s.modSub x.uid ring (fun b => { b with next := b.next + 1 })
  match b.pieces b.next b.nrow with
  | .ok gs => s1.sendSegs x ring b gs
  | .error tr => s1.modSub x.uid ring (fun c => c.refuse b.next 0 tr)

theorem State.takeUp_asks {gs : List Seg} (h : b.pieces b.next b.nrow = .ok gs) :
    s.takeUp x ring b = (s.modSub x.uid ring (fun b => { b with next := b.next + 1 })).sendSegs x ring b gs := by
  simp only [State.takeUp, h]

theorem State.takeUp_refused {tr : TrapRec} (h : b.pieces b.next b.nrow = .error tr) :
    s.takeUp x ring b = (s.modSub x.uid ring (fun b => { b with next := b.next + 1 })).modSub x.uid ring (fun c => c.refuse b.next 0 tr) := by
  simp only [State.takeUp, h]

section
variable (hb : b.bad = none) (hx : x.st ≠ .exiting)
include hb hx

/-- Without a refusal, and before EXIT, it pushes or takes up an item. -/
theorem State.loadStep_pushes (hn : b.sent < b.next) (hi : b.allIn b.sent = true) : s.loadStep x ring r b t =
    some ((s.ctlSend x b t.val (.push x.uid ring b.sent (b.itemBytes b.sent))).modSub x.uid ring (fun b =>
      { b with sent := b.sent + 1, segs := b.segs.filter (fun g => g.item != b.sent) })) := by
  have hc : (decide (b.sent < b.next) && b.allIn b.sent && b.bad.all (fun e => b.sent < e.1)) = true := by simp [hb, hn, hi]
  rw [State.loadStep, if_neg (by simp [hb]), if_neg (by simpa using hx), if_pos hc]

/-- Otherwise it takes up the next item, if a slot is free for it. -/
theorem State.loadStep_takesUp (hi : b.next ≤ b.sent ∨ b.allIn b.sent = false) (hp : r.canPush s.now = true) :
    s.loadStep x ring r b t = some (s.takeUp x ring b) := by
  have hc : ¬(decide (b.sent < b.next) && b.allIn b.sent && b.bad.all (fun e => b.sent < e.1)) = true := by
    rw [Bool.and_eq_true, Bool.and_eq_true, decide_eq_true_eq]
    rintro ⟨⟨hn, ha⟩, -⟩
    exact hi.elim (not_le.2 hn) (ne_false_of_eq_true ha)
  rw [State.loadStep, if_neg (by simp [hb]), if_neg (by simpa using hx), if_neg hc, if_pos hp]
  unfold State.takeUp
  cases b.pieces b.next b.nrow <;> rfl

end

end

/-! ### A store ring's controller (06 R134, R138, R140) -/

section
variable {s : State} {x : Slice} {ring : Nat} {r : RingSt} {b : Sub} {t : TileId}

/-- It stops at an item with a refusal once every request for it has been answered. -/
theorem State.storeStep_stops {e : Nat × Nat × TrapRec} (hb : b.bad = some e) (hg : b.segs = []) :
    s.storeStep x ring r b t = some (s.modRing x.uid ring (fun r => r.stop e.2.2)) := by
  rw [State.storeStep, if_pos (by simp [hb, hg]), hb]
  rfl

section
variable (hb : b.bad = none)
include hb

theorem State.storeStep_writes (hw : b.toWrite ≠ []) : s.storeStep x ring r b t = some ((s.modSub x.uid ring (fun b =>
    { b with segs := b.segs.filter (fun g => g.req.isSome) })).sendSegs x ring b b.toWrite) := by
  rw [State.storeStep, if_neg (by simp [hb]), if_pos (by simpa using hw)]

variable (hw : b.toWrite = []) (hp : r.canPull = true)
include hw hp

theorem State.storeStep_refused {tr : TrapRec} (h : s.rowsOk x.terr b b.next b.nrow = some tr) :
    s.storeStep x ring r b t = some (s.modRing x.uid ring (fun r => r.stop tr)) := by
  rw [State.storeStep, if_neg (by simp [hb]), if_neg (by simp [hw]), if_pos hp, h]

theorem State.storeStep_asks (h : s.rowsOk x.terr b b.next b.nrow = none) : s.storeStep x ring r b t =
    some ((s.ctlSend x b t.val (.fetch x.uid ring b.next)).modSub x.uid ring (fun b => { b with next := b.next + 1 })) := by
  rw [State.storeStep, if_neg (by simp [hb]), if_neg (by simp [hw]), if_pos hp, h]

end

end

/-! ### Messages between a ring and its controller (06 R134, 13 R283) -/

section
variable {s : State} {sl ring j : Nat} {x : Slice} {r : RingSt} {b : Sub} {t : TileId} {p : Packet} (hsub : s.subOf sl ring = some (x, r, b))
  (ht : x.tile = some t) (hp : s.ringPacket sl ring = some p) (hq : p.seq = lookupSeq s.rxSeq p.key)
include hsub ht hp hq

section
variable {bs : List Byte} (hb : p.body = .push sl ring j bs)
include hb

/-- A push that finds its slice and its turn writes the slot, then the tag. -/
theorem exec_streamPush_writes (hd : t.val = p.dst) (hf : x.fid.isSome = true) (hn : x.fresh = false) (hj : j = r.tail) (hx : x.st ≠ .exiting)
    (hr : r.dir = some false) : exec (.streamPush sl ring) s =
      .next ((((s.accepted p).sendAck p).setBytes (sliceKey x (r.slotOff j)) bs).modRing sl ring (fun r =>
        { (r.setTag j (BitVec.ofNat 16 j)) with tail := r.tail + 1 })) := by
  simp only [exec_streamPush, execStreamPush, hp, hsub, hb, State.arrive_next hq]
  rw [if_pos ⟨by rw [ht, Option.map_some, hd], hj, hx, hf, hn, hr⟩]

theorem exec_streamPush_again (h : j ≠ r.tail ∨ t.val ≠ p.dst) :
    exec (.streamPush sl ring) s = .next (((s.accepted p).sendAck p).modRing sl ring RingSt.again) := by
  simp only [exec_streamPush, execStreamPush, hp, hsub, hb, State.arrive_next hq]
  rw [if_neg]
  rintro ⟨hd, hj, -⟩
  rw [ht, Option.map_some, Option.some_inj] at hd
  exact h.elim (· hj) (· hd)

end

section
variable (hb : p.body = .fetch sl ring j)
include hb

theorem exec_streamPull_again (h : j ≠ r.head ∨ t.val ≠ p.dst) :
    exec (.streamPull sl ring) s = .next (((s.accepted p).sendAck p).modRing sl ring RingSt.again) := by
  have hc : ¬(x.tile.map (·.val) = some p.dst ∧ j = r.head ∧ x.fid.isSome = true ∧ x.fresh = false ∧ r.dir = some true) := by
    rintro ⟨hd, hj, -⟩
    rw [ht, Option.map_some, Option.some_inj] at hd
    exact h.elim (· hj) (· hd)
  simp only [exec_streamPull, execStreamPull, hp, hsub, hb, State.arrive_next hq, hc]
  rfl

section
variable (hd : t.val = p.dst) (hf : x.fid.isSome = true) (hn : x.fresh = false) (hj : j = r.head) (hr : r.dir = some true)
  {got : List (Nat × BitVec 64)}
  (hg : r.pulled ++ s.pullWords (sliceKey x (r.slotOff j)) (pickWords s.stepNo (wordsLeft (b.nrow * b.rowb / 8) r.pulled)) = got)
include hd hf hn hj hr hg

/-- A pull that finds its slice and its turn keeps the words it has while some are left; with the last one the bytes go to the controller. -/
theorem exec_streamPull_reads : let s1 : State := { s with stepNo := s.stepNo + 1 }
    exec (.streamPull sl ring) s = .next (if wordsLeft (b.nrow * b.rowb / 8) got = []
      then (((s1.accepted p).sendAck p).send p.dst p.src 3 p.who p.terr (.fetched sl ring j (wordBytes (b.nrow * b.rowb / 8) got))).modRing sl ring
        (fun r => { r with pulled := [] })
      else s1.modRing sl ring (fun r => { r with pulled := got })) := by
  intro s1
  have hc : x.tile.map (·.val) = some p.dst ∧ j = r.head ∧ x.fid.isSome = true ∧ x.fresh = false ∧ r.dir = some true :=
    ⟨by rw [ht, Option.map_some, hd], hj, hf, hn, hr⟩
  subst hg
  simp only [exec_streamPull, execStreamPull, hp, hsub, hb]
  rw [if_neg (by rw [decide_eq_true hc]; decide), State.arrive_next (s := s1) hq]
  split
  · next hl => exact (congrArg Host.Outcome.next (if_neg (by simpa using hl))).symm
  · next hl => exact (congrArg Host.Outcome.next (if_pos (by simpa using hl))).symm

end

end

end

/-- The slot's bytes are at the controller, as pieces to be written. -/
theorem State.slotBack_pieces {s : State} {sl ring : Nat} {x : Slice} {r : RingSt} {b : Sub} {bs : List Byte} {gs : List Seg}
    (hsub : s.subOf sl ring = some (x, r, b)) (hs : b.stopped = false) (hn : b.next = r.head + 1) (hg : b.segs = [])
    (h : b.pieces r.head b.nrow = .ok gs) : s.slotBack sl ring r.head bs = s.modSub sl ring (fun b =>
      { b with segs := gs.map (fun g => { g with store := true, bytes := some ((bs.drop g.off).take g.len) }) }) := by
  simp only [State.slotBack, hsub]
  rw [if_neg (by simp [hs, hn, hg]), h]

/-! ### A store ring's item is acknowledged (06 R134, R137) -/

/-- One write of a store ring's item has the number `req`: the others stay. -/
theorem Sub.segs_acknowledged {b : Sub} {g : Seg} {req : Nat} {l : List Seg} (hg : b.segs = g :: l) (hr : g.req = some req)
    (hl : ∀ k ∈ l, k.req ≠ some req) : b.segs.filter (fun g => g.req != some req) = l := by
  rw [hg, List.filter_cons_of_neg (by simp [hr]), List.filter_eq_self.2 (by simpa using hl)]

section
variable {r : RingSt} {b : Sub} {g : Seg} {req : Nat} {l : List Seg} (hb : r.sub = some b) (hg : b.segs = g :: l) (hr : g.req = some req)
  (hl : ∀ k ∈ l, k.req ≠ some req)
include hb hg hr hl

/-- The write that is acknowledged leaves the pieces. -/
theorem RingSt.written_more (hn : l ≠ []) : r.written req = { r with sub := some { b with segs := l } } := by
  simp only [RingSt.written, hb, Sub.segs_acknowledged hg hr hl]
  rw [if_pos (by simp [hg, hr]), if_neg (by simp [hn])]

/-- With the last of them the item counts, and its slot's tag changes. -/
theorem RingSt.written_last (hd : b.bad = none) (hn : l = []) : r.written req = { r with
    sub := some { b with segs := [] }, head := r.head + 1, tags := r.tags.set (r.head % r.slots) (BitVec.ofNat 16 (r.head + r.slots)) } := by
  subst hn
  simp only [RingSt.written, hb, Sub.segs_acknowledged hg hr hl]
  rw [if_pos (by simp [hg, hr]), if_pos (by simp [hd])]
  rfl

end

end Sys2Proof.Machine
end

section
/-! PROOFS. When the Orrery ticks, holds and halts, and what a tap leaves alone (07 R146, R149 to R152); the limit of an RWAIT (06 R137). -/

namespace Sys2Proof.Machine

open Sys2Proof

/-- The limit of an RWAIT, once what its core sent to its own tile is performed (log 67). -/
theorem exec_rwaitTimeout_due {s : State} {core : CoreId} {rg : Ring} {n dl : Nat} {bk : Back} {m : Bool}
    (hp : (s.cores[core]).park = some { why := .rwait rg n dl bk, marks := m }) (hdl : dl ≤ s.now) (hs : s.selfPending core = false)
    (hw : (((s.slice! ((s.cores[core]).sl.getD 0)).rings[rg.val]?).getD default).waitDone n = false) : exec (.rwaitTimeout core) s =
      .next (s.trapBack core bk (ringTimeout rg.val (((s.slice! ((s.cores[core]).sl.getD 0)).rings[rg.val]?).getD default))) := by
  simp only [exec_rwaitTimeout, execRwaitTimeout, hp]
  exact if_pos (by rw [decide_eq_true hdl, hs, hw]; rfl)

/-! ### When a tick holds and which domains it steps (07 R146) -/

theorem Dom.steps?_iff (x : Dom) : x.steps? = true ↔ x.once ≠ 0 ∨ (x.run = true ∧ x.phase = 0 ∧ x.left ≠ some 0) := by
  simp [Dom.steps?, and_assoc]

section
variable (s : State) (core : CoreId)

/-- The domains that step in a tick. -/
def State.tickDoms : List (Fin 4) := (List.finRange 4).filter (fun d => ((s.cores[core]).orr.doms[d]).steps?)

/-- A tick holds where a port that a stepping domain reads has no increment, or a sample tap no slot. -/
def State.tickHeld : Bool :=
  (s.tickDoms core).any (fun d => ((s.cores[core]).orr.domPorts d).any (fun p => (s.portNext core p).isNone)) ||
    (s.cores[core]).orr.taps.toList.any (s.tapStuck core (s.tickDoms core))

/-- The state of a tick whose hold is `h`, before any domain has stepped. -/
def State.ticked (h : Bool) : State := s.modOrr core (fun o => { o with lastTick := some s.now, hold := h })

theorem State.tickHeld_iff : s.tickHeld core = true ↔
    (∃ d ∈ s.tickDoms core, ∃ p ∈ (s.cores[core]).orr.domPorts d, s.portNext core p = none) ∨
      ∃ k : Fin 16, s.tapStuck core (s.tickDoms core) (s.cores[core]).orr.taps[k] = true := by
  simp only [State.tickHeld, Bool.or_eq_true, List.any_eq_true, Option.isNone_iff_eq_none]
  refine or_congr Iff.rfl ⟨fun ⟨t, ht, hs⟩ => ?_, fun ⟨k, hk⟩ => ⟨_, by simp, hk⟩⟩
  obtain ⟨i, hi, rfl⟩ := List.mem_iff_getElem.1 ht
  exact ⟨⟨i, by simpa using hi⟩, by simpa using hs⟩

theorem State.orrTick_eq : s.orrTick core = if s.tickHeld core then s.ticked core (s.tickHeld core)
    else ((s.ticked core (s.tickHeld core)).orrStep core (s.tickDoms core)).settleTick core := rfl

theorem State.orrTick_holds (h : s.tickHeld core = true) : s.orrTick core = s.ticked core true := by
  rw [State.orrTick_eq, if_pos h, h]

theorem State.orrTick_steps (h : ¬s.tickHeld core = true) :
    s.orrTick core = ((s.ticked core false).orrStep core (s.tickDoms core)).settleTick core := by
  rw [State.orrTick_eq, if_neg h, Bool.eq_false_iff.2 h]

/-- With no change and no read on its way the step boundary changes nothing. -/
theorem State.settleTick_idle (hl : (s.cores[core]).orr.late = []) (hf : ∀ f ∈ (s.cores[core]).flight, f.src = none)
    (hr : ∀ r, (s.cores[core]).replay = some r → ∀ f ∈ r.flight, f.src = none) : s.settleTick core = s := by
  have hfl : (s.cores[core]).flight.any (·.src.isSome) = false := List.any_eq_false.2 fun f h => by simp [hf f h]
  have hrl : (s.cores[core]).replay.any (fun r => r.flight.any (·.src.isSome)) = false := by
    cases h : (s.cores[core]).replay with
    | none => rfl
    | some r => exact List.any_eq_false.2 fun f hm => by simp [hr r h f hm]
  have ha : s.afterTick core = s := if_pos (by simp only [hl, hfl, hrl]; rfl)
  unfold State.settleTick
  rw [ha, ite_self]

theorem exec_orreryTick_due (h : s.tickDue core = true) : exec (.orreryTick core) s = .next (s.orrTick core) := by
  rw [exec_orreryTick]
  exact if_pos h

theorem exec_orreryCountEnd_done {d : Fin 4} (hr : ((s.cores[core]).orr.doms[d]).run = true) (hl : ((s.cores[core]).orr.doms[d]).left = some 0) :
    exec (.orreryCountEnd core d) s = .next ((s.haltDom core d).settleTick core) := by
  rw [exec_orreryCountEnd]
  exact if_pos (by rw [Core.countDone, hr, hl]; rfl)

end

/-! ### What ports and taps leave alone (07 R149, R150) -/

/-- A core with every tap of its Orrery off: what a tap's action leaves of the core. -/
def Core.butTaps (c : Core) : Core := { c with orr := { c.orr with taps := Core.reset.orr.taps } }

theorem State.modOrr_self (s : State) (core : CoreId) (f : Orrery → Orrery) :
    (s.modOrr core f).cores[core] = { s.cores[core] with orr := f (s.cores[core]).orr } := State.modCore_self _ _ _

theorem State.butTaps_congr {s u : State} (h : u.cores = s.cores) (core : CoreId) : (u.cores[core]).butTaps = (s.cores[core]).butTaps := by
  rw [h]

/-- An update of one tap leaves the rest of its core. -/
theorem State.modTap_butTaps (s : State) (core : CoreId) (k : Fin 16) (f : Tap → Tap) :
    ((s.modOrr core (fun o => o.modTap k f)).cores[core]).butTaps = (s.cores[core]).butTaps := by
  rw [State.modOrr_self]
  rfl

theorem State.tapHand_butTaps (s : State) (core : CoreId) (k : Fin 16) : ((s.tapHand core k).cores[core]).butTaps = (s.cores[core]).butTaps :=
  State.modTap_butTaps (s.modRing _ _ _) core k _

theorem State.tapFlush_butTaps (s : State) (core : CoreId) (k : Fin 16) : ((s.tapFlush core k).cores[core]).butTaps = (s.cores[core]).butTaps := by
  unfold State.tapFlush
  dsimp only
  split
  · split
    · exact State.tapHand_butTaps (s.setBytes _ _) core k
    · rfl
  · rfl

/-- A tap that takes its ring's next slot for a sample leaves the cores. -/
theorem State.tapSlot_cores (s : State) (h : Bool) (u ring : Nat) (f : RingSt → RingSt) : (if h then s else s.modRing u ring f).cores = s.cores := by
  split <;> rfl

theorem State.tapAct_butTaps (s : State) (core : CoreId) (k : Fin 16) (dz : Nat → Int) :
    ((s.tapAct core k dz).cores[core]).butTaps = (s.cores[core]).butTaps := by
  unfold State.tapAct
  dsimp only
  split
  · exact State.modTap_butTaps s core k _
  · split
    · split
      · exact State.modTap_butTaps s core k _
      · split
        · exact State.butTaps_congr (State.tapSlot_cores ..) core
        · split
          · exact (State.tapHand_butTaps ..).trans ((State.modTap_butTaps ..).trans (State.butTaps_congr (State.tapSlot_cores ..) core))
          · exact (State.modTap_butTaps ..).trans (State.butTaps_congr (State.tapSlot_cores ..) core)
    · rfl

/-- A core with every port of its Orrery as at reset: what a port's giving up of an increment leaves of the core. -/
def Core.butPorts (c : Core) : Core := { c with orr := { c.orr with ports := Core.reset.orr.ports } }

theorem State.portTake_butPorts (s : State) (core : CoreId) (p : Fin 16) : ((s.portTake core p).cores[core]).butPorts = (s.cores[core]).butPorts := by
  unfold State.portTake
  dsimp only
  split
  · rw [State.modOrr_self]
    rfl
  · split <;> rfl

/-- What every step of a run over a list keeps, the whole run keeps. -/
theorem State.foldl_keeps {α β : Type} {get : State → β} {f : State → α → State} (h : ∀ s x, get (f s x) = get s) (l : List α) (s : State) :
    get (l.foldl f s) = get s := by
  induction l generalizing s with
  | nil => rfl
  | cons x l ih => rw [List.foldl_cons, ih, h]

/-! ### Domains that halt, and an increment overrun (07 R146, R151) -/

/-- A domain of a core's Orrery halted. -/
def Core.haltOf (c : Core) (d : Fin 4) : Core := { c with orr := c.orr.modDom d (fun x => { x with run := false }) }

theorem vmod_eq_self {α : Type} {n : Nat} (v : Vector α n) {i : Fin n} {f : α → α} (h : f v[i] = v[i]) : vmod v i f = v := by
  rw [vmod, vset, h]
  exact Vector.set_getElem_self _

theorem Core.haltOf_halted {c : Core} {d : Fin 4} (h : (c.orr.doms[d]).run = false) : c.haltOf d = c := by
  have hd : ({ c.orr.doms[d] with run := false } : Dom) = c.orr.doms[d] := by rw [← h]
  rw [Core.haltOf, Orrery.modDom, vmod_eq_self _ hd]

/-- A domain that is halted, or is among those that halt, is halted after them. -/
theorem Core.foldl_haltOf_run {d : Fin 4} (ds : List (Fin 4)) (c : Core) (h : d ∈ ds ∨ (c.orr.doms[d]).run = false) :
    ((ds.foldl Core.haltOf c).orr.doms[d]).run = false := by
  induction ds generalizing c with
  | nil => exact h.resolve_left (List.not_mem_nil)
  | cons e ds ih =>
    refine ih _ ?_
    by_cases he : d = e
    · right
      subst he
      exact congrArg Dom.run (vset_self _ _ _)
    · refine (h.imp (fun hm => (List.mem_cons.1 hm).resolve_left he) fun hr => ?_)
      exact (congrArg Dom.run (vset_ne _ _ he)).trans hr

/-- Halting touches domains alone. -/
theorem Core.foldl_haltOf_kept (ds : List (Fin 4)) (c : Core) : let k := ds.foldl Core.haltOf c
    k.orr.cells = c.orr.cells ∧ k.orr.fifos = c.orr.fifos ∧ k.orr.ports = c.orr.ports ∧ k.causes = c.causes := by
  induction ds generalizing c with
  | nil => exact ⟨rfl, rfl, rfl, rfl⟩
  | cons e ds ih => exact ih (c.haltOf e)

theorem Orrery.flushLate_nil {o : Orrery} (h : o.late = []) : o.flushLate = o := by
  simp only [Orrery.flushLate, h, List.foldl_nil]
  rw [← h]

section
variable {s : State} {core : CoreId} (hl : (s.cores[core]).orr.late = [])
include hl

theorem State.haltDom_butTaps (d : Fin 4) : ((s.haltDom core d).cores[core]).butTaps = ((s.cores[core]).haltOf d).butTaps := by
  unfold State.haltDom
  dsimp only
  split
  · refine (State.foldl_keeps (get := fun s => (s.cores[core]).butTaps) (fun s k => ?_) _ _).trans ?_
    · split
      · exact State.tapFlush_butTaps s core k
      · rfl
    · rw [State.modOrr_self, Orrery.flushLate_nil hl]
      rfl
  · next hr => rw [Core.haltOf_halted (Bool.eq_false_iff.2 hr)]

theorem State.haltDoms_butTaps (ds : List (Fin 4)) : ((s.haltDoms core ds).cores[core]).butTaps = ds.foldl Core.haltOf (s.cores[core]).butTaps := by
  induction ds generalizing s with
  | nil => rfl
  | cons d ds ih =>
    have hd := State.haltDom_butTaps hl d
    have hl' : ((s.haltDom core d).cores[core]).orr.late = [] := (congrArg (fun c : Core => c.orr.late) hd).trans hl
    exact (ih hl').trans (congrArg (ds.foldl Core.haltOf) hd)

/-- With some of its domains halted a core is as before, but for its domains and taps. -/
theorem State.haltDoms_core {ds : List (Fin 4)} {c : Core} (hc : (s.haltDoms core ds).cores[core] = c) :
    c.orr.cells = (s.cores[core]).orr.cells ∧ c.orr.fifos = (s.cores[core]).orr.fifos ∧ c.orr.ports = (s.cores[core]).orr.ports ∧
      c.causes = (s.cores[core]).causes ∧ ∀ d ∈ ds, (c.orr.doms[d]).run = false := by
  subst hc
  have h : ((s.haltDoms core ds).cores[core]).butTaps = ds.foldl Core.haltOf (s.cores[core]).butTaps := State.haltDoms_butTaps hl ds
  obtain ⟨hc, hf, hp, hs⟩ := Core.foldl_haltOf_kept ds (s.cores[core]).butTaps
  rw [← h] at hc hf hp hs
  exact ⟨hc, hf, hp, hs, fun d hd => (congrArg (fun c : Core => (c.orr.doms[d]).run) h).trans (Core.foldl_haltOf_run ds _ (.inl hd))⟩

end

/-- An overrun leaves on its core the halted domains with OVR set, and its cause. -/
theorem State.overrun_core {s : State} {core : CoreId} (x : Over) {c : Core} (hc : (s.haltDoms core (List.finRange 4)).cores[core] = c) :
    (s.overrun core x).cores[core] = { c with
      orr := { c.orr with doms := c.orr.doms.map (fun d => { d with ovr := true, once := 0 }) }
      causes := c.causes ++ [{ code := 0x10, i0 := BitVec.ofNat 64 x.2.2, i1 := BitVec.ofNat 64 (x.1 * 2 + x.2.1), async := true }] } := by
  refine (State.modCore_self _ _ _).trans ?_
  rw [State.modOrr_self, hc]

/-- An overrun leaves its core as it was, but for its halted domains, its taps and the cause. -/
theorem State.overrun_kept {s : State} {core : CoreId} (hl : (s.cores[core]).orr.late = []) {x : Over} {k : Core}
    (hk : (s.overrun core x).cores[core] = k) :
    k.orr.cells = (s.cores[core]).orr.cells ∧ k.orr.fifos = (s.cores[core]).orr.fifos ∧ k.orr.ports = (s.cores[core]).orr.ports ∧
      (∀ d : Fin 4, (k.orr.doms[d]).run = false ∧ (k.orr.doms[d]).ovr = true) ∧ k.causes = (s.cores[core]).causes ++
        [{ code := 0x10, i0 := BitVec.ofNat 64 x.2.2, i1 := BitVec.ofNat 64 (x.1 * 2 + x.2.1), async := true }] := by
  generalize hc : (s.haltDoms core (List.finRange 4)).cores[core] = c
  obtain ⟨hcells, hfifos, hports, hcauses, hrun⟩ := State.haltDoms_core hl hc
  rw [State.overrun_core x hc] at hk
  subst hk
  refine ⟨hcells, hfifos, hports, fun d => ?_, congrArg (· ++ _) hcauses⟩
  simp only [Fin.getElem_fin, Vector.getElem_map]
  exact ⟨hrun d (List.mem_finRange d), trivial⟩

end Sys2Proof.Machine
end

section
/-! PROOFS. A step of the Orrery: what its cells read and make, what it takes and pushes, its overruns and what it commits (07 R143 to R151); streams
and ticks together. -/

namespace Sys2Proof.Machine

open Sys2Proof

/-! ### Lists of keys and values, and updates of places -/

/-- A key that stands with one value only is found with it. -/
theorem find?_key {α β : Type} [DecidableEq α] {l : List (α × β)} {k : α} {v : β} (h : (k, v) ∈ l) (hu : ∀ w, (k, w) ∈ l → w = v) :
    l.find? (fun x => x.1 == k) = some (k, v) := by
  cases hf : l.find? (fun x => x.1 == k) with
  | none => exact absurd (List.find?_eq_none.1 hf _ h) (by simp)
  | some x =>
    obtain ⟨j, w⟩ := x
    obtain rfl : j = k := by simpa using List.find?_some hf
    rw [hu w (List.mem_of_find?_eq_some hf)]

theorem value_unique {α β : Type} {l : List (α × β)} (hn : (l.map (·.1)).Nodup) {k : α} {v w : β} (hv : (k, v) ∈ l) (hw : (k, w) ∈ l) : w = v :=
  (Prod.mk.inj (List.inj_on_of_nodup_map hn hw hv rfl)).2

/-- Updates of distinct places: one that is not among them stays, and each of them is updated once. -/
theorem foldl_vmod_ne {α β : Type} {n : Nat} {i : α → Fin n} {g : α → β → β} {j : Fin n} (l : List α) (v : Vector β n) (h : ∀ x ∈ l, i x ≠ j) :
    (l.foldl (fun v x => vmod v (i x) (g x)) v)[j] = v[j] := by
  induction l generalizing v with
  | nil => rfl
  | cons x l ih =>
    rw [List.foldl_cons, ih _ fun y hy => h y (List.mem_cons_of_mem x hy)]
    exact vset_ne _ _ (h x List.mem_cons_self).symm

theorem foldl_vmod_mem {α β : Type} {n : Nat} {i : α → Fin n} {g : α → β → β} {l : List α} (v : Vector β n) (hn : (l.map i).Nodup) {x : α} (h : x ∈ l) :
    (l.foldl (fun v x => vmod v (i x) (g x)) v)[i x] = g x v[i x] := by
  induction l generalizing v with
  | nil => cases h
  | cons y l ih =>
    rw [List.map_cons, List.nodup_cons] at hn
    rw [List.foldl_cons]
    obtain rfl | h := List.mem_cons.1 h
    · rw [foldl_vmod_ne l _ fun z hz e => hn.1 (List.mem_map.2 ⟨z, hz, e⟩)]
      exact vset_self _ _ _
    · rw [ih _ hn.2 h]
      exact congrArg (g x) (vset_ne _ _ fun e => hn.1 (List.mem_map.2 ⟨x, h, e⟩))

/-! ### Crossing FIFOs (07 R148, R154) -/

/-- Each pair of different domains has a FIFO of its own. -/
theorem fifoIdx_inj {a b c d : Fin 4} (hab : a ≠ b) (hcd : c ≠ d) (h : fifoIdx a b = fifoIdx c d) : a = c ∧ b = d := by
  revert a b c d
  decide

theorem mem_pushPairs {go : List (Fin 4)} {a b : Fin 4} : (a, b) ∈ pushPairs go ↔ a ∈ go ∧ b ≠ a := by
  simp [pushPairs]
  
theorem pushPairs_nodup {go : List (Fin 4)} (h : go.Nodup) : (pushPairs go).Nodup := by
  refine List.nodup_flatMap.2 ⟨fun a _ => ((List.nodup_finRange 4).filter _).map fun b c e => (Prod.mk.inj e).2, h.imp fun hab => ?_⟩
  rintro ⟨c, d⟩ hc hd
  simp only [List.mem_map, Prod.mk.injEq] at hc hd
  obtain ⟨_, _, rfl, _⟩ := hc
  obtain ⟨_, _, rfl, _⟩ := hd
  exact hab rfl

/-- What feeds the stepping domains: the oldest entries of the FIFOs into them. -/
def Orrery.feeds (o : Orrery) (go : List (Fin 4)) : List (Nat × List (Nat × Int)) :=
  go.flatMap (fun b => ((List.finRange 4).filter (· != b)).filterMap (fun a => ((o.fifos[fifoIdx a b]).head?).map (fun e => ((fifoIdx a b).val, e))))

theorem Orrery.mem_feeds {o : Orrery} {go : List (Fin 4)} {k : Nat} {e : List (Nat × Int)} : (k, e) ∈ o.feeds go ↔
    ∃ a b, a ≠ b ∧ b ∈ go ∧ k = (fifoIdx a b).val ∧ (o.fifos[fifoIdx a b]).head? = some e := by
  simp only [Orrery.feeds, List.mem_flatMap, List.mem_filterMap, List.mem_filter, List.mem_finRange, true_and, Option.map_eq_some_iff, Prod.mk.injEq, bne_iff_ne]
  constructor
  · rintro ⟨b, hb, a, hab, e, he, rfl, rfl⟩
    exact ⟨a, b, hab, hb, rfl, he⟩
  · rintro ⟨a, b, hab, hb, rfl, he⟩
    exact ⟨b, hb, a, hab, e, he, rfl, rfl⟩

theorem Orrery.mem_feeds_fifo {o : Orrery} {go : List (Fin 4)} {a b : Fin 4} {e : List (Nat × Int)} (hab : a ≠ b) :
    ((fifoIdx a b).val, e) ∈ o.feeds go ↔ b ∈ go ∧ (o.fifos[fifoIdx a b]).head? = some e := by
  rw [Orrery.mem_feeds]
  constructor
  · rintro ⟨c, d, hcd, hd, hk, he⟩
    obtain ⟨rfl, rfl⟩ := fifoIdx_inj hab hcd (Fin.ext hk)
    exact ⟨hd, he⟩
  · rintro ⟨hb, he⟩
    exact ⟨a, b, hab, hb, rfl, he⟩

theorem Orrery.feeds_any {o : Orrery} {go : List (Fin 4)} {a b : Fin 4} (hab : a ≠ b) :
    (o.feeds go).any (fun x => x.1 == (fifoIdx a b).val) = true ↔ b ∈ go ∧ (o.fifos[fifoIdx a b]).head?.isSome = true := by
  simp only [List.any_eq_true, Prod.exists, beq_iff_eq, Option.isSome_iff_exists]
  constructor
  · rintro ⟨k, e, he, rfl⟩
    exact ⟨((Orrery.mem_feeds_fifo hab).1 he).1, e, ((Orrery.mem_feeds_fifo hab).1 he).2⟩
  · rintro ⟨hb, e, he⟩
    exact ⟨_, e, (Orrery.mem_feeds_fifo hab).2 ⟨hb, he⟩, rfl⟩

/-- A FIFO once the stepping domains have taken its oldest entry. -/
def Orrery.fed (o : Orrery) (go : List (Fin 4)) (a b : Fin 4) : List (List (Nat × Int)) :=
  if b ∈ go then (o.fifos[fifoIdx a b]).tail else o.fifos[fifoIdx a b]

/-- What a FIFO holds beside the entry that is taken from it. -/
theorem Orrery.fed_length {o : Orrery} {go : List (Fin 4)} {a b : Fin 4} (hab : a ≠ b) : (o.fifos[fifoIdx a b]).length -
    (if (o.feeds go).any (fun x => x.1 == (fifoIdx a b).val) then 1 else 0) = (o.fed go a b).length := by
  simp only [Orrery.feeds_any hab, Orrery.fed]
  by_cases hb : b ∈ go
  · cases o.fifos[fifoIdx a b] <;> simp [hb]
  · simp [hb]

/-! ### What a step takes in (07 R144, R148, R149) -/

/-- The domain of cell `k` is among those that step. -/
def TickIn.steps (t : TickIn) (k : Nat) : Prop := ∃ d ∈ t.go, d.val = domOf k

/-- The ports that the stepping domains read. -/
def State.tickPorts (s : State) (core : CoreId) (go : List (Fin 4)) : List (Fin 16) := (go.flatMap (s.cores[core]).orr.domPorts).eraseDups

/-- What the stepping domains take: an increment of each of those ports, and what feeds them. -/
def State.tickIn (s : State) (core : CoreId) (go : List (Fin 4)) : TickIn :=
  { go := go, incs := (s.tickPorts core go).map (fun p => (p.val, (s.portNext core p).getD 0)), took := (s.cores[core]).orr.feeds go }

section
variable {s : State} {core : CoreId} {go : List (Fin 4)}

theorem State.tickIn_port {p : Fin 16} (h : p ∈ s.tickPorts core go) : (s.tickIn core go).port (528 + p.val) = (s.portNext core p).getD 0 := by
  have hf : (s.tickIn core go).incs.find? (fun x => x.1 == p.val) = some (p.val, (s.portNext core p).getD 0) := by
    refine find?_key (List.mem_map_of_mem (f := fun p => (p.val, (s.portNext core p).getD 0)) h) fun w hw => ?_
    obtain ⟨q, _, hq⟩ := List.mem_map.1 hw
    obtain ⟨hqp, rfl⟩ := Prod.mk.inj hq
    rw [Fin.ext hqp]
  rw [TickIn.port, Nat.add_sub_cancel_left, hf]
  rfl

/-- The increment of a cell of another domain is what that domain's oldest entry holds for it. -/
theorem State.tickIn_foreign {a b : Fin 4} (hab : a ≠ b) (hb : b ∈ go) (cell : Nat) : (s.tickIn core go).foreign a b cell =
    (((s.cores[core]).orr.fifos[fifoIdx a b]).head?).elim 0 (fun e => sget 0 e cell) := by
  have ht : (s.tickIn core go).took = (s.cores[core]).orr.feeds go := rfl
  unfold TickIn.foreign
  rw [ht]
  cases he : ((s.cores[core]).orr.fifos[fifoIdx a b]).head? with
  | none =>
    have hn : ¬((s.cores[core]).orr.feeds go).any (fun x => x.1 == (fifoIdx a b).val) = true := fun h =>
      Option.isSome_iff_ne_none.1 ((Orrery.feeds_any hab).1 h).2 he
    rw [List.find?_eq_none.2 fun x hx hk => hn (List.any_eq_true.2 ⟨x, hx, hk⟩)]
    rfl
  | some e =>
    rw [find?_key ((Orrery.mem_feeds_fifo hab).2 ⟨hb, he⟩) fun w hw => Option.some.inj (((Orrery.mem_feeds_fifo hab).1 hw).2.symm.trans he)]
    rfl

end

/-! ### Phase 1 (07 R144, R145) -/

section
variable {o : Orrery} {t : TickIn}

theorem dxVal_cell {c : Cell} (h : c.dx.toNat < 512) : dxVal o t c = (o.cell c.dx.toNat).dz := if_pos h

theorem dxVal_one {c : Cell} (h : 512 ≤ c.dx.toNat) (h' : c.dx.toNat < 516) : dxVal o t c = 1 :=
  (if_neg h.not_gt).trans (if_pos h')

theorem dxVal_none {c : Cell} (h : c.dx = 0x3FF) : dxVal o t c = 0 := by
  rw [dxVal, h]
  rfl

theorem dxVal_port {c : Cell} (h : 528 ≤ c.dx.toNat) (h' : c.dx.toNat < 544) : dxVal o t c = t.port c.dx.toNat := by
  rw [dxVal, if_neg (by omega), if_neg (by omega), if_neg (by omega)]

theorem mem_phase1All {k : Nat} {y : Cell × Int × BitVec 32} :
    (k, y) ∈ phase1All o t ↔ ∃ c, (k, c) ∈ o.cells ∧ t.steps k ∧ y = (c, phase1 o t c) := by
  simp only [phase1All, List.mem_map, List.mem_filter, List.any_eq_true, beq_iff_eq, Prod.exists, Prod.mk.injEq, TickIn.steps]
  constructor
  · rintro ⟨k, c, ⟨hc, hs⟩, rfl, rfl⟩
    exact ⟨c, hc, hs, rfl⟩
  · rintro ⟨c, hc, hs, rfl⟩
    exact ⟨k, c, ⟨hc, hs⟩, rfl, rfl⟩

theorem phase1All_find_none {k : Nat} (h : ∀ c, (k, c) ∈ o.cells → ¬t.steps k) : (phase1All o t).find? (fun x => x.1 == k) = none := by
  refine List.find?_eq_none.2 fun x hx hk => ?_
  obtain ⟨j, y⟩ := x
  obtain rfl : j = k := by simpa using hk
  obtain ⟨c, hc, hs, -⟩ := mem_phase1All.1 hx
  exact h c hc hs

/-- A cell of a domain that does not step makes no increment. -/
theorem dzMap_rests {k : Nat} (h : ∀ c, (k, c) ∈ o.cells → ¬t.steps k) : dzMap (phase1All o t) k = 0 := by
  rw [dzMap, phase1All_find_none h]
  rfl

section
variable (hn : (o.cells.map (·.1)).Nodup) {k : Nat} {c : Cell} (hc : (k, c) ∈ o.cells) (hs : t.steps k)
include hn hc hs

theorem phase1All_find : (phase1All o t).find? (fun x => x.1 == k) = some (k, c, phase1 o t c) := by
  refine find?_key (mem_phase1All.2 ⟨c, hc, hs, rfl⟩) fun w hw => ?_
  obtain ⟨c', hc', -, rfl⟩ := mem_phase1All.1 hw
  rw [value_unique hn hc hc']

theorem dzMap_steps : dzMap (phase1All o t) k = (phase1 o t c).1 := by
  rw [dzMap, phase1All_find hn hc hs]
  rfl

end

end

/-! ### Pushes (07 R148) -/

theorem domFin_eq {k : Nat} {a : Fin 4} (hk : k < 512) : domFin k = a ↔ k / 128 = a.val := by
  rw [Fin.ext_iff, domFin, domOf, Fin.val_ofNat, Nat.mod_eq_of_lt (by omega)]

/-- The cells of domain a are 128 in a row. -/
theorem cellOf_iff {k : Nat} {a : Fin 4} : (∃ i < 128, i + 128 * a.val = k) ↔ k < 512 ∧ domFin k = a := by
  constructor
  · rintro ⟨i, hi, rfl⟩
    exact ⟨by omega, (domFin_eq (by omega)).2 (by omega)⟩
  · rintro ⟨hk, hd⟩
    have := (domFin_eq hk).1 hd
    exact ⟨k % 128, by omega, by omega⟩

theorem Orrery.mem_named {o : Orrery} {a b : Fin 4} {k : Nat} : k ∈ o.named a b ↔
    (k < 512 ∧ domFin k = a) ∧ ∃ e ∈ o.cells, domFin e.1 = b ∧ ∃ term ∈ e.2.dy, term.toNat % 1024 = k := by
  simp only [Orrery.named, List.mem_filter, List.mem_map, List.mem_range, List.any_eq_true, Bool.and_eq_true, beq_iff_eq, cellOf_iff]

/-- A domain pushes the increments, other than 0, of those of its cells that a dy term of the other domain names. -/
theorem mem_pushOf {o : Orrery} {dz : Nat → Int} {a b : Fin 4} {k : Nat} {z : Int} : (k, z) ∈ pushOf o dz a b ↔
    k < 512 ∧ domFin k = a ∧ z = dz k ∧ z ≠ 0 ∧ ∃ e ∈ o.cells, domFin e.1 = b ∧ ∃ term ∈ e.2.dy, term.toNat % 1024 = k := by
  simp only [pushOf, List.mem_filter, List.mem_map, Orrery.mem_named, bne_iff_ne]
  constructor
  · rintro ⟨⟨j, ⟨⟨hk, hd⟩, he⟩, hj⟩, hz⟩
    obtain ⟨rfl, rfl⟩ := Prod.mk.inj hj
    exact ⟨hk, hd, rfl, hz, he⟩
  · rintro ⟨hk, hd, rfl, hz, he⟩
    exact ⟨⟨k, ⟨⟨hk, hd⟩, he⟩, rfl⟩, hz⟩

/-! ### Overruns (07 R151) -/

section
variable {o : Orrery} {t : TickIn}

/-- A new integrand lies outside 32 bits. -/
def overflows (y : Int) : Prop := y < -2147483648 ∨ 2147483647 < y

theorem mem_overruns_cell {d k : Nat} : (d, 0, k) ∈ overruns o t (phase1All o t) ↔ d = domOf k ∧ t.steps k ∧
    ∃ c, (k, c) ∈ o.cells ∧ overflows (newY t (dzMap (phase1All o t)) (domFin k) c) := by
  simp only [overruns, List.mem_append, List.mem_filterMap]
  constructor
  · rintro (⟨⟨j, y⟩, hx, h⟩ | ⟨⟨a, b⟩, -, h⟩)
    · obtain ⟨c, hc, hs, rfl⟩ := mem_phase1All.1 hx
      split at h
      · next ho =>
        obtain ⟨rfl, -, rfl⟩ : domOf j = d ∧ 0 = 0 ∧ j = k := by simpa using h
        exact ⟨rfl, hs, c, hc, ho⟩
      · cases h
    · split at h
      · cases h
      · split at h <;> simp at h
  · rintro ⟨rfl, hs, c, hc, ho⟩
    exact .inl ⟨(k, c, phase1 o t c), mem_phase1All.2 ⟨c, hc, hs, rfl⟩, if_pos ho⟩

/-- A push meets a FIFO that has no room for it beside the entry taken from it. -/
theorem mem_overruns_push (ht : t.took = o.feeds t.go) {d k : Nat} : (d, 1, k) ∈ overruns o t (phase1All o t) ↔ ∃ a ∈ t.go, ∃ b, b ≠ a ∧
    d = a.val ∧ (pushOf o (dzMap (phase1All o t)) a b).head?.map (·.1) = some k ∧ 15 ≤ (o.fed t.go a b).length := by
  simp only [overruns, List.mem_append, List.mem_filterMap, ht]
  constructor
  · rintro (⟨x, -, h⟩ | ⟨⟨a, b⟩, hab, h⟩)
    · split at h <;> simp at h
    · obtain ⟨ha, hb⟩ := mem_pushPairs.1 hab
      rw [Orrery.fed_length hb.symm] at h
      split at h
      · cases h
      · next c z l hp =>
        split at h
        · next hl =>
          obtain ⟨rfl, -, rfl⟩ : a.val = d ∧ 1 = 1 ∧ c = k := by simpa using h
          exact ⟨a, ha, b, hb, rfl, by rw [hp]; rfl, hl⟩
        · cases h
  · rintro ⟨a, ha, b, hb, rfl, hp, hl⟩
    refine .inr ⟨(a, b), mem_pushPairs.2 ⟨ha, hb⟩, ?_⟩
    dsimp only
    rw [Orrery.fed_length hb.symm]
    cases hq : pushOf o (dzMap (phase1All o t)) a b with
    | nil => simp [hq] at hp
    | cons y l =>
      obtain rfl : y.1 = k := by simpa [hq] using hp
      exact if_pos hl

end

theorem overLess_asymm {x y : Over} (h : overLess x y = true) : overLess y x = false := by
  simp only [overLess, Bool.or_eq_true, Bool.and_eq_true, decide_eq_true_eq, beq_iff_eq, Bool.or_eq_false_iff, Bool.and_eq_false_iff,
    decide_eq_false_iff_not, beq_eq_false_iff_ne] at h ⊢
  omega

theorem leastOver_eq_none {l : List Over} : leastOver l = none ↔ l = [] := by
  cases l with
  | nil => exact ⟨fun _ => rfl, fun _ => rfl⟩
  | cons x l =>
    refine ⟨fun h => ?_, fun h => nomatch h⟩
    unfold leastOver at h
    split at h
    · cases h
    · split at h <;> cases h

theorem leastOver_mem {l : List Over} {x : Over} (h : leastOver l = some x) : x ∈ l := by
  induction l with
  | nil => cases h
  | cons y l ih =>
    unfold leastOver at h
    split at h
    · exact Option.some.inj h ▸ List.mem_cons_self
    · next z hz =>
      split at h
      · exact List.mem_cons_of_mem _ (ih (hz.trans h))
      · exact Option.some.inj h ▸ List.mem_cons_self

/-- The overrun that comes before every other is the one acted on. -/
theorem leastOver_eq {l : List Over} {x : Over} (hx : x ∈ l) (hl : ∀ y ∈ l, y ≠ x → overLess x y = true) : leastOver l = some x := by
  induction l with
  | nil => cases hx
  | cons y l ih =>
    have ih' (h : x ∈ l) : leastOver l = some x := ih h fun z hz => hl z (List.mem_cons_of_mem y hz)
    unfold leastOver
    split
    · next hn =>
      rw [leastOver_eq_none.1 hn] at hx
      rw [List.mem_singleton.1 hx]
    · next z hz =>
      by_cases hxl : x ∈ l
      · obtain rfl : x = z := Option.some.inj ((ih' hxl).symm.trans hz)
        by_cases hy : y = x
        · rw [hy, ite_self]
        · exact if_pos (hl y List.mem_cons_self hy)
      · obtain rfl : x = y := (List.mem_cons.1 hx).resolve_right hxl
        have hzl := leastOver_mem hz
        have hzx : z ≠ x := fun e => hxl (e ▸ hzl)
        exact if_neg (Bool.eq_false_iff.1 (overLess_asymm (hl z (List.mem_cons_of_mem x hzl) hzx)))

/-! ### What a step commits (07 R145, R148) -/

section
variable {o : Orrery} {t : TickIn}

/-- A cell after its domain has stepped. -/
def steppedCell (o : Orrery) (t : TickIn) (k : Nat) (c : Cell) : Cell :=
  { c with y := BitVec.ofInt 32 (newY t (dzMap (phase1All o t)) (domFin k) c), res := (phase1 o t c).2, dz := (phase1 o t c).1 }

theorem commitCells_eq (hn : (o.cells.map (·.1)).Nodup) : commitCells o t (phase1All o t) =
    (o.cells.map (fun e => (e.1, if t.go.any (fun d => d.val == domOf e.1) then steppedCell o t e.1 e.2 else e.2))).filter
      (fun e => e.2 != Cell.empty) := by
  unfold commitCells
  refine congrArg (List.filter _) (List.map_congr_left fun e he => ?_)
  by_cases hs : t.steps e.1
  · rw [phase1All_find hn he hs, if_pos (by simpa [TickIn.steps] using hs)]
    rfl
  · rw [phase1All_find_none fun _ _ => hs, if_neg (by simpa [TickIn.steps] using hs)]

/-- What a domain's step appends to a FIFO. -/
def pushedTo (o : Orrery) (dz : Nat → Int) (a b : Fin 4) : List (List (Nat × Int)) := if pushOf o dz a b = [] then [] else [pushOf o dz a b]

/-- The entries that feed the step leave their FIFOs. -/
theorem foldl_feeds (go : List (Fin 4)) : (o.feeds go).foldl (fun f x => vmod f (Fin.ofNat 12 x.1) List.tail) o.fifos =
    (pushPairs go).foldl (fun f p => vmod f (fifoIdx p.2 p.1) (fun q => if (o.fifos[fifoIdx p.2 p.1]).head?.isSome then q.tail else q)) o.fifos := by
  have hp : o.feeds go = (pushPairs go).filterMap (fun p => ((o.fifos[fifoIdx p.2 p.1]).head?).map (fun e => ((fifoIdx p.2 p.1).val, e))) := by
    simp only [Orrery.feeds, pushPairs, List.filterMap_flatMap, List.filterMap_map]
    rfl
  rw [hp, List.foldl_filterMap]
  refine congrArg (fun g => List.foldl g o.fifos (pushPairs go)) (funext fun f => funext fun p => ?_)
  cases he : (o.fifos[fifoIdx p.2 p.1]).head? with
  | none => exact (vmod_eq_self f rfl).symm
  | some e => exact congrArg (fun i => vmod f i List.tail) (Fin.ext (Nat.mod_eq_of_lt (fifoIdx p.2 p.1).isLt))

/-- The pushes go to the ends of their FIFOs. -/
theorem commitFifos_foldl (dz : Nat → Int) : commitFifos o t dz =
    (pushPairs t.go).foldl (fun f p => vmod f (fifoIdx p.1 p.2) (fun q => q ++ pushedTo o dz p.1 p.2))
      (t.took.foldl (fun f x => vmod f (Fin.ofNat 12 x.1) List.tail) o.fifos) := by
  refine congrArg (fun g => List.foldl g _ (pushPairs t.go)) (funext fun f => funext fun p => ?_)
  cases he : pushOf o dz p.1 p.2 with
  | nil => exact (vmod_eq_self f (by rw [pushedTo, if_pos he, List.append_nil])).symm
  | cons x l =>
    rw [pushedTo, he]
    rfl

theorem pushPairs_out_nodup {go : List (Fin 4)} (h : go.Nodup) : ((pushPairs go).map (fun p => fifoIdx p.1 p.2)).Nodup := by
  refine (pushPairs_nodup h).map_on fun p hp q hq e => ?_
  obtain ⟨h1, h2⟩ := fifoIdx_inj (mem_pushPairs.1 hp).2.symm (mem_pushPairs.1 hq).2.symm e
  exact Prod.ext h1 h2

theorem pushPairs_in_nodup {go : List (Fin 4)} (h : go.Nodup) : ((pushPairs go).map (fun p => fifoIdx p.2 p.1)).Nodup := by
  refine (pushPairs_nodup h).map_on fun p hp q hq e => ?_
  obtain ⟨h2, h1⟩ := fifoIdx_inj (mem_pushPairs.1 hp).2 (mem_pushPairs.1 hq).2 e
  exact Prod.ext h1 h2

section
variable (hg : t.go.Nodup) {a b : Fin 4} (hab : a ≠ b)
include hg hab

theorem foldl_feeds_apply :
    ((o.feeds t.go).foldl (fun f x => vmod f (Fin.ofNat 12 x.1) List.tail) o.fifos)[fifoIdx a b] = o.fed t.go a b := by
  rw [foldl_feeds]
  by_cases hb : b ∈ t.go
  · refine (foldl_vmod_mem o.fifos (pushPairs_in_nodup hg) (mem_pushPairs.2 ⟨hb, hab⟩)).trans ?_
    rw [Orrery.fed, if_pos hb]
    dsimp only
    cases o.fifos[fifoIdx a b] <;> rfl
  · rw [Orrery.fed, if_neg hb]
    refine foldl_vmod_ne _ _ fun p hp e => hb ?_
    obtain ⟨hp1, hp2⟩ := mem_pushPairs.1 hp
    exact (fifoIdx_inj hp2 hab e).2 ▸ hp1

/-- A FIFO after a step: without the entry taken from it, and with the one pushed to it. -/
theorem commitFifos_apply (ht : t.took = o.feeds t.go) (dz : Nat → Int) : (commitFifos o t dz)[fifoIdx a b] =
    o.fed t.go a b ++ (if a ∈ t.go ∧ pushOf o dz a b ≠ [] then [pushOf o dz a b] else []) := by
  rw [commitFifos_foldl, ht]
  by_cases ha : a ∈ t.go
  · refine (foldl_vmod_mem _ (pushPairs_out_nodup hg) (mem_pushPairs.2 ⟨ha, hab.symm⟩)).trans ?_
    rw [foldl_feeds_apply hg hab]
    simp only [pushedTo, ha, true_and, ne_eq, ite_not]
  · rw [if_neg (fun h => ha h.1), List.append_nil, ← foldl_feeds_apply hg hab]
    refine foldl_vmod_ne _ _ fun p hp e => ha ?_
    obtain ⟨hp1, hp2⟩ := mem_pushPairs.1 hp
    exact (fifoIdx_inj hp2.symm hab e).1 ▸ hp1

end

end

section
variable {s : State} {core : CoreId} {go : List (Fin 4)}

/-- The overruns of a step. -/
def State.tickOvers (s : State) (core : CoreId) (go : List (Fin 4)) : List Over :=
  overruns (s.cores[core]).orr (s.tickIn core go) (phase1All (s.cores[core]).orr (s.tickIn core go))

/-- The state in which the ports have given up their increments and the cells and FIFOs have stepped. -/
def State.cellsStepped (s : State) (core : CoreId) (go : List (Fin 4)) : State :=
  let o := (s.cores[core]).orr
  let t := s.tickIn core go
  ((s.tickPorts core go).foldl (fun s p => s.portTake core p) s).modOrr core (fun o' =>
    { o' with cells := commitCells o t (phase1All o t), fifos := commitFifos o t (dzMap (phase1All o t)) })

/-- The state in which the taps of the stepping domains have acted too. -/
def State.tapsActed (s : State) (core : CoreId) (go : List (Fin 4)) : State :=
  let o := (s.cores[core]).orr
  (List.finRange 16).foldl (fun u k => if go.any (fun d => d.val == domOf (o.taps[k]).cell)
    then u.tapAct core k (dzMap (phase1All o (s.tickIn core go))) else u) (s.cellsStepped core go)

theorem State.orrStep_overruns {x : Over} (h : leastOver (s.tickOvers core go) = some x) : s.orrStep core go = s.overrun core x := by
  unfold State.orrStep
  dsimp only
  split
  · next y hy => rw [Option.some.inj (hy.symm.trans h)]
  · next hn => exact nomatch hn.symm.trans h

theorem State.orrStep_commits (h : s.tickOvers core go = []) : s.orrStep core go =
    (s.tapsActed core go).modOrr core (fun o => { o with doms := Vector.ofFn (fun d => (o.doms[d]).after (go.contains d)) }) := by
  have h : leastOver (s.tickOvers core go) = none := leastOver_eq_none.2 h
  unfold State.orrStep
  dsimp only
  split
  · next y hy => exact nomatch hy.symm.trans h
  · rfl

theorem State.cellsStepped_orr : let o := (s.cores[core]).orr
    let t := s.tickIn core go
    let n := ((s.cellsStepped core go).cores[core]).orr
    n.cells = commitCells o t (phase1All o t) ∧ n.fifos = commitFifos o t (dzMap (phase1All o t)) ∧ n.doms = o.doms := by
  intro o t n
  have hp := State.foldl_keeps (get := fun s => (s.cores[core]).butPorts) (fun s p => s.portTake_butPorts core p) (s.tickPorts core go) s
  have hd : (((s.tickPorts core go).foldl (fun s p => s.portTake core p) s).cores[core]).orr.doms = o.doms :=
    (congrArg (fun c : Core => c.orr.doms) hp :)
  have hn : n = _ := congrArg Core.orr (State.modOrr_self _ _ _)
  rw [hn]
  exact ⟨rfl, rfl, hd⟩

theorem State.tapsActed_butTaps : ((s.tapsActed core go).cores[core]).butTaps = ((s.cellsStepped core go).cores[core]).butTaps := by
  refine State.foldl_keeps (get := fun s => (s.cores[core]).butTaps) (fun u k => ?_) _ _
  split
  · exact u.tapAct_butTaps core k _
  · rfl

/-- A step without an overrun commits its cells and FIFOs, and every domain goes on by whether it stepped. -/
theorem State.orrStep_orr (h : s.tickOvers core go = []) : let o := (s.cores[core]).orr
    let t := s.tickIn core go
    let n := ((s.orrStep core go).cores[core]).orr
    n.cells = commitCells o t (phase1All o t) ∧ n.fifos = commitFifos o t (dzMap (phase1All o t)) ∧
      ∀ d : Fin 4, n.doms[d] = (o.doms[d]).after (go.contains d) := by
  intro o t n
  obtain ⟨hc, hf, hd⟩ := State.cellsStepped_orr (s := s) (core := core) (go := go)
  have ht := State.tapsActed_butTaps (s := s) (core := core) (go := go)
  have hn : n = _ := congrArg (fun s : State => (s.cores[core]).orr) (State.orrStep_commits h)
  rw [hn, State.modOrr_self]
  refine ⟨(congrArg (fun c : Core => c.orr.cells) ht).trans hc, (congrArg (fun c : Core => c.orr.fifos) ht).trans hf, fun d => ?_⟩
  have hdoms := (congrArg (fun c : Core => c.orr.doms) ht).trans hd
  simp only [Fin.getElem_fin, Vector.getElem_ofFn]
  exact congrArg (fun v : Vector Dom 4 => (v[d]).after (go.contains d)) hdoms

end

/-- Settles O47: a controller by the kind of its ring, its messages by whether they find their turn, a tick by what holds it, a step by what its
cells make and whether one of them overruns. -/
theorem streamsAndTicksProceed : Obligations.StreamsAndTicksProceed := by
  unfold Obligations.StreamsAndTicksProceed
  refine ⟨fun s ring x r b t hsub ht => ⟨fun hm hs => ⟨fun hw => ?_, fun hw hd => ?_, fun hw hd => ?_⟩, fun bs hm hc =>
      exec_loopCountBlockReady_counts hsub hm hc, fun p hp hq => ⟨fun j bs hb => ?_, fun j hb => ?_⟩,
      fun bs gs hs hn hg h => State.slotBack_pieces hsub hs hn hg h⟩,
    fun r b g req l hb hg hr hd hl => ⟨RingSt.written_more hb hg hr hl, RingSt.written_last hb hg hr hl hd⟩,
    fun s core dom => ⟨fun rg n dl bk m hp hdl hs hw => exec_rwaitTimeout_due hp hdl hs hw, exec_orreryTick_due s core,
      exec_orreryCountEnd_done s core, Dom.steps?_iff _, fun hh => s.orrTick_holds core ((s.tickHeld_iff core).2 hh),
      fun hh => s.orrTick_steps core (mt (s.tickHeld_iff core).1 hh), s.settleTick_idle core⟩,
    fun s core go hgo => ?_, fun s core x hl => State.overrun_kept hl rfl⟩
  · rw [State.controller_block hsub ht hm hs hw]
    exact ⟨fun e => State.lcbStep_stops, State.lcbStep_asks, fun g l bs hb => State.lcbStep_sees hb⟩
  · rw [State.controller_load hsub ht hm hs hw hd]
    refine ⟨fun e => State.loadStep_stops, fun hb hx => ⟨State.loadStep_pushes hb hx, fun hi hp => ⟨fun gs hg => ?_, fun tr hg => ?_⟩⟩⟩
    · rw [State.loadStep_takesUp hb hx hi hp, State.takeUp_asks hg]
    · rw [State.loadStep_takesUp hb hx hi hp, State.takeUp_refused hg]
  · rw [State.controller_store hsub ht hm hs hw hd]
    exact ⟨fun e => State.storeStep_stops, State.storeStep_writes, fun hb hw hp => ⟨fun tr => State.storeStep_refused hb hw hp,
      State.storeStep_asks hb hw hp⟩⟩
  · exact ⟨fun ⟨hd, hf, hn⟩ => exec_streamPush_writes hsub ht hp hq hb hd hf hn, exec_streamPush_again hsub ht hp hq hb⟩
  · refine ⟨fun ⟨hd, hf, hn⟩ hj hr => ⟨fun hl => ?_, fun hl => ?_⟩, exec_streamPull_again hsub ht hp hq hb⟩
    · rw [exec_streamPull_reads hsub ht hp hq hb hd hf hn hj hr rfl, if_neg hl]
    · rw [exec_streamPull_reads hsub ht hp hq hb hd hf hn hj hr rfl, if_pos hl]
  · intro o hn ports t p1 dz steps tv inc nY overs n
    have h32 : (2 : Int) ^ 32 = 4294967296 := by norm_num
    have h31 : (2 : Int) ^ 31 = 2147483648 := by norm_num
    refine ⟨fun k c hc hs => ?_, fun k hk => dzMap_rests hk, fun c => ⟨dxVal_cell, dxVal_one, dxVal_none, dxVal_port⟩, fun p hp => State.tickIn_port hp,
      fun a b cell hab hb => ?_, fun a b k z => mem_pushOf, fun d k => ?_, fun d k => ?_, fun x hx hl => State.orrStep_overruns (leastOver_eq hx hl),
      fun ho => ?_⟩
    · rw [h32]
      exact dzMap_steps hn hc hs
    · refine (State.tickIn_foreign hab hb cell).trans ?_
      cases (o.fifos[fifoIdx a b]).head? <;> rfl
    · simp only [h31]
      exact mem_overruns_cell
    · exact mem_overruns_push rfl
    · obtain ⟨hc, hf, hd⟩ := State.orrStep_orr ho
      refine ⟨hc.trans ?_, fun a b hab => ?_, hd⟩
      · simp only [h32]
        exact commitCells_eq hn
      · rw [hf]
        exact commitFifos_apply hgo hab rfl dz

end Sys2Proof.Machine
end

section
/-! PROOFS. Orrery words: cells, ports, taps, domains and the image (07 R144, R146, R149 to R154, 12 R271 to R274). -/

namespace Sys2Proof.Machine

open Sys2Proof

/-! ### Indices, increments and changes on their way (07 R149, R152, 12 R272) -/

/-- An index below 16 names its port or tap. -/
theorem index16_eq {x : BitVec 10} {k : Fin 16} (h : x.toNat = k.val) : index16 x = some k :=
  (dif_pos (h ▸ k.isLt)).trans (congrArg some (Fin.ext h))

theorem index16_outside {x : BitVec 10} (h : 16 ≤ x.toNat) : index16 x = none := dif_neg h.not_gt

/-- The increment of a lane is its sign. -/
theorem incOf_eq_sign (x : Int) : incOf x = x.sign := by
  unfold incOf
  split
  · next hn => exact (Int.sign_eq_neg_one_of_neg hn).symm
  · next hn =>
    split
    · next hz => exact (Int.sign_eq_zero_iff_zero.2 hz).symm
    · next hz => exact (Int.sign_eq_one_of_pos (by omega)).symm

section
variable {o : Orrery} {cell : Nat} {w : OrrWrite}

theorem Orrery.write_halted (h : o.cellRuns cell = false) : o.write cell w = o.apply w := if_neg (Bool.eq_false_iff.1 h)

theorem Orrery.write_running (h : o.cellRuns cell = true) : o.write cell w = { o with late := o.late ++ [(2, w)] } := if_pos h

end

/-- With nothing on its way, nothing is chosen. -/
theorem State.chooseLate_idle {s : State} {core : CoreId} (h : (s.cores[core]).orr.late = []) : s.chooseLate core = s :=
  if_pos (List.isEmpty_iff.2 h)

/-! ### OPATCH and OSET (12 R271, R272) -/

section
variable {s : State} {cell : Nat} {w : OrrWrite}

theorem State.osetCell_inside (h : cell < 512) :
    s.osetCell cell w = .ok ((s.modOrr s.cur (fun o => o.write cell w)).chooseLate s.cur) := if_neg h.not_ge

theorem State.osetCell_outside (h : 512 ≤ cell) : s.osetCell cell w = .trap s.illegal := if_pos h

end

section
variable {s : State} {m : Bool} {a : Reg}

/-- Entries that break no rule, in bytes that no range lock refuses, are written to their cells one after another. -/
theorem exec_opatch_writes {cnt : BitVec 9} {es : List PatchEntry}
    (hes : (List.range (cnt.toNat + 1)).map (fun i => entryOfBytes (s.frameBytes ((s.rs a).toNat + 16 * i) 16)) = es)
    (hr : s.Ready [.scalar a] []) (hc : s.checkAccess .near (s.rs a) (16 * (cnt.toNat + 1)) 16 = none)
    (hb : badEntry es (es.foldl patchCell s.c.orr.flushLate.cells) = none)
    (hl : s.checkLocks (s.rs a) (16 * (cnt.toNat + 1)) false = none) :
    exec (.opatch m a cnt) s = .next (((s.modOrr s.cur
      (fun o => es.foldl (fun o e => o.write e.cell (.patch e.cell e.dx e.dy)) o)).chooseLate s.cur).after m) := by
  rw [exec_opatch]
  exact cWord_ok hr (by simp only [hc, hes, hb, hl])

section
variable {idx : BitVec 10} (hr : s.Ready [.scalar a] [])
include hr

section
variable (h : idx.toNat < 512)
include h

theorem exec_osetY_writes : exec (.osetY m a idx) s = .next (((s.modOrr s.cur
    (fun o => o.write idx.toNat (.y idx.toNat ((s.rs a).setWidth 32)))).chooseLate s.cur).after m) := by
  rw [exec_osetY]
  exact cWord_ok hr (State.osetCell_inside h)

theorem exec_osetRes_writes : exec (.osetRes m a idx) s = .next (((s.modOrr s.cur
    (fun o => o.write idx.toNat (.res idx.toNat ((s.rs a).setWidth 32)))).chooseLate s.cur).after m) := by
  rw [exec_osetRes]
  exact cWord_ok hr (State.osetCell_inside h)

end

section
variable (h : 512 ≤ idx.toNat)
include h

theorem exec_osetY_outside : exec (.osetY m a idx) s = .next (s.preciseTrap s.illegal) := by
  rw [exec_osetY]
  exact cWord_trap hr (State.osetCell_outside h)

theorem exec_osetRes_outside : exec (.osetRes m a idx) s = .next (s.preciseTrap s.illegal) := by
  rw [exec_osetRes]
  exact cWord_trap hr (State.osetCell_outside h)

end

end

section
variable {idx : BitVec 10} {port : Fin 16} (hi : idx.toNat = port.val)
include hi

/-- With 32 entries free the port takes the sign of each lane, lane 0 first. -/
theorem exec_osetPort_appends (hr : s.Ready [.vector a] []) (hq : ((s.c.orr.ports[port]).queue).length ≤ 32) :
    exec (.osetPort m a idx) s = .next ((s.modOrr s.cur (fun o => o.modPort port
      (fun p => { p with queue := p.queue ++ (List.range 32).map (fun i => (lane (s.rv a) i).toInt.sign) }))).after m) := by
  rw [exec_osetPort]
  refine cWord_ok hr ?_
  simp only [index16_eq hi, incOf_eq_sign]
  exact if_neg hq.not_gt

/-- A free port takes a load ring that is live, that the core does not hold and that no port or tap works. -/
theorem exec_osetBind_binds {ring : Ring} {r : RingSt} (hn : s.ringNamed ring.val = .ok r) (hp : (s.c.orr.ports[port]).ring = none)
    (hl : r.live = true) (hd : r.dir = some false) (hg : r.got = 0) (hu : r.user = none) :
    exec (.osetBind m idx ring false) s = .next (((s.modRing s.uid ring.val (fun x =>
      { x with user := some (s.c.pos, .port port), taken := 0 })).modOrr s.cur
      (fun o => o.modPort port (fun p => { p with ring := some ring }))).after m) := by
  rw [exec_osetBind]
  refine cWord_ok s.ready_nil ?_
  simp only [index16_eq hi, State.bindPort, hn, hp, hl, hd, hg, hu]
  rfl

theorem exec_osetBind_unbinds {ring r : Ring} (hp : (s.c.orr.ports[port]).ring = some r) :
    exec (.osetBind m idx ring true) s = .next (((s.modRing s.uid r.val (fun x => { x with user := none, taken := 0 })).modOrr s.cur
      (fun o => o.modPort port (fun p => { p with ring := none }))).after m) := by
  rw [exec_osetBind]
  refine cWord_ok s.ready_nil ?_
  simp only [index16_eq hi, State.bindPort, hp, if_true]

end

section
variable {idx : BitVec 10} (h : 16 ≤ idx.toNat)
include h

theorem exec_osetPort_outside (hr : s.Ready [.vector a] []) : exec (.osetPort m a idx) s = .next (s.preciseTrap s.illegal) := by
  rw [exec_osetPort]
  exact cWord_trap hr (by simp only [index16_outside h])

theorem exec_osetBind_outside {ring : Ring} {unb : Bool} : exec (.osetBind m idx ring unb) s = .next (s.preciseTrap s.illegal) := by
  rw [exec_osetBind]
  exact cWord_trap s.ready_nil (by simp only [index16_outside h])

end

end

/-! ### The status word (07 R153) -/

/-- A flag's bit in a word. -/
theorem bit64_eq (b : Bool) (i : Nat) : bit64 b i = b.toNat * 2 ^ i := by cases b <;> simp [bit64]

/-- A bit of a word is a flag where the quotient by its weight is the flag's value mod 2. -/
theorem getLsbD_eq_of_toNat {n : Nat} {v : BitVec n} {i : Nat} {b : Bool} (h : v.toNat / 2 ^ i % 2 = b.toNat) : v.getLsbD i = b := by
  rw [← BitVec.testBit_toNat, Nat.testBit_eq_decide_div_mod_eq, h]
  cases b <;> rfl

/-- A field of a word is its quotient by the weight of the lowest bit. -/
theorem extractLsb'_eq_ofNat {n k i x : Nat} {v : BitVec n} (h : v.toNat / 2 ^ i % 2 ^ k = x % 2 ^ k) : v.extractLsb' i k = BitVec.ofNat k x := by
  refine BitVec.eq_of_toNat_eq ?_
  rw [BitVec.extractLsb'_toNat, BitVec.toNat_ofNat, Nat.shiftRight_eq_div_pow, h]

section
variable (o : Orrery) (d : Fin 4)

/-- The fields of a status word add up without a carry. -/
theorem Orrery.status_toNat : (o.status d).toNat = (o.doms[d]).steps.toNat * 4294967296 + (o.doms[d]).period % 8192 * 64 +
    (o.doms[d]).ovr.toNat * 4 + o.hold.toNat * 2 + (o.doms[d]).run.toNat := by
  have hs := (o.doms[d]).steps.isLt
  have hv := (o.doms[d]).ovr.toNat_le
  have hh := o.hold.toNat_le
  have hr := (o.doms[d]).run.toNat_le
  simp only [Orrery.status, BitVec.toNat_ofNat, bit64_eq]
  omega

theorem Orrery.status_fields : (o.status d).toNat / 2 ^ 32 = (o.doms[d]).steps.toNat ∧ (o.status d).extractLsb' 19 13 = 0 ∧
    (o.status d).extractLsb' 6 13 = BitVec.ofNat 13 (o.doms[d]).period ∧ (o.status d).extractLsb' 3 3 = 0 ∧
    (o.status d).getLsbD 2 = (o.doms[d]).ovr ∧ (o.status d).getLsbD 1 = o.hold ∧ (o.status d).getLsbD 0 = (o.doms[d]).run := by
  have hv := (o.doms[d]).ovr.toNat_le
  have hh := o.hold.toNat_le
  have hr := (o.doms[d]).run.toNat_le
  have ht := o.status_toNat d
  exact ⟨by omega, extractLsb'_eq_ofNat (x := 0) (by omega), extractLsb'_eq_ofNat (by omega), extractLsb'_eq_ofNat (x := 0) (by omega),
    getLsbD_eq_of_toNat (by omega), getLsbD_eq_of_toNat (by omega), getLsbD_eq_of_toNat (by omega)⟩

end

/-! ### OGET (07 R152, 12 R272) -/

/-- The state once an OGET has read `r`: its value as it stands is on its way, and stays open to later steps where the domain runs. -/
def State.withRead (s : State) (d : Reg) (r : OrrRead) : State :=
  let f : Flight := { dist := 2, wr := .scalar d (s.c.orr.value r), flags := 0, src := if s.c.orr.readRuns r then some r else none }
  s.modCur (fun c => { c with flight := c.flight ++ [f] })

theorem State.oget_eq (s : State) (d : Reg) (r : OrrRead) : s.oget d r = .ok (s.withRead d r) := rfl

section
variable {s : State} {m : Bool} {d : Reg} {idx : BitVec 10} (hr : s.Ready [] (wS d (some 2)))
include hr

section
variable (h : idx.toNat < 512)
include h

theorem exec_ogetY_reads : exec (.ogetY m d idx) s = .next ((s.withRead d (.y idx.toNat)).after m) := by
  rw [exec_ogetY]
  exact cWord_ok hr (if_neg h.not_ge)

theorem exec_ogetRes_reads : exec (.ogetRes m d idx) s = .next ((s.withRead d (.res idx.toNat)).after m) := by
  rw [exec_ogetRes]
  exact cWord_ok hr (if_neg h.not_ge)

end

section
variable (h : 512 ≤ idx.toNat)
include h

theorem exec_ogetY_outside : exec (.ogetY m d idx) s = .next (s.preciseTrap s.illegal) := by
  rw [exec_ogetY]
  exact cWord_trap hr (if_pos h)

theorem exec_ogetRes_outside : exec (.ogetRes m d idx) s = .next (s.preciseTrap s.illegal) := by
  rw [exec_ogetRes]
  exact cWord_trap hr (if_pos h)

end

theorem exec_ogetTap_reads {tap : Fin 16} (h : idx.toNat = tap.val) :
    exec (.ogetTap m d idx) s = .next ((s.withRead d (.tap tap)).after m) := by
  rw [exec_ogetTap]
  exact cWord_ok hr (by simp only [index16_eq h, State.oget_eq])

theorem exec_ogetTap_outside (h : 16 ≤ idx.toNat) : exec (.ogetTap m d idx) s = .next (s.preciseTrap s.illegal) := by
  rw [exec_ogetTap]
  exact cWord_trap hr (by simp only [index16_outside h])

theorem exec_ogetDom_reads {dom : Fin 4} (h : idx.toNat = dom.val) :
    exec (.ogetDom m d idx) s = .next ((s.withRead d (.dom dom)).after m) := by
  rw [exec_ogetDom]
  exact cWord_ok hr (by simp only [h, dom.isLt, dif_pos, State.oget_eq])

theorem exec_ogetDom_outside (h : 4 ≤ idx.toNat) : exec (.ogetDom m d idx) s = .next (s.preciseTrap s.illegal) := by
  rw [exec_ogetDom]
  exact cWord_trap hr (dif_neg h.not_gt)

end

/-! ### OCLK, OSTEP, ORUN and OHALT (07 R146, 12 R271, R273) -/

section
variable {s : State} {m : Bool}

theorem exec_oclk_sets {dom : Fin 4} {n : BitVec 13} (hn : n.toNat ≤ 4096) (hd : (s.c.orr.doms[dom]).run = false) :
    exec (.oclk m dom n) s =
      .next ((s.modOrr s.cur (fun o => o.modDom dom (fun x => { x with period := n.toNat }))).after m) := by
  rw [exec_oclk]
  exact cWord_ok s.ready_nil (if_neg (not_or.2 ⟨hn.not_gt, Bool.eq_false_iff.1 hd⟩))

theorem exec_oclk_refused {dom : Fin 4} {n : BitVec 13} (h : 4096 < n.toNat ∨ (s.c.orr.doms[dom]).run = true) :
    exec (.oclk m dom n) s = .next (s.preciseTrap s.illegal) := by
  rw [exec_oclk]
  exact cWord_trap s.ready_nil (if_pos h)

theorem exec_ostep_asks {mask : BitVec 4} : exec (.ostep m mask) s = .next ((s.modOrr s.cur
    (fun o => ((maskDoms mask).foldl (fun o d => o.modDom d Dom.ask) o).started s.now)).after m) := by
  rw [exec_ostep]
  exact cWord_ok s.ready_nil rfl

theorem exec_ohalt_halts {mask : BitVec 4} : exec (.ohalt m mask) s = .next ((s.haltDoms s.cur (maskDoms mask)).after m) := by
  rw [exec_ohalt]
  exact cWord_ok s.ready_nil rfl

/-- Some domain of a list runs or has no period. -/
theorem Orrery.any_unstartable_iff {o : Orrery} {ds : List (Fin 4)} : ds.any (fun d => (o.doms[d]).run || (o.doms[d]).period == 0) = true ↔
    ∃ k ∈ ds, (o.doms[k]).run = true ∨ (o.doms[k]).period = 0 := by
  simp only [List.any_eq_true, Bool.or_eq_true, beq_iff_eq]

section
variable {a : Reg} {mask : BitVec 4} (hr : s.Ready [.scalar a] [])
include hr

theorem exec_orun_refused (h : mask = 0 ∨ ∃ k ∈ maskDoms mask, (s.c.orr.doms[k]).run = true ∨ (s.c.orr.doms[k]).period = 0) :
    exec (.orun m a mask) s = .next (s.preciseTrap s.illegal) := by
  rw [exec_orun]
  exact cWord_trap hr (if_pos (h.imp_right Orrery.any_unstartable_iff.2))

theorem exec_orun_starts (hm : mask ≠ 0) (h : ∀ k ∈ maskDoms mask, (s.c.orr.doms[k]).run = false ∧ (s.c.orr.doms[k]).period ≠ 0) :
    exec (.orun m a mask) s = .next ((s.modOrr s.cur
      (fun o => ((maskDoms mask).foldl (fun o d => o.modDom d (Dom.start ((s.rs a).setWidth 32))) o).started s.now)).after m) := by
  have hn : ¬∃ k ∈ maskDoms mask, (s.c.orr.doms[k]).run = true ∨ (s.c.orr.doms[k]).period = 0 := by
    rintro ⟨k, hk, hrun | hp⟩
    · exact Bool.eq_false_iff.1 (h k hk).1 hrun
    · exact (h k hk).2 hp
  rw [exec_orun]
  exact cWord_ok hr (if_neg (not_or.2 ⟨hm, mt Orrery.any_unstartable_iff.1 hn⟩))

end

end

/-! ### OTAP (07 R150, 12 R273, R274) -/

section
variable {s : State} {m : Bool} {a : Reg} {tap : Fin 16} (hr : s.Ready [.scalar a] []) (hk : tapOk (s.rs a) = true)
  (ho : s.c.orr.tapRuns s.c.orr.taps[tap] = false) (hn : s.c.orr.tapRuns (tapOf (s.rs a)) = false)
include hr hk ho hn

theorem exec_otap_sets_ringless (hm : (tapOf (s.rs a)).mode ≠ 2) : exec (.otap m a tap) s = .next ((s.setTap tap (tapOf (s.rs a))).after m) := by
  rw [exec_otap]
  refine cWord_ok hr ?_
  simp only [hk, ho, hn]
  exact if_neg hm

/-- A sample tap takes a live store ring that no port and no other tap works. -/
theorem exec_otap_sets_sampler {r : RingSt} (hm : (tapOf (s.rs a)).mode = 2) (hg : s.ringNamed (tapOf (s.rs a)).ring.val = .ok r)
    (hl : r.live = true) (hd : r.dir = some true) (hu : r.user = none ∨ r.user = some (s.c.pos, .tap tap)) :
    exec (.otap m a tap) s = .next ((s.setTap tap (tapOf (s.rs a))).after m) := by
  have hfree : (r.user.isSome && !(r.user == some (s.c.pos, .tap tap))) = false := by
    rcases hu with hu | hu <;> simp [hu]
  rw [exec_otap]
  refine cWord_ok hr ?_
  simp only [hk, ho, hn, hm, hg, hl, hd, hfree]
  rfl

end

/-! ### OSAVE and ORST (07 R154) -/

section
variable {s : State} {m : Bool} {a : Reg} (hr : s.Ready [.scalar a] []) (hc : s.checkAccess .near (s.rs a) 20480 128 = none)
  (hl : 1 ≤ (s.tiles[s.tile]).freeLocks)
include hr hc hl

/-- The image is that of the Orrery once its domains have halted. -/
theorem exec_osave_writes : exec (.osave m a) s = .next ((((s.haltDoms s.cur (List.finRange 4)).setFrame (s.rs a).toNat
    (s.haltDoms s.cur (List.finRange 4)).c.orr.image).orrPark (s.rs a).toNat true).after m) := by
  rw [exec_osave]
  refine cWord_ok hr ?_
  simp only [hc]
  exact if_neg hl.not_gt

/-- The rings that the image's ports and taps work are theirs again. -/
theorem exec_orst_restores (hb : badImage (s.frameBytes (s.rs a).toNat 20480) (fun r => ((s.sl.rings[r]?).map (·.bytes)).getD 0) = none) :
    exec (.orst m a) s = .next ((((s.modSlice s.uid (fun x => { x with rings := x.rings.zipIdx.map (fun r =>
      reuser s.c.pos (s.c.orr.ofImage (s.frameBytes (s.rs a).toNat 20480)) r.2 r.1) })).modOrr s.cur
      (fun _ => s.c.orr.ofImage (s.frameBytes (s.rs a).toNat 20480))).orrPark (s.rs a).toNat false).after m) := by
  rw [exec_orst]
  refine cWord_ok hr ?_
  simp only [hc, hb]
  exact if_neg hl.not_gt

end

/-- An OSAVE or ORST parks its core and changes nothing else of it. -/
theorem State.orrPark_c (s : State) (off : Nat) (dst : Bool) : (s.orrPark off dst).c =
    { s.c with park := some { why := .orrery (s.now + orrImageCycles) s.dev.nextReq, marks := false } } := State.modCur_c _ _

/-- An image read back holds every domain halted. -/
theorem Orrery.ofImage_halted (o : Orrery) (bs : List Byte) (k : Fin 4) : ((o.ofImage bs).doms[k]).run = false := by
  simp only [Orrery.ofImage, Fin.getElem_fin, Vector.getElem_ofFn, domOfBytes]

/-- A core whose Orrery is replaced and that then parks: its Orrery is the new one, its registers are its own. -/
theorem State.modOrr_orrPark_c (s t : State) (hc : t.cores = s.cores) (hu : t.cur = s.cur) (o : Orrery) (off : Nat) (dst : Bool) :
    ((t.modOrr s.cur (fun _ => o)).orrPark off dst).c.orr = o ∧ ((t.modOrr s.cur (fun _ => o)).orrPark off dst).c.sreg = s.c.sreg := by
  have h : (t.modOrr s.cur (fun _ => o)).c = { s.c with orr := o } := by
    rw [← hu]
    refine (State.modCore_self _ _ _).trans ?_
    rw [hc, hu]
    rfl
  rw [State.orrPark_c, h]
  exact ⟨rfl, rfl⟩

/-- Settles O34: each word by its operands, its index and what it meets; ORST by what its core holds after it; a change by whether its domain
runs. -/
theorem orreryWords : Obligations.OrreryWords := by
  unfold Obligations.OrreryWords
  refine ⟨?_, fun o s core cell w => ⟨Orrery.write_halted, Orrery.write_running, State.chooseLate_idle⟩⟩
  intro s m d a cnt dom n idx port ring tap mask o ad illegal sets writes reads entries
  refine ⟨exec_opatch_writes rfl, exec_oclk_sets, exec_oclk_refused, fun hr h => ⟨exec_osetY_writes hr h, exec_osetRes_writes hr h⟩,
    fun hr hi => exec_osetPort_appends hi hr, fun _ hi hn hp hl hd hg hu => exec_osetBind_binds hi hn hp hl hd hg hu,
    fun _ hi hp => exec_osetBind_unbinds hi hp, fun hr => ⟨fun h => ⟨exec_ogetY_reads hr h, exec_ogetRes_reads hr h⟩, exec_ogetTap_reads hr,
      fun h => ⟨o.status dom, exec_ogetDom_reads hr h, o.status_fields dom⟩, fun h => ⟨exec_ogetY_outside hr h, exec_ogetRes_outside hr h⟩,
      exec_ogetTap_outside hr, exec_ogetDom_outside hr⟩,
    fun hr h => ⟨exec_osetY_outside hr h, exec_osetRes_outside hr h⟩,
    fun h => ⟨exec_osetPort_outside h, fun unb => exec_osetBind_outside h⟩, exec_ostep_asks, exec_orun_starts, exec_orun_refused,
    exec_ohalt_halts, fun hr hk ho hn ht => ?_, fun hr hc hl => ⟨exec_osave_writes hr hc hl, fun hb => ?_⟩⟩
  · by_cases hm : (tapOf ad).mode = 2
    · obtain ⟨r, hg, hl, hd, hu⟩ := ht.resolve_left (not_not.2 hm)
      exact exec_otap_sets_sampler hr hk ho hn hm hg hl hd hu
    · exact exec_otap_sets_ringless hr hk ho hn hm
  · refine ⟨_, exec_orst_restores hr hc hl hb, ?_, ?_⟩
    · simp only [State.orrPark_mem, State.modOrr_mem, State.modSlice_mem]
    · obtain ⟨horr, hsreg⟩ := State.modOrr_orrPark_c s (s.modSlice s.uid _) rfl rfl _ ad.toNat false
      exact ⟨horr, fun k => (congrArg (fun o : Orrery => (o.doms[k]).run) horr).trans (Orrery.ofImage_halted _ _ k), hsreg⟩

end Sys2Proof.Machine
end

section
/-! PROOFS. Encoder and decoder (08 R155 to R168, 12 R259): a bundle made of encoded words decodes to their instructions. -/

namespace Sys2Proof.Laws

open Sys2Proof.Machine

/-! ### Every word's round trip -/

namespace RoundTrip

/-- The word that encodes a well-formed instruction decodes to it, whatever the instruction: the round trip of each constructor, in their order. -/
theorem all (i : Instr) : Statement i :=
  i.casesOn (motive := Statement)
    nopC ret rett upret exit yld trap bkpt fence fencesc br brp call detach attach loop loopr jmp callr mvtl mvfl mfs mts disc cycle RoundTrip.seal
    spawn ld st lda stl ldp stp vld vst vldp vstp vlds vsts vgath vscat atom atomp bar barq vote rsub rget rput rrel barcfg msend mrecv mprobe
    mcast mres nopA add sub mul mulh mulhu div divu rem remu and or xor andn shl shr sra rotr clz ctz popc min max minu maxu mov extb exth lea
    addi andi ori xori movi shli shri srai cmp cmpi pand por pxor pnot sel tadr vadd vsub vmul vdiv vmin vmax vminn vmaxn vsqrt vrcp vrsq
    vexp2 vlog2 vabs vneg vand vor vxor vnot vshl vshr vsra vfma vfms vfnma vcmp vsel vcvt vcvtSr vredadd vredmax vredmin vperm vbcast vslide
    viota vmovs vext vsat vclamp vpack vunpk vqmx vdqmx liSigned liHbm liPeer liShifted rwait copy copym cwait cquery mlw mfmt mmul mout
    mdrain mver mzero mwait opatch oclk osetY osetRes osetPort osetBind ogetY ogetRes ogetTap ogetDom ostep orun ohalt osave orst otap tshape
    tmap tpress tanchor tfreeze tthaw tevac illegalInstruction emulation chainRelease sizeGrantReturn handlerTileAnswer spawnPlacement
    variableLatencyResponse freezeRelease asyncTrapEntry dispatch heldSlicePlacement budgetExhausted budgetGraceExpiry sliceLate
    sliceCompletion resultRead launchCompletion peerRequestArrival hbmAccess refusalArrival ackArrival retransmitTimeout messageArrival
    chainReservation chainAnswer chainPayload barrierArrival barrierRelease voteContribution copyBeat copyComplete copyFailure matrixStart
    matrixComplete streamPush streamPull loopCountBlockReady rwaitTimeout orreryTick orreryCountEnd epochEnd phaseStart sizeRequest sizeGrant
    moveCommit evacuationExpiry cessionClearing cessionJoining upcallArrival freezeMark freezeTakesHold thawRequest anchorRequest anchorApply
    shapeSnapshot preemptionHalt quiescenceComplete replayAbort patrolScrub islandPowerWindow thermalThrottle thermalCooled thermalShutdown
    deviceReset powerLoss spdmSessionEnd linkLoss parallaxStreamArrival parallaxAck rmaWrite rmaRead unsupportedPacket create dissolve policy
    policySetAnchor policyClearAnchor pxpeers ops mapPages unmap protect loadCode launch preempt save restore resume debugClaim debugRelease
    debugHalt debugRead debugWrite debugStep debugGo fwwrite fwactivate fwcommit openSession close receipt evlog epadd epdel ifRead ifWrite
    getCertificate challenge getMeasurements getDeviceInterfaceReport lockInterfaceRequest startInterfaceRequest stopInterfaceRequest
    createIndexed dirty checkpoint pxsend loadpages counters telemetry fenceTile spdmSessionStart unknownCommand

end RoundTrip

section
variable {i : Instr} {w : Nat} (hwf : i.wf = true)
include hwf

theorem decodeC_of_encode (he : encode i = .cword w) : w < 2 ^ 31 ∧ decodeC w = some i := by
  have h := RoundTrip.all i hwf
  rwa [he] at h

theorem decodeA_of_encode (he : encode i = .aword w) : w < 2 ^ 32 ∧ decodeA w = some i := by
  have h := RoundTrip.all i hwf
  rwa [he] at h

theorem decodeL_of_encode (he : encode i = .lone w) :
    (w < 2 ^ 64 ∧ bit (w % 2 ^ 32) 31 = true ∧ fld (w % 2 ^ 32) 29 24 < 51) ∧ decodeL w = some i := by
  have h := RoundTrip.all i hwf
  rwa [he] at h

end

/-! ### Instructions lie outside the unassigned extension space (08 R168) -/

/-- No C-word has a major of the extension space. -/
theorem extC_of_decodeC {w : Nat} {i : Instr} (h : decodeC w = some i) : extC w = false := by
  obtain ⟨hr, -⟩ := Option.filter_eq_some_iff.1 h
  unfold rawC at hr
  unfold extC
  split at hr
  case h_26 => cases hr -- any other major
  all_goals exact decide_eq_false (by omega)

/-- No A-word has a major of the unassigned extension space. -/
theorem extA_of_decodeA {w : Nat} {i : Instr} (h : decodeA w = some i) : extA w = false := by
  obtain ⟨hr, -⟩ := Option.filter_eq_some_iff.1 h
  unfold rawA at hr
  unfold extA
  split at hr
  case h_27 => cases hr -- any other major
  all_goals exact decide_eq_false (by omega)

/-! ### Bundles -/

/-- A C-word below an A-word is a bundle of the two (08 R155). -/
theorem decodeBundle_pair {c a : Instr} {w v : Nat} (hw : w < 2 ^ 31) (hv : v < 2 ^ 32) (hc : decodeC w = some c) (ha : decodeA v = some a) :
    decodeBundle (v * 2 ^ 32 + w) = .pair c a := by
  have hw0 : (v * 2 ^ 32 + w) % 2 ^ 32 = w := by omega
  have hw1 : (v * 2 ^ 32 + w) / 2 ^ 32 % 2 ^ 32 = v := by omega
  have hlone : bit w 31 = false := decide_eq_false (by omega)
  simp only [decodeBundle, hw0, hw1, hlone, extC_of_decodeC hc, hc, extA_of_decodeA ha, ha, Bool.false_eq_true, if_false]

/-- Sixty-four bits with the lone bit set, of an assigned major, are the one instruction they decode to (08 R159). -/
theorem decodeBundle_lone {i : Instr} {w : Nat} (hw : w < 2 ^ 64) (hb : bit (w % 2 ^ 32) 31 = true) (hm : fld (w % 2 ^ 32) 29 24 < 51)
    (hi : decodeL w = some i) : decodeBundle w = .lone i := by
  have hext : extL (w % 2 ^ 32) = false := decide_eq_false (by omega)
  simp only [decodeBundle, hb, hext, Nat.mod_eq_of_lt hw, hi, if_true, Bool.false_eq_true, if_false]

/-! ### Every word of the table has an encoding -/

theorem encode_of_guardOf {i : Instr} {g : Guard} (h : guardOf i = some g) : ∃ v, encode i = .aword v := by
  unfold guardOf at h
  split at h
  case h_90 => cases h -- any other instruction
  all_goals exact ⟨_, rfl⟩

theorem encode_of_isCWord {i : Instr} (h : isCWord i = true) : ∃ w, encode i = .cword w := by
  unfold isCWord at h
  split at h
  case h_57 => cases h -- any other instruction
  all_goals exact ⟨_, rfl⟩

theorem encode_of_isLone {i : Instr} (h : isLone i = true) : ∃ w, encode i = .lone w := by
  unfold isLone at h
  split at h
  case h_41 => cases h -- any other instruction
  all_goals exact ⟨_, rfl⟩

/-- Settles O57: the round trip of each word, which shows that its major is an assigned one, then the bundle. -/
theorem encodedInstructionsDecodeBack : Obligations.EncodedInstructionsDecodeBack := by
  refine ⟨fun c a w v hcwf hawf hc ha => ?_, fun i w hwf he => ?_, fun _ _ => encode_of_guardOf, fun _ => encode_of_isCWord,
    fun _ => encode_of_isLone⟩
  · obtain ⟨hw, hdc⟩ := decodeC_of_encode hcwf hc
    obtain ⟨hv, hda⟩ := decodeA_of_encode hawf ha
    exact ⟨hw, hv, decodeBundle_pair hw hv hdc hda⟩
  · obtain ⟨⟨hw, hb, hm⟩, hd⟩ := decodeL_of_encode hwf he
    exact ⟨hw, decodeBundle_lone hw hb hm hd⟩

/-- Settles O56, by decoding each of the eleven bundles. -/
theorem decodingOfWrittenWords : Obligations.DecodingOfWrittenWords := by
  unfold Obligations.DecodingOfWrittenWords
  decide

end Sys2Proof.Laws
end

section
/-! PROOFS. Branches and how control moves on where no end check is due (08 R178, 09 R183, R184). -/

namespace Sys2Proof.Machine

open Sys2Proof

/-! ### The words -/

section
variable {s : State} {m : Bool} (hb : s.MayBranch)
include hb

theorem exec_br_transfers (disp : BitVec 24) :
    exec (.br m disp) s = .next ((s.transfer .jump (s.pcNow + disp.signExtend 64 * 8#64)).after m) :=
  cWordNoDelay_ok hb.2 s.ready_nil (by rw [State.ctlOnly_own hb.1, branchTarget_eq])

theorem exec_jmp_transfers {a : Reg} (hr : s.Ready [.scalar a] []) : exec (.jmp m a) s = .next ((s.transfer .jump (s.rs a)).after m) :=
  cWordNoDelay_ok hb.2 hr (State.ctlOnly_own hb.1)

theorem exec_brp_transfers {n : Bool} {p : PReg} (disp : BitVec 20) (hr : s.Ready [.pred p] []) : exec (.brp m n p disp) s =
    .next ((s.transfer (if Bool.xor (s.rp p) n then .jump else .untaken) (s.pcNow + disp.signExtend 64 * 8#64)).after m) :=
  cWordNoDelay_ok hb.2 hr (by rw [State.ctlOnly_own hb.1, branchTarget_eq, Bool.bne_eq_xor])

end

/-! ### Where no level ends -/

section
variable {c : Core} {pc : Word} (h : ¬∃ l : Lvl, c.endsHere pc l = true)
include h

/-- The end checks of a bundle that ends no level do nothing. -/
theorem Core.endChecks_none : c.endChecks pc = (c, none) := by
  have hl (l : Lvl) : Core.endStep pc (c, none) l = (c, none) := if_neg (not_exists.1 h l)
  simp only [Core.endChecks_eq, List.foldl, hl]

theorem Core.fallThrough_plain (next : Word) : c.fallThrough pc next = { c with pc := next } := by
  rw [Core.fallThrough, Core.endChecks_none h]
  rfl

theorem Core.checksBefore_plain (kind : XferKind) :
    c.checksBefore pc kind = { c with delay := some { kind := kind, target := noTarget }, pc := pc + 8 } :=
  if_neg (mt Core.endsAny_iff.1 h)

end

/-! ### The bundle after -/

section
variable {c : Core} {x : Xfer}

theorem Core.advance_jump (hx : c.xfer = some x) (hk : x.kind = .jump) : c.advance = { c with delay := some x, pc := c.pc + 8 } := by
  simp [Core.advance, hx, hk]

theorem Core.advance_delay_jump (hx : c.xfer = none) (hd : c.delay = some x) (hk : x.kind = .jump) :
    c.advance = { c with delay := none, pc := x.target } := by
  simp [Core.advance, hx, hd, hk]

theorem Core.advance_delay_untaken (hx : c.xfer = none) (hd : c.delay = some x) (hk : x.kind = .untaken) :
    c.advance = ({ c with delay := none } : Core).fallThrough c.pc (c.pc + 8) := by
  simp [Core.advance, hx, hd, hk]

end

/-- Settles O14: the words by their effect, the bundle after by the transfer asked for and the one owed. -/
theorem branchesTransfer : Obligations.BranchesTransfer := by
  refine ⟨fun s m n p a disp d20 hb => ⟨exec_br_transfers hb disp, exec_jmp_transfers hb, exec_brp_transfers hb d20⟩,
    fun s k x => ⟨State.modCur_c s _, rfl, fun c hc => State.modCore_ne s _ hc⟩, fun c x y => ⟨fun hx hd he => ?_, Core.advance_jump,
    Core.advance_delay_jump, fun hx hk he => ⟨{ kind := .untaken, target := noTarget }, ?_, rfl⟩, fun hx hd hk he => ?_⟩⟩
  · rw [Core.advance_plain hx hd, Core.fallThrough_plain he]
  · rw [Core.advance_untaken hx hk, Core.checksBefore_plain he]
  · rw [Core.advance_delay_untaken hx hd hk]
    exact Core.fallThrough_plain (c := { c with delay := none }) he _

end Sys2Proof.Machine
end

section
/-! PROOFS. The cycle counter, SEAL and SPAWN (09 R191, R192, R198, R199). -/

namespace Sys2Proof.Machine

open Sys2Proof

variable {s : State} {m : Bool} {d a b : Reg}

/-! ### The cycle a core issues in (09 R198) -/

theorem State.issueCycle_own (ho : s.ownsControl = true) : s.issueCycle = s.now := if_pos ho

theorem State.issueCycle_follower (ho : s.ownsControl = false) : s.issueCycle = s.now + s.c.pos * 16 / s.clkOf (islandOf s.tile) :=
  if_neg (by simp [ho])

/-- A core cycle of an island at 8 to 16 sixteenths of nominal takes one to two cycles of the time base. -/
theorem coreCycles_bounds {clk : Nat} (n : Nat) (hlo : 8 ≤ clk) (hhi : clk ≤ 16) : n ≤ n * 16 / clk ∧ n * 16 / clk ≤ 2 * n :=
  ⟨(Nat.le_div_iff_mul_le (by omega)).2 (Nat.mul_le_mul_left n hhi),
    Nat.div_le_of_le_mul (by have := Nat.mul_le_mul_right (2 * n) hlo; omega)⟩

/-! ### SEAL (09 R191) -/

section
variable (ho : s.ownsControl = true) (hr : s.Ready [.scalar a, .scalar b] [])
include ho hr

theorem exec_seal_names {va : Nat} (hp : parseAddr (s.rs a) = .hbm va) (hlo : 1 ≤ (s.rs b).toNat) (hhi : (s.rs b).toNat < 2 ^ 32)
    (hn : s.sealCount < 16) :
    exec (.seal m a b) s = .next ((s.modCur (fun c => { c with seals := c.seals ++ [(s.rs a, (s.rs b).toNat)] })).after m) := by
  rw [exec_seal]
  refine cWord_ok hr ?_
  rw [State.ctlOnly_own ho]
  simp only [hp]
  exact if_neg (by omega)

/-- A buffer that is not in HBM, that has no length or one past 32 bits, or that is one more than 16. -/
theorem exec_seal_refused (h : (∀ va, parseAddr (s.rs a) ≠ .hbm va) ∨ (s.rs b).toNat = 0 ∨ 2 ^ 32 ≤ (s.rs b).toNat ∨ 16 ≤ s.sealCount) :
    exec (.seal m a b) s = .next (s.preciseTrap (cause 0x06 (s.rs a) 0)) := by
  rw [exec_seal]
  refine cWord_trap hr ?_
  rw [State.ctlOnly_own ho]
  dsimp only
  split
  · next va hp => exact if_pos (h.resolve_left fun hn => hn va hp)
  · rfl

end

/-! ### SPAWN (09 R192, R199) -/

theorem exec_spawn_owner {off : Nat} (ho : s.ownsControl = true) (hr : s.Ready [.scalar a] (wS d none)) (hf : s.InFrame (s.rs a) off 32 32 false) :
    exec (.spawn m d a) s = .next ((((({ s with dev := { s.dev with nextReq := s.dev.nextReq + 1 } } : State).pendOn s.dev.nextReq (dstS d)).parkOn
      (.spawn d (s.rs a) s.dev.nextReq)).noReplay).after m) := by
  rw [exec_spawn]
  refine cWord_ok hr ?_
  dsimp only
  rw [if_pos ho, State.checkMem_inFrame (by decide) hf]

section
variable (ho : s.ownsControl = false) (hr : s.Ready [.scalar a] (wS d none))
include ho hr

theorem exec_spawn_follower {req : Nat} (h : spawnReq s.ctl = some req) :
    exec (.spawn m d a) s = .next (((s.pendOn req (dstS d)).parkOn (.fence .y)).after m) := by
  rw [exec_spawn]
  refine cWord_ok hr ?_
  dsimp only
  rw [if_neg (by simp [ho]), h]

/-- Where the leader has asked for no slice, a follower's SPAWN is a fence only. -/
theorem exec_spawn_follower_alone (h : spawnReq s.ctl = none) : exec (.spawn m d a) s = .next ((s.parkOn (.fence .y)).after m) := by
  rw [exec_spawn]
  refine cWord_ok hr ?_
  dsimp only
  rw [if_neg (by simp [ho]), h]

end

theorem exec_cycle_reads (hr : s.Ready [] (wS d (some 1))) :
    exec (.cycle m d) s = .next ((s.landAt (.scalar d (BitVec.ofNat 64 s.issueCycle)) 1 0).after m) :=
  (exec_cycle m d s).trans (cResult_ready hr)

/-- Settles O22: DISC and CYCLE as results, CYCLE's value by the clock of its island, SEAL and SPAWN by who issues them. -/
theorem discoveryTimeSealSpawn : Obligations.DiscoveryTimeSealSpawn := by
  intro s m d a b n
  refine ⟨fun hr => ⟨(exec_disc m d n s).trans (cResult_ready hr), fun ho => ?_, fun ho => ⟨s.issueCycle, exec_cycle_reads hr, ?_⟩⟩,
    fun ho hr => ⟨fun va => exec_seal_names ho hr, exec_seal_refused ho hr⟩, fun off => exec_spawn_owner,
    fun ho hr => ⟨fun req => exec_spawn_follower ho hr, exec_spawn_follower_alone ho hr⟩⟩
  · rw [exec_cycle_reads hr, State.issueCycle_own ho]
  · dsimp only
    rw [State.issueCycle_follower ho]
    refine ⟨fun h => by rw [h, Nat.mul_div_cancel _ (by decide)], fun hlo hhi => ?_⟩
    obtain ⟨hle, hge⟩ := coreCycles_bounds s.c.pos hlo hhi
    exact ⟨Nat.add_le_add_left hle _, Nat.add_le_add_left hge _⟩

end Sys2Proof.Machine
end

section
/-! PROOFS. The scalar A-words and LI: each is one result, whose value is that of its rule (08 R160, 09 R200 to R207). -/

namespace Sys2Proof.Machine

open Sys2Proof

/-! ### One result (02 R38) -/

section
variable {s : State} {g : Guard} (hg : s.guardOn g = true)
include hg

/-- A word of two scalar operands has the result in flight that its rule gives. -/
theorem scalarRR_ready {d a b : Reg} {n : Nat} {f : Word → Word → Word} {v : Word} (hr : s.Ready [.scalar a, .scalar b] (wS d (some n)))
    (hv : f (s.rs a) (s.rs b) = v) : scalarRR g d a b n f s = .next (s.result (.scalar d v) n 0) := by
  rw [scalarRR, aluWord_ready hg hr, hv]

/-- A word of one scalar operand does. -/
theorem scalarR_ready {d a : Reg} {f : Word → Word} {v : Word} (hr : s.Ready [.scalar a] (wS d (some 1))) (hv : f (s.rs a) = v) :
    scalarR g d a f s = .next (s.result (.scalar d v) 1 0) := by
  rw [scalarR, aluWord_ready hg hr, hv]

/-- So does one of two predicate operands. -/
theorem predPP_ready {pd pa pb : PReg} {f : Bool → Bool → Bool} {v : Bool} (hr : s.Ready [.pred pa, .pred pb] (wP pd (some 1)))
    (hv : f (s.rp pa) (s.rp pb) = v) : predPP g pd pa pb f s = .next (s.result (.pred pd v) 1 0) := by
  rw [predPP, aluWord_ready hg hr, hv]

end

/-! ### Further values of scalar words (09 R201) -/

theorem mul_eq_ofNat (x y : Word) : x * y = BitVec.ofNat 64 (x.toNat * y.toNat) :=
  BitVec.eq_of_toNat_eq (by rw [BitVec.toNat_mul, BitVec.toNat_ofNat])

theorem lea_eq (x y : Word) (k : Nat) : x + y <<< k = BitVec.ofNat 64 (x.toNat + y.toNat * 2 ^ k) := by
  rw [shl_eq, BitVec.ofNat_add, BitVec.ofNat_toNat, BitVec.setWidth_eq]

/-- The count of a rotation by a register is its low six bits. -/
theorem rotr_shAmt_eq (x y : Word) :
    x.rotateRight (shAmt y) = BitVec.ofNat 64 (x.toNat / 2 ^ (y.toNat % 64) + x.toNat * 2 ^ (64 - y.toNat % 64)) :=
  rotr_eq x (Nat.mod_lt _ (by decide))

theorem popCount_eq_countP (x : Word) : popCount x = (List.range 64).countP (fun i => x.getLsbD i) :=
  List.countP_eq_length_filter.symm

/-! ### The words -/

/-- Settles O1: each word is a result of two operands, and its value that of its row of R201's table. -/
theorem scalarRegisterForms : Obligations.ScalarRegisterForms := by
  intro s g d a b k hg hr
  have gives {f : Word → Word → Word} {v : Word} (hv : f (s.rs a) (s.rs b) = v) :
      scalarRR g d a b 1 f s = .next (s.result (.scalar d v) 1 0) := scalarRR_ready hg hr hv
  exact ⟨(exec_add g d a b s).trans (gives rfl), (exec_sub g d a b s).trans (gives rfl), (exec_and g d a b s).trans (gives rfl),
    (exec_or g d a b s).trans (gives rfl), (exec_xor g d a b s).trans (gives rfl), (exec_andn g d a b s).trans (gives rfl),
    (exec_shl g d a b s).trans (gives (shl_eq _ _)), (exec_shr g d a b s).trans (gives (shr_eq _ _)),
    (exec_sra g d a b s).trans (gives (sra_eq _ _)), (exec_rotr g d a b s).trans (gives (rotr_shAmt_eq _ _)),
    (exec_min g d a b s).trans (gives (min_eq' _ _)), (exec_max g d a b s).trans (gives (max_eq' _ _)),
    (exec_minu g d a b s).trans (gives (minu_eq _ _)), (exec_maxu g d a b s).trans (gives (maxu_eq _ _)),
    (exec_lea g d a b k s).trans (gives (lea_eq _ _ _))⟩

/-- Settles O2: the products at latency 3, the quotients and remainders at latency 20. -/
theorem scalarProductsAndQuotients : Obligations.ScalarProductsAndQuotients := by
  refine ⟨fun s g d a b hg hr => ?_, fun s g d a b hg hr => ?_⟩
  · exact ⟨(exec_mul g d a b s).trans (scalarRR_ready hg hr (mul_eq_ofNat _ _)),
      (exec_mulh g d a b s).trans (scalarRR_ready hg hr (mulHigh_eq _ _)),
      (exec_mulhu g d a b s).trans (scalarRR_ready hg hr (mulHighU_eq _ _))⟩
  · exact ⟨(exec_div g d a b s).trans (scalarRR_ready hg hr (divS_eq _ _)), (exec_rem g d a b s).trans (scalarRR_ready hg hr (remS_eq _ _)),
      (exec_divu g d a b s).trans (scalarRR_ready hg hr (divU_eq _ _)), (exec_remu g d a b s).trans (scalarRR_ready hg hr (remU_eq _ _))⟩

/-- Settles O3: words of one operand, the counts by what they count, and immediates by their extension. -/
theorem scalarOneOperandAndImmediateForms : Obligations.ScalarOneOperandAndImmediateForms := by
  refine ⟨fun s g d a hg hr => ?_, fun s g d a imm sh hg => ⟨aluWord_ready hg, fun hr => ?_, fun hr => ?_⟩⟩
  · obtain ⟨hcl, hclz⟩ := leadZeros_spec (s.rs a)
    obtain ⟨hct, hctz⟩ := trailZeros_spec (s.rs a)
    have gives {f : Word → Word} {v : Word} (hv : f (s.rs a) = v) : scalarR g d a f s = .next (s.result (.scalar d v) 1 0) :=
      scalarR_ready hg hr hv
    exact ⟨(exec_mov g d a s).trans (gives rfl), (exec_extb g d a s).trans (gives rfl), (exec_exth g d a s).trans (gives rfl),
      (exec_popc g d a s).trans (gives (congrArg (BitVec.ofNat 64) (popCount_eq_countP _))),
      ⟨_, hcl, (exec_clz g d a s).trans (gives rfl), hclz⟩, ⟨_, hct, (exec_ctz g d a s).trans (gives rfl), hctz⟩⟩
  · exact ⟨(exec_addi g d imm s).trans (scalarR_ready hg hr rfl), (exec_andi g d imm s).trans (scalarR_ready hg hr rfl),
      (exec_ori g d imm s).trans (scalarR_ready hg hr rfl), (exec_xori g d imm s).trans (scalarR_ready hg hr rfl)⟩
  · exact ⟨(exec_shli g d a sh s).trans (scalarR_ready hg hr (shl_eq _ _)), (exec_shri g d a sh s).trans (scalarR_ready hg hr (shr_eq _ _)),
      (exec_srai g d a sh s).trans (scalarR_ready hg hr (sra_eq _ _))⟩

/-- SEL's predicate is its last operand, and a trap where it is pending (02 R40). -/
theorem exec_sel_pending {s : State} {g : Guard} {d a b : Reg} {pa : PReg} (hg : s.guardOn g = true) (hr : s.Ready [.scalar a, .scalar b] [])
    (hp : s.c.isPend (.pred pa) = true) :
    exec (.sel g d a b pa) s = .next (s.preciseTrap (cause 0x03 (BitVec.ofNat 64 (512 + pa.val)) 0)) :=
  aluWord_fault hg (State.checkRegs_pending (pre := [.scalar a, .scalar b]) rfl hr.1 hp)

/-- Settles O4: comparisons by what their condition says, predicate forms and SEL as results, and SEL's trap. -/
theorem comparisonsAndPredicates : Obligations.ComparisonsAndPredicates := by
  refine ⟨fun s g pd a b c imm hg => ⟨fun hr => ⟨_, condHolds_iff c _ _, aluWord_ready hg hr⟩,
      fun hr => ⟨_, condHolds_iff c _ _, aluWord_ready hg hr⟩⟩,
    fun s g pd pa pb d a b hg => ⟨fun hr => ?_, aluWord_ready hg, aluWord_ready hg, exec_sel_pending hg⟩⟩
  exact ⟨(exec_pand g pd pa pb s).trans (predPP_ready hg hr rfl), (exec_por g pd pa pb s).trans (predPP_ready hg hr rfl),
    (exec_pxor g pd pa pb s).trans (predPP_ready hg hr (congrFun₂ Bool.bne_eq_xor _ _))⟩

/-- A constant that LI writes is the value of its shape. -/
theorem cResult_const {s : State} {m : Bool} {d : Reg} {v w : Word} (hr : s.Ready [] (wS d (some 1))) (hv : v = w) :
    cResult m [] (wS d (some 1)) (fun _ => .scalar d v) 1 s = .next ((s.landAt (.scalar d w) 1 0).after m) := by
  rw [cResult_ready hr, hv]

/-- Settles O5: the NOPs have no effect, TADR and LI are results, with the fields of their values added up. -/
theorem addressesAndConstants : Obligations.AddressesAndConstants := by
  intro s g m d a imm p h q
  refine ⟨rfl, cWord_ok s.ready_nil rfl, fun hg hr => (exec_tadr g d a imm s).trans (scalarR_ready hg hr (tadrVal_eq _ _)), fun hr => ?_⟩
  exact ⟨cResult_const hr (liSignedVal_eq p), cResult_const hr (liHbmVal_eq h), cResult_const hr (liPeerVal_eq q),
    cResult_const hr (liShiftedVal_eq p)⟩

end Sys2Proof.Machine
end

section
/-! PROOFS. Traps that a word raises, the returns, and words that are no instruction (08 R167, R168, 09 R187, R188). -/

namespace Sys2Proof.Machine

open Sys2Proof

variable {s : State} {m : Bool}

/-! ### The returns (09 R188) -/

/-- Outside a handler there is nothing to return from. -/
theorem State.returnRes_idle (up : Bool) (hi : s.c.inh = false) : s.returnRes up = .trap (cause 0x01 s.pcNow 0) := by
  simp [State.returnRes, hi]

/-- A handler returns where its cause is code 0 or of the kind of the return. -/
theorem State.returnRes_ok {up : Bool} (hi : s.c.inh = true) (h : s.c.causeCode = 0 ∨ isUpcall s.c.causeCode = up) :
    s.returnRes up = .ok (s.transfer .rett s.c.tpc) := by
  obtain h | h := h <;> simp [State.returnRes, hi, h]

theorem State.returnRes_other {up : Bool} (hi : s.c.inh = true) (h0 : s.c.causeCode ≠ 0) (h : isUpcall s.c.causeCode ≠ up) :
    s.returnRes up = .trap (cause 0x01 s.pcNow 0) := by
  have hc : (s.c.causeCode != 0 && isUpcall s.c.causeCode != up) = true := Bool.and_eq_true_iff.2 ⟨bne_iff_ne.2 h0, bne_iff_ne.2 h⟩
  exact (if_neg (by simp [hi])).trans (if_pos hc)

section
variable (hd : s.ctl.delay = none)
include hd

theorem exec_returns_idle (hi : s.c.inh = false) :
    exec (.rett m) s = .next (s.preciseTrap (cause 0x01 s.pcNow 0)) ∧ exec (.upret m) s = .next (s.preciseTrap (cause 0x01 s.pcNow 0)) :=
  ⟨cWordNoDelay_trap hd s.ready_nil (State.returnRes_idle _ hi), cWordNoDelay_trap hd s.ready_nil (State.returnRes_idle _ hi)⟩

theorem exec_returns_noCause (hi : s.c.inh = true) (h0 : s.c.causeCode = 0) :
    exec (.rett m) s = .next ((s.transfer .rett s.c.tpc).after m) ∧ exec (.upret m) s = .next ((s.transfer .rett s.c.tpc).after m) :=
  ⟨cWordNoDelay_ok hd s.ready_nil (State.returnRes_ok hi (.inl h0)), cWordNoDelay_ok hd s.ready_nil (State.returnRes_ok hi (.inl h0))⟩

theorem exec_returns_upcall (hi : s.c.inh = true) (h0 : s.c.causeCode ≠ 0) (h : isUpcall s.c.causeCode = true) :
    exec (.rett m) s = .next (s.preciseTrap (cause 0x01 s.pcNow 0)) ∧ exec (.upret m) s = .next ((s.transfer .rett s.c.tpc).after m) :=
  ⟨cWordNoDelay_trap hd s.ready_nil (State.returnRes_other hi h0 (by simp [h])), cWordNoDelay_ok hd s.ready_nil (State.returnRes_ok hi (.inr h))⟩

theorem exec_returns_trap (hi : s.c.inh = true) (h0 : s.c.causeCode ≠ 0) (h : isUpcall s.c.causeCode = false) :
    exec (.rett m) s = .next ((s.transfer .rett s.c.tpc).after m) ∧ exec (.upret m) s = .next (s.preciseTrap (cause 0x01 s.pcNow 0)) :=
  ⟨cWordNoDelay_ok hd s.ready_nil (State.returnRes_ok hi (.inr h)), cWordNoDelay_trap hd s.ready_nil (State.returnRes_other hi h0 (by simp [h]))⟩

end

/-! ### Extension words (08 R168, log 37) -/

theorem exec_emulation_emulates {w1 : Bool} {ws : List (Nat × BitVec 1024)} (h : Config.emulated s.stepNo = some ws) :
    exec (.emulation w1) s = .next (({ s with stepNo := s.stepNo + 1 } : State).emulate s.stepNo ws).issued := by
  rw [exec_emulation, execEmulation]
  simp only [h]
  rfl

/-- The state with what an emulated instruction returns in flight and what it stores stored. -/
def State.emulated (s : State) (n : Nat) (ws : List (Nat × BitVec 1024)) : State :=
  (Config.emulatedStores n).foldl (fun s e => s.emulStore e.1 e.2)
    ((ws.map emulatedWr ++ (Config.emulatedSys n).map emulatedSysWr).foldl (fun s w => s.landAt w 1 0) s)

theorem State.emulate_stays {n : Nat} (ws : List (Nat × BitVec 1024)) (h : Config.emulatedTarget n = none) : s.emulate n ws = s.emulated n ws := by
  rw [State.emulate, h]
  rfl

/-- An emulated instruction may transfer where a branch may. -/
theorem State.emulate_transfers {n : Nat} {x : Word} (ws : List (Nat × BitVec 1024)) (h : Config.emulatedTarget n = some x) (hb : s.MayBranch) :
    s.emulate n ws = (s.emulated n ws).transfer .skip x := by
  obtain ⟨ho, hd⟩ := hb
  rw [State.emulate, h]
  exact if_neg (by simp [hd, ho])

/-- Settles O18: TRAP and BKPT by what they raise, the returns by INH and the kind of the cause, the other words by what firmware does. -/
theorem trapsReturnsAndIllegalWords : Obligations.TrapsReturnsAndIllegalWords := by
  refine ⟨fun s m imm => ⟨(exec_trap m imm s).trans (cWord_ok s.ready_nil rfl), (exec_bkpt m imm s).trans (cWord_ok s.ready_nil rfl),
      fun hd => ⟨exec_returns_idle hd, exec_returns_noCause hd, exec_returns_upcall hd, exec_returns_trap hd⟩⟩,
    fun s w1 => ⟨rfl, exec_emulation_declined, fun ws => exec_emulation_emulates⟩,
    fun s n ws => ⟨State.emulate_stays ws, fun x hx hd ho => State.emulate_transfers ws hx ⟨ho, hd⟩⟩⟩

end Sys2Proof.Machine
end

section
/-! PROOFS. EXIT, YIELD and TEVAC: the words, their delay bundle, and how what a unit owes takes effect (02 R31, R37, 09 R189, R190). -/

namespace Sys2Proof.Machine

open Sys2Proof

/-! ### The words -/

/-- On a core that is not detached both words have an effect of the control registers alone. -/
theorem ctlOnly_attached {s : State} {k : State → Res} {t : TrapRec} (hdet : s.c.det = false) :
    (if s.c.det = true then .trap t else s.ctlOnly k) = s.ctlOnly k := if_neg (by simp [hdet])

section
variable {s : State} {m : Bool} (hd : s.ctl.delay = none)
include hd

theorem exec_exit_yld_detached (hdet : s.c.det = true) :
    exec (.exit m) s = .next (s.preciseTrap (cause 0x01 s.pcNow 2)) ∧ exec (.yld m) s = .next (s.preciseTrap (cause 0x01 s.pcNow 2)) :=
  ⟨cWordNoDelay_trap hd s.ready_nil (if_pos hdet), cWordNoDelay_trap hd s.ready_nil (if_pos hdet)⟩

theorem exec_exit_yld_follower (hdet : s.c.det = false) (ho : s.ownsControl = false) :
    exec (.exit m) s = .next (s.after m) ∧ exec (.yld m) s = .next (s.after m) :=
  ⟨cWordNoDelay_ok hd s.ready_nil ((ctlOnly_attached hdet).trans (State.ctlOnly_follower ho)),
    cWordNoDelay_ok hd s.ready_nil ((ctlOnly_attached hdet).trans (State.ctlOnly_follower ho))⟩

variable (hdet : s.c.det = false) (ho : s.ownsControl = true)
include hdet ho

theorem exec_exit_leader : exec (.exit m) s = .next ((s.evacuate.transfer .exit 0).after m) :=
  cWordNoDelay_ok hd s.ready_nil ((ctlOnly_attached hdet).trans (State.ctlOnly_own ho))

/-- Once BUDGET is 0, YIELD acts as EXIT (02 R32). -/
theorem exec_yld_overBudget (hl : s.sl.left = 0) : exec (.yld m) s = .next ((s.evacuate.transfer .exit 0).after m) :=
  cWordNoDelay_ok hd s.ready_nil (((ctlOnly_attached hdet).trans (State.ctlOnly_own ho)).trans (if_pos hl))

theorem exec_yld_anyDetached (hl : s.sl.left ≠ 0) (ha : s.anyDetached = true) :
    exec (.yld m) s = .next (s.preciseTrap (cause 0x01 s.pcNow 2)) :=
  cWordNoDelay_trap hd s.ready_nil (((ctlOnly_attached hdet).trans (State.ctlOnly_own ho)).trans ((if_neg hl).trans (if_pos ha)))

theorem exec_yld_leader (hl : s.sl.left ≠ 0) (ha : s.anyDetached = false) :
    exec (.yld m) s = .next ((s.evacuate.transfer .yld 0).after m) :=
  cWordNoDelay_ok hd s.ready_nil (((ctlOnly_attached hdet).trans (State.ctlOnly_own ho)).trans ((if_neg hl).trans (if_neg (by simp [ha]))))

end

/-! ### The delay bundle (08 R178, log 14) -/

section
variable {c : Core} {x : Xfer}

/-- The bundle of an EXIT or YIELD makes its own end checks before its delay bundle. -/
theorem Core.advance_leaves (hx : c.xfer = some x) (hk : x.kind = .exit ∨ x.kind = .yld) : c.advance = c.checksBefore c.pc x.kind := by
  obtain hk | hk := hk <;> simp [Core.advance, hx, hk]

/-- After the delay bundle the unit owes its EXIT or YIELD. The end checks are the delay bundle's where the word's own bundle made none. -/
theorem Core.advance_delay_leaves (hx : c.xfer = none) (hd : c.delay = some x) (hk : x.kind = .exit ∨ x.kind = .yld) : c.advance =
    if x.target = noTarget then { ({ c with delay := none } : Core).fallThrough c.pc (c.pc + 8) with owed := some x }
    else { c with delay := none, pc := x.target, owed := some x } := by
  obtain hk | hk := hk <;> simp only [Core.advance, hx, hd, hk] <;> split <;> rfl

/-- TEVAC has no delay bundle. -/
theorem Core.advance_evac (hx : c.xfer = some x) (hk : x.kind = .evac) : c.advance = { c with owed := some x, pc := c.pc + 8 } := by
  simp [Core.advance, hx, hk]

theorem Core.canIssue_owed (now : Nat) (h : c.owed.isSome = true) : c.canIssue now = false := by
  have hn : c.owed.isNone = false := by simpa using h
  simp [Core.canIssue, hn]

end

/-! ### What a unit owes takes effect (log 14) -/

section
variable {s : State} {u : CoreId} {x : Xfer} {uid : Nat} (ho : (s.cores[u]).owed = some x) (hs : (s.cores[u]).sl = some uid)
include ho hs

/-- Not while something holds up its gang. -/
theorem State.payOwed_busy (hb : ∃ c ∈ s.gang u, (s.cores[c]).busy = true) : s.payOwed u = none := by
  rw [State.payOwed, ho, hs]
  exact if_pos (List.any_eq_true.2 hb)

variable (hb : ¬∃ c ∈ s.gang u, (s.cores[c]).busy = true)
include hb

theorem State.payOwed_exit (hk : x.kind = .exit) : s.payOwed u = some (s.leaveSlice (s.slice! uid) .exit) := by
  rw [State.payOwed, ho, hs]
  simp only [if_neg (mt List.any_eq_true.1 hb), hk]

theorem State.payOwed_evac (hk : x.kind = .evac) : s.payOwed u = some (s.leaveSlice (s.slice! uid) .evacuated) := by
  rw [State.payOwed, ho, hs]
  simp only [if_neg (mt List.any_eq_true.1 hb), hk]

theorem State.payOwed_yld (hk : x.kind = .yld) : s.payOwed u = some ((s.modCores (s.gang u) (fun c =>
    { c with park := some { why := .yieldWait, marks := false } })).modCore u (fun c => { c with owed := none })) := by
  rw [State.payOwed, ho, hs]
  simp only [if_neg (mt List.any_eq_true.1 hb), hk]

end

/-- A core that an update of several cores names, perhaps more than once, is what the update makes of some core. -/
theorem State.modCores_core {g : List CoreId} (f : Core → Core) (s : State) {c : CoreId} (h : c ∈ g) :
    ∃ k, (s.modCores g f).cores[c] = f k := by
  induction g generalizing s with
  | nil => cases h
  | cons d g ih =>
    by_cases hg : c ∈ g
    · exact ih (s.modCore d f) hg
    · obtain rfl : c = d := (List.mem_cons.1 h).resolve_right hg
      exact ⟨s.cores[c], (State.foldl_modCore_ne (fun _ => f) (s.modCore c f) hg).trans (State.modCore_self s c f)⟩

@[simp] theorem State.freePosted_cores (s : State) (x : Slice) : (s.freePosted x).cores = s.cores := by
  unfold State.freePosted
  split <;> rfl

/-- The exit wait begins on every core of the slice, which has left its stream. -/
theorem State.leaveSlice_core (s : State) {x : Slice} (how : EndHow) {c : CoreId} (h : c ∈ x.cores) :
    ∃ k : Core, (s.leaveSlice x how).cores[c] = k.leave := by
  have e : (s.leaveSlice x how).cores = (s.modCores x.cores Core.leave).cores := State.freePosted_cores _ _
  rw [e]
  exact State.modCores_core Core.leave s h

/-- Settles O19: the words by whose they are, the delay bundle by the end checks, what is owed by what holds the gang up. -/
theorem exitAndYield : Obligations.ExitAndYield := by
  refine ⟨fun s m hd => ⟨exec_exit_yld_detached hd, exec_exit_yld_follower hd, fun hdet ho => ⟨exec_exit_leader hd hdet ho,
      exec_yld_overBudget hd hdet ho, exec_yld_anyDetached hd hdet ho, exec_yld_leader hd hdet ho⟩⟩,
    fun c x y now => ⟨fun hx hk hn => ⟨{ kind := x.kind, target := noTarget }, ?_, rfl, fun d hdx hdd hde => ?_⟩, fun hx hk he => ?_,
      fun hx hd hk => ?_, Core.advance_evac, Core.canIssue_owed now⟩,
    fun s u x uid ho hs => ⟨State.payOwed_busy ho hs, fun hb => ⟨State.payOwed_exit ho hs hb, State.payOwed_evac ho hs hb,
      State.payOwed_yld ho hs hb⟩⟩,
    fun s x how c hc => ?_⟩
  · rw [Core.advance_leaves hx hk, Core.checksBefore_plain hn]
  · rw [Core.advance_delay_leaves hdx hdd hk, if_pos rfl,
      Core.fallThrough_plain (c := { d with delay := none }) (not_exists.2 fun l => Bool.eq_false_iff.1 (hde l))]
  · have hu : x.kind ≠ .untaken := by obtain hk | hk := hk <;> simp [hk]
    rw [Core.advance_leaves hx hk, Core.checksBefore_ends he, if_neg hu]
  · rw [Core.advance_delay_leaves hx hd hk]
    rfl
  · obtain ⟨k, e⟩ := s.leaveSlice_core how hc
    rw [e]
    exact ⟨rfl, rfl, rfl, rfl, rfl, rfl⟩

end Sys2Proof.Machine
end

section
/-! PROOFS. MFS and MTS (09 R194 to R196). -/

namespace Sys2Proof.Machine

open Sys2Proof

variable {s : State} {m : Bool} {a d : Reg}

theorem exec_mfs_reads (r : SysReg) (hr : s.Ready [] (wS d (some 1))) :
    exec (.mfs m d r) s = .next ((s.landAt (.scalar d (s.readSys r)) 1 0).after m) :=
  (exec_mfs m d r s).trans (cResult_ready hr)

theorem programWrites_iff (r : SysReg) : programWrites r = true ↔ r = .trapv ∨ r = .fpflags ∨ r = .discsel := by
  cases r <;> decide

theorem exec_mts_writes {r : SysReg} (hr : s.Ready [.scalar a] [(.sys r, some 1)]) (hw : programWrites r = true) :
    exec (.mts m r a) s = .next ((s.landAt (.sys r (s.rs a)) 1 0).after m) :=
  (exec_mts m r a s).trans (cWord_ok hr (if_pos hw))

theorem exec_mts_privileged {r : SysReg} (hr : s.Ready [.scalar a] [(.sys r, some 1)]) (hw : programWrites r ≠ true) :
    exec (.mts m r a) s = .next (s.preciseTrap (cause 0x13 s.pcNow 0)) :=
  (exec_mts m r a s).trans (cWord_trap hr (if_neg hw))

/-- Settles O21: MFS register by register, MTS by whether a program may write the register. -/
theorem systemRegisters : Obligations.SystemRegisters := by
  intro s m d a r
  refine ⟨fun hr => (exec_mfs_reads r hr).trans ?_, fun hr => ?_⟩
  · -- One case for each register: its value is the one the statement writes.
    cases r <;> rfl
  · by_cases hw : programWrites r = true
    · rw [exec_mts_writes hr hw, if_pos ((programWrites_iff r).1 hw)]
    · rw [exec_mts_privileged hr hw, if_neg (mt (programWrites_iff r).2 hw)]

end Sys2Proof.Machine
end

section
/-! PROOFS. Vector words: what a word that writes one vector answers, element by element (10 R208, R209). -/

namespace Sys2Proof.Machine

open Sys2Proof

/-! ### Elements, and integers modulo 2^w (05 R107, 10 R208) -/

theorem elem_lt (x : Vec) (w j : Nat) : elem x w j < 2 ^ w := Nat.mod_lt _ (Nat.two_pow_pos w)

theorem elemWidth_flt {ty : ETy} {f : FFmt} (h : elemKind ty = .flt f) : elemWidth ty = f.width := by
  rw [elemWidth, h]

theorem exists_flt_of_isArithFloat {ty : ETy} (h : ty.isArithFloat = true) : ∃ f, elemKind ty = .flt f := by
  match ty, h with
  | .f32, _ | .f16, _ | .bf16, _ => exact ⟨_, rfl⟩

theorem exists_int_of_isByteInt {ty : ETy} (h : ty.isByteInt = true) : ∃ sg, elemKind ty = .int sg (elemWidth ty) := by
  match ty, h with
  | .i8, _ | .i16, _ | .i32, _ | .n8, _ | .n16, _ | .n32, _ => exact ⟨_, rfl⟩

/-- The integer an element stands for is the element, modulo 2^w, whatever the sign. -/
theorem intOf_modEq (sg : Bool) (w x : Nat) : intOf sg w x ≡ x [ZMOD (2 ^ w : Nat)] := by
  have hx : ((x % 2 ^ w : Nat) : Int) ≡ x [ZMOD (2 ^ w : Nat)] := by
    rw [Int.natCast_mod]
    exact Int.mod_modEq _ _
  cases sg
  · exact hx
  · simp only [intOf, sext, if_true]
    split
    · exact hx
    · refine Int.ModEq.trans ?_ hx
      push_cast
      exact Int.sub_modulus_modEq_iff.2 rfl

/-- The low w bits of an integer are those of any number congruent to it. -/
theorem bitsOf_mod {w : Nat} {z : Int} {n : Nat} (h : z ≡ n [ZMOD (2 ^ w : Nat)]) : bitsOf w z % 2 ^ w = n % 2 ^ w := by
  have hn : z % (2 ^ w : Nat) = (n % 2 ^ w : Nat) := by rw [Int.natCast_mod]; exact h
  rw [bitsOf, hn, Int.toNat_natCast, Nat.mod_mod]

theorem elemOp2_flt {ty : ETy} {f : FFmt} (h : elemKind ty = .flt f) (ff : FFmt → Nat → Nat → FRes) (fi : Int → Int → Int) :
    elemOp2 ty ff fi = ff f := by
  funext x y
  simp [elemOp2, h]

theorem elemOp2_int {ty : ETy} {sg : Bool} {w : Nat} (h : elemKind ty = .int sg w) (ff : FFmt → Nat → Nat → FRes) (fi : Int → Int → Int)
    (x y : Nat) : elemOp2 ty ff fi x y = (bitsOf w (fi (intOf sg w x) (intOf sg w y)), 0) := by
  simp [elemOp2, h]

theorem elemOp1_flt {ty : ETy} {f : FFmt} (h : elemKind ty = .flt f) (ff : FFmt → Nat → FRes) (fi : Int → Int) :
    elemOp1 ty ff fi = ff f := by
  funext x
  simp [elemOp1, h]

theorem elemOp1_int {ty : ETy} {sg : Bool} {w : Nat} (h : elemKind ty = .int sg w) (ff : FFmt → Nat → FRes) (fi : Int → Int) (x : Nat) :
    elemOp1 ty ff fi x = (bitsOf w (fi (intOf sg w x)), 0) := by
  simp [elemOp1, h]

theorem getD_map_range (f : Nat → Nat) {m j : Nat} (h : j < m) : ((List.range m).map f).getD j 0 = f j := by
  simp [List.getD_eq_getElem?_getD, h]

/-! ### What a vector word answers -/

section
variable {s : State} {i : Instr} {g : Guard} {d a b : Reg} {n w : Nat}

/-- Where no element has a flag, the word has none (10 R209). -/
theorem answersElems_of_flagless {r : Nat → FRes} {u : Vec} {fl : BitVec 6} {v : Nat → Nat}
    (hu : ∀ j < 1024 / w, elem u w j = (r j).1 % 2 ^ w)
    (hfl : ∀ p < 6, fl.getLsbD p = true ↔ ∃ j < 1024 / w, (r j).2.getLsbD p = true)
    (he : exec i s = .next (s.result (.vector d u) n fl)) (h0 : ∀ j, (r j).2 = 0) (hv : ∀ j, (r j).1 % 2 ^ w = v j % 2 ^ w) :
    AnswersElems s i d n w v 0 := by
  have hz : fl = 0 := by
    apply BitVec.eq_of_getLsbD_eq
    intro p hp
    rw [BitVec.ofNat_eq_ofNat, BitVec.getLsbD_zero, ← Bool.not_eq_true, hfl p hp]
    rintro ⟨j, -, hb⟩
    simp [h0 j] at hb
  exact ⟨u, fun j hj => (hu j hj).trans (hv j), hz ▸ he⟩

theorem Answers2.elems {f : Nat → Nat → FRes} {x y : Vec} {v : Nat → Nat} (h : Answers2 s i d n w f x y)
    (hf : ∀ j, (f (elem x w j) (elem y w j)).2 = 0) (hv : ∀ j, (f (elem x w j) (elem y w j)).1 % 2 ^ w = v j % 2 ^ w) :
    AnswersElems s i d n w v 0 := by
  obtain ⟨u, fl, ⟨hu, hfl⟩, he⟩ := h
  exact answersElems_of_flagless hu hfl he hf hv

theorem Answers1.elems {f : Nat → FRes} {x : Vec} {v : Nat → Nat} (h : Answers1 s i d n w f x)
    (hf : ∀ j, (f (elem x w j)).2 = 0) (hv : ∀ j, (f (elem x w j)).1 % 2 ^ w = v j % 2 ^ w) :
    AnswersElems s i d n w v 0 := by
  obtain ⟨u, fl, ⟨hu, hfl⟩, he⟩ := h
  exact answersElems_of_flagless hu hfl he hf hv

variable {reads : List RegId} (hg : s.guardOn g = true)
include hg

/-- A word that maps the elements of two registers answers that map. -/
theorem answers2_map {f : Nat → Nat → FRes} (hr : s.Ready [.vector a, .vector b] (wV d (some n)))
    (he : exec i s = vecMap2 g d a b w n f s) : Answers2 s i d n w f (s.rv a) (s.rv b) := by
  obtain ⟨v, fl, hv, hx⟩ := vecMap2_ready hg hr
  exact ⟨v, fl, hv, he.trans hx⟩

/-- So does one that maps the elements of one register. -/
theorem answers1_map {f : Nat → FRes} (hr : s.Ready [.vector a] (wV d (some n)))
    (he : exec i s = vecMap1 g d a w n f s) : Answers1 s i d n w f (s.rv a) := by
  obtain ⟨v, fl, hv, hx⟩ := vecMap1_ready hg hr
  exact ⟨v, fl, hv, he.trans hx⟩

/-- A word that writes a register made of elements answers those elements. -/
theorem answersElems_ofElems {es : List Nat} {fl : BitVec 6} {v : Nat → Nat} (he : exec i s = vecWord g reads d n (ofElems w es, fl) s)
    (hr : s.Ready reads (wV d (some n))) (hv : ∀ j < 1024 / w, es.getD j 0 % 2 ^ w = v j % 2 ^ w) : AnswersElems s i d n w v fl :=
  ⟨ofElems w es, fun j hj => (elem_ofElems w es j (elem_inside hj)).trans (hv j hj), he.trans (vecWord_ready hg hr)⟩

/-- So does one whose elements are a function of their numbers. -/
theorem answersElems_range {m : Nat} {f v : Nat → Nat} (he : exec i s = vecWord g reads d n (ofElems w ((List.range m).map f), 0) s)
    (hr : s.Ready reads (wV d (some n))) (hm : 1024 / w = m) (hv : ∀ j < m, f j % 2 ^ w = v j % 2 ^ w) : AnswersElems s i d n w v 0 :=
  answersElems_ofElems hg he hr fun j hj => by rw [getD_map_range f (hm ▸ hj), hv j (hm ▸ hj)]

/-- A word that gathers the first `k` elements of a function answers them, 0 above them, and the flags of all of them. -/
theorem answersElems_gather {k : Nat} {r : Nat → FRes} (he : exec i s = vecWord g reads d n (gather w ((List.range k).map r)) s)
    (hr : s.Ready reads (wV d (some n))) :
    ∃ fl, AnswersElems s i d n w (fun j => if j < k then (r j).1 else 0) fl ∧
      ∀ p < 6, fl.getLsbD p = true ↔ ∃ j < k, (r j).2.getLsbD p = true := by
  obtain ⟨hv, hfl⟩ := gather_range w k r
  exact ⟨_, ⟨_, hv, he.trans (vecWord_ready hg hr)⟩, fun p _ => hfl p⟩

/-- A word that gathers all elements of a function answers them with their flags. -/
theorem answersElems_gatherAll {r : Nat → FRes} (he : exec i s = vecWord g reads d n (gather w ((List.range (1024 / w)).map r)) s)
    (hr : s.Ready reads (wV d (some n))) :
    ∃ fl, AnswersElems s i d n w (fun j => (r j).1) fl ∧ ∀ p < 6, fl.getLsbD p = true ↔ ∃ j < 1024 / w, (r j).2.getLsbD p = true := by
  obtain ⟨fl, ⟨v, hv, hx⟩, hfl⟩ := answersElems_gather hg he hr
  exact ⟨fl, ⟨v, fun j hj => by simpa [hj] using hv j hj, hx⟩, hfl⟩

end

end Sys2Proof.Machine
end

section
/-! PROOFS. Vector arithmetic, the one-operand functions, bitwise forms and shifts, fused forms and VCMP (10 R211 to R217). -/

namespace Sys2Proof.Machine

open Sys2Proof

/-! ### Integer arithmetic modulo 2^w (05 R107, 10 R211, R214) -/

theorem bitsOf_add (sg : Bool) (w x y : Nat) : bitsOf w (intOf sg w x + intOf sg w y) % 2 ^ w = (x + y) % 2 ^ w :=
  bitsOf_mod (by simpa using (intOf_modEq sg w x).add (intOf_modEq sg w y))

theorem bitsOf_mul (sg : Bool) (w x y : Nat) : bitsOf w (intOf sg w x * intOf sg w y) % 2 ^ w = (x * y) % 2 ^ w :=
  bitsOf_mod (by simpa using (intOf_modEq sg w x).mul (intOf_modEq sg w y))

theorem bitsOf_sub (sg : Bool) {w y : Nat} (x : Nat) (hy : y < 2 ^ w) :
    bitsOf w (intOf sg w x - intOf sg w y) % 2 ^ w = (x + 2 ^ w - y) % 2 ^ w := by
  have hx : intOf sg w x ≡ (x + 2 ^ w : Nat) [ZMOD (2 ^ w : Nat)] :=
    (intOf_modEq sg w x).trans (by rw [Nat.cast_add]; exact (Int.add_modulus_modEq_iff.2 rfl).symm)
  apply bitsOf_mod
  rw [Nat.cast_sub (by omega)]
  exact hx.sub (intOf_modEq sg w y)

theorem bitsOf_neg (sg : Bool) {w x : Nat} (hx : x < 2 ^ w) : bitsOf w (-intOf sg w x) % 2 ^ w = (2 ^ w - x) % 2 ^ w := by
  have h0 : (0 : Int) ≡ (2 ^ w : Nat) [ZMOD (2 ^ w : Nat)] := by rw [Int.ModEq, Int.zero_emod, Int.emod_self]
  apply bitsOf_mod
  rw [Nat.cast_sub hx.le, ← zero_sub]
  exact h0.sub (intOf_modEq sg w x)

theorem bitsOf_self (sg : Bool) (w x : Nat) : bitsOf w (intOf sg w x) % 2 ^ w = x % 2 ^ w := bitsOf_mod (intOf_modEq sg w x)

/-- The absolute value wraps as the negation does. -/
theorem bitsOf_abs (sg : Bool) {w x : Nat} (hx : x < 2 ^ w) :
    bitsOf w (if intOf sg w x < 0 then -intOf sg w x else intOf sg w x) % 2 ^ w = (if intOf sg w x < 0 then 2 ^ w - x else x) % 2 ^ w := by
  by_cases h : intOf sg w x < 0
  · rw [if_pos h, if_pos h, bitsOf_neg sg hx]
  · rw [if_neg h, if_neg h, bitsOf_self]

/-! ### Two operands (10 R211) -/

/-- Integer operands set no flag. -/
theorem Answers2.ints {s : State} {i : Instr} {d : Reg} {n w : Nat} {ty : ETy} {ff : FFmt → Nat → Nat → FRes} {fi : Int → Int → Int}
    {x y : Vec} {v : Nat → Nat} {sg : Bool} (h : Answers2 s i d n w (elemOp2 ty ff fi) x y) (hk : elemKind ty = .int sg w)
    (hv : ∀ j, bitsOf w (fi (intOf sg w (elem x w j)) (intOf sg w (elem y w j))) % 2 ^ w = v j % 2 ^ w) : AnswersElems s i d n w v 0 :=
  h.elems (fun _ => by rw [elemOp2_int hk]) (fun _ => by rw [elemOp2_int hk, hv])

theorem Answers1.ints {s : State} {i : Instr} {d : Reg} {n w : Nat} {ty : ETy} {ff : FFmt → Nat → FRes} {fi : Int → Int} {x : Vec}
    {v : Nat → Nat} {sg : Bool} (h : Answers1 s i d n w (elemOp1 ty ff fi) x) (hk : elemKind ty = .int sg w)
    (hv : ∀ j, bitsOf w (fi (intOf sg w (elem x w j))) % 2 ^ w = v j % 2 ^ w) : AnswersElems s i d n w v 0 :=
  h.elems (fun _ => by rw [elemOp1_int hk]) (fun _ => by rw [elemOp1_int hk, hv])

/-- Settles O6: each word is a map of its operation; a quotient is one of floats, and integer operands wrap. -/
theorem vectorArithmetic : Obligations.VectorArithmetic := by
  refine ⟨fun s g d a b ty hg => ⟨fun hr => ?_, fun hf hr => ?_⟩, fun s g d a b ty hi hg hr => ?_⟩
  · exact ⟨answers2_map hg hr (exec_vadd ..), answers2_map hg hr (exec_vsub ..), answers2_map hg hr (exec_vmul ..),
      answers2_map hg hr (exec_vmin ..), answers2_map hg hr (exec_vmax ..),
      fun _ => ⟨answers2_map hg hr (exec_vminn ..), answers2_map hg hr (exec_vmaxn ..)⟩⟩
  · obtain ⟨f, hk⟩ := exists_flt_of_isArithFloat hf
    have h := answers2_map hg hr (exec_vdiv g d a b ty s)
    rw [elemOp2_flt hk] at h
    exact ⟨f, hk, h⟩
  · obtain ⟨sg, hk⟩ := exists_int_of_isByteInt hi
    exact ⟨(answers2_map hg hr (exec_vadd ..)).ints hk fun _ => bitsOf_add sg _ _ _,
      (answers2_map hg hr (exec_vsub ..)).ints hk fun j => bitsOf_sub sg _ (elem_lt _ _ j),
      (answers2_map hg hr (exec_vmul ..)).ints hk fun _ => bitsOf_mul sg _ _ _⟩

/-! ### One operand (10 R213, R214) -/

theorem signBit_eq {ty : ETy} {f : FFmt} (h : elemKind ty = .flt f) : f.signBit = 2 ^ (elemWidth ty - 1) := by
  rw [elemWidth_flt h, FFmt.signBit, FFmt.width]
  congr 1
  omega

theorem two_mul_signBit_eq {ty : ETy} {f : FFmt} (h : elemKind ty = .flt f) : 2 * f.signBit = 2 ^ elemWidth ty := by
  rw [elemWidth_flt h, FFmt.signBit, FFmt.width, ← Nat.pow_succ']
  congr 1
  omega

/-- A float function is the format's. -/
theorem Answers1.floats {s : State} {i : Instr} {d : Reg} {n w : Nat} {ty : ETy} {f : FFmt} {ff : FFmt → Nat → FRes} {fi : Int → Int}
    {x : Vec} (h : Answers1 s i d n w (elemOp1 ty ff fi) x) (hk : elemKind ty = .flt f) : Answers1 s i d n w (ff f) x := by
  rwa [elemOp1_flt hk] at h

/-- Settles O7: functions of floats are the format's; absolute value and negation clear and flip the sign bit of a float, and wrap. -/
theorem vectorOneOperandForms : Obligations.VectorOneOperandForms := by
  refine fun s g d a ty hg => ⟨fun f hk => ⟨fun hr => ?_, fun hr => ?_, fun hr => ?_⟩, fun sg hk hr => ?_⟩
  · exact (answers1_map hg hr (exec_vsqrt ..)).floats hk
  · exact ⟨(answers1_map hg hr (exec_vrcp ..)).floats hk, (answers1_map hg hr (exec_vrsq ..)).floats hk,
      (answers1_map hg hr (exec_vexp2 ..)).floats hk, (answers1_map hg hr (exec_vlog2 ..)).floats hk⟩
  · exact ⟨((answers1_map hg hr (exec_vabs ..)).floats hk).elems (fun _ => rfl) (fun _ => by rw [FFmt.clearSign, signBit_eq hk]),
      ((answers1_map hg hr (exec_vneg ..)).floats hk).elems (fun _ => rfl)
        (fun _ => by rw [FFmt.flipSign, two_mul_signBit_eq hk, signBit_eq hk, Nat.mod_mod])⟩
  · exact ⟨(answers1_map hg hr (exec_vneg ..)).ints hk fun j => bitsOf_neg sg (elem_lt _ _ j),
      (answers1_map hg hr (exec_vabs ..)).ints hk fun j => bitsOf_abs sg (elem_lt _ _ j)⟩

/-! ### Bitwise forms, shifts and VSEL (10 R216, R217) -/

theorem bitsOf_eq (w : Nat) (z : Int) : bitsOf w z = (z % 2 ^ w).toNat := by
  rw [bitsOf, Nat.cast_pow, Nat.cast_ofNat]

/-- VSEL takes the bit of its first operand where the third has a 1, and that of its second elsewhere. -/
theorem getLsbD_select (x y z : Vec) (i : Nat) :
    ((z &&& x) ||| (~~~z &&& y)).getLsbD i = if z.getLsbD i then x.getLsbD i else y.getLsbD i := by
  by_cases hi : i < 1024
  · simp only [BitVec.getLsbD_or, BitVec.getLsbD_and, BitVec.getLsbD_not, hi, decide_true, Bool.true_and]
    cases z.getLsbD i <;> simp
  · simp [BitVec.getLsbD_of_ge _ _ (Nat.not_lt.1 hi)]

/-- Settles O8: the bitwise forms are results of whole registers, the shifts maps without flags. -/
theorem vectorBitwiseAndShifts : Obligations.VectorBitwiseAndShifts := by
  refine fun s g d a b c ty hg => ⟨fun hr => ⟨vecWord_ready hg hr, vecWord_ready hg hr, vecWord_ready hg hr, ?_, ?_, ?_⟩,
    vecWord_ready hg, fun hr => ⟨_, getLsbD_select _ _ _, vecWord_ready hg hr⟩⟩
  · exact (answers2_map hg hr (exec_vshl ..)).elems (fun _ => rfl) fun _ => Nat.mod_mod _ _
  · exact (answers2_map hg hr (exec_vshr ..)).elems (fun _ => rfl) fun _ => rfl
  · exact (answers2_map hg hr (exec_vsra ..)).elems (fun _ => rfl) fun _ => by rw [bitsOf_eq]

/-! ### Fused forms and VCMP (10 R212, R215) -/

theorem elems_zipWith_zip (x y z : Vec) (w : Nat) (f : Nat → Nat → Nat → FRes) :
    List.zipWith (fun (p : Nat × Nat) c => f p.1 p.2 c) ((elems x w).zip (elems y w)) (elems z w) =
      (List.range (1024 / w)).map (fun j => f (elem x w j) (elem y w j) (elem z w j)) := by
  simp [elems, List.zip_map', List.zipWith_map_left, List.zipWith_map_right]

/-- A fused form gathers the fused results of all elements. -/
theorem vecFma_eq (g : Guard) (d a b c : Reg) (f : FTy) (np na : Bool) (s : State) : vecFma g d a b c f np na s =
    vecWord g [.vector a, .vector b, .vector c] d 4 (gather (fmtOf f).width ((List.range (1024 / (fmtOf f).width)).map fun j =>
      (fmtOf f).fma np na (elem (s.rv a) (fmtOf f).width j) (elem (s.rv b) (fmtOf f).width j) (elem (s.rv c) (fmtOf f).width j))) s := by
  rw [vecFma, elems_zipWith_zip _ _ _ _ ((fmtOf f).fma np na)]

theorem vcondSays_int {ty : ETy} {sg : Bool} {w : Nat} (h : elemKind ty = .int sg w) (c : VCond) (x y : Nat) :
    VCondSays ty c x y ↔ vcondInt c (intOf sg w x) (intOf sg w y) = true := by
  cases c <;> simp [VCondSays, h, vcondInt]

theorem vcondSays_flt {ty : ETy} {f : FFmt} (h : elemKind ty = .flt f) (c : VCond) (x y : Nat) :
    VCondSays ty c x y ↔ (f.cmp c x y).1 = true := by
  by_cases hn : ((f.decode x).isNaN || (f.decode y).isNaN) = true
  · simp [VCondSays, h, FFmt.cmp, hn]
  · cases c <;> simp [VCondSays, h, FFmt.cmp, hn, vcondInt]

/-- An element of VCMP is all ones where a Bool is true and 0 elsewhere, and the Bool is true where the condition holds. -/
theorem cmpElem_fst (ty : ETy) (c : VCond) (x y : Nat) :
    ∃ b : Bool, (VCondSays ty c x y ↔ b = true) ∧ (cmpElem ty c x y).1 = if b then 2 ^ elemWidth ty - 1 else 0 := by
  cases h : elemKind ty with
  | flt f => exact ⟨_, vcondSays_flt h c x y, by simp [cmpElem, h]⟩
  | int sg w => exact ⟨_, vcondSays_int h c x y, by simp [cmpElem, h]⟩

/-- Settles O9: the fused forms gather one rounding for each element, and VCMP is a map. -/
theorem vectorFusedAndCompare : Obligations.VectorFusedAndCompare := by
  refine fun s g d a b c f ty cond hg => ⟨fun hr => ?_, fun hr => ⟨answers2_map hg hr (exec_vcmp ..), fun x y => ?_⟩⟩
  · have fused {i : Instr} {np na : Bool} (he : exec i s = vecFma g d a b c f np na s) :=
      answersElems_gatherAll hg (he.trans (vecFma_eq ..)) hr
    exact ⟨fused (exec_vfma ..), fused (exec_vfms ..), fused (exec_vfnma ..)⟩
  · obtain ⟨b, hb, hv⟩ := cmpElem_fst ty cond x y
    exact ⟨fun h => by rw [hv, if_pos (hb.1 h)], fun h => by rw [hv, if_neg (mt hb.2 h)]⟩

end Sys2Proof.Machine
end

section
/-! PROOFS. Conversions, narrowing forms, block quantization, reductions and lane moves (10 R218 to R228). -/

namespace Sys2Proof.Machine

open Sys2Proof

/-- Settles O10: a conversion gathers the first K elements. -/
theorem vectorConversions : Obligations.VectorConversions := by
  intro s g d a b dt st rm sat dr f hg
  exact ⟨answersElems_gather hg (exec_vcvt ..), answersElems_gather hg (exec_vcvtSr ..)⟩

/-! ### Packing and unpacking (10 R223, R224) -/

/-- A register holds twice as many elements of a narrow type as of twice its width. -/
theorem narrow_count {ty : ETy} (h : ty.narrow = true) : 1024 / elemWidth ty = 512 / elemWidth ty + 512 / elemWidth ty := by
  match ty, h with
  | .i4, _ | .i8, _ | .i16, _ | .n8, _ | .n16, _ => rfl

theorem wide_count (w : Nat) : 1024 / (2 * w) = 512 / w := Nat.mul_div_mul_left 512 w (m := 2) (by decide)

theorem getD_elems {x : Vec} {w j : Nat} (h : j < 1024 / w) : (elems x w).getD j 0 = elem x w j := getD_map_range _ h

/-- The elements of two registers one after the other, where each has `m`. -/
theorem getD_elems_append {x y : Vec} {w m j : Nat} (hm : 1024 / w = m) (h : j < m + m) :
    (elems x w ++ elems y w).getD j 0 = if j < m then elem x w j else elem y w (j - m) := by
  subst hm
  by_cases hj : j < 1024 / w
  · rw [if_pos hj, List.getD_append _ _ _ _ (by rwa [elems_length]), getD_elems hj]
  · rw [if_neg hj, List.getD_append_right _ _ _ _ (by rw [elems_length]; omega), elems_length, getD_elems (by omega)]

/-- One more element after a list of them; 0 above it. -/
theorem getD_append_singleton (l : List Nat) (e j : Nat) :
    (l ++ [e]).getD j 0 = if j < l.length then l.getD j 0 else if j = l.length then e else 0 := by
  by_cases hj : j < l.length
  · rw [if_pos hj, List.getD_append _ _ _ _ hj]
  · rw [if_neg hj, List.getD_append_right _ _ _ _ (by omega)]
    by_cases he : j = l.length
    · simp [he]
    · rw [if_neg he, List.getD_eq_default _ _ (by simp; omega)]

/-- VPACK's elements: the low halves of the one register's, then of the other's. -/
theorem getD_pack {x y : Vec} {w j : Nat} (h : j < 512 / w + 512 / w) :
    ((elems x (2 * w) ++ elems y (2 * w)).map (fun e => e % 2 ^ w)).getD j 0 =
      (if j < 512 / w then elem x (2 * w) j else elem y (2 * w) (j - 512 / w)) % 2 ^ w := by
  have hmap := List.getD_map (l := elems x (2 * w) ++ elems y (2 * w)) (d := 0) (n := j) (fun e => e % 2 ^ w)
  rw [Nat.zero_mod] at hmap
  rw [hmap, getD_elems_append (wide_count w) h]

/-- VUNPK widens by the type's sign the half that its operand names. -/
theorem execVunpk_eq (g : Guard) (d a : Reg) (h : Bool) (ty : ETy) (s : State) : execVunpk g d a h ty s =
    let w := elemWidth ty
    vecWord g [.vector a] d 3 (ofElems (2 * w) ((List.range (512 / w)).map fun j =>
      bitsOf (2 * w) (intOf ty.isSigned w (elem (s.rv a) w ((if h then 512 / w else 0) + j)))), 0) s := by
  cases ty <;> rfl

/-! ### Microscaling blocks (05 R118, 10 R227, R228) -/

theorem mxQuant_length (k : MxFmt) (xs : List Fp) : (mxQuant k xs).1.length = xs.length := by
  unfold mxQuant
  split
  · exact List.length_map _
  · split <;> simp

/-- Settles O11: saturation and clamping are maps, packing, unpacking and quantizing write the elements named, dequantizing gathers. -/
theorem vectorNarrowingForms : Obligations.VectorNarrowingForms := by
  refine ⟨fun s g d a b k h ty hg => ⟨fun hr => answers1_map hg hr (exec_vsat ..), fun hr => answers2_map hg hr (exec_vclamp ..),
    fun hn hr => ?_, fun _ hr => ?_⟩, fun s g d a ty hg hr => ⟨?_, ?_⟩⟩
  · exact answersElems_ofElems hg (exec_vpack ..) hr fun j hj => by rw [getD_pack (narrow_count hn ▸ hj), Nat.mod_mod]
  · exact answersElems_range hg ((exec_vunpk ..).trans (execVunpk_eq ..)) hr (wide_count _) fun j _ => by rw [bitsOf_eq]
  · have hlen : (mxQuant (mxFmtOf ty) ((elems (s.rv a) 32).map fF32.decode)).1.length = 32 := by
      rw [mxQuant_length, List.length_map, elems_length]
    refine ⟨hlen, answersElems_ofElems hg (exec_vqmx ..) hr fun j _ => ?_⟩
    rw [getD_append_singleton, hlen]
  · exact answersElems_gatherAll hg (exec_vdqmx ..) hr

/-! ### Reductions (05 R116, 10 R225) -/

theorem vecReduce_answers {s : State} {g : Guard} {d a : Reg} {n : Fin 32} {ty : ETy} {i : Instr} {o : RedOp} (hg : s.guardOn g = true)
    (hr : s.Ready [.vector a] (wV d (some 6))) (he : exec i s = vecReduce o g d a n ty s) :
    let r := redTree (redStep o ty) 5 ((List.range 32).map (fun i => if i ≤ n.val then elem (s.rv a) 32 i else redIdentity o ty)) 0
    AnswersElems s i d 6 32 (fun _ => r.1) r.2 :=
  answersElems_ofElems hg he hr fun j hj => by rw [List.getD_replicate _ hj]

/-! ### Lane moves (10 R226) -/

theorem getD_set_elems {x : Vec} {w i j v : Nat} (h : j < 1024 / w) :
    ((elems x w).set i v).getD j 0 = if j = i then v else elem x w j := by
  have hl : j < (elems x w).length := by rwa [elems_length]
  rw [List.getD_eq_getElem?_getD, List.getElem?_set, ← getD_elems h, List.getD_eq_getElem?_getD]
  by_cases e : i = j
  · subst e
    simp [hl]
  · simp [e, Ne.symm e]

theorem extVal_eq (ty : ETy) (x : Nat) :
    extVal ty x = if ty.isSigned then BitVec.ofInt 64 (sext x (elemWidth ty)) else BitVec.ofNat 64 x := by
  cases ty <;> rfl

/-- Settles O12: a reduction writes the tree's result to every lane, a lane move the elements that it names. -/
theorem vectorReductionsAndLaneMoves : Obligations.VectorReductionsAndLaneMoves := by
  refine ⟨fun s g d a n ty hg hr => ⟨vecReduce_answers hg hr (exec_vredadd ..), vecReduce_answers hg hr (exec_vredmax ..),
    vecReduce_answers hg hr (exec_vredmin ..)⟩, fun s g d a b ty hg => ⟨fun hr => ?_, fun hr => ?_, fun hr => ?_, fun hr => ?_, fun hr => ?_,
    fun hr => ?_⟩⟩
  · refine answersElems_ofElems hg (exec_vperm ..) hr fun j hj => ?_
    rw [elems, List.map_map, getD_map_range _ hj, Function.comp_apply]
  · exact answersElems_ofElems hg (exec_vbcast ..) hr fun j hj => by rw [List.getD_replicate _ hj, Nat.mod_mod]
  · exact answersElems_range hg (exec_vslide ..) hr rfl fun j _ => by simp
  · exact answersElems_ofElems hg (exec_viota ..) hr fun j hj => by simp [List.getD_eq_getElem?_getD, hj]
  · refine answersElems_ofElems hg (exec_vmovs ..) hr fun j hj => ?_
    rw [getD_set_elems hj]
    split
    · rw [Nat.mod_mod]
    · rfl
  · intro x
    rw [exec_vext, execVext, aluWord_ready hg hr, extVal_eq]

end Sys2Proof.Machine
end

section
/-! PROOFS. Loads and stores of the slice's own frame: scalars, whole vectors, and the 32 elements of the strided, gather and scatter forms
(04 R89, 11 R234, R236, R237). -/

namespace Sys2Proof.Machine

open Sys2Proof

/-! ### The words at issue -/

section
variable {s : State} {m : Bool} {d a b : Reg} {sz : MemSz} {disp : BitVec 11} {off : Nat}

theorem exec_ld_inFrame (hr : s.Ready [.scalar a] (wS d (some 5)))
    (h : s.InFrame (dispAddr (s.rs a) disp (sizeOf' sz)) off (sizeOf' sz) (sizeOf' sz) false) :
    exec (.ld m d a sz disp) s = .next ((s.setAcc (.load (s.frameKey off) d sz)).after m) := by
  rw [exec_ld]
  exact cWord_ok hr (State.withLocal_inFrame h _)

theorem exec_vld_inFrame (hr : s.Ready [.scalar a] (wV d (some 5))) (h : s.InFrame (dispAddr (s.rs a) disp 128) off 128 128 false) :
    exec (.vld m d a disp) s = .next ((s.setAcc (.loadVec (s.frameKey off) d)).after m) := by
  rw [exec_vld]
  exact cWord_ok hr (State.withLocal_inFrame h _)

theorem exec_st_inFrame (hr : s.Ready [.scalar a, .scalar d] [])
    (h : s.InFrame (dispAddr (s.rs a) disp (sizeOf' sz)) off (sizeOf' sz) (sizeOf' sz) true) :
    exec (.st m d a sz disp) s = .next ((s.setAcc (.store [(s.frameKey off, storeBytes sz (s.rs d))])).after m) := by
  rw [exec_st]
  exact cWord_ok hr (State.withLocal_inFrame h _)

theorem exec_vst_inFrame (hr : s.Ready [.scalar a, .vector d] []) (h : s.InFrame (dispAddr (s.rs a) disp 128) off 128 128 true) :
    exec (.vst m d a disp) s = .next ((s.setAcc (.store [(s.frameKey off, bytesOfVec (s.rv d))])).after m) := by
  rw [exec_vst]
  exact cWord_ok hr (State.withLocal_inFrame h _)

/-! #### The forms of 32 elements -/

section
variable {addr : Nat → Word}

/-- Both checks pass on every lane where each finds its frame. -/
theorem State.checkLanes_inFrame {n : Nat} {st : Bool} (h : s.LanesInFrame addr n st) : s.checkLanes addr n st = none := by
  have hacc : (List.range 32).findSome? (fun l => s.checkAccess .near (addr l) n n) = none := List.findSome?_eq_none_iff.2 fun l hl => by
    obtain ⟨off, ho⟩ := h l (List.mem_range.1 hl)
    exact State.checkAccess_inFrame (by decide) ho
  have hmem : (List.range 32).findSome? (fun l => s.checkMem .near (addr l) n n st) = none := List.findSome?_eq_none_iff.2 fun l hl => by
    obtain ⟨off, ho⟩ := h l (List.mem_range.1 hl)
    exact State.checkMem_inFrame (by decide) ho
  simp only [State.checkLanes, hacc, hmem]

theorem lanesLoadRes_inFrame (h : s.LanesInFrame addr (sizeOf' sz) false) :
    lanesLoadRes s addr sz d = .ok (s.setAcc (.loadLanes (s.laneKeys addr) d sz)) := by
  simp only [lanesLoadRes, State.checkLanes_inFrame h]

theorem lanesStoreRes_inFrame (h : s.LanesInFrame addr (sizeOf' sz) true) :
    lanesStoreRes s addr sz d = .ok (s.setAcc (.store (s.laneStores addr sz (s.rv d)))) := by
  simp only [lanesStoreRes, State.checkLanes_inFrame h]

section
variable (h : s.LanesInFrame addr (sizeOf' sz) false)
include h

theorem exec_vlds_inFrame (hr : s.Ready [.scalar a, .scalar b] (wV d (some 8))) (ha : addr = stridedAddr (s.rs a) (s.rs b)) :
    exec (.vlds m d a b sz) s = .next ((s.setAcc (.loadLanes (s.laneKeys addr) d sz)).after m) := by
  subst ha
  rw [exec_vlds]
  exact cWord_ok hr (lanesLoadRes_inFrame h)

theorem exec_vgath_inFrame (hr : s.Ready [.scalar a, .vector b] (wV d (some 8))) (ha : addr = gatherAddr (s.rs a) (s.rv b)) :
    exec (.vgath m d a b sz) s = .next ((s.setAcc (.loadLanes (s.laneKeys addr) d sz)).after m) := by
  subst ha
  rw [exec_vgath]
  exact cWord_ok hr (lanesLoadRes_inFrame h)

end

section
variable (h : s.LanesInFrame addr (sizeOf' sz) true)
include h

theorem exec_vsts_inFrame (hr : s.Ready [.scalar a, .scalar b, .vector d] []) (ha : addr = stridedAddr (s.rs a) (s.rs b)) :
    exec (.vsts m d a b sz) s = .next ((s.setAcc (.store (s.laneStores addr sz (s.rv d)))).after m) := by
  subst ha
  rw [exec_vsts]
  exact cWord_ok hr (lanesStoreRes_inFrame h)

theorem exec_vscat_inFrame (hr : s.Ready [.scalar a, .vector b, .vector d] []) (ha : addr = gatherAddr (s.rs a) (s.rv b)) :
    exec (.vscat m d a b sz) s = .next ((s.setAcc (.store (s.laneStores addr sz (s.rv d)))).after m) := by
  subst ha
  rw [exec_vscat]
  exact cWord_ok hr (lanesStoreRes_inFrame h)

end

end

end

/-! ### The accesses at the bank -/

section
variable {s : State} {core : CoreId} {d : Reg} {sz : MemSz} {key lag : Nat} {rest : List (Nat × LocalAcc)}

/-- The state in which a core's oldest access has left its list and its result is in flight. -/
def State.accLands (s : State) (core : CoreId) (rest : List (Nat × LocalAcc)) (w : Wr) (n : Nat) : State :=
  s.modCore core (fun c => { c with acc := rest, flight := c.flight ++ [{ dist := n, wr := w, flags := 0 }] })

theorem State.inFlight_modCore_acc (s : State) (core : CoreId) (rest : List (Nat × LocalAcc)) (w : Wr) (n : Nat) :
    (s.modCore core (fun c => { c with acc := rest })).inFlight core w n 0 = s.accLands core rest w n := s.modCore_modCore core _ _

theorem State.performAcc_load (h : (s.cores[core]).acc = (lag, .load key d sz) :: rest) :
    s.performAcc core = s.accLands core rest (.scalar d (loadVal sz (s.bytes key (sizeOf' sz)))) (5 - lag) :=
  (State.performAcc_cons h).trans (s.inFlight_modCore_acc core rest _ _)

theorem State.performAcc_loadVec (h : (s.cores[core]).acc = (lag, .loadVec key d) :: rest) :
    s.performAcc core = s.accLands core rest (.vector d (vecOfBytes (s.bytes key 128))) (5 - lag) :=
  (State.performAcc_cons h).trans (s.inFlight_modCore_acc core rest _ _)

theorem State.performAcc_loadLanes {keys : List Nat} (h : (s.cores[core]).acc = (lag, .loadLanes keys d sz) :: rest) :
    s.performAcc core = s.accLands core rest (.vector d (s.lanesAt keys sz)) (8 - lag) :=
  (State.performAcc_cons h).trans (s.inFlight_modCore_acc core rest _ _)

end

/-- Several writes, one after another. -/
def State.setRanges (s : State) (ws : List (Nat × List Byte)) : State := ws.foldl (fun s w => s.setBytes w.1 w.2) s

/-- At the bank a store makes its writes, and changes nothing else but its core's list. -/
theorem State.performAcc_store {s : State} {core : CoreId} {lag : Nat} {ws : List (Nat × List Byte)} {rest : List (Nat × LocalAcc)}
    (h : (s.cores[core]).acc = (lag, .store ws) :: rest) : s.performAcc core = (s.modCore core (fun c => { c with acc := rest })).setRanges ws :=
  State.performAcc_cons h

section
variable {s : State} (hi : Memory.wf s.mem = true)
include hi

theorem State.setRanges_wf (ws : List (Nat × List Byte)) : Memory.wf (s.setRanges ws).mem = true :=
  State.foldl_wf _ ws s (fun u w hu => u.setBytes_wf w.1 w.2 hu) hi

/-- A byte outside every range stands. -/
theorem State.byte_setRanges_ne {ws : List (Nat × List Byte)} {k : Nat} (h : ∀ w ∈ ws, k < w.1 ∨ w.1 + w.2.length ≤ k) :
    (s.setRanges ws).byte k = s.byte k := by
  induction ws generalizing s with
  | nil => rfl
  | cons w ws ih =>
    have htail : (s.setRanges (w :: ws)).byte k = (s.setBytes w.1 w.2).byte k :=
      ih (s.setBytes_wf w.1 w.2 hi) fun v hv => h v (List.mem_cons_of_mem w hv)
    rw [htail, State.byte_setBytes_ne hi (h w List.mem_cons_self)]

/-- A byte of a range that no later one meets reads as written. -/
theorem State.byte_setRanges_last {pre post : List (Nat × List Byte)} {w : Nat × List Byte}
    (h : ∀ v ∈ post, v.1 + v.2.length ≤ w.1 ∨ w.1 + w.2.length ≤ v.1) {i : Nat} {x : Byte} (hx : w.2[i]? = some x) :
    (s.setRanges (pre ++ w :: post)).byte (w.1 + i) = x := by
  obtain ⟨hlt, hget⟩ := List.getElem?_eq_some_iff.1 hx
  have hpre : Memory.wf (s.setRanges pre).mem = true := State.setRanges_wf hi pre
  have hsplit : s.setRanges (pre ++ w :: post) = ((s.setRanges pre).setBytes w.1 w.2).setRanges post := List.foldl_append
  rw [hsplit, State.byte_setRanges_ne (State.setBytes_wf _ w.1 w.2 hpre), State.byte_setBytes hpre hlt, hget]
  intro v hv
  have := h v hv
  omega

end

/-- Settles O24: the words by the checks that pass, the store at its bank as writes one after another. -/
theorem localAndLaneStores : Obligations.LocalAndLaneStores := by
  unfold Obligations.LocalAndLaneStores
  refine ⟨fun s m d a b sz disp off => ⟨exec_st_inFrame, exec_vst_inFrame, fun addr h =>
      ⟨fun hr ha => exec_vsts_inFrame h hr (funext ha), fun hr ha => exec_vscat_inFrame h hr (funext ha)⟩⟩,
    fun n x => ⟨leBytes_length n x, leBytes_get n x⟩, fun s core ws lag rest hi h => ?_⟩
  have hu : Memory.wf (s.modCore core (fun c => { c with acc := rest })).mem = true := hi
  rw [State.performAcc_store h]
  refine ⟨State.setBytes_foldl_eq ws _, fun k hk => State.byte_setRanges_ne hu hk, fun pre w post hw hpost i x hx => ?_⟩
  subst hw
  exact State.byte_setRanges_last hu hpost hx

/-- Settles O23: the words by the checks that pass, the loads by what each puts in flight at its bank. -/
theorem localLoads : Obligations.LocalLoads := by
  unfold Obligations.LocalLoads
  exact ⟨fun s m d a b sz disp off => ⟨exec_ld_inFrame, exec_vld_inFrame, fun addr h =>
      ⟨fun hr ha => exec_vlds_inFrame h hr (funext ha), fun hr ha => exec_vgath_inFrame h hr (funext ha)⟩⟩,
    fun s core d sz key lag keys rest => ⟨State.performAcc_load, State.performAcc_loadVec, State.performAcc_loadLanes⟩⟩

end Sys2Proof.Machine
end

section
/-! PROOFS. Message words and chain words: MSEND, MRECV, MPROBE, MRES, MCAST (11 R248 to R255). -/

namespace Sys2Proof.Machine

open Sys2Proof

/-! ### Updates of a tile, and of a requester's core -/

theorem State.modTile_modTile (s : State) (t : TileId) (f g : Tile → Tile) :
    (s.modTile t f).modTile t g = s.modTile t (fun x => g (f x)) := by
  simp [State.modTile, vmod, vset]

/-- A reading of cores that an update of a requester's core keeps is the same on the issuing core after it. -/
theorem State.modOwn_keeps {α : Type} {get : Core → α} {f : Core → Core} (h : ∀ k, get (f k) = get k) (s : State) (w : Who) :
    get (s.modOwn w f).c = get s.c := by
  unfold State.modOwn
  split
  · rfl
  · split
    · exact State.modCore_keeps h s _ s.cur
    · rfl

/-- One more request outstanding. -/
theorem State.addOut_keeps {α : Type} {get : Core → α} (h : ∀ (k : Core) l, get { k with outst := l } = get k) (s : State) (w : Who) (id : Nat) :
    get (s.addOut w id).c = get s.c :=
  State.modOwn_keeps (fun k => h k _) s w

/-! ### MSEND (11 R248, R249) -/

/-- The frame that a frame id names: 0xFF is the slice's own. -/
def State.ownFid (s : State) (f : Nat) : Nat := if f = 255 then s.sl.fid.getD 255 else f

section
variable {s : State} {m : Bool} {a b d : Reg} {off : Nat}

theorem exec_msend_sends (hr : s.Ready [.scalar a, .scalar b] []) (hh : headerOk (s.rs b) = true)
    (hf : s.InFrame (s.rs a) off (wbits (s.rs b) 56 48) 8 false) : exec (.msend m a b) s =
      .next (((s.sendMsg (wbits (s.rs b) 9 0) (s.ownFid (wbits (s.rs b) 23 16)) (BitVec.ofNat 16 (wbits (s.rs b) 47 32))
        (s.bytes (s.frameKey off) (wbits (s.rs b) 56 48))).noReplay).after m) := by
  rw [exec_msend]
  refine cWord_ok hr ?_
  simp only [hh, State.checkMem_inFrame (r := .near) (by decide) hf, State.frameBytes_inFrame hf]
  rfl

/-- An index that names a member now: the message goes to that member. -/
theorem State.sendMsg_member {lidx fid : Nat} {tag : BitVec 16} {bs : List Byte} {t : TileId} (ht : s.memberAt s.sl.terr lidx = some t) :
    s.sendMsg lidx fid tag bs = (s.send s.tile.val t.val 1 (some s.me) s.sl.terr
      (.tagged t lidx fid (s.tiles[s.tile]).lidx tag bs)).addOut s.me s.dev.nextReq := by
  simp only [State.sendMsg, ht]

/-! ### MRECV (11 R250) -/

theorem exec_mrecv_receives (hr : s.Ready [.scalar a, .scalar b] (wS d none)) (hs : specOk (s.rs b) = true)
    (hl : goodLen (wbits (s.rs b) 56 48) = true) (hf : s.InFrame (s.rs a) off (wbits (s.rs b) 56 48) 8 true) :
    exec (.mrecv m d a b) s = .next ((s.postRecv d off (wbits (s.rs b) 56 48) (s.rs b)).after m) := by
  rw [exec_mrecv]
  refine cWord_ok hr ?_
  simp only [hs, hl, State.checkMem_inFrame (r := .near) (by decide) hf, (parseAddr_local hf.1).1]
  rfl

/-- The state in which a receive's result is pending. -/
def State.receiving (s : State) (d : Reg) : State :=
  ({ s with dev := { s.dev with nextReq := s.dev.nextReq + 1 } } : State).pendOn s.dev.nextReq (dstS d)

/-- What a receive posts. -/
def State.toPost (s : State) (d : Reg) (off cap : Nat) (sp : Word) : Posted :=
  { id := s.dev.nextReq, who := s.me, fid := s.sl.fid.getD 255, src := specSrc sp, tag := specTag sp, cap := cap, off := off, d := d }

section
variable {cap : Nat} {sp : Word}

/-- A message that waits is taken, and its payload is to be written. -/
theorem State.postRecv_takes {q : QMsg} (hq : (s.tiles[s.tile]).queued (s.sl.fid.getD 255) (specSrc sp) (specTag sp) cap = some q) :
    s.postRecv d off cap sp = (s.receiving d).modTile s.tile (fun x => { x with overflow := x.overflow.erase q, fills := x.fills ++
      [(s.toPost d off cap sp).fill q.bytes (msgRecord q.bytes.length q.tag q.fid q.src)] }) := by
  simp only [State.postRecv, hq]
  exact (s.receiving d).modTile_modTile s.tile _ _

section
variable (hq : (s.tiles[s.tile]).queued (s.sl.fid.getD 255) (specSrc sp) (specTag sp) cap = none)
include hq

theorem State.postRecv_posts (hp : (s.tiles[s.tile]).posted.length < 256) : s.postRecv d off cap sp =
    (s.receiving d).modTile s.tile (fun x => { x with posted := x.posted ++ [s.toPost d off cap sp] }) := by
  simp only [State.postRecv, hq]
  exact if_pos hp

theorem State.postRecv_full (hp : ¬(s.tiles[s.tile]).posted.length < 256) :
    s.postRecv d off cap sp = s.pendNow (dstS d) (.scalar d 0x8000000000000001#64) := by
  simp only [State.postRecv, hq]
  exact if_neg hp

end

end

/-! ### MPROBE (11 R252) -/

/-- A specification whose CAP is 0 is one of MPROBE's. -/
theorem exec_mprobe_reads (hr : s.Ready [.scalar b] (wS d none)) (hs : specOk (s.rs b) = true) (hl : wbits (s.rs b) 56 48 = 0) :
    exec (.mprobe m d b) s = .next ((s.pendNow (dstS d) (.scalar d
      (match (s.tiles[s.tile]).queued (s.sl.fid.getD 256) (specSrc (s.rs b)) (specTag (s.rs b)) 256 with
        | some q => msgRecord q.bytes.length q.tag q.fid q.src
        | none => 0))).after m) := by
  have hc : ¬(!(specOk (s.rs b) && wbits (s.rs b) 56 48 == 0)) = true := by simp [hs, hl]
  rw [exec_mprobe]
  exact cWord_ok hr (if_neg hc)

/-! ### MRES (11 R253, R254) -/

/-- The chain that MRES asks for, from its descriptor and its resolved hops. -/
def State.chainOf (s : State) (de : ChainDesc) (hops : List (TileId × Nat)) : Chain :=
  { cid := s.dev.nextReq, hops := hops, len := de.len, fid := s.ownFid de.fid, off := de.off, ver := s.shapeVer s.sl.terr }

/-- The state in which the reservation of a chain is sent: the core keeps what it asks for, and counts it as outstanding. -/
def State.asking (s : State) (c : Chain) (statusOff : Nat) : State :=
  (({ s with dev := { s.dev with nextReq := s.dev.nextReq + 1 } } : State).modCur
    (fun k => { k with ask := some { chain := c, statusOff := some statusOff, refused := false } })).addOut s.me s.dev.nextReq

section
variable (s) (c : Chain) (o : Nat)

theorem State.asking_mem : (s.asking c o).mem = s.mem := State.addOut_mem _ _ _

theorem State.asking_net : (s.asking c o).net = s.net := State.addOut_net _ _ _

theorem State.asking_sreg : (s.asking c o).c.sreg = s.c.sreg := by
  rw [State.asking, State.addOut_keeps (get := Core.sreg) fun _ _ => rfl, State.modCur_c]
  rfl

end

section
variable {de : ChainDesc} (hr : s.Ready [.scalar a] []) (hf : s.InFrame (s.rs a) off 32 32 false)
  (hd : parseChain (s.bytes (s.frameKey off) 32) = some de)
include hr hf hd

/-- With a chain open, or asked for, another may not be asked for. -/
theorem exec_mres_open (h : s.c.chain.isSome = true ∨ s.c.ask.isSome = true) : exec (.mres m a) s = .next (s.preciseTrap chainState) := by
  have hc : (s.c.chain.isSome || s.c.ask.isSome) = true := Bool.or_eq_true _ _ ▸ h
  rw [exec_mres]
  refine cWord_trap hr ?_
  simp only [State.checkMem_inFrame (r := .near) (by decide) hf, State.frameBytes_inFrame hf, State.frameKey] at hd ⊢
  simp only [hd, hc, if_true]

/-- Otherwise the first hop is asked for a buffer, and the core parks. -/
theorem exec_mres_asks (hc : s.c.chain = none) (ha : s.c.ask = none) {t0 : TileId} {l0 : Nat} {rest : List (TileId × Nat)}
    (hh : s.resolveHops s.sl.terr de.hops = .ok ((t0, l0) :: rest)) : exec (.mres m a) s =
      .next ((((s.asking (s.chainOf de ((t0, l0) :: rest)) (off + 2)).send s.tile.val t0.val 2 (some s.me) s.sl.terr
        (.reserve (s.chainOf de ((t0, l0) :: rest)) 0)).parkOn .chain).after m) := by
  rw [exec_mres]
  refine cWord_ok hr ?_
  simp only [State.checkMem_inFrame (r := .near) (by decide) hf, State.frameBytes_inFrame hf, State.frameKey] at hd ⊢
  simp only [hd, hc, ha, hh, (parseAddr_local hf.1).1]
  rfl

end

/-! ### MCAST (11 R255) -/

/-- The state in which the payload of a chain is sent: the chain is closed, its source range registered, and the slice is not replayed any
more (16 R317). -/
def State.casting (s : State) (c : Chain) (off : Nat) : State :=
  (((s.modCur (fun k => { k with chain := none })).modTile s.tile
    (fun x => x.register [(s.sl.fbase + off, c.len, false)] c.cid)).addOut s.me c.cid).noReplay

section
variable (s) (c : Chain) (o : Nat)

theorem State.casting_mem : (s.casting c o).mem = s.mem := (State.noReplay_mem _).trans (State.addOut_mem _ _ _)

theorem State.casting_net : (s.casting c o).net = s.net := (State.noReplay_net _).trans (State.addOut_net _ _ _)

/-- Its core differs in its chain, and in the requests outstanding. -/
theorem State.casting_keeps {α : Type} {get : Core → α} (h : ∀ (k : Core) l, get { k with outst := l } = get k) :
    get (s.casting c o).c = get { s.c with chain := none } := by
  rw [State.casting, State.noReplay_c, State.addOut_keeps h]
  exact congrArg get (s.modCur_c _)

end

section
variable (hr : s.Ready [.scalar a] [])
include hr

theorem exec_mcast_closed (hc : s.c.chain = none) : exec (.mcast m a) s = .next (s.preciseTrap chainState) := by
  rw [exec_mcast]
  exact cWord_trap hr (by simp only [hc])

theorem exec_mcast_sends {c : Chain} {t0 : TileId} {l0 : Nat} (hc : s.c.chain = some c) (hh : c.hop 0 = some (t0, l0))
    (hf : s.InFrame (s.rs a) off c.len 128 false) (hl : 1 ≤ (s.tiles[s.tile]).freeLocks) : exec (.mcast m a) s =
      .next (((s.casting c off).send s.tile.val t0.val 2 (some s.me) s.sl.terr
        (.payload c 0 (s.bytes (s.frameKey off) c.len) (s.shapeVer s.sl.terr))).after m) := by
  rw [exec_mcast]
  refine cWord_ok hr ?_
  simp only [hc, State.checkMem_inFrame (r := .near) (by decide) hf, hl.not_gt, (parseAddr_local hf.1).1, hh]
  rfl

end

end

/-- Settles O31: each word by its checks, a receive by what waits and how many are posted, the chain words by whether a chain is open. -/
theorem messagesAndChains : Obligations.MessagesAndChains := by
  unfold Obligations.MessagesAndChains
  intro s m d a b off h ad len src own
  refine ⟨fun hr hh hf => ⟨exec_msend_sends hr hh hf, fun t ht => ?_⟩, fun hr hs hl hf => ?_, exec_mprobe_reads,
    fun de hr hf hd => ⟨exec_mres_open hr hf hd, fun t0 l0 rest hc ha hh => ?_⟩, exec_mcast_closed, fun c t0 l0 hr hc hh hf hl => ?_⟩
  · rw [State.sendMsg_member ht, State.addOut_net]
    exact ⟨_, State.send_net s, rfl, rfl, rfl⟩
  · refine ⟨_, exec_mrecv_receives hr hs hl hf, ?_⟩
    split
    · next q hq => exact State.postRecv_takes hq
    · next hq =>
      split
      · next hp => exact State.postRecv_posts hq hp
      · next hp => exact State.postRecv_full hq hp
  · let c := s.chainOf de ((t0, l0) :: rest)
    refine ⟨_, (s.asking c (off + 2)).packet s.tile.val t0.val 2 (some s.me) s.sl.terr (.reserve c 0),
      exec_mres_asks hr hf hd hc ha hh, ?_, ?_, rfl, rfl, ?_, ?_, rfl⟩
    · exact s.asking_mem _ _
    · exact congrArg (· ++ _) (s.asking_net _ _)
    · exact congrArg Core.park (State.modCur_c _ _)
    · exact (congrArg Core.sreg (State.modCur_c _ _)).trans (s.asking_sreg _ _)
  · refine ⟨_, (s.casting c off).packet s.tile.val t0.val 2 (some s.me) s.sl.terr (.payload c 0 (src c.len) (s.shapeVer s.sl.terr)),
      exec_mcast_sends hr hc hh hf hl, ?_, ?_, rfl, rfl, ?_, ?_, rfl⟩
    · exact s.casting_mem _ _
    · exact congrArg (· ++ _) (s.casting_net _ _)
    · exact s.casting_keeps c off (get := Core.chain) fun _ _ => rfl
    · exact s.casting_keeps c off (get := Core.sreg) fun _ _ => rfl

end Sys2Proof.Machine
end

section
/-! PROOFS. Messages, chains, barriers and votes arrive (11 R251 to R256, 04 R99 to R101, 03 R72). -/

namespace Sys2Proof.Machine

open Sys2Proof

/-! ### When a release frees nothing (03 R72, 04 R99) -/

/-- A barrier that has become invalid, or has met a mismatch, is not freed. -/
theorem Barrier.not_freed {b : Barrier} (h : b.valid = false ∨ b.bad = true) : ¬(b.valid && !b.bad) = true := by
  obtain h | h := h <;> simp [h]

section
variable {s : State} {k : Nat} {p : Packet} (h : s.Arriving k p)
include h

/-! ### Tagged messages (11 R251) -/

section
variable {tile : TileId} {lidx fid src : Nat} {tag : BitVec 16} {bs : List Byte} (hb : p.body = .tagged tile lidx fid src tag bs)
include hb

/-- A tile that has gone counts a stale peer, and refuses the message. -/
theorem exec_messageArrival_gone (hg : (s.accepted p).isHere tile p.terr lidx p.ver = false) : exec (.messageArrival k) s =
    .next (((s.accepted p).bump tile 2).answer p (.refuse p.id (stalePeer lidx p.ver) false)) := by
  simp only [exec_messageArrival, execMessageArrival, h.1, hb, State.arrive_next h.2, hg]
  rfl

section
variable (hh : (s.accepted p).isHere tile p.terr lidx p.ver = true)
include hh

/-- A live frame's message is matched there. -/
theorem exec_messageArrival_live {x : Slice} (hx : (s.accepted p).liveFrame tile p.terr fid = some x) :
    exec (.messageArrival k) s = .next (((s.accepted p).matchArrival tile x src tag bs).sendAck p) := by
  simp only [exec_messageArrival, execMessageArrival, h.1, hb, State.arrive_next h.2, hh, hx]
  rfl

/-- A stale frame's is counted, and refused with an address that is a free value. -/
theorem exec_messageArrival_stale (hx : (s.accepted p).liveFrame tile p.terr fid = none) : exec (.messageArrival k) s =
    .next (({ (s.accepted p).bump tile 3 with stepNo := (s.accepted p).stepNo + 1 } : State).answer p
      (.refuse p.id (cause 0x09 (Config.freeWord (s.accepted p).stepNo) 0) false)) := by
  simp only [exec_messageArrival, execMessageArrival, h.1, hb, State.arrive_next h.2, hh, hx]
  rfl

end

end

/-! ### Chain reservations (11 R254) -/

/-- A hop's answer to the core that asks for a chain. -/
def State.hopAnswer (s : State) (p : Packet) (w : Who) (tile : TileId) (c : Chain) (ok : Bool) (hole : Option TrapRec) : State :=
  s.send tile.val (s.nodeOf w) 3 (some w) p.terr (.chainAns c.cid ok hole)

/-- A hop's tile with a buffer taken for the chain. -/
def State.takeHop (s : State) (tile : TileId) (c : Chain) : State := s.modTile tile (fun x => { x with chainBufs := x.chainBufs ++ [c.cid] })

section
variable {w : Who} {c : Chain} {i : Nat} {tile : TileId} {lidx : Nat} (hw : p.who = some w) (hc : c.hop i = some (tile, lidx))
include hw hc

section
variable (hb : p.body = .reserve c i)
include hb

/-- A hop that has gone has the buffers of the hops before it freed, and is answered as a hole. -/
theorem exec_chainReservation_gone (hg : (s.accepted p).isHere tile p.terr lidx c.ver = false) : exec (.chainReservation k) s =
    .next (((((s.accepted p).sendAck p).bump tile 2).freeHops tile.val p.terr c.cid (c.hops.take i)).hopAnswer p w tile c false
      (some (stalePeer lidx c.ver))) := by
  simp only [exec_chainReservation, execChainReservation, h.1, hb, hw, hc, State.arrive_next h.2, hg]
  rfl

section
variable (hh : (s.accepted p).isHere tile p.terr lidx c.ver = true)
include hh

/-- So has one with all its buffers taken, which is answered without a cause. -/
theorem exec_chainReservation_full (hl : 8 ≤ ((s.accepted p).tiles[tile]).chainBufs.length) : exec (.chainReservation k) s =
    .next ((((s.accepted p).sendAck p).freeHops tile.val p.terr c.cid (c.hops.take i)).hopAnswer p w tile c false none) := by
  simp only [exec_chainReservation, execChainReservation, h.1, hb, hw, hc, State.arrive_next h.2, hh, hl]
  rfl

section
variable (hl : ((s.accepted p).tiles[tile]).chainBufs.length < 8)
include hl

/-- The last hop takes a buffer and grants the chain. -/
theorem exec_chainReservation_last (hn : c.hop (i + 1) = none) : exec (.chainReservation k) s =
    .next ((((s.accepted p).sendAck p).takeHop tile c).hopAnswer p w tile c true none) := by
  simp only [exec_chainReservation, execChainReservation, h.1, hb, hw, hc, State.arrive_next h.2, hh, hl.not_ge, hn]
  rfl

/-- Another hop takes one and asks the next. -/
theorem exec_chainReservation_next {n : TileId × Nat} (hn : c.hop (i + 1) = some n) : exec (.chainReservation k) s =
    .next ((((s.accepted p).sendAck p).takeHop tile c).send tile.val n.1.val 2 (some w) p.terr (.reserve c (i + 1))) := by
  simp only [exec_chainReservation, execChainReservation, h.1, hb, hw, hc, State.arrive_next h.2, hh, hl.not_ge, hn]
  rfl

end

end

end

/-! ### Chain payloads and control messages (11 R255, R256) -/

section
variable {bs : List Byte} {ver : BitVec 32} (hb : p.body = .payload c i bs ver)
include hb

theorem exec_chainPayload_later (hi : i ≠ 0) : exec (.chainPayload k) s =
    .next (((s.accepted p).sendAck p).payloadAt p w c i tile lidx bs ver) := by
  cases i with
  | zero => exact absurd rfl hi
  | succ i => simp only [exec_chainPayload, execChainPayload, h.1, hb, hw, hc, State.arrive_next h.2]

/-- At the first hop the source tile's range entry frees. -/
theorem exec_chainPayload_first {src : TileId} (hi : i = 0) (hs : nodeTile p.src = some src) : exec (.chainPayload k) s =
    .next ((((s.accepted p).sendAck p).modTile src (fun x => x.release c.cid)).payloadAt p w c 0 tile lidx bs ver) := by
  subst hi
  simp only [exec_chainPayload, execChainPayload, h.1, hb, hw, hc, State.arrive_next h.2, hs]

end

end

section
variable {tile : TileId} (hd : nodeTile p.dst = some tile)
include hd

/-- The answer that a core waits for is taken there. -/
theorem exec_chainAnswer_taken {w : Who} {c : Core} {x : Slice} {q : ChainAsk} {ok : Bool} (hw : p.who = some w)
    (hb : p.body = .chainAns q.chain.cid ok none) (hc : (s.accepted p).own w = some c) (hx : (s.accepted p).findSlice w.1 = some x)
    (hq : c.ask = some q) :
    exec (.chainAnswer k) s = .next ((((s.accepted p).sendAck p).chainDone w x tile q ok).doneOut w q.chain.cid) := by
  simp only [exec_chainAnswer, execChainAnswer, h.1, hb, hw, hd, State.arrive_next h.2, hc, hx, hq]
  exact congrArg Host.Outcome.next (if_neg fun e => e rfl)

theorem exec_chainRelease_frees {cid : Nat} (hb : p.body = .chainFree cid) : exec (.chainRelease k) s =
    .next (((s.accepted p).modTile tile (fun x => { x with chainBufs := x.chainBufs.erase cid })).sendAck p) := by
  simp only [exec_chainRelease, execChainRelease, h.1, hb, hd, State.arrive_next h.2]

/-! ### Barriers (04 R99, R100, 03 R72) -/

section
variable {src : TileId} {id : Bar} {cfg : BarCfg} (hs : nodeTile p.src = some src)
include hs

/-- An arrival counts where its tile is a member. -/
theorem exec_barrierArrival_arriving (hb : p.body = .barArrive id cfg) : exec (.barrierArrival k) s =
    .next (if ((s.accepted p).tiles[tile]).isMember p.terr then ((s.accepted p).sendAck p).barReach tile p.terr id cfg src
      else (s.accepted p).sendAck p) := by
  simp only [exec_barrierArrival, execBarrierArrival, h.1, hb, hs, hd, State.arrive_next h.2]

section
variable {bad : Bool} (hb : p.body = .barRelease id cfg bad)
include hb

theorem exec_barrierRelease_noMember (hm : ((s.accepted p).tiles[tile]).isMember p.terr = false) :
    exec (.barrierRelease k) s = .next ((s.accepted p).sendAck p) := by
  simp only [exec_barrierRelease, execBarrierRelease, h.1, hb, hs, hd, State.arrive_next h.2, hm]
  rfl

section
variable (hm : ((s.accepted p).tiles[tile]).isMember p.terr = true)
include hm

/-- News of a mismatch, along the tree on which it came. -/
theorem exec_barrierRelease_mismatch (hbad : bad = true) : exec (.barrierRelease k) s =
    .next (((s.accepted p).sendAck p).barFail tile p.terr id (some (cfg, src))) := by
  subst hbad
  simp only [exec_barrierRelease, execBarrierRelease, h.1, hb, hs, hd, State.arrive_next h.2, hm]
  rfl

/-- A release frees a barrier that is valid and has met no mismatch. -/
theorem exec_barrierRelease_member (hbad : bad = false) : exec (.barrierRelease k) s =
    .next (if (((s.accepted p).tiles[tile]).bars[id]).valid && !(((s.accepted p).tiles[tile]).bars[id]).bad
      then (((s.accepted p).sendAck p).barFree tile p.terr id).barUp tile p.terr id else (s.accepted p).sendAck p) := by
  subst hbad
  simp only [exec_barrierRelease, execBarrierRelease, h.1, hb, hs, hd, State.arrive_next h.2, hm]
  rfl

end

end

end

end

/-! ### Votes (04 R101) -/

theorem exec_voteContribution_counts {tile : TileId} {w : Who} {no : Nat} {op : VoteOp} {x : Word} {d : Reg} (hs : nodeTile p.src = some tile)
    (hw : p.who = some w) (hb : p.body = .vote no op x d) :
    exec (.voteContribution k) s = .next (((s.accepted p).modTerr p.terr (fun y => { y with votes := y.votes.map (fun v =>
      if v.no = no then v.count tile op x (tile, w, p.id, d) else v) })).voteDone p.terr no) := by
  simp only [exec_voteContribution, execVoteContribution, h.1, hb, hw, hs, State.arrive_next h.2]

end

section
variable {v : Vote} {tile : TileId} {op : VoteOp} {x : Word} {voter : TileId × Who × Nat × Reg}

/-- A tile that has contributed, or has left, only waits. -/
theorem Vote.count_waits (h : tile ∉ v.todo) : v.count tile op x voter = { v with voters := v.voters ++ [voter] } :=
  if_neg (by simpa using h)

section
variable (h : tile ∈ v.todo)
include h

theorem Vote.count_contributes : v.count tile op x voter =
    { v with op := some (v.op.getD op), x := if v.op.isNone then x else voteOp (v.op.getD op) v.x x, todo := v.todo.filter (· != tile),
             voters := v.voters ++ [voter], bad := v.bad || v.op.any (· != op) } :=
  if_pos (by simpa using h)

/-- The first value of a vote is taken as it is. -/
theorem Vote.count_first (ho : v.op = none) : v.count tile op x voter =
    { v with op := some op, x := x, todo := v.todo.filter (· != tile), voters := v.voters ++ [voter] } := by
  rw [Vote.count_contributes h, ho, Option.any_none, Bool.or_false]
  rfl

/-- A later one is combined by the vote's operation; a vote of two operations is a bad one. -/
theorem Vote.count_combines {o : VoteOp} (ho : v.op = some o) : v.count tile op x voter =
    { v with x := voteOp o v.x x, todo := v.todo.filter (· != tile), voters := v.voters ++ [voter], bad := v.bad || o != op } := by
  rw [Vote.count_contributes h, ho]
  rfl

end

end

/-! ### Matching, and the fill of a receive's buffer (11 R250, R251) -/

section
variable {s : State} {tile : TileId} {x : Slice}

/-- The oldest posted receive that a message fits takes it, and its fill begins. -/
theorem State.matchArrival_takes {src : Nat} {tag : BitVec 16} {bs : List Byte} {q : Posted}
    (hq : (s.tiles[tile]).posted.find?
      (fun q => q.fid == x.fid.getD 255 && matchMsg q.src q.tag src tag && decide (bs.length ≤ q.cap)) = some q) :
    s.matchArrival tile x src tag bs = s.modTile tile (fun y => { y with
      posted := y.posted.filter (fun r => r.id != q.id), fills := y.fills ++ [q.fill bs (msgRecord bs.length tag (x.fid.getD 255) src)] }) := by
  simp only [State.matchArrival, hq]
  exact s.modTile_modTile tile _ _

/-- The state in which a fill has written the words picked in this step. -/
def State.filled (s : State) (tile : TileId) (f : Fill) (x : Slice) : State :=
  ({ s with stepNo := s.stepNo + 1 } : State).writeFill (scratchKey tile (x.fbase + f.off)) f (pickWords s.stepNo f.todo)

/-- The words that it has yet to write. -/
def Fill.rest (f : Fill) (stepNo : Nat) : List Nat := f.todo.filter (fun i => !(pickWords stepNo f.todo).contains i)

section
variable {f : Fill} (hf : (s.tiles[tile]).fills.find? (fun g => g.id == f.id) = some f) (hx : s.findSlice f.who.1 = some x)
include hf hx

theorem State.fillStep_more (hr : f.rest s.stepNo ≠ []) : s.fillStep tile f.id = (s.filled tile f x).modTile tile (fun y =>
    { y with fills := y.fills.map (fun g => if g.id = f.id then { g with todo := f.rest s.stepNo } else g) }) := by
  simp only [State.fillStep, hf, hx]
  exact if_neg (mt List.isEmpty_iff.1 hr)

/-- With its last word the fill ends, and the record is delivered. -/
theorem State.fillStep_ends (hr : f.rest s.stepNo = []) : s.fillStep tile f.id = ((s.filled tile f x).modTile tile (fun y =>
    { y with fills := y.fills.filter (fun g => g.id != f.id) })).modOwn f.who (fun c => c.deliver f.id f.wr 0) := by
  simp only [State.fillStep, hf, hx]
  exact if_pos (List.isEmpty_iff.2 hr)

end

end

/-! ### A mismatch at a tile (04 R99, log 79) -/

theorem coresOf_nodup (t : TileId) : (coresOf t).Nodup := by
  refine (List.nodup_finRange 4).map fun i j e => Fin.ext ?_
  have := congrArg Fin.val e
  simp only [coreOf] at this
  omega

/-- A core is one of the four of its tile. -/
theorem mem_coresOf (c : CoreId) : c ∈ coresOf (tileOf c) := by
  refine List.mem_map.2 ⟨⟨c.val % 4, by omega⟩, List.mem_finRange _, Fin.ext ?_⟩
  simp only [coreOf, tileOf]
  omega

section
variable (s : State) (tile : TileId) (terr : Nat) (id : Bar) (via : Option (BarCfg × TileId))

/-- News of a mismatch that is passed on changes no core. -/
theorem State.passFail_cores (cs : List BarCfg) : (s.passFail tile terr id via cs).cores = s.cores :=
  State.foldl_keeps (get := State.cores) (fun u c => State.foldl_keeps (get := State.cores)
    (f := fun v d => v.sendCtl tile d terr (.barRelease id c true)) (fun _ _ => rfl) _ u) cs s

variable {s tile id} (hc : ((s.tiles[tile]).bars[id]).cfg.isSome = true) (hv : ((s.tiles[tile]).bars[id]).valid = true)
  (hb : ((s.tiles[tile]).bars[id]).bad = false)
include hc hv hb

/-- A mismatch found at a valid barrier is noted there, fails the cores that wait, and is passed on. -/
theorem State.barFail_valid : ∃ f cs, s.barFail tile terr id via =
    ((s.modBar tile id f).modCores (coresOf tile) (fun k => k.failPark (barWaiting id) (barFault id.val))).passFail tile terr id via cs :=
  ⟨_, _, (if_pos (by rw [hc, hv]; rfl)).trans (if_neg (by rw [hb]; decide))⟩

theorem State.barFail_core {c : CoreId} (ht : tileOf c = tile) :
    (s.barFail tile terr id via).cores[c] = (s.cores[c]).failPark (barWaiting id) (barFault id.val) := by
  obtain ⟨f, cs, e⟩ := State.barFail_valid terr via hc hv hb
  rw [e, State.passFail_cores]
  exact State.foldl_modCore_self (fun _ k => k.failPark (barWaiting id) (barFault id.val)) (coresOf_nodup tile) (s.modBar tile id f)
    (ht ▸ mem_coresOf c)

end

/-- A core that waits in the barrier has the cause for its park. -/
theorem Core.failPark_barWait {c : Core} {q : Park} {id : Bar} {n : Nat} (hp : c.park = some q) (hw : q.why = .barWait id n) (tr : TrapRec) :
    c.failPark (barWaiting id) tr = { c with refused := c.refused ++ [(0, tr, false)] } :=
  if_pos (by simp [hp, barWaiting, hw])

/-- Settles O45: one lemma for each message by what it finds; what a match, a step of a fill and a mismatch leave. -/
theorem messagesArrive : Obligations.MessagesArrive := by
  unfold Obligations.MessagesArrive
  refine ⟨fun s k p h => ⟨fun tile lidx fid src tag bs hb => ⟨exec_messageArrival_gone h hb, fun hh x => exec_messageArrival_live h hb hh,
        fun hh hx => ⟨_, _, exec_messageArrival_stale h hb hh hx, rfl⟩⟩,
      fun c i w tile lidx hb hw hc => ⟨exec_chainReservation_gone h hw hc hb, exec_chainReservation_full h hw hc hb,
        fun hh hl => ⟨exec_chainReservation_last h hw hc hb hh hl, fun n => exec_chainReservation_next h hw hc hb hh hl⟩⟩,
      fun c i w tile lidx bs ver hb hw hc => exec_chainPayload_later h hw hc hb,
      fun c w tile lidx bs ver src hb hw hc => exec_chainPayload_first h hw hc hb rfl,
      fun tile w c x q cid ok hd hw hb hc hx hq hi => ?_, fun tile cid hd => exec_chainRelease_frees h hd,
      fun src tile id cfg hs hd hb => ⟨fun hm => ?_, fun hm => ?_⟩,
      fun src tile id cfg hs hd => ⟨fun hm bad hb => exec_barrierRelease_noMember h hd hs hb hm,
        fun hm => ⟨fun hb => exec_barrierRelease_mismatch h hd hs hb hm rfl, fun hb => ⟨fun hv hn => ?_, fun hn => ?_⟩⟩⟩,
      fun tile w no op x d hs hw hb => ⟨exec_voteContribution_counts h hs hw hb, fun v =>
        ⟨Vote.count_waits, Vote.count_first, fun o ht => Vote.count_combines ht⟩⟩⟩,
    fun s tile x src tag bs q => State.matchArrival_takes,
    fun s tile f x hf hx => ⟨State.fillStep_more hf hx, State.fillStep_ends hf hx⟩,
    fun s tile terr n id via c q ht hp hw hc hv hb => ?_⟩
  · subst hi
    exact exec_chainAnswer_taken h hd hw hb hc hx hq
  · rw [exec_barrierArrival_arriving h hd hs hb, hm]
    rfl
  · rw [exec_barrierArrival_arriving h hd hs hb, if_pos hm]
  · rw [exec_barrierRelease_member h hd hs hb hm rfl, hv, hn]
    rfl
  · rw [exec_barrierRelease_member h hd hs hb hm rfl, if_neg (Barrier.not_freed hn)]
  · rw [State.barFail_core terr via hc hv hb ht, Core.failPark_barWait hp hw]
    rfl

end Sys2Proof.Machine
end

section
/-! PROOFS. Copy words: COPY, COPYM, CWAIT and CQUERY (12 R260 to R265). -/

namespace Sys2Proof.Machine

open Sys2Proof

/-! ### COPY (12 R260, R262) -/

section
variable {s : State} {m : Bool} {a b c : Reg} {tag : Fin 16} (hr : s.Ready [.scalar a, .scalar b, .scalar c] [])
include hr

theorem exec_copy_trap {t : TrapRec} (hc : s.checkCopy (s.rs a) (s.rs b) ((s.rs c).toNat % 2 ^ 32) (s.rs c) = some t) :
    exec (.copy m a b c tag) s = .next (s.preciseTrap t) := by
  rw [exec_copy]
  exact cWord_trap hr (by simp only [hc])

variable (hc : s.checkCopy (s.rs a) (s.rs b) ((s.rs c).toNat % 2 ^ 32) (s.rs c) = none)
include hc

theorem exec_copy_freezes {f : Freeze}
    (hs : s.copyStall tag (s.copyLocks (s.copyLoc (s.rs b)) (s.copyLoc (s.rs a)) ((s.rs c).toNat % 2 ^ 32)).length = some f) :
    exec (.copy m a b c tag) s = .next (s.frozenBy f) := by
  rw [exec_copy]
  exact cWord_freeze hr (by simp only [hc, hs])

theorem exec_copy_accepts
    (hs : s.copyStall tag (s.copyLocks (s.copyLoc (s.rs b)) (s.copyLoc (s.rs a)) ((s.rs c).toNat % 2 ^ 32)).length = none) :
    exec (.copy m a b c tag) s = .next ((s.acceptCopy (s.rs a) (s.rs b) ((s.rs c).toNat % 2 ^ 32) tag none).after m) := by
  rw [exec_copy]
  exact cWord_ok hr (by simp only [hc, hs])

end

/-! ### What an accepted copy leaves (12 R261, R262) -/

/-- Range entries are all that a registration adds. -/
@[simp] theorem Tile.register_copyQ (t : Tile) (rs : List (Nat × Nat × Bool)) (op : Nat) : (t.register rs op).copyQ = t.copyQ := by
  induction rs generalizing t with
  | nil => rfl
  | cons r rs ih => exact ih _

@[simp] theorem State.bump_cores (s : State) (t : TileId) (i : Fin 16) : (s.bump t i).cores = s.cores := by
  unfold State.bump
  split <;> rfl

@[simp] theorem State.bump_cur (s : State) (t : TileId) (i : Fin 16) : (s.bump t i).cur = s.cur := by
  unfold State.bump
  split <;> rfl

theorem State.bump_tiles (s : State) (t : TileId) (i : Fin 16) :
    (s.bump t i).tiles = (s.modTile t (fun x => { x with ctr := vmod x.ctr i (· + 1) })).tiles := by
  unfold State.bump
  split <;> rfl

/-- A tile's counters are all that a bump changes on it. -/
@[simp] theorem State.bump_copyQ (s : State) (t u : TileId) (i : Fin 16) : ((s.bump t i).tiles[u]).copyQ = (s.tiles[u]).copyQ := by
  rw [State.bump_tiles]
  by_cases h : u = t
  · rw [h, State.modTile_self]
  · rw [State.modTile_ne _ _ h]

section
variable (s : State) (tag : Fin 16)

@[simp] theorem State.reuseTag_cur : (s.reuseTag tag).cur = s.cur := by
  unfold State.reuseTag
  split <;> simp

theorem State.reuseTag_c : (s.reuseTag tag).c = { s.c with tags := vset s.c.tags tag .running } := by
  unfold State.reuseTag
  rw [State.modCur_c]
  split <;> simp [State.c]

@[simp] theorem State.reuseTag_copyQ (u : TileId) : ((s.reuseTag tag).tiles[u]).copyQ = (s.tiles[u]).copyQ := by
  unfold State.reuseTag
  split
  · exact State.bump_copyQ s s.tile u 9
  · rfl

end

section
variable (s : State) (dst src : Word) (n : Nat) (tag : Fin 16) (f : Option Nat)

/-- The copy that the engine accepts. -/
def State.newCopy : Copy :=
  { cid := s.dev.nextReq, who := s.me, terr := s.sl.terr, tag := tag, src := s.copyLoc src, dst := s.copyLoc dst, srcA := src, dstA := dst,
    len := n, next := 0, reads := [], outIds := [], failed := none, follow := f, ver := s.shapeVer s.sl.terr, stopped := false }

theorem State.acceptCopy_tags : (s.acceptCopy dst src n tag f).c.tags[tag] = .running := by
  show (State.c (State.reuseTag _ tag)).tags[tag] = .running
  rw [State.reuseTag_c]
  exact vset_self _ _ _

/-- The copy is the last of its tile's queue. -/
theorem State.acceptCopy_copyQ :
    ((s.acceptCopy dst src n tag f).tiles[s.tile]).copyQ = (s.tiles[s.tile]).copyQ ++ [s.newCopy dst src n tag f] := by
  unfold State.acceptCopy
  rw [State.modTile_self]
  dsimp only
  rw [State.reuseTag_copyQ]
  rfl

end

/-! ### COPYM (12 R263) -/

section
variable {s : State} {m : Bool} {a : Reg} {tag : Fin 16} {off : Nat} {r : CopymRec} (hr : s.Ready [.scalar a] [])
  (hf : s.InFrame (s.rs a) off 32 32 false) (hp : parseCopym (s.bytes (scratchKey s.tile (s.sl.fbase + off)) 32) = some r)
include hr hf hp

/-- A copy and its follow-on start where the checks of both pass and nothing stalls either. -/
theorem exec_copym_starts {o : Nat} (hd : parseAddr r.dst = .local' o) (hc : s.checkCopy r.dst r.src r.len (s.rs a) = none)
    (hm : s.checkMmul r.dst r.bank s.c.streams[r.stream] r.f32 r.rows r.stride = none) (hs : s.copymStall r tag = none) :
    exec (.copym m a tag) s = .next ((s.startCopym r tag).after m) := by
  rw [exec_copym]
  refine cWord_ok hr ?_
  simp only [State.checkAccess_inFrame (r := .near) (by decide) hf, State.frameBytes_inFrame hf, hp, hd, hc, hm, State.checkLocks_inFrame hf, hs]
  rfl

/-- A follow-on reads the frame, so that the copy must write there. -/
theorem exec_copym_outside (hd : ∀ o, parseAddr r.dst ≠ .local' o) :
    exec (.copym m a tag) s = .next (s.preciseTrap (cause 0x06 (s.rs a) 0)) := by
  rw [exec_copym]
  refine cWord_trap hr ?_
  simp only [State.checkAccess_inFrame (r := .near) (by decide) hf, State.frameBytes_inFrame hf, hp]
  cases e : parseAddr r.dst with
  | local' o => exact absurd e (hd o)
  | peer _ _ _ => rfl
  | hbm _ => rfl
  | reserved _ => rfl
  | bad => rfl

end

/-! ### CQUERY (12 R265) -/

theorem tagCode_lt (t : Tag) : tagCode t < 4 := by cases t <;> simp [tagCode]

/-- A number made of digits, each in its place. -/
theorem sum_finRange_digits {n b : Nat} (f : Fin n → Nat) :
    ((List.finRange n).map (fun k => f k * b ^ k.val)).sum = Nat.ofDigits b (List.ofFn f) := by
  induction n with
  | zero => rfl
  | succ n ih =>
    have hstep : (List.finRange n).map (fun k => f k.succ * b ^ (k.val + 1)) =
        (List.finRange n).map (fun k => b * (f k.succ * b ^ k.val)) := by
      refine List.map_congr_left fun k _ => ?_
      ring
    simp only [List.finRange_succ, List.map_cons, List.map_map, List.sum_cons, List.ofFn_succ, Nat.ofDigits_cons, ← ih (fun k => f k.succ),
      ← List.sum_map_mul_left]
    simp [Function.comp_def, hstep]

/-- The digit at place `k`. -/
theorem ofDigits_ofFn_digit {n b : Nat} (hb : 0 < b) {f : Fin n → Nat} (hf : ∀ k, f k < b) (k : Fin n) :
    Nat.ofDigits b (List.ofFn f) / b ^ k.val % b = f k := by
  have hl : ∀ x ∈ List.ofFn f, x < b := by simpa [List.mem_ofFn] using hf
  rw [Nat.ofDigits_div_pow_eq_ofDigits_drop _ hb _ hl, List.drop_eq_getElem_cons (by simp), Nat.ofDigits_cons]
  simp [Nat.mod_eq_of_lt (hf k)]

section
variable (s : State)

/-- The tags are the low 32 bits of what CQUERY reads, two bits each. -/
theorem State.tagDigits_lt : Nat.ofDigits 4 (List.ofFn (fun k : Fin 16 => tagCode s.c.tags[k])) < 2 ^ 32 := by
  have := Nat.ofDigits_lt_base_pow_length (b := 4) (l := List.ofFn (fun k : Fin 16 => tagCode s.c.tags[k])) (by decide)
    (by simp [tagCode_lt])
  simpa using this

theorem State.cqueryVal_toNat : s.cqueryVal.toNat =
    (32 - (s.tiles[s.tile]).copyQ.length) * 2 ^ 32 + Nat.ofDigits 4 (List.ofFn (fun k : Fin 16 => tagCode s.c.tags[k])) := by
  have hlt := s.tagDigits_lt
  unfold State.cqueryVal
  rw [sum_finRange_digits, BitVec.toNat_ofNat, Nat.mod_eq_of_lt (by omega)]

theorem State.cqueryVal_free : s.cqueryVal.toNat / 2 ^ 32 = 32 - (s.tiles[s.tile]).copyQ.length := by
  have hlt := s.tagDigits_lt
  rw [State.cqueryVal_toNat]
  omega

theorem State.cqueryVal_tag (k : Fin 16) : s.cqueryVal.toNat / 4 ^ k.val % 4 = tagCode s.c.tags[k] := by
  rw [State.cqueryVal_toNat, ← ofDigits_ofFn_digit (by decide) (fun j => tagCode_lt s.c.tags[j]) k]
  have hk : (2 : Nat) ^ 32 = 4 ^ k.val * (4 * 4 ^ (15 - k.val)) := by
    rw [← Nat.pow_succ', ← Nat.pow_add, show k.val + (15 - k.val + 1) = 16 by omega]
    rfl
  rw [hk, Nat.add_comm, Nat.mul_left_comm, Nat.add_mul_div_left _ _ (Nat.pow_pos (by decide)), Nat.mul_left_comm, Nat.add_mul_mod_self_left]

end

/-- Settles O32: COPY and COPYM by their checks and what stalls them, what an accepted copy leaves, and CQUERY's value digit by digit. -/
theorem copyWords : Obligations.CopyWords := by
  unfold Obligations.CopyWords
  intro s m d a b c tag mask off
  refine ⟨fun hr => ⟨fun t => exec_copy_trap hr, fun hc => ⟨fun f => exec_copy_freezes hr hc, exec_copy_accepts hr hc⟩⟩,
    fun dst src n f => ⟨State.acceptCopy_mem .., State.acceptCopy_tags .., s.newCopy dst src n tag f, State.acceptCopy_copyQ ..,
      rfl, rfl, rfl, rfl, rfl, rfl, rfl, rfl⟩,
    fun r hr hf hp ⟨_, hd⟩ hc hm hs => exec_copym_starts hr hf hp hd hc hm hs, fun r hr hf hp hd => exec_copym_outside hr hf hp hd,
    (exec_cwait ..).trans (cWord_ok s.ready_nil rfl), fun hr => ⟨s.cqueryVal, (exec_cquery ..).trans (cResult_ready hr), s.cqueryVal_free,
      fun k => (s.cqueryVal_tag k).trans ?_⟩⟩
  cases s.c.tags[k] <;> rfl

end Sys2Proof.Machine
end

section
/-! PROOFS. Territory words (12 R275 to R280). -/

namespace Sys2Proof.Machine

open Sys2Proof

/-- From state `s` to state `t` one request of class 5 goes to the handler tile of the slice's territory; on the issuing core the pending
marks gain `pend`, the park becomes `park`, and the scalar registers stay. -/
def State.AsksHandler (s t : State) (body : Msg) (pend : List Pend) (park : Option Park) : Prop :=
  t.mem = s.mem ∧ ∃ p : Packet, t.net = s.net ++ [p] ∧ p.id = s.dev.nextReq ∧ p.cls = 5 ∧ p.src = s.tile.val ∧
    p.dst = (s.terr! s.sl.terr).handler.val ∧ p.body = body ∧ t.c.pend = s.c.pend ++ pend ∧ t.c.park = park ∧ t.c.sreg = s.c.sreg

/-- A mark on a register leaves the core with its slice. -/
@[simp] theorem State.pendOn_sl (s : State) (id : Nat) (r : Option RegId) : (s.pendOn id r).sl = s.sl := by
  unfold State.sl
  rw [State.pendOn_c]
  rfl

section
variable (s : State) (b : Msg)

/-- The message that a request to the handler tile is. -/
def State.handlerPacket : Packet := s.packet s.tile.val (s.terr! s.sl.terr).handler.val 5 (some s.me) s.sl.terr b

theorem State.askHandler_net : (s.askHandler b).net = s.net ++ [s.handlerPacket b] := rfl

/-- A word that asks the handler tile and parks for its answer. -/
theorem State.asksHandler_parks : s.AsksHandler ((s.askHandler b).parkOn (.answer s.dev.nextReq)).noReplay b []
    (some { why := .answer s.dev.nextReq, marks := false }) := by
  refine ⟨by simp, s.handlerPacket b, State.noReplay_net _, rfl, rfl, rfl, rfl, rfl, ?_⟩
  rw [State.noReplay_c, State.parkOn, State.modCur_c]
  exact ⟨(List.append_nil _).symm, rfl, rfl⟩

/-- A word that asks the handler tile for a value of its register. -/
theorem State.asksHandler_marks (d : Reg) :
    s.AsksHandler (((s.pendOn s.dev.nextReq (dstS d)).askHandler b).addOut s.me s.dev.nextReq) b
      [{ id := s.dev.nextReq, reg := dstS d, got := none }] s.c.park := by
  have hc : ((s.pendOn s.dev.nextReq (dstS d)).askHandler b).c = (s.pendOn s.dev.nextReq (dstS d)).c := rfl
  refine ⟨by simp, (s.pendOn s.dev.nextReq (dstS d)).handlerPacket b, ?_, rfl, rfl, rfl, ?_, rfl, ?_, ?_, ?_⟩
  · rw [State.addOut_net, State.askHandler_net, State.pendOn_net]
  · show ((s.pendOn s.dev.nextReq (dstS d)).terr! (s.pendOn s.dev.nextReq (dstS d)).sl.terr).handler.val = _
    rw [State.pendOn_sl]
    rfl
  · rw [State.addOut_keeps (get := Core.pend) (fun _ _ => rfl), hc, State.pendOn_c]
  · rw [State.addOut_keeps (get := Core.park) (fun _ _ => rfl), hc, State.pendOn_c]
  · rw [State.addOut_keeps (get := Core.sreg) (fun _ _ => rfl), hc, State.pendOn_c]

end

section
variable {s : State} {m : Bool} {d a : Reg} {on : Bool}

/-! ### TPRESS, TANCHOR, TFREEZE and TTHAW (12 R277 to R279) -/

theorem exec_tpress_biases (hr : s.Ready [.scalar a] []) :
    exec (.tpress m a) s = .next ((s.modTile s.tile (fun x => { x with bias := (max 0 (min 255 (s.rs a).toInt)).toNat })).after m) := by
  rw [exec_tpress]
  exact cWord_ok hr rfl

/-- The index is the low 10 bits of the register. -/
theorem exec_tanchor_asks (hr : s.Ready [.scalar a] []) : exec (.tanchor m a on) s =
    .next ((((s.askHandler (.anchorReq ((s.rs a).toNat % 1024) on)).parkOn (.answer s.dev.nextReq)).noReplay).after m) := by
  rw [exec_tanchor]
  refine cWord_ok hr ?_
  simp [wbits]

theorem exec_tfreeze_asks : exec (.tfreeze m) s =
    .next ((((s.askHandler .freezeReq).parkOn (.answer s.dev.nextReq)).noReplay).after m) :=
  (exec_tfreeze ..).trans (cWord_ok s.ready_nil rfl)

theorem exec_tthaw_asks : exec (.tthaw m) s = .next ((((s.askHandler .thawReq).parkOn (.answer s.dev.nextReq)).noReplay).after m) :=
  (exec_tthaw ..).trans (cWord_ok s.ready_nil rfl)

/-! ### TMAP and TSHAPE (12 R275, R276) -/

theorem exec_tmap_asks (hr : s.Ready [.scalar a] (wS d none)) : exec (.tmap m d a) s =
    .next ((((s.pendOn s.dev.nextReq (dstS d)).askHandler (.snapReq d (.map ((s.rs a).toNat % 1024)))).addOut s.me s.dev.nextReq).after m) := by
  rw [exec_tmap]
  refine cWord_ok hr ?_
  simp [wbits]

/-- The snapshot's place is locked from the request on. -/
theorem exec_tshape_asks {off : Nat} (hr : s.Ready [.scalar a] (wS d none)) (hf : s.InFrame (s.rs a) off 136 8 true)
    (hl : 1 ≤ (s.tiles[s.tile]).freeLocks) : exec (.tshape m d a) s =
    .next (((((s.pendOn s.dev.nextReq (dstS d)).askHandler (.snapReq d (.shape off))).addOut s.me s.dev.nextReq).modTile s.tile (fun x =>
      x.register [(s.sl.fbase + off, 136, true)] s.dev.nextReq)).after m) := by
  rw [exec_tshape]
  refine cWord_ok hr ?_
  simp only [State.checkMem_inFrame (r := .near) (by decide) hf, if_neg (Nat.not_lt.2 hl), (parseAddr_local hf.1).1]

/-! ### TEVAC (12 R280) -/

section
variable (hd : s.ctl.delay = none) (ha : s.c.det = false) (ho : s.ownsControl = true)
include hd ha ho

/-- The slice of a ceding tile ends as with EXIT. -/
theorem exec_tevac_leaves (hc : (s.tiles[s.tile]).ceding.isSome = true) :
    exec (.tevac m) s = .next ((s.evacuate.transfer .evac 0).after m) := by
  have hn : (s.tiles[s.tile]).ceding.isNone = false := by rw [← Option.not_isSome, hc]; rfl
  rw [exec_tevac]
  refine cWordNoDelay_ok hd s.ready_nil ?_
  simp only [ha, State.ctlOnly, ho, hn]
  rfl

theorem exec_tevac_faults (hc : (s.tiles[s.tile]).ceding = none) :
    exec (.tevac m) s = .next (s.preciseTrap (cause 0x0B 0xFD 0xFFFFFFFF#64)) := by
  rw [exec_tevac]
  refine cWordNoDelay_trap hd s.ready_nil ?_
  simp only [ha, State.ctlOnly, ho, hc]
  rfl

end

end

/-- Settles O35: each word by its effect, and its one request by whether it parks or marks its register. -/
theorem territoryWords : Obligations.TerritoryWords := by
  unfold Obligations.TerritoryWords
  intro s m d a on asks
  have asks_of {i : Instr} {t : State} {body : Msg} {pend : List Pend} {park : Option Park} (he : exec i s = .next (t.after m))
      (h : s.AsksHandler t body pend park) : asks i body pend park := by
    obtain ⟨hmem, p, hp⟩ := h
    exact ⟨t, p, he, hmem, hp⟩
  exact ⟨fun hr => ⟨exec_tpress_biases hr, asks_of (exec_tanchor_asks hr) (s.asksHandler_parks _)⟩,
    fun hr => ⟨asks_of (exec_tmap_asks hr) (s.asksHandler_marks _ d),
      fun off hf hl => asks_of (exec_tshape_asks hr hf hl) (s.asksHandler_marks _ d)⟩,
    asks_of exec_tfreeze_asks (s.asksHandler_parks _), asks_of exec_tthaw_asks (s.asksHandler_parks _),
    fun hd ha ho => ⟨exec_tevac_leaves hd ha ho, exec_tevac_faults hd ha ho⟩⟩

end Sys2Proof.Machine
end

section
/-! PROOFS. The checks that every host command meets, and what it answers once they pass (16 R295, R296). -/

namespace Sys2Proof.Machine

open Sys2Proof

/-! ### Commands are run by one operation -/

/-- A command of an open session is run by the checks of R295, whatever it then does. -/
theorem exec_command_shape {i : Instr} {h : Hdr} {code : Nat} (hc : commandOf i = some (h, code)) (s : State) :
    ∃ st nt k, exec i s = s.runCmd h code st nt k := by
  unfold commandOf at hc
  split at hc
  · cases hc
  · cases hc
  · next hopen hunknown =>
    unfold Instr.command at hc
    -- One case for each command; OPEN and a command with an unassigned CODE are not commands of an open session.
    split at hc <;> cases hc
    case h_1.refl => exact (hopen _ _ _ rfl).elim
    case h_43.refl => exact (hunknown _ _ rfl).elim
    all_goals exact ⟨_, _, _, by
      unfold exec
      -- POLICY and DEBUG have an operation of their own between, and two commands look at their operands first.
      dsimp only [execPolicy, execPolicySetAnchor, execPolicyClearAnchor, execPxpeers, execOps, State.runPolicy, execDebugClaim, execDebugRelease,
        execDebugHalt, execDebugRead, execDebugWrite, execDebugStep, execDebugGo, State.runDebug, execCounters, execFwactivate] <;> rfl⟩

section
variable {s : State} {h : Hdr} {code : Nat} {st : State → Bool} {nt : Bool} {k : State → CmdRes}

/-! ### The session's own checks come first -/

section
variable {x : Session} (hx : s.findSession h.sess = some x) (hb : s.dev.bootFail = false) (hi : x.busy = false)
include hx hb hi

theorem State.runCmd_malformed (hf : h.formed = false) : s.runCmd h code st nt k = .next (s.respond h code 1 .empty) := by
  simp [State.runCmd, hx, hb, hi, hf]

variable (hf : h.formed = true)
include hf

theorem State.runCmd_outOfOrder (hq : h.seq ≠ x.nextSeq) : s.runCmd h code st nt k = .next (s.respond h code 2 .empty) := by
  simp [State.runCmd, hx, hb, hi, hf, hq]

theorem State.runCmd_insecure (hq : h.seq = x.nextSeq) (hs : s.secureOk h = false) :
    s.runCmd h code st nt k = .next (s.respond h code 4 .empty) := by
  simp [State.runCmd, hx, hb, hi, hf, hq, hs]

end

/-! ### A command that its session may run -/

section
variable (hm : s.MayRun h)
include hm

/-- The state it needs is not there. -/
theorem State.runCmd_wrongState (hs : st s = false) : s.runCmd h code st nt k = .next (s.respond h code 4 .empty) := by
  obtain ⟨x, hx, hi, hb, hf, hq, -⟩ := hm
  simp [State.runCmd, hx, hb, hi, hf, hq, hs]

variable (hs : st s = true) (ht : nt = true → (s.ownTerr h).isSome = true)
include hs ht

theorem State.runCmd_bad {n : Nat} (hk : k s = .bad n) : s.runCmd h code st nt k = .next (s.respond h code n .empty) := by
  rw [State.runCmd_allowed hm hs ht, hk]

theorem State.runCmd_done {t : State} {b : Body} (hk : k s = .done t b) : s.runCmd h code st nt k = .next (t.ran h code b) := by
  rw [State.runCmd_allowed hm hs ht, hk]

theorem State.runCmd_later {t : State} {f : State → State} (hk : k s = .later t f) :
    s.runCmd h code st nt k = .next (f (t.accept h true)) := by
  rw [State.runCmd_allowed hm hs ht, hk]

end

/-! ### A command that needs no territory -/

section
variable (hm : s.MayRun h) (hs : st s = true)
include hm hs

theorem State.runCmd_badNoTerr {n : Nat} (hk : k s = .bad n) : s.runCmd h code st false k = .next (s.respond h code n .empty) :=
  State.runCmd_bad hm hs (fun e => (Bool.false_ne_true e).elim) hk

theorem State.runCmd_doneNoTerr {t : State} {b : Body} (hk : k s = .done t b) : s.runCmd h code st false k = .next (t.ran h code b) :=
  State.runCmd_done hm hs (fun e => (Bool.false_ne_true e).elim) hk

theorem State.runCmd_laterNoTerr {t : State} {f : State → State} (hk : k s = .later t f) :
    s.runCmd h code st false k = .next (f (t.accept h true)) :=
  State.runCmd_later hm hs (fun e => (Bool.false_ne_true e).elim) hk

end

/-! ### A command on a territory of its session -/

section
variable (hm : s.MayRunOn h) (hs : st s = true)
include hm hs

theorem State.runCmd_badOn {n : Nat} (hk : k s = .bad n) : s.runCmd h code st nt k = .next (s.respond h code n .empty) :=
  State.runCmd_bad hm.1 hs (fun _ => hm.2) hk

theorem State.runCmd_doneOn {t : State} {b : Body} (hk : k s = .done t b) : s.runCmd h code st nt k = .next (t.ran h code b) :=
  State.runCmd_done hm.1 hs (fun _ => hm.2) hk

theorem State.runCmd_laterOn {t : State} {f : State → State} (hk : k s = .later t f) :
    s.runCmd h code st nt k = .next (f (t.accept h true)) :=
  State.runCmd_later hm.1 hs (fun _ => hm.2) hk

end

end

/-- Settles O36: every command is one run of the checks of R295. -/
theorem commandsAreCheckedInOrder : Obligations.CommandsAreCheckedInOrder := by
  unfold Obligations.CommandsAreCheckedInOrder
  intro i h code s x hc hx hb hi answers
  obtain ⟨st, nt, k, he⟩ := exec_command_shape hc s
  exact ⟨fun hf => he.trans (State.runCmd_malformed hx hb hi hf), fun hf hq => he.trans (State.runCmd_outOfOrder hx hb hi hf hq),
    fun hf hq hs => he.trans (State.runCmd_insecure hx hb hi hf hq hs)⟩

end Sys2Proof.Machine
end

section
/-! PROOFS. CREATE, CREATE_INDEXED, DISSOLVE and POLICY (16 R298, R299, 20 R352, 03 R78, 21 R359). -/

namespace Sys2Proof.Machine

open Sys2Proof

/-! ### A list of tiles by their indices and places -/

/-- The tile at a tile's own column and row is that tile. -/
@[simp] theorem tileXY_tileX_tileY (t : TileId) : tileXY (tileX t) (tileY t) = some t := by
  have ht : t.val < 384 := t.isLt
  have hxy : tileX t < 32 ∧ tileY t < 12 := ⟨Nat.mod_lt _ (by decide), by unfold tileY; omega⟩
  rw [tileXY, dif_pos hxy]
  exact congrArg some (Fin.ext (Nat.mod_add_div _ _))

theorem distinct_of_nodup {α : Type} [BEq α] [LawfulBEq α] {l : List α} (h : l.Nodup) : distinct l = true := by
  induction l with
  | nil => rfl
  | cons a r ih =>
    obtain ⟨ha, hr⟩ := List.nodup_cons.1 h
    simp [distinct, ha, ih hr]

/-- The tiles of an indexed list as CREATE_INDEXED names them. -/
def indexedPlaces (l : List (Nat × TileId)) : List (Nat × Nat × Nat) := l.map (fun e => (e.1, tileX e.2, tileY e.2))

/-- CREATE's list is an indexed one whose indices are 0, 1, … in order. -/
theorem zipIdx_places {l : List (Nat × TileId)} (h : l.map (·.1) = List.range l.length) :
    (l.map (fun e => (tileX e.2, tileY e.2))).zipIdx.map (fun e => (e.2, e.1.1, e.1.2)) = indexedPlaces l := by
  refine List.ext_getElem (by simp [indexedPlaces]) fun i hi hj => ?_
  have hl : i < l.length := by simpa [indexedPlaces] using hj
  have hidx : (l[i]).1 = i := by simpa using congrArg (·[i]?) h |> fun e => by simpa [hl] using e
  simp [indexedPlaces, hidx]

/-! ### Tiles that join a new territory -/

/-- A claim on the tile is given up, and the tile becomes a member of a new territory. -/
def State.enrol (s : State) (terr : Nat) (ver : BitVec 32) (e : Nat × TileId) : State :=
  (s.abandon e.2).modTile e.2 (fun x => { x with
    owner := some terr, lidx := e.1, voteNo := 0, bias := 0, raw := 0, press := 0, claim := none, joinVer := ver, preempt := false })

section
variable (s : State) (g : TileId)

theorem State.abandon_unclaimed (h : (s.tiles[g]).claim = none) : s.abandon g = s := by
  simp only [State.abandon, h]

@[simp] theorem State.returnGrant_terrs (a : Nat) (loss : Bool) (n : Nat) : (s.returnGrant g a loss n).terrs = s.terrs := by
  unfold State.returnGrant
  split <;> rfl

@[simp] theorem State.returnGrant_tiles (a : Nat) (loss : Bool) (n : Nat) : (s.returnGrant g a loss n).tiles = s.tiles := by
  unfold State.returnGrant
  split <;> rfl

@[simp] theorem State.returnGrants_terrs (c : Claim) : (s.returnGrants g c).terrs = s.terrs := by
  unfold State.returnGrants
  dsimp only
  (repeat' split) <;> simp

@[simp] theorem State.returnGrants_tiles (c : Claim) : (s.returnGrants g c).tiles = s.tiles := by
  unfold State.returnGrants
  dsimp only
  (repeat' split) <;> simp

@[simp] theorem State.abandon_terrs : (s.abandon g).terrs = s.terrs := by
  unfold State.abandon
  (repeat' split) <;> simp

theorem State.abandon_tiles_ne {u : TileId} (h : u ≠ g) : (s.abandon g).tiles[u] = s.tiles[u] := by
  unfold State.abandon
  split
  · split
    · rfl
    · rw [State.modTile_ne _ _ h]
      simp
  · rfl

end

section
variable (s : State) (terr : Nat) (ver : BitVec 32)

@[simp] theorem State.enrol_mem (e : Nat × TileId) : (s.enrol terr ver e).mem = s.mem := by
  simp [State.enrol]

@[simp] theorem State.enrol_terrs (e : Nat × TileId) : (s.enrol terr ver e).terrs = s.terrs := by
  simp [State.enrol]

theorem State.enrol_tiles_ne (e : Nat × TileId) {u : TileId} (h : u ≠ e.2) : (s.enrol terr ver e).tiles[u] = s.tiles[u] := by
  rw [State.enrol, State.modTile_ne _ _ h, State.abandon_tiles_ne _ _ h]

theorem State.enrol_tile (e : Nat × TileId) :
    let x := (s.enrol terr ver e).tiles[e.2]
    x.owner = some terr ∧ x.lidx = e.1 ∧ x.claim = none := by
  rw [State.enrol, State.modTile_self]
  exact ⟨rfl, rfl, rfl⟩

theorem State.enrol_net (e : Nat × TileId) (h : (s.tiles[e.2]).claim = none) : (s.enrol terr ver e).net = s.net := by
  rw [State.enrol, State.abandon_unclaimed _ _ h]
  rfl

/-- Tiles that are not listed stay as they are. -/
theorem State.foldl_enrol_tiles_ne (l : List (Nat × TileId)) {u : TileId} (h : u ∉ l.map (·.2)) :
    (l.foldl (fun s e => s.enrol terr ver e) s).tiles[u] = s.tiles[u] := by
  induction l generalizing s with
  | nil => rfl
  | cons e l ih =>
    rw [List.map_cons, List.mem_cons, not_or] at h
    rw [List.foldl_cons, ih _ h.2, State.enrol_tiles_ne _ _ _ _ h.1]

/-- Each listed tile is a member under its index, without a claim. -/
theorem State.foldl_enrol_tile {l : List (Nat × TileId)} (hn : (l.map (·.2)).Nodup) {e : Nat × TileId} (he : e ∈ l) :
    let x := (l.foldl (fun s e => s.enrol terr ver e) s).tiles[e.2]
    x.owner = some terr ∧ x.lidx = e.1 ∧ x.claim = none := by
  induction l generalizing s with
  | nil => cases he
  | cons a l ih =>
    rw [List.map_cons, List.nodup_cons] at hn
    obtain ⟨ha, hn⟩ := hn
    rw [List.foldl_cons]
    obtain rfl | he := List.mem_cons.1 he
    · rw [State.foldl_enrol_tiles_ne _ _ _ _ ha]
      exact s.enrol_tile terr ver e
    · exact ih (s.enrol terr ver a) hn he

/-- Where no listed tile has a claim, no grant goes back. -/
theorem State.foldl_enrol_net {l : List (Nat × TileId)} (hn : (l.map (·.2)).Nodup) (hc : ∀ e ∈ l, (s.tiles[e.2]).claim = none) :
    (l.foldl (fun s e => s.enrol terr ver e) s).net = s.net := by
  induction l generalizing s with
  | nil => rfl
  | cons a l ih =>
    rw [List.map_cons, List.nodup_cons] at hn
    obtain ⟨ha, hn⟩ := hn
    have hrest : ∀ e ∈ l, ((s.enrol terr ver a).tiles[e.2]).claim = none := fun e he => by
      rw [State.enrol_tiles_ne _ _ _ _ fun h => ha (h ▸ List.mem_map_of_mem he)]
      exact hc e (List.mem_cons_of_mem a he)
    rw [List.foldl_cons, ih _ hn hrest, State.enrol_net _ _ _ _ (hc a List.mem_cons_self)]

end

/-! ### CREATE and CREATE_INDEXED (16 R298, 20 R352) -/

/-- What CREATE asks of its list, its sizes and the device. -/
structure State.MayCreate (s : State) (h : Hdr) (l : List (Nat × TileId)) (hd : TileId) (minA maxB ver : Nat) : Prop where
  terr : h.terr ≤ 63
  unused : s.findTerr h.terr = none
  room : s.terrs.length < 64
  idxs : (l.map (·.1)).Nodup
  places : (l.map (·.2)).Nodup
  handler : (0, hd) ∈ l
  free : ∀ e ∈ l, e.1 ≤ 1023 ∧ (s.tiles[e.2]).isFree = true
  connected : tilesConnected (l.map (·.2)) = true
  min : 1 ≤ minA
  minLen : minA ≤ l.length
  lenMax : l.length ≤ maxB
  max : maxB ≤ 384
  ver : ver < 2 ^ 32

/-- The state with the territory and its members. -/
def State.created (s : State) (h : Hdr) (l : List (Nat × TileId)) (hd : TileId) (minA maxB ver : Nat) : State :=
  let s1 := l.foldl (fun s e => s.enrol h.terr (BitVec.ofNat 32 ver) e) s
  { s1 with
    dev := { s1.dev with nextTerr := s1.dev.nextTerr + 1 },
    terrs := s1.terrs ++ [newTerr h.terr s.dev.nextTerr h.sess hd (BitVec.ofNat 32 ver) minA maxB s.fwver],
    ghosts := s1.ghosts.filter (fun g => g.terr != h.terr) }

section
variable {s : State} {h : Hdr} {l : List (Nat × TileId)} {hd : TileId} {minA maxB ver : Nat}

/-- The handler tile is the one listed with index 0. -/
theorem find_handler (hn : (l.map (·.1)).Nodup) (h0 : (0, hd) ∈ l) :
    (((l.map (fun e => (e.1, some e.2))).find? (fun e => e.1 == 0)).bind (·.2)).getD 0 = hd := by
  rw [List.find?_map]
  cases hf : l.find? ((fun e => e.1 == 0) ∘ fun e => (e.1, some e.2)) with
  | none => exact absurd (List.find?_eq_none.1 hf _ h0) (by simp)
  | some e =>
    obtain ⟨i, t⟩ := e
    obtain rfl : i = 0 := by simpa using List.find?_some hf
    exact value_unique hn h0 (List.mem_of_find?_eq_some hf)

theorem State.createWith_created (hc : s.MayCreate h l hd minA maxB ver) :
    s.createWith h ver (indexedPlaces l) minA maxB = .done (s.created h l hd minA maxB ver) .empty := by
  obtain ⟨hterr, hunused, hroom, hidxs, hplaces, h0, hfree, hconn, hmin, hminLen, hlenMax, hmax, hver⟩ := hc
  have hts : (indexedPlaces l).map (fun e => (e.1, tileXY e.2.1 e.2.2)) = l.map (fun e => (e.1, some e.2)) := by
    simp [indexedPlaces]
  have hps : (l.map (fun e => (e.1, some e.2))).filterMap (·.2) = l.map (·.2) := by
    simp [List.filterMap_map]
  have his : (indexedPlaces l).map (·.1) = l.map (·.1) := by simp [indexedPlaces]
  have hlen : (indexedPlaces l).length = l.length := by simp [indexedPlaces]
  have hne : (indexedPlaces l).isEmpty = false := by
    rw [List.isEmpty_eq_false_iff_exists_mem]
    exact ⟨_, List.mem_map_of_mem h0⟩
  have hidx : (l.map (·.1)).all (fun i => decide (i ≤ 1023)) = true := by
    simpa using fun a b hab => (hfree (a, b) hab).1
  have hbusy : (l.map (·.2)).any (fun t => !(s.tiles[t]).isFree) = false := by
    simpa using fun a b hab => (hfree (a, b) hab).2
  have hzero : (l.map (·.1)).contains 0 = true := by
    simpa using ⟨hd, h0⟩
  unfold State.createWith
  simp only [hts, hps, his, hlen, hne, hidx, hbusy, hzero, hconn, distinct_of_nodup hidxs, distinct_of_nodup hplaces, hunused,
    find_handler hidxs h0]
  rw [if_neg (by simp; omega), if_neg (by simp; omega), List.foldl_map]
  rfl

theorem exec_createIndexed_creates (hm : s.MayRun h) (ho : s.ownsNone h = true) (hc : s.MayCreate h l hd minA maxB ver) :
    exec (.createIndexed h ver (indexedPlaces l) minA maxB) s = .next ((s.created h l hd minA maxB ver).ran h 0x0013 .empty) := by
  rw [exec_createIndexed]
  exact State.runCmd_doneNoTerr hm ho (State.createWith_created hc)

theorem exec_create_creates (hm : s.MayRun h) (ho : s.ownsNone h = true) (hc : s.MayCreate h l hd minA maxB 0)
    (hl : l.map (·.1) = List.range l.length) :
    exec (.create h (l.map (fun e => (tileX e.2, tileY e.2))) minA maxB) s = .next ((s.created h l hd minA maxB 0).ran h 0x0010 .empty) := by
  rw [exec_create, execCreate, zipIdx_places hl]
  exact State.runCmd_doneNoTerr hm ho (State.createWith_created hc)

theorem State.created_mem : (s.created h l hd minA maxB ver).mem = s.mem :=
  State.foldl_mem _ _ _ fun s e => State.enrol_mem s _ _ e

theorem State.created_terrs : (s.created h l hd minA maxB ver).terrs =
    s.terrs ++ [newTerr h.terr s.dev.nextTerr h.sess hd (BitVec.ofNat 32 ver) minA maxB s.fwver] :=
  congrArg (· ++ _) (State.foldl_keeps (get := State.terrs) (fun s e => State.enrol_terrs s _ _ e) l s)

end

/-! ### DISSOLVE (16 R299) -/

theorem exec_dissolve_ends {s : State} {h : Hdr} (hm : s.MayRunOn h) (ha : s.ifAllows h [.unlocked] = true) :
    let s1 := (s.modTerr h.terr (fun y => { y with dying := some { how := .dissolved, reply := some h, stop := none, stays := false } })).forceLaunches h.terr 5
    exec (.dissolve h) s = .next (((s1.endSlices h.terr .dissolved).accept h true).tryDissolve h.terr) := by
  rw [exec_dissolve]
  exact State.runCmd_laterOn (f := fun s => s.tryDissolve h.terr) hm ha rfl

/-! ### POLICY (03 R78, 21 R359) -/

section
variable {s : State} {h : Hdr} {id v : Nat}

/-- The settings that need a territory are a territory's. -/
theorem devSetting_eq_false_of_needTerr (hn : (decide (3 ≤ id) && decide (id ≤ 7)) = true) : devSetting id = false := by
  simp only [Bool.and_eq_true, decide_eq_true_eq] at hn
  simp [devSetting]
  omega

section
variable (hm : s.MayRun h) (hp : s.policyState h id v = true) (ho : devSetting id = false → (s.ownTerr h).isSome = true)
include hm hp ho

theorem State.runPolicy_done {t : State} (hk : s.policySet h id v = .done t .empty) : s.runPolicy h id v = .next (t.ran h 0x0012 .empty) :=
  State.runCmd_done hm hp (fun hn => ho (devSetting_eq_false_of_needTerr hn)) hk

/-- Bytes of the body that must be zero. -/
theorem State.runPolicy_padded (hd : h.pad ≠ 0) : s.runPolicy h id v = .next (s.respond h 0x0012 6 .empty) :=
  State.runCmd_bad hm hp (fun hn => ho (devSetting_eq_false_of_needTerr hn)) (if_pos (.inl hd))

end

variable (hp : h.pad = 0)
include hp

/-- Past its first check a setting goes by its number. -/
theorem State.policySet_phase (ht : h.terr = 0xFFFF) (hl : 4 ≤ v) (hu : v ≤ 255) :
    s.policySet h 0 v = .done { s with dev := { s.dev with pendPol := s.dev.pendPol ++ [(0, v)] } } .empty := by
  simp [State.policySet, hp, ht, hl, hu, State.devPol]

section
variable {t : TileId} (hm : s.memberAt h.terr v = some t)
include hm

theorem State.policySet_setAnchor (hr : s.heldAnchor h.terr t = true ∨ s.anchors h.terr + (s.terr! h.terr).anchPending < 16) :
    s.policySet h 6 v = .done (s.modTerr h.terr (fun y => { y with pendAnch := y.pendAnch ++ [(t, true)] })) .empty := by
  have hroom : (!s.heldAnchor h.terr t && decide (16 ≤ s.anchors h.terr + (s.terr! h.terr).anchPending)) = false := by
    obtain hr | hr := hr
    · simp [hr]
    · simp [Nat.not_le.2 hr]
  simp [State.policySet, devSetting, hp, State.fwAnchor, hm, hroom]

theorem State.policySet_anchorsFull (hh : s.heldAnchor h.terr t = false) (hr : 16 ≤ s.anchors h.terr + (s.terr! h.terr).anchPending) :
    s.policySet h 6 v = .bad 6 := by
  simp [State.policySet, devSetting, hp, State.fwAnchor, hm, hh, hr]

theorem State.policySet_clearAnchor :
    s.policySet h 7 v = .done (s.modTerr h.terr (fun y => { y with pendAnch := y.pendAnch ++ [(t, false)] })) .empty := by
  simp [State.policySet, devSetting, hp, State.fwAnchor, hm]

end

section
variable {e : Endpoint} (ht : h.terr = 0xFFFF) (he : (s.session! h.sess).endpoint v = some e) (hv : v ≤ 4095)
include ht he hv

omit hp ht in
/-- The fabric address of an entry of the endpoint table is added to a list. -/
theorem State.enlist_new {fs : List (BitVec 128)} (hn : e.fa ∉ fs) : s.enlist h v fs = some (fs ++ [e.fa]) := by
  have hmod : v % 2 ^ 63 = v := Nat.mod_eq_of_lt (by omega)
  obtain ⟨p, hf, rfl⟩ := Option.map_eq_some_iff.1 he
  have hr : ¬ (4095 < v % 2 ^ 63 ∨ 2 ^ 64 ≤ v) := by omega
  have hlow : v < 2 ^ 63 := by omega
  rw [State.enlist, if_neg hr, hmod, hf]
  simp only [if_pos hlow]
  simp [hn]

theorem State.policySet_pxpeers (hn : e.fa ∉ s.dev.pxpeers) :
    s.policySet h 9 v = .done { s with dev := { s.dev with pxpeers := s.dev.pxpeers ++ [e.fa] } } .empty := by
  simp [State.policySet, hp, ht, State.enlist_new he hv hn]

theorem State.policySet_ops (hn : e.fa ∉ s.dev.ops) :
    s.policySet h 10 v = .done { s with dev := { s.dev with ops := s.dev.ops ++ [e.fa] } } .empty := by
  simp [State.policySet, hp, ht, State.enlist_new he hv hn]

end

end

/-- Settles O37: the new territory by what each listed tile becomes, DISSOLVE by its parts, and POLICY setting by setting. -/
theorem territoryCommands : Obligations.TerritoryCommands := by
  unfold Obligations.TerritoryCommands
  intro s h minA maxB id v
  refine ⟨?_, fun hm ha => exec_dissolve_ends hm ha,
    fun hm hp ho => ⟨fun t hk => ?_, State.runPolicy_padded hm hp ho⟩,
    fun hp ht hl hu => State.policySet_phase hp ht hl hu,
    fun t hp hm => ⟨State.policySet_setAnchor hp hm, State.policySet_anchorsFull hp hm, State.policySet_clearAnchor hp hm⟩,
    fun e hp ht he hv hx ho => ⟨State.policySet_pxpeers hp ht he hv hx, State.policySet_ops hp ht he hv ho⟩⟩
  · intro l ver hd hm ho hterr hu hroom hi hp h0 hf hc hmin hml hlm hmax hver made
    have hmay (ver : Nat) (hver : ver < 2 ^ 32) : s.MayCreate h l hd minA maxB ver :=
      ⟨hterr, hu, hroom, hi, hp, h0, hf, hc, hmin, hml, hlm, hmax, hver⟩
    have made_of {i : Instr} {code ver : Nat} (he : exec i s = .next ((s.created h l hd minA maxB ver).ran h code .empty)) : made i code ver :=
      ⟨_, he, State.created_mem, State.created_terrs, fun e he => s.foldl_enrol_tile h.terr _ hp he, fun hn => s.foldl_enrol_net h.terr _ hp hn,
        fun u hu => s.foldl_enrol_tiles_ne h.terr _ l hu⟩
    exact ⟨made_of (exec_createIndexed_creates hm ho (hmay ver hver)),
      fun hl => made_of (exec_create_creates hm ho (hmay 0 (by decide)) hl)⟩
  · have hrun := State.runPolicy_done hm hp ho hk
    refine ⟨hrun, ?_, ?_, ?_, ?_⟩ <;> (rintro rfl; exact hrun)

end Sys2Proof.Machine
end

section
/-! PROOFS. Pages, code objects, launches, DIRTY (16 R300 to R303, 20 R351). -/

namespace Sys2Proof.Machine

open Sys2Proof

section
variable {s : State} {h : Hdr} (hm : s.MayRunOn h)
include hm

/-! ### MAP, UNMAP and PROTECT (16 R301, R302) -/

section
variable {va len psize perm : Nat} (ha : s.ifAllows h [.unlocked, .locked, .run] = true)
include ha

section
variable (hp : h.pad = 0)
include hp

/-- Pages are given where the range is whole pages of the address space that no page holds, and every home stack has room. -/
theorem exec_mapPages_maps {ps : List Page} (hps : psize ≤ 1) (hpe : perm ≤ 1) (hva : va % pageSize psize = 0) (hl : 0 < len)
    (hlen : len % pageSize psize = 0) (hend : va + len ≤ 2 ^ 48)
    (hfree : ∀ p ∈ (s.terr! h.terr).pages, p.vpn * 2097152 < va ∨ va + len ≤ p.vpn * 2097152)
    (hroom : len / 2097152 ≤ 8 * (32768 - s.firstPiece))
    (hgive : givePieces s.firstPiece s.takenPieces (perm == 1) (psize == 1) (pieces va len) = some ps) :
    exec (.mapPages h va len psize perm) s =
      .next ((((s.takePieces ps).zeroPages ps).modTerr h.terr (fun y => { y with pages := y.pages ++ ps })).ran h 0x0014 .empty) := by
  have hnone : (s.terr! h.terr).pages.any (fun p => decide (va ≤ p.vpn * 2097152) && decide (p.vpn * 2097152 < va + len)) = false := by
    simp only [List.any_eq_false, Bool.and_eq_true, decide_eq_true_eq]
    intro p hp
    have := hfree p hp
    omega
  rw [exec_mapPages]
  refine State.runCmd_doneOn hm ha ((if_neg ?_).trans ((if_neg hroom.not_gt).trans ?_))
  · simp only [hnone, Bool.false_eq_true, or_false]
    omega
  · simp only [hgive]

variable (hr : rangeBad (s.terr! h.terr).pages va len = false)
include hr

theorem exec_unmap_unmaps : exec (.unmap h va len) s = .next (((s.zeroPages ((s.terr! h.terr).pages.filter (fun p => p.inside va len))).modTerr
    h.terr (fun y => { y with
      pages := y.pages.filter (fun p => !p.inside va len),
      dirty := y.dirty.filter (fun g => decide (g * 65536 < va) || decide (va + len ≤ g * 65536)) })).ran h 0x0015 .empty) := by
  rw [exec_unmap]
  exact State.runCmd_doneOn hm ha (if_neg (by simp [hp, hr]))

theorem exec_protect_changes (hpe : perm ≤ 1) : exec (.protect h va len perm) s = .next ((s.modTerr h.terr (fun y => { y with
    pages := y.pages.map (fun p => if p.inside va len then { p with rw := perm == 1 } else p) })).ran h 0x0016 .empty) := by
  rw [exec_protect]
  exact State.runCmd_doneOn hm ha (if_neg (by simp [hp, hr, hpe]))

end

/-! Bytes that must be zero. -/

variable (hp : h.pad ≠ 0)
include hp

theorem exec_mapPages_padded : exec (.mapPages h va len psize perm) s = .next (s.respond h 0x0014 6 .empty) := by
  rw [exec_mapPages]
  exact State.runCmd_badOn hm ha (if_pos (.inl hp))

theorem exec_unmap_padded : exec (.unmap h va len) s = .next (s.respond h 0x0015 6 .empty) := by
  rw [exec_unmap]
  exact State.runCmd_badOn hm ha (if_pos (.inl hp))

theorem exec_protect_padded : exec (.protect h va len perm) s = .next (s.respond h 0x0016 6 .empty) := by
  rw [exec_protect]
  exact State.runCmd_badOn hm ha (if_pos (.inl hp))

end

/-! ### LOAD_CODE and LAUNCH (16 R300, R303) -/

variable (ha : s.ifAllows h [.run] = true)
include ha

/-- A code object without data is registered under the next handle. -/
theorem exec_loadCode_registers {body : CodeBody} {dimg : Nat} (hl : 8 ≤ CodeBody.size body) (hu : CodeBody.size body ≤ 131072)
    (hd : body.data = []) : exec (.loadCode h body dimg) s = .next (State.ran { s.evCode h.sess body with
      codes := s.codes ++ [{ handle := s.dev.nextHandle, terr := h.terr, body := body, dimg := dimg }],
      dev := { s.dev with nextHandle := s.dev.nextHandle + 1 } } h 0x0020 (.words [BitVec.ofNat 64 s.dev.nextHandle])) := by
  rw [exec_loadCode]
  refine State.runCmd_doneOn hm ha ((if_neg ?_).trans (if_pos hd))
  simp only [hd, List.length_nil, ne_eq, not_true_eq_false, false_and, or_false]
  omega

section
variable {b : LaunchBody} {o : CodeObj} {n : Nat × Nat × Nat} {args : List Byte} (hl : s.launchLimit h.terr b = some (o, n, args))
include hl

/-- Slices that get their frame ids at dispatch, or have no frame. -/
theorem exec_launch_makes (hc : b.coop = 0 ∨ roundFrame n.2.2 = 0)
    (hfit : ∀ t ∈ s.launchTiles h.terr b, roundFrame n.2.2 = 0 ∨ (frameBase (s.frames t) (roundFrame n.2.2)).isSome = true ∧
      (nextId (s.tiles[t]).lastFid (s.idHeld s.dev.nextUid t)).isSome = true) :
    exec (.launch h b) s = .next (((s.evArgs h.sess args).makeSlices h b o n none).ran h 0x0021 .empty) := by
  have hshared : (b.coop == 1 && roundFrame n.2.2 != 0) = false := by
    obtain hc | hc := hc <;> simp [hc]
  have hall : (s.launchTiles h.terr b).all (fun t => roundFrame n.2.2 == 0 || ((frameBase (s.frames t) (roundFrame n.2.2)).isSome &&
      (b.coop == 1 || (nextId (s.tiles[t]).lastFid (s.idHeld s.dev.nextUid t)).isSome))) = true := by
    rw [List.all_eq_true]
    intro t ht
    obtain h0 | ⟨hb, hi⟩ := hfit t ht
    · simp [h0]
    · simp only [hb, hi, Bool.or_true, Bool.and_self]
  rw [exec_launch]
  refine State.runCmd_doneOn hm ha ?_
  simp only [hl, hshared, hall]
  rfl

/-- The slices of a cooperative launch share one frame id. -/
theorem exec_launch_makesShared {f : Nat} (hc : b.coop = 1) (hs : roundFrame n.2.2 ≠ 0)
    (hfit : ∀ t ∈ s.launchTiles h.terr b, (frameBase (s.frames t) (roundFrame n.2.2)).isSome = true) (hf : s.coopId h.terr = some f) :
    exec (.launch h b) s = .next ((((s.launchTiles h.terr b).foldl (fun s t => s.modTile t (fun x => { x with lastFid := some f }))
      ((s.evArgs h.sess args).modTerr h.terr (fun y => { y with lastCoop := some f }))).makeSlices h b o n (some f)).ran h 0x0021 .empty) := by
  have hshared : (b.coop == 1 && roundFrame n.2.2 != 0) = true := by simp [hc, hs]
  have hall : (s.launchTiles h.terr b).all (fun t => roundFrame n.2.2 == 0 || ((frameBase (s.frames t) (roundFrame n.2.2)).isSome &&
      (b.coop == 1 || (nextId (s.tiles[t]).lastFid (s.idHeld s.dev.nextUid t)).isSome))) = true := by
    rw [List.all_eq_true]
    intro t ht
    rw [hfit t ht, beq_iff_eq.2 hc]
    simp
  rw [exec_launch]
  refine State.runCmd_doneOn hm ha ?_
  simp only [hl, hshared, hall, hf]
  rfl

end

/-! ### DIRTY (20 R351) -/

/-- The bit that DIRTY returns of a granule: until the first DIRTY every mapped one counts as written. -/
def Terr.dirtyBit (y : Terr) (g : Nat) : Bool := if y.dirtyRead then y.dirty.contains g else y.pages.any (fun p => decide (p.vpn = g / 32))

theorem exec_dirty_returns {first count : Nat} (hl : 1 ≤ count) (hu : count ≤ 524288) (he : first + count ≤ 2 ^ 32) :
    exec (.dirty h first count) s = .next ((s.modTerr h.terr (fun y =>
      { y.cleaned s.now (fun g => decide (first ≤ g) && decide (g < first + count)) with dirtyRead := true, dirtySince := true })).ran h 0x0034
        (.bytes (bitBytes (fun i => (s.terr! h.terr).dirtyBit (first + i)) count))) := by
  rw [exec_dirty]
  exact State.runCmd_doneOn hm ha (if_neg (by omega))

end

theorem Terr.dirtyBit_read {y : Terr} (h : y.dirtyRead = true) (g : Nat) : y.dirtyBit g = true ↔ g ∈ y.dirty := by
  simp [Terr.dirtyBit, h]

theorem Terr.dirtyBit_first {y : Terr} (h : y.dirtyRead = false) (g : Nat) : y.dirtyBit g = true ↔ ∃ p ∈ y.pages, p.vpn = g / 32 := by
  simp [Terr.dirtyBit, h]

/-- A granule stays dirty where it is not cleaned, or was written in this cycle. -/
theorem Terr.mem_cleaned_dirty {y : Terr} {now : Nat} {clean : Nat → Bool} {g : Nat} :
    g ∈ (y.cleaned now clean).dirty ↔ g ∈ y.dirty ∧ (clean g = false ∨ (y.wroteAt = now ∧ g ∈ y.wrote)) := by
  simp [Terr.cleaned]

/-- Settles O38: each command by the limits it checks; DIRTY's bits by whether it was read before. -/
theorem pagesCodeAndLaunches : Obligations.PagesCodeAndLaunches := by
  unfold Obligations.PagesCodeAndLaunches
  intro s h va len psize perm first count body dimg b hm y
  refine ⟨fun ha => ⟨fun ps hp hps hpe hva hl hlen hend hfree hroom hgive => exec_mapPages_maps hm ha hp hps hpe hva hl hlen hend hfree hroom hgive,
      fun hp hr => ⟨exec_unmap_unmaps hm ha hp hr, exec_protect_changes hm ha hp hr⟩,
      fun hp => ⟨exec_mapPages_padded hm ha hp, exec_unmap_padded hm ha hp, exec_protect_padded hm ha hp⟩⟩,
    fun ha => ⟨exec_loadCode_registers hm ha, fun o n args hl => ⟨exec_launch_makes hm ha hl, fun f => exec_launch_makesShared hm ha hl⟩,
      fun hl hu he => ⟨_, exec_dirty_returns hm ha hl hu he, fun z clean g => Terr.mem_cleaned_dirty,
        fun hd i _ => Terr.dirtyBit_read hd _, fun hd i _ => Terr.dirtyBit_first hd _⟩⟩⟩

end Sys2Proof.Machine
end

section
/-! PROOFS. PREEMPT, RESUME, SAVE, CHECKPOINT, RESTORE and the images they write (16 R310 to R315, 20 R346 to R353). -/

namespace Sys2Proof.Machine

open Sys2Proof

section
variable {s : State} {h : Hdr} (hm : s.MayRunOn h)
include hm

/-! ### PREEMPT, RESUME, SAVE and CHECKPOINT (16 R310, R313, 20 R348) -/

section
variable (ha : s.ifAllows h [.run] = true)
include ha

theorem exec_preempt_halts (hh : s.isHalted h = false) : exec (.preempt h) s =
    .next ((((s.haltTerr h.terr).modTerr h.terr (fun y => { y with haltReply := some h })).accept h true).tryHalted h.terr) := by
  rw [exec_preempt]
  exact State.runCmd_laterOn (f := fun s => s.tryHalted h.terr) hm (by simp [ha, hh]) rfl

theorem exec_resume_resumes (hh : s.isHalted h = true) : exec (.resume h) s = .next ((s.resumeTerr h.terr).ran h 0x0033 .empty) := by
  rw [exec_resume]
  exact State.runCmd_doneOn hm (by simp [ha, hh]) rfl

omit ha in
theorem exec_resume_running (hh : s.isHalted h = false) : exec (.resume h) s = .next (s.respond h 0x0033 4 .empty) := by
  rw [exec_resume]
  exact State.runCmd_wrongState hm.1 (by simp [hh])

theorem exec_save_begins {off : Nat} {full : Bool} (hh : s.isHalted h = true) (ho : off % 4096 = 0) (hr : off + 4096 ≤ s.storeBytes) :
    exec (.save h off full) s = .next ((s.beginSave
      { h := h, off := off, full := full, ckpt := none, resume := false, zeroed := false, image := none }).accept h true) := by
  rw [exec_save]
  exact State.runCmd_laterOn (f := id) hm (by simp [ha, hh]) (if_neg (by simp [State.storeOffset, ho, hr]))

section
variable {b : CkptBody} (hs : s.streaming h.terr = false)
include hs

theorem exec_checkpoint_begins (hb : s.ckptOk h b = true) : exec (.checkpoint h b) s =
    .next (((if s.isHalted h then s else s.haltTerr h.terr).beginSave
      { h := h, off := b.off, full := b.full, ckpt := some b, resume := !s.isHalted h, zeroed := false, image := none }).accept h true) := by
  rw [exec_checkpoint]
  exact State.runCmd_laterOn (f := id) hm (by simp [ha, hs]) (if_neg (by simp [hb]))

theorem exec_checkpoint_refused (hb : s.ckptOk h b = false) : exec (.checkpoint h b) s = .next (s.respond h 0x0035 6 .empty) := by
  rw [exec_checkpoint]
  exact State.runCmd_badOn hm (by simp [ha, hs]) (if_pos (by simp [hb]))

end

end

/-! ### PXSEND, LOADPAGES and RESTORE (20 R349, R350, R353, 16 R315) -/

theorem exec_pxsend_streams {off buddy boff : Nat} {bpoff : Option Nat} (ha : s.ifAllows h [.run, .locked] = true)
    (hi : (s.findImage off).isSome = true) (hb : s.buddyOk h.sess buddy = true) (ho : boff % 4096 = 0) (hp : ∀ p, bpoff = some p → p % 4096 = 0) :
    exec (.pxsend h off buddy boff bpoff) s = .next ((s.startStream h.sess h.terr buddy off boff bpoff).ran h 0x0036 .empty) := by
  have hoff : buddyOffset boff bpoff = true := by
    cases bpoff with
    | none => simp [buddyOffset, ho]
    | some p => simp [buddyOffset, ho, hp p rfl]
  have hi' : (s.findImage off).isNone = false := by rw [← Option.not_isSome, hi]; rfl
  rw [exec_pxsend]
  exact State.runCmd_doneOn hm ha (if_neg (by simp [hi', hb, hoff]))

section
variable {off : Nat} {is : List Image} (ha : s.ifAllows h [.locked] = true) (hc : s.ancestry 8 off = some is)
include ha hc

theorem exec_loadpages_loads (hp : (chainPages is).all (fun g => s.mapped h.terr g.1 true) = true) :
    exec (.loadpages h off) s = .next ((s.putPages h.terr (chainPages is)).ran h 0x0037 .empty) := by
  have hmap : (chainPages is).any (fun g => !s.mapped h.terr g.1 true) = false := by
    rw [List.all_eq_not_any_not] at hp
    simpa using hp
  rw [exec_loadpages]
  refine State.runCmd_doneOn hm ha ?_
  simp only [hc, hmap]
  rfl

section
variable {i : Image} (hf : s.fillable h = true) (hl : is.getLast? = some i)
include hf hl

theorem exec_restore_otherMajor (hv : i.major ≠ 1) : exec (.restore h off) s = .next (s.respond h 0x0032 6 .empty) := by
  rw [exec_restore]
  refine State.runCmd_badOn hm (by simp [ha, hf]) ?_
  simp only [hc, hl]
  exact if_pos (.inl hv)

/-- An image of as many members as the territory has, each under an index that it has, is written back. -/
theorem exec_restore_restores {ts : List TileId} (hv : i.major = 1) (hn : (i.sections.filter (fun x => !x.isCeding)).length = s.size h.terr)
    (hx : ∀ x ∈ i.sections.filter (fun x => !x.isCeding), (s.memberAt h.terr x.lidx).isSome = true)
    (hz : i.frz = true → ∀ x ∈ i.sections.filter (fun x => !x.isCeding), s.memberAt h.terr x.lidx = some x.pos)
    (hp : (chainPages is).all (fun g => s.mapped h.terr g.1 false) = true)
    (hr : s.cedingRoom h.terr (i.sections.length - (i.sections.filter (fun x => !x.isCeding)).length) = some ts) :
    exec (.restore h off) s = .next ((s.restored h i (chainPages is) ts).ran h 0x0032 .empty) := by
  have hmap : (chainPages is).any (fun g => !s.mapped h.terr g.1 false) = false := by
    rw [List.all_eq_not_any_not] at hp
    simpa using hp
  have hmem : (i.sections.filter (fun x => !x.isCeding)).any (fun x => (s.memberAt h.terr x.lidx).isNone) = false := by
    rw [List.any_eq_false]
    intro x hm hn
    have hsome := hx x hm
    rw [Option.isNone_iff_eq_none.1 hn] at hsome
    cases hsome
  have hpos : (i.frz && (i.sections.filter (fun x => !x.isCeding)).any (fun x => s.memberAt h.terr x.lidx != some x.pos)) = false := by
    cases hfz : i.frz with
    | false => rfl
    | true =>
      rw [Bool.true_and, List.any_eq_false]
      intro x hm
      simp [hz hfz x hm]
  rw [exec_restore]
  refine State.runCmd_doneOn hm (by simp [ha, hf]) ?_
  simp only [hc, hl]
  refine (if_neg ?_).trans ?_
  · simp only [hv, hn, hmem, hpos, hmap, ne_eq, not_true_eq_false, Bool.false_eq_true, or_self, not_false_eq_true]
  · simp only [hr]

end

end

end

/-! ### Bytes of the store (20 R346, R347) -/

section
variable {s : State} {lo : Nat} {bs : List Byte} {i : Image}

theorem Image.recordHit_eq_false (h : i.touches lo bs.length = false) : i.recordHit lo bs.length = false := by
  simp only [Image.touches, Image.recordHit, Bool.and_eq_false_iff, decide_eq_false_iff_not] at h ⊢
  omega

/-- Bytes beside an image leave it as it is. -/
theorem Image.hit_untouched (h : i.touches lo bs.length = false) : i.hit lo bs = i := by
  simp only [Image.touches, Bool.and_eq_false_iff, decide_eq_false_iff_not] at h
  exact if_neg (by omega)

theorem State.overwrite_keeps (hi : i ∈ s.store) (h : i.touches lo bs.length = false) : i ∈ (s.overwrite lo bs).store :=
  List.mem_map.2 ⟨i, List.mem_filter.2 ⟨hi, by rw [Image.recordHit_eq_false h]; rfl⟩, Image.hit_untouched h⟩

/-- What the store then holds are images whose records stand. -/
theorem State.mem_overwrite (hi : i ∈ (s.overwrite lo bs).store) : ∃ j ∈ s.store, j.recordHit lo bs.length = false ∧ i = j.hit lo bs := by
  obtain ⟨j, hj, rfl⟩ := List.mem_map.1 hi
  obtain ⟨hj, hr⟩ := List.mem_filter.1 hj
  exact ⟨j, hj, by simpa using hr, rfl⟩

/-- Bytes within an image stand in it. -/
theorem Image.hit_stored (hl : i.off + 4096 ≤ lo) (hu : lo < i.off + 4096 + i.len) (hn : 0 < bs.length) :
    (i.hit lo bs).stored = writtenOver i.stored (lo - (i.off + 4096), bs) := by
  have hhit : i.hit lo bs = { i with patched := i.patched ++ [(lo - (i.off + 4096), bs)] } := by
    rw [Image.hit, if_pos (by omega), Nat.sub_eq_zero_of_le hl, List.drop_zero]
  rw [hhit]
  exact List.foldl_append

end

/-! ### Writing an image (20 R347) -/

/-- A territory that saves is one of the device's. -/
theorem State.findTerr_of_saving {s : State} {terr : Nat} {v : Saving} (h : (s.terr! terr).saving = some v) :
    ∃ y, s.findTerr terr = some y := by
  cases hf : s.findTerr terr with
  | some y => exact ⟨y, rfl⟩
  | none =>
    rw [State.terr!, hf] at h
    cases h

/-- An update of a territory that keeps its number is found under that number. -/
theorem State.terr!_modTerr {s : State} {terr : Nat} {y : Terr} (hf : s.findTerr terr = some y) {f : Terr → Terr} (hid : ∀ z, (f z).id = z.id) :
    (s.modTerr terr f).terr! terr = f y := by
  have hfind : (s.terrs.map (fun x => if x.id = terr then f x else x)).find? (fun x => x.id == terr) = some (f y) := by
    have hkeep : ((fun x : Terr => x.id == terr) ∘ fun x => if x.id = terr then f x else x) = fun x => x.id == terr := by
      funext x
      show ((if x.id = terr then f x else x).id == terr) = _
      split <;> simp [*]
    have hy : y.id = terr := by simpa using List.find?_some hf
    rw [List.find?_map, hkeep]
    show (s.findTerr terr).map _ = _
    rw [hf, Option.map_some, if_pos hy]
  rw [State.terr!, State.findTerr, State.modTerr, hfind]
  rfl

section
variable {s : State} {terr : Nat} {v : Saving} (hv : (s.terr! terr).saving = some v)
include hv

theorem State.saveStep_waits (hq : s.quiescent terr = false) : s.saveStep terr = none := by
  simp only [State.saveStep, hv, hq]
  rfl

variable (hq : s.quiescent terr = true)
include hq

theorem State.saveStep_zeroes (hz : v.zeroed = false) : s.saveStep terr =
    some ((s.overwrite v.off (List.replicate 128 0)).modTerr terr (fun y => { y with saving := some { v with zeroed := true } })) := by
  simp only [State.saveStep, hv, hq, hz]
  rfl

theorem State.saveStep_finishes {i : Image} (hz : v.zeroed = true) (hi : v.image = some i) : s.saveStep terr = some (s.finishSave terr v i) := by
  simp only [State.saveStep, hv, hq, hz, hi]
  rfl

/-- The granules that the image lists become clean with its writing. -/
theorem State.saveStep_writes (hz : v.zeroed = true) (hi : v.image = none) : s.saveStep terr =
    some ((s.overwrite (v.off + 4096) ((s.savingImage terr v).bytes.take (s.savingRoom v))).modTerr terr (fun y =>
      { (if v.ckpt.isSome || !v.full then y.cleaned s.now (fun g => (s.savingImage terr v).pages.any (fun p => p.1 == g)) else y) with
        saving := some { v with image := some (s.savingImage terr v) } })) := by
  simp only [State.saveStep, hv, hq, hz, hi]
  rfl

end

/-- Bytes of the store leave a territory its number. -/
theorem State.findTerr_overwrite {s : State} {terr lo : Nat} {bs : List Byte} {y : Terr} (h : s.findTerr terr = some y) :
    (s.overwrite lo bs).findTerr terr = some (y.hit lo bs) := by
  show (s.terrs.map (fun y => y.hit lo bs)).find? (fun x => x.id == terr) = _
  rw [List.find?_map]
  show (s.findTerr terr).map _ = _
  rw [h, Option.map_some]

/-- Settles O39: the commands by their states and limits; the steps of a save in their order; what bytes of the store leave of images. -/
theorem contextCommands : Obligations.ContextCommands := by
  unfold Obligations.ContextCommands
  refine ⟨fun s h off buddy boff bpoff full b hm => ⟨fun ha => ⟨exec_preempt_halts hm ha,
        fun hh => ⟨exec_resume_resumes hm ha hh, exec_save_begins hm ha hh⟩, exec_resume_running hm,
        exec_checkpoint_begins hm ha, exec_checkpoint_refused hm ha⟩,
      exec_pxsend_streams hm, fun is ha hc => exec_loadpages_loads hm ha hc,
      fun is i ts ha hf hc hl => ⟨exec_restore_otherMajor hm ha hc hf hl, exec_restore_restores hm ha hc hf hl⟩⟩,
    fun s terr v hv => ⟨State.saveStep_waits hv, fun hq => ⟨State.saveStep_zeroes hv hq, fun hz hi => ?_, fun i => State.saveStep_finishes hv hq⟩⟩,
    fun s i => rfl, fun s lo bs => ⟨rfl, rfl, fun i => State.overwrite_keeps, fun i => State.mem_overwrite, fun i => Image.hit_stored⟩,
    fun s sess terr buddy off boff => rfl⟩
  obtain ⟨y, hy⟩ := State.findTerr_of_saving hv
  refine ⟨_, State.saveStep_writes hv hq hz hi, rfl, rfl, rfl, ?_⟩
  rw [State.terr!_modTerr (State.findTerr_overwrite hy) (fun z => by split <;> rfl)]

end Sys2Proof.Machine
end

section
/-! PROOFS. DEBUG, firmware update, counters, telemetry and fencing (16 R309, 17 R320, R321, 21 R355, R358, R363). -/

namespace Sys2Proof.Machine

open Sys2Proof

/-! ### DEBUG (16 R309) -/

section
variable {s : State} {h : Hdr} {sl : Nat} {z : Slice} (hm : s.MayRunOn h) (ha : s.ifAllows h [.unlocked] = true)
  (hz : s.dbgSlice h sl = some z)
include hm ha hz

/-- A sub-command on a slice of the territory that is in the state it needs. -/
theorem State.runDebug_done {ok : State → Slice → Bool} {k : State → Slice → CmdRes} {t : State} {b : Body} (ho : ok s z = true)
    (hk : k s z = .done t b) : s.runDebug h sl ok k = .next (t.ran h 0x0040 b) := by
  refine State.runCmd_doneOn hm ?_ ?_
  · simp [ha, hz, ho]
  · simp only [hz, hk]

theorem exec_debugClaim_claims : exec (.debugClaim h sl) s = .next ((s.modSlice sl (fun x => { x with claimed := true })).ran h 0x0040 .empty) := by
  rw [exec_debugClaim]
  exact State.runDebug_done hm ha hz rfl rfl

theorem exec_debugRelease_resumes : exec (.debugRelease h sl) s =
    .next (((s.dbgSet z false 0).modSlice sl (fun x => { x with claimed := false })).ran h 0x0040 .empty) := by
  rw [exec_debugRelease]
  exact State.runDebug_done hm ha hz rfl rfl

theorem exec_debugHalt_halts : exec (.debugHalt h sl) s = .next ((s.dbgSet z true 0).ran h 0x0040 .empty) := by
  rw [exec_debugHalt]
  exact State.runDebug_done hm ha hz rfl rfl

theorem exec_debugGo_goes : exec (.debugGo h sl) s = .next ((s.dbgSet z false 0).ran h 0x0040 .empty) := by
  rw [exec_debugGo]
  exact State.runDebug_done hm ha hz rfl rfl

theorem exec_debugStep_halted (hh : s.dbgHalted z = true) : exec (.debugStep h sl) s = .next ((s.dbgSet z true 1).ran h 0x0040 .empty) := by
  rw [exec_debugStep]
  exact State.runDebug_done hm ha hz hh rfl

omit ha in
/-- A slice that is not halted has no bundle to step. -/
theorem exec_debugStep_running (hh : s.dbgHalted z = false) : exec (.debugStep h sl) s = .next (s.respond h 0x0040 4 .empty) := by
  rw [exec_debugStep, execDebugStep, State.runDebug]
  refine State.runCmd_wrongState hm.1 ?_
  simp [hz, hh]

theorem exec_debugRead_reads : exec (.debugRead h sl) s =
    .next (State.ran { s with stepNo := s.stepNo + 1 } h 0x0040 (.debug (z.cores.map s.coreRead)
      (match z.tile with
        | some t => (s.tiles[t]).bars.toList.map barqVal
        | none => []) ((Config.freeWord s.stepNo).toNat % 65537))) := by
  rw [exec_debugRead]
  exact State.runDebug_done hm ha hz rfl rfl

omit hm ha hz in
/-- A register of a core is written where neither stream of the core has it pending or in flight. -/
theorem State.dbgStore_register {c : CoreId} {wr : DbgWrite} (hw : ∀ off bs, wr ≠ .frame off bs)
    (he : (dbgReg wr).any (fun r => (s.cores[c]).engaged r) = false) : s.dbgStore z c wr = .done (s.modCore c (fun k => k.dbgWrite wr)) .empty := by
  have hreg : (if (dbgReg wr).any (fun r => (s.cores[c]).engaged r) then CmdRes.bad 6 else .done (s.modCore c (fun k => k.dbgWrite wr)) .empty) =
      .done (s.modCore c (fun k => k.dbgWrite wr)) .empty := if_neg (by rw [he]; decide)
  cases wr with
  | frame off bs => exact absurd rfl (hw off bs)
  | scalar r x => exact hreg
  | vector r x => exact hreg
  | predicate r x => exact hreg
  | loopReg r x => exact hreg

theorem exec_debugWrite_register {pos : Nat} {c : CoreId} {wr : DbgWrite} (hc : z.cores[pos]? = some c) (hw : ∀ off bs, wr ≠ .frame off bs)
    (he : (dbgReg wr).any (fun r => (s.cores[c]).engaged r) = false) :
    exec (.debugWrite h sl pos wr) s = .next ((s.modCore c (fun k => k.dbgWrite wr)).ran h 0x0040 .empty) := by
  rw [exec_debugWrite]
  refine State.runDebug_done hm ha hz rfl ?_
  simp only [hc, State.dbgStore_register hw he]

end

/-! ### Firmware update (17 R320, R321) -/

section
variable {s : State} {h : Hdr} (hm : s.MayRun h)
include hm

section
variable (ho : s.operator h = true)
include ho

theorem exec_fwwrite_writes {off : Nat} {bytes : List Byte} (hb : bytes ≠ []) (hl : bytes.length ≤ 65536) (he : off + bytes.length ≤ 33554432) :
    exec (.fwwrite h off bytes) s =
      .next (State.ran { s with dev := { s.dev with flash := vmod s.dev.flash (1 - s.dev.primary) (fun b => patchBank b off bytes) } } h 0x0070 .empty) := by
  rw [exec_fwwrite]
  refine State.runCmd_doneNoTerr hm ho (if_neg ?_)
  simp only [hb, false_or]
  omega

section
variable {force : Bool}

/-- The image is verified before anything else. -/
theorem exec_fwactivate_refused (hb : h.pad ≠ 0 ∨ bootOk s.dev.svnMin s.dev.flash[1 - s.dev.primary] = false) :
    exec (.fwactivate h force) s = .next (s.respond h 0x0071 6 .empty) := by
  simp only [exec_fwactivate, execFwactivate]
  refine State.runCmd_badNoTerr hm ho ?_
  exact if_pos hb

variable (hp : h.pad = 0) (hb : bootOk s.dev.svnMin s.dev.flash[1 - s.dev.primary] = true)
include hp hb

theorem exec_fwactivate_activates (hf : s.terrs = [] ∨ force = true) : exec (.fwactivate h force) s =
    .next ((s.terrs.map (·.id)).foldl State.endForUpdate { s.accept h true with dev := { s.dev with activating := some h } }) := by
  have hforce : ¬ (!s.terrs.isEmpty && !force) = true := by
    obtain hf | hf := hf <;> simp [hf]
  simp only [exec_fwactivate, execFwactivate]
  refine State.runCmd_laterNoTerr
    (f := fun s => (s.terrs.map (·.id)).foldl State.endForUpdate { s with dev := { s.dev with activating := some h } })
    hm ?_ ?_
  · exact ho
  · exact (if_neg (not_or.2 ⟨not_not.2 hp, by rw [hb]; decide⟩)).trans (if_neg hforce)

theorem exec_fwactivate_unforced (hn : s.terrs ≠ []) (hf : force = false) : exec (.fwactivate h force) s = .next (s.respond h 0x0071 4 .empty) := by
  simp only [exec_fwactivate, execFwactivate]
  refine State.runCmd_badNoTerr hm ho ?_
  exact (if_neg (not_or.2 ⟨not_not.2 hp, by rw [hb]; decide⟩)).trans (if_pos (by simp [hn, hf]))

end

/-! SVNMIN never falls, and 64 is the highest value that the fuses hold. -/

theorem exec_fwcommit_same (hs : Config.imageSvn s.dev.running ≤ s.dev.svnMin) : exec (.fwcommit h) s = .next (s.ran h 0x0072 .empty) := by
  rw [exec_fwcommit]
  exact State.runCmd_doneNoTerr hm ho (if_pos hs)

section
variable (hs : s.dev.svnMin < Config.imageSvn s.dev.running)
include hs

theorem exec_fwcommit_raises (hu : Config.imageSvn s.dev.running ≤ 64) : exec (.fwcommit h) s =
    .next (State.ran { s with dev := { s.dev with svnMin := Config.imageSvn s.dev.running } } h 0x0072 .empty) := by
  rw [exec_fwcommit]
  exact State.runCmd_doneNoTerr hm ho ((if_neg hs.not_ge).trans (if_neg hu.not_gt))

theorem exec_fwcommit_tooHigh (hu : 64 < Config.imageSvn s.dev.running) : exec (.fwcommit h) s = .next (s.respond h 0x0072 7 .empty) := by
  rw [exec_fwcommit]
  exact State.runCmd_badNoTerr hm ho ((if_neg hs.not_ge).trans (if_pos hu))

end

end

/-! ### COUNTERS, TELEMETRY and FENCE (21 R355, R358, R363) -/

/-- An operator names no territory, and reads every counter of the device. -/
theorem exec_counters_device {first count : Nat} (ho : s.operator h = true) (hl : 1 ≤ count) (hu : first + count ≤ 21) :
    exec (.counters h first count) s =
      .next ((s.accept h true).startReading h 0x0060 (allTiles.flatMap (tileProbes first count) ++ devProbes first count)) := by
  have ht : h.terr = 0xFFFF := by
    rw [State.operator, Bool.and_eq_true, beq_iff_eq] at ho
    exact ho.1
  have hall : (s.accept h true).counterProbes h first count = allTiles.flatMap (tileProbes first count) ++ devProbes first count := if_pos ht
  simp only [exec_counters, execCounters, ← hall]
  refine State.runCmd_later (f := fun s => s.startReading h 0x0060 (s.counterProbes h first count)) hm ?_ ?_ ?_
  · simp [ho]
  · simp [ht]
  · refine if_neg ?_
    simp only [ht, decide_true, if_true]
    omega

theorem exec_counters_territory {first count : Nat} (ht : h.terr ≠ 0xFFFF) (ho : (s.ownTerr h).isSome = true) (hl : 1 ≤ count)
    (hu : first + count ≤ 16) : exec (.counters h first count) s =
      .next ((s.accept h true).startReading h 0x0060 ((s.inOrder h.terr).flatMap (fun t => .place t :: tileProbes first count t))) := by
  have hown : (s.accept h true).counterProbes h first count = (s.inOrder h.terr).flatMap (fun t => .place t :: tileProbes first count t) := if_neg ht
  simp only [exec_counters, execCounters, ← hown]
  refine State.runCmd_later (f := fun s => s.startReading h 0x0060 (s.counterProbes h first count)) hm ?_ (fun _ => ho) ?_
  · simp [ht]
  · refine if_neg ?_
    simp only [ht, decide_false, Bool.false_eq_true, if_false]
    omega

theorem exec_telemetry_samples :
    exec (.telemetry h) s = .next ((s.accept h true).startReading h 0x0061 (.sample :: (List.finRange 32).map .island)) := by
  rw [exec_telemetry]
  exact State.runCmd_laterNoTerr (f := fun s => s.startReading h 0x0061 telemetryProbes) hm rfl rfl

section
variable {x y : Nat} (ho : s.opsAdmits h.sess = true)
include ho

theorem exec_fenceTile_fences {t : TileId} (ht : tileXY x y = some t) (hf : (s.tiles[t]).isFree = true) : exec (.fenceTile h x y) s =
    .next (((s.abandon t).modTile t (fun x => { x with fenced := true, fencedAt := some s.now })).ran h 0x0062 .empty) := by
  rw [exec_fenceTile]
  refine State.runCmd_doneNoTerr hm ?_ ?_
  · simp only [ho, ht, Option.all_some, hf, Bool.and_self]
  · simp only [ht]
    rfl

theorem exec_fenceTile_nowhere (ht : tileXY x y = none) : exec (.fenceTile h x y) s = .next (s.respond h 0x0062 6 .empty) := by
  rw [exec_fenceTile]
  refine State.runCmd_badNoTerr hm ?_ ?_
  · simp [ho, ht]
  · simp only [ht]

end

theorem exec_unknownCommand_answers {code : Nat} : exec (.unknownCommand h code) s = .next (s.respond h code 3 .empty) := by
  obtain ⟨x, hx, hi, hb, hf, hq, -⟩ := hm
  rw [exec_unknownCommand, execUnknownCommand]
  simp [hx, hi, hb, hf, hq]

end

/-! ### Pieces of a response (21 R355) -/

section
variable {s : State} {r : Reading} {k n : Nat} {p : Probe} (hr : s.readings[k]? = some r)
  (hp : r.todo.find? (fun e => e.1 == n) = some (n, p))
include hr hp

/-- A response of which piece `n` has been read. -/
def State.afterPiece (s : State) (r : Reading) (n : Nat) (p : Probe) : Reading :=
  { r with todo := r.todo.filter (fun e => e.1 != n), got := r.got ++ [(n, s.probe p)] }

theorem State.readPiece_more (ht : (s.afterPiece r n p).todo ≠ []) :
    s.readPiece k n = { s with stepNo := s.stepNo + 1, readings := s.readings.set k (s.afterPiece r n p) } := by
  have hmore : (s.afterPiece r n p).todo.isEmpty = false := by simpa using ht
  simp only [State.readPiece, hr, hp]
  exact if_neg (Bool.eq_false_iff.1 hmore)

theorem State.readPiece_last (ht : (s.afterPiece r n p).todo = []) :
    s.readPiece k n = (State.respond { s with stepNo := s.stepNo + 1, readings := s.readings.eraseIdx k } r.h r.code 0
      (.bytes (s.afterPiece r n p).body)).idle r.h.sess := by
  have hlast : (s.afterPiece r n p).todo.isEmpty = true := by simpa using ht
  simp only [State.readPiece, hr, hp]
  exact if_pos hlast

end

theorem mem_tileProbes {first count : Nat} {t : TileId} {i : Fin 16} :
    .tile t i ∈ tileProbes first count t ↔ first ≤ i.val ∧ i.val < first + count := by
  simp [tileProbes]

theorem mem_devProbes {first count : Nat} {j : Fin 5} :
    .dev j ∈ devProbes first count ↔ first ≤ j.val + 16 ∧ j.val + 16 < first + count := by
  simp [devProbes]

theorem State.probe_sample_length (s : State) : (s.probe .sample).length = 32 := by
  simp [State.probe, leBytes_length]

theorem State.probe_island_length (s : State) (l : Fin 32) : (s.probe (.island l)).length = 16 := by
  simp [State.probe, leBytes_length]

/-! ### The end of FWACTIVATE (17 R321) -/

/-- The response goes out, and the device resets with its banks' roles exchanged. -/
theorem State.updated_activating {s : State} {g : Hdr} (hg : s.dev.activating = some g) : s.updated =
    State.rebooted { State.respond { s with sessions := [] } g 0x0071 0 .empty with dev := { s.dev with primary := 1 - s.dev.primary } } := by
  simp only [State.updated, hg]
  rfl

/-- Settles O40: the debug words on one slice, the operator's commands by their limits, a response piece by piece, and the reset at the end. -/
theorem debugAndOperatorCommands : Obligations.DebugAndOperatorCommands := by
  unfold Obligations.DebugAndOperatorCommands
  refine ⟨fun s h sl pos off first count x y code wr bytes force hm => ⟨fun z ht ha hz => ?_, fun ho => ?_,
      exec_counters_territory hm, exec_telemetry_samples hm, fun t ho ht => exec_fenceTile_fences hm ho ht, exec_fenceTile_nowhere hm,
      exec_unknownCommand_answers hm⟩,
    fun s r k n p hr hp => ⟨State.readPiece_more hr hp, State.readPiece_last hr hp⟩,
    fun s t i j l first count => ⟨rfl, rfl, mem_tileProbes, mem_devProbes, s.probe_sample_length, s.probe_island_length l⟩,
    fun s g hg => ?_⟩
  · have hmt : s.MayRunOn h := ⟨hm, ht⟩
    exact ⟨exec_debugClaim_claims hmt ha hz, exec_debugRelease_resumes hmt ha hz, exec_debugHalt_halts hmt ha hz, exec_debugGo_goes hmt ha hz,
      exec_debugStep_halted hmt ha hz, exec_debugStep_running hmt hz, exec_debugRead_reads hmt ha hz,
      fun c => exec_debugWrite_register hmt ha hz⟩
  · exact ⟨exec_fwwrite_writes hm ho, exec_fwactivate_activates hm ho, exec_fwactivate_refused hm ho, exec_fwactivate_unforced hm ho,
      ⟨exec_fwcommit_same hm ho, exec_fwcommit_raises hm ho, exec_fwcommit_tooHigh hm ho⟩, exec_counters_device hm ho⟩
  · rw [State.updated_activating hg]
    exact ⟨rfl, rfl, rfl, rfl, rfl, rfl, rfl, rfl, rfl⟩

end Sys2Proof.Machine
end

section
/-! PROOFS. Sessions, receipts, the endpoint table and the interface registers (17 R322 to R333). -/

namespace Sys2Proof.Machine

open Sys2Proof

/-! ### OPEN, RECEIPT, CLOSE and EVLOG (17 R322 to R327) -/

theorem exec_openSession_opens {s : State} {h : Hdr} {fa : BitVec 128} {nonce : List Byte} (hb : s.dev.bootFail = false)
    (hn : s.findSession h.sess = none) (hf : h.formed = true) (hl : nonce.length = 32) (hq : h.seq = 0) (hs : s.secureOk h = true) :
    exec (.openSession h fa nonce) s = .next (State.respond { s with sessions := s.sessions ++ [newSession h.sess fa nonce] } h 0x0001 0
      (.bytes (digestBytes devid ++ digestBytes s.fwmeas))) := by
  rw [exec_openSession, execOpenSession]
  simp [hb, hn, hf, hl, hq, hs]

/-- The events that EVLOG answers, each under its number. -/
def Session.eventsFrom (x : Session) (first count : Nat) : List (Nat × ChainEvent) :=
  (x.log.zipIdx.map (fun e => (x.evBase + e.2, e.1))).filter (fun e => decide (first ≤ e.1) && decide (e.1 < first + count))

/-- Those of the range that exist. -/
theorem Session.mem_eventsFrom {x : Session} {first count n : Nat} {e : ChainEvent} :
    (n, e) ∈ x.eventsFrom first count ↔ x.evBase ≤ n ∧ x.log[n - x.evBase]? = some e ∧ first ≤ n ∧ n < first + count := by
  simp only [Session.eventsFrom, List.mem_filter, List.mem_map, Prod.mk.injEq, Prod.exists, List.mem_zipIdx_iff_getElem?, Bool.and_eq_true,
    decide_eq_true_eq]
  constructor
  · rintro ⟨⟨e', i, hi, rfl, rfl⟩, hrange⟩
    rw [Nat.add_sub_cancel_left]
    exact ⟨Nat.le_add_right _ _, hi, hrange⟩
  · rintro ⟨hle, he, hrange⟩
    exact ⟨⟨e, n - x.evBase, he, Nat.add_sub_cancel' hle, rfl⟩, hrange⟩

section
variable {s : State} {h : Hdr} (hm : s.MayRun h)
include hm

theorem exec_receipt_signs : exec (.receipt h) s =
    .next (s.countReceipt.ran h 0x0003 (.bytes (s.receiptBytes (s.session! h.sess) false))) := by
  rw [exec_receipt]
  exact State.runCmd_doneNoTerr hm rfl rfl

/-- A session that owns no territory ends with its last receipt. -/
theorem exec_close_ends (ho : s.ownsNone h = true) : exec (.close h) s =
    .next (State.ran { s.countReceipt with sessions := s.sessions.filter (fun x => x.id != h.sess) } h 0x0002
      (.bytes (s.receiptBytes (s.session! h.sess) true))) := by
  rw [exec_close]
  exact State.runCmd_doneNoTerr hm ho rfl

theorem exec_evlog_answers {first count : Nat} : exec (.evlog h first count) s =
    .next (s.ran h 0x0004 (.events ((s.session! h.sess).eventsFrom first count))) := by
  rw [exec_evlog]
  exact State.runCmd_doneNoTerr hm rfl rfl

/-! ### The endpoint table (17 R323) -/

section
variable {idx job : Nat} {fa : BitVec 128} {ports : BitVec 8}

theorem exec_epadd_padded (hp : h.pad ≠ 0) : exec (.epadd h idx fa job ports) s = .next (s.respond h 0x0005 6 .empty) := by
  rw [exec_epadd]
  exact State.runCmd_badNoTerr hm rfl (if_pos (.inl hp))

theorem exec_epdel_padded (hp : h.pad ≠ 0) (hu : s.epInUse h.sess idx = false) : exec (.epdel h idx) s = .next (s.respond h 0x0006 6 .empty) := by
  rw [exec_epdel]
  refine State.runCmd_badNoTerr hm ?_ ?_
  · simp [hu]
  · exact if_pos (.inl hp)

variable (hp : h.pad = 0) (hl : 1 ≤ idx) (hu : idx ≤ 4095)
include hp hl hu

/-- An empty entry is filled. -/
theorem exec_epadd_fills (hj : job < 2 ^ 24) (he : (s.session! h.sess).endpoint idx = none) : exec (.epadd h idx fa job ports) s =
    .next ((s.modSession h.sess (fun x => { x with eps := x.eps ++ [(idx, { fa := fa, job := job, ports := ports })] })).ran h 0x0005 .empty) := by
  rw [exec_epadd]
  refine State.runCmd_doneNoTerr hm rfl ?_
  refine if_neg ?_
  simp only [he, Option.isSome_none, Bool.false_eq_true, or_false]
  omega

/-- A full one that nothing uses is emptied. -/
theorem exec_epdel_empties (he : ((s.session! h.sess).endpoint idx).isSome = true) (hn : s.epInUse h.sess idx = false) :
    exec (.epdel h idx) s =
      .next ((s.modSession h.sess (fun x => { x with eps := x.eps.filter (fun e => e.1 != idx) })).ran h 0x0006 .empty) := by
  have hfull : ((s.session! h.sess).endpoint idx).isNone = false := by
    rw [← Option.not_isSome, he]
    rfl
  rw [exec_epdel]
  refine State.runCmd_doneNoTerr hm ?_ ?_
  · simp [hn]
  · refine if_neg ?_
    simp only [hfull, Bool.false_eq_true, or_false]
    omega

end

/-! ### The interface registers (17 R330, R333) -/

section
variable {reg : Nat} {v : Word}

/-- In ERROR, also once the territory is gone, every write is refused. -/
theorem exec_ifWrite_inError (he : (s.findTerr h.terr).any (fun y => y.iface.st == IfState.error) = true ∨
    s.ghosts.any (fun g => g.terr == h.terr) = true) : exec (.ifWrite h reg v) s = .next (s.respond h 0x0051 4 .empty) := by
  rw [exec_ifWrite]
  refine State.runCmd_wrongState hm ?_
  obtain he | he := he
  · rw [he]
    rfl
  · rw [he, Bool.not_true, Bool.and_false]

variable (ho : (s.ownTerr h).isSome = true)
include ho

theorem exec_ifRead_reads (hr : reg < 9) : exec (.ifRead h reg) s = .next (s.ran h 0x0050 (.words [(s.terr! h.terr).iface.regs[reg]])) := by
  rw [exec_ifRead]
  exact State.runCmd_done hm rfl (fun _ => ho) (dif_pos hr)

omit hm in
/-- The state that IF_WRITE needs: no interface in ERROR has the number. -/
theorem State.notInError (he : (s.terr! h.terr).iface.st ≠ .error) (hg : ∀ g ∈ s.ghosts, g.terr ≠ h.terr) :
    (!(s.findTerr h.terr).any (fun y => y.iface.st == IfState.error) && !s.ghosts.any (fun g => g.terr == h.terr)) = true := by
  have hghost : s.ghosts.any (fun g => g.terr == h.terr) = false := by simpa using hg
  rw [hghost]
  cases hf : s.findTerr h.terr with
  | none =>
    rw [State.ownTerr, hf] at ho
    cases ho
  | some y =>
    rw [State.terr!, hf, Option.getD_some] at he
    simp [he]

variable (hw : s.ifWritable h.terr reg v = true) (he : (s.terr! h.terr).iface.st ≠ .error) (hg : ∀ g ∈ s.ghosts, g.terr ≠ h.terr)
include hw he hg

/-- A write to a register that the lock fixes sends the interface to ERROR. -/
theorem exec_ifWrite_fixed (hx : s.ifFixed h.sess h.terr = true) :
    exec (.ifWrite h reg v) s = .next (((s.accept h true).respond h 0x0051 4 .empty).ifError h.terr) := by
  rw [exec_ifWrite]
  refine State.runCmd_later (f := fun s => (s.respond h 0x0051 4 .empty).ifError h.terr) hm ?_ (fun _ => ho) ?_
  · exact State.notInError ho he hg
  · exact (if_neg (by rw [hw]; decide)).trans (if_pos hx)

theorem exec_ifWrite_writes (hr : reg < 9) (hx : s.ifFixed h.sess h.terr = false) : exec (.ifWrite h reg v) s =
    .next ((s.modTerr h.terr (fun y => { y with iface := { y.iface with regs := y.iface.regs.set reg v } })).ran h 0x0051 .empty) := by
  rw [exec_ifWrite]
  refine State.runCmd_done hm ?_ (fun _ => ho) ?_
  · exact State.notInError ho he hg
  · exact (if_neg (by rw [hw]; decide)).trans ((if_neg (by rw [hx]; decide)).trans (dif_pos hr))

end

end

/-- Settles O41: the session's records, the endpoint table by its entries, and a register by the state of its interface. -/
theorem sessionCommands : Obligations.SessionCommands := by
  unfold Obligations.SessionCommands
  intro s h fa nonce first count idx job reg ports v
  refine ⟨exec_openSession_opens, fun hm => ⟨exec_receipt_signs hm, exec_close_ends hm,
    ⟨_, exec_evlog_answers hm, fun n e => Session.mem_eventsFrom⟩, exec_epadd_fills hm,
    fun hp => ⟨exec_epadd_padded hm hp, exec_epdel_padded hm hp⟩, exec_epdel_empties hm, exec_ifWrite_inError hm,
    fun ho => ⟨exec_ifRead_reads hm ho,
      fun hw he hg => ⟨exec_ifWrite_fixed hm ho hw he hg, fun hr => exec_ifWrite_writes hm ho hw he hg hr⟩⟩⟩⟩

end Sys2Proof.Machine
end

section
/-! PROOFS. SPDM and TDISP requests (17 R319, R331 to R334). -/

namespace Sys2Proof.Machine

open Sys2Proof

section
variable {s : State} {sess terr : Nat} {nonce : List Byte} (hb : s.dev.bootFail = false)
include hb

/-! ### SPDM (17 R319, R331) -/

theorem exec_getCertificate_answers {slot : Nat} (hs : slot ≤ 1) :
    exec (.getCertificate sess slot) s = .next (s.spdmSay sess 0x02 (Config.certificate slot)) := by
  rw [exec_getCertificate, execGetCertificate, if_neg]
  simp [hb, hs]

theorem exec_challenge_signs (hl : nonce.length = 32) : exec (.challenge sess nonce) s = .next ((s.spdmSay sess 0x03 s.spdmSigs).tick) := by
  rw [exec_challenge, execChallenge, if_neg]
  simp [hb, hl]

/-- A measurement that exists is answered with both signatures. -/
theorem exec_getMeasurements_answers {index : Nat} {m : List Byte} (hm : s.measurement index = some m) :
    exec (.getMeasurements sess index) s = .next ((s.spdmSay sess 0x60 (m ++ s.spdmSigs)).tick) := by
  simp only [exec_getMeasurements, execGetMeasurements, hm, hb]
  rfl

omit hb in
/-- Indices from 0x10 on measure the interfaces. -/
theorem State.measurement_iface {index o : Nat} {i : Iface} (hl : 0x10 ≤ index) (hu : index < 0x50) (hi : s.ifaceOf (index - 0x10) = some (o, i)) :
    s.measurement index = some (digestBytes (sha3 (s.ifReport (index - 0x10) i))) := by
  rw [State.measurement, if_neg (by omega), if_neg (by omega), if_pos ⟨hl, hu⟩, hi]
  rfl

theorem exec_spdmSessionStart_starts (hn : sess ∉ s.dev.spdm) : exec (.spdmSessionStart { sess := sess, algs := c9Algs }) s =
    .next { s with dev := { s.dev with spdm := s.dev.spdm ++ [sess] } } := by
  have hnew : s.dev.spdm.contains sess = false := by simpa using hn
  simp only [exec_spdmSessionStart, execSpdmSessionStart, hb, hnew]
  rfl

omit hb in
/-- A requester that does not offer the C9's algorithms. -/
theorem exec_spdmSessionStart_refuses {algs : SpdmAlgs}
    (ha : algs.hash ≠ .sha3_384 ∨ algs.sig ≠ .ed25519WithMlDsa65 ∨ algs.dhe ≠ .secp384r1 ∨ algs.aead ≠ .aes256Gcm) :
    exec (.spdmSessionStart { sess := sess, algs := algs }) s = .next (s.spdmSay sess 0x7F []) := by
  have hne : algs ≠ c9Algs := by
    rintro rfl
    simp [c9Algs] at ha
  rw [exec_spdmSessionStart, execSpdmSessionStart, if_pos]
  · rfl
  · simp [hne]

/-- A secure session without a locked or running interface just ends. -/
theorem exec_spdmSessionEnd_ends (hn : ∀ y ∈ s.terrs, y.sess = sess → y.iface.st ≠ .locked ∧ y.iface.st ≠ .run) :
    exec (.spdmSessionEnd sess) s = .next { s with dev := { s.dev with spdm := s.dev.spdm.filter (· != sess) } } := by
  have hnone : s.terrs.filter (fun y => y.sess == sess && (y.iface.st == IfState.locked || y.iface.st == IfState.run)) = [] := by
    simpa [List.filter_eq_nil_iff] using hn
  simp only [exec_spdmSessionEnd, execSpdmSessionEnd, hb, hnone]
  rfl

/-! ### TDISP inside the secure session (17 R332) -/

section
variable (ho : s.dev.spdm.contains sess = true)
include ho

theorem State.tdispOpen_of_secure : s.tdispOpen sess = true := by simp only [State.tdispOpen, ho, hb, Bool.not_false, Bool.and_self]

theorem exec_getDeviceInterfaceReport_reports {i : Iface} (hi : s.ifaceOf terr = some (sess, i)) :
    exec (.getDeviceInterfaceReport sess terr) s = .next (s.tdispSay sess 0x84 true (s.ifReport terr i)) := by
  simp only [exec_getDeviceInterfaceReport, execGetDeviceInterfaceReport, hi, State.tdispOpen_of_secure hb ho, beq_self_eq_true]
  rfl

theorem exec_lockInterfaceRequest_locks {y : Terr} (hy : s.findTerr terr = some y) (hs : y.sess = sess) (hm : s.mayLock y = true) :
    exec (.lockInterfaceRequest sess terr) s = .next (s.lockIface y) := by
  simp only [exec_lockInterfaceRequest, execLockInterfaceRequest, hy, State.tdispOpen_of_secure hb ho, hs, hm, beq_self_eq_true]
  rfl

section
variable (hl : s.ifIs sess terr [.locked] = true)
include hl

theorem exec_startInterfaceRequest_runs (hn : nonce = (s.terr! terr).iface.nonce) : exec (.startInterfaceRequest sess terr nonce) s =
    .next ((s.modTerr terr (fun y => { y with iface := { y.iface with st := .run } })).tdispSay sess 0x86 true []) := by
  rw [exec_startInterfaceRequest, execStartInterfaceRequest, State.tdispOpen_of_secure hb ho, hl, if_pos hn.symm]
  rfl

/-- A start nonce that is not the lock's. -/
theorem exec_startInterfaceRequest_errs (hn : nonce ≠ (s.terr! terr).iface.nonce) :
    exec (.startInterfaceRequest sess terr nonce) s = .next ((s.tdispSay sess 0x86 false []).ifError terr) := by
  rw [exec_startInterfaceRequest, execStartInterfaceRequest, State.tdispOpen_of_secure hb ho, hl, if_neg hn.symm]
  rfl

end

/-- A stop ends the slices as DISSOLVE does. -/
theorem exec_stopInterfaceRequest_stops (hl : s.ifIs sess terr [.locked, .run] = true) (he : s.inError sess terr = false) :
    exec (.stopInterfaceRequest sess terr) s = .next ((State.endSlices ((s.modTerr terr (fun y => { y with
      dying := some { how := .dissolved, reply := none, stop := some sess, stays := true } })).forceLaunches terr 5) terr .dissolved).tryDissolve terr) := by
  simp only [exec_stopInterfaceRequest, execStopInterfaceRequest, hb, he, State.tdispOpen_of_secure hb ho, hl]
  rfl

end

/-! ### STOP in ERROR (17 R333) -/

section
variable (he : s.inError sess terr = true)
include he

/-- The territory is gone: its interface leaves ERROR at once. -/
theorem exec_stopInterfaceRequest_gone (hf : s.findTerr terr = none) : exec (.stopInterfaceRequest sess terr) s =
    .next (State.tdispSay { s with ghosts := s.ghosts.filter (fun g => g.terr != terr) } sess 0x87 true []) := by
  simp only [exec_stopInterfaceRequest, execStopInterfaceRequest, hb, he, hf]
  rfl

/-- The territory still ends: the answer waits for it. -/
theorem exec_stopInterfaceRequest_waits (hf : (s.findTerr terr).isSome = true) : exec (.stopInterfaceRequest sess terr) s =
    .next (s.modTerr terr (fun y => { y with dying := y.dying.map (fun d => { d with stop := some sess }) })) := by
  simp only [exec_stopInterfaceRequest, execStopInterfaceRequest, hb, he, hf]
  rfl

end

end

/-- A lock answers with its start nonce of 32 bytes. -/
theorem State.lockIface_nonce (s : State) (y : Terr) :
    ∃ n : List Byte, n.length = 32 ∧ (s.lockIface y).outbox = s.outbox ++ [.tdisp y.sess 0x83 true n] :=
  ⟨_, leBytes_length 32 _, rfl⟩

/-- Settles O42: each request by what it asks and the state of its interface. -/
theorem attestationRequests : Obligations.AttestationRequests := by
  unfold Obligations.AttestationRequests
  intro s sess terr slot index nonce hb
  refine ⟨exec_getCertificate_answers hb, exec_challenge_signs hb, exec_getMeasurements_answers hb rfl, exec_getMeasurements_answers hb rfl,
    fun o i hl hu hi => exec_getMeasurements_answers hb (State.measurement_iface hl hu hi), exec_spdmSessionStart_starts hb,
    fun algs => exec_spdmSessionStart_refuses, exec_spdmSessionEnd_ends hb,
    fun ho => ⟨fun i => exec_getDeviceInterfaceReport_reports hb ho, fun y hy hs hm => ⟨exec_lockInterfaceRequest_locks hb ho hy hs hm, ?_⟩,
      fun hl => ⟨exec_startInterfaceRequest_runs hb ho hl, exec_startInterfaceRequest_errs hb ho hl⟩, exec_stopInterfaceRequest_stops hb ho⟩,
    fun he => ⟨exec_stopInterfaceRequest_gone hb he, exec_stopInterfaceRequest_waits hb he⟩⟩
  rw [← hs]
  exact s.lockIface_nonce y

end Sys2Proof.Machine
end

section
/-! PROOFS. Host RMA, errors, power, Parallax streams and the reset (16 R292, 17 R320, 20 R347, R350, 21 R354 to R362). -/

namespace Sys2Proof.Machine

open Sys2Proof

/-! ### Host RMA (16 R292) -/

section
variable {s : State} {sess terr va : Nat}

section
variable {bytes : List Byte} (ha : s.rmaAllowed sess terr va bytes.length = true) (hc : s.checkpointing terr = false) (hb : bytes ≠ [])
include ha hc hb

theorem exec_rmaWrite_writes {t : State} (hw : s.writeHbm terr va bytes = .ok t) :
    exec (.rmaWrite sess terr va bytes) s = .next (t.rmaSay sess true []) := by
  simp [execRmaWrite, ha, hc, hb, hw]

theorem exec_rmaWrite_fails {tr : TrapRec} (hw : s.writeHbm terr va bytes = .error tr) :
    exec (.rmaWrite sess terr va bytes) s = .next (s.rmaSay sess false []) := by
  simp [execRmaWrite, ha, hc, hb, hw]

end

section
variable {len : Nat}

theorem exec_rmaRead_refused (ha : s.rmaAllowed sess terr va len = false) : exec (.rmaRead sess terr va len) s = .next (s.rmaSay sess false []) := by
  simp [execRmaRead, ha]

variable (ha : s.rmaAllowed sess terr va len = true)
include ha

theorem exec_rmaRead_reads {bs : List Byte} (hr : s.readHbm terr va len = .ok bs) :
    exec (.rmaRead sess terr va len) s = .next (s.rmaSay sess true bs) := by
  simp [execRmaRead, ha, hr]

theorem exec_rmaRead_fails {tr : TrapRec} (hr : s.readHbm terr va len = .error tr) :
    exec (.rmaRead sess terr va len) s = .next (s.rmaSay sess false []) := by
  simp [execRmaRead, ha, hr]

end

end

/-! ### Errors (21 R354, R357) -/

section
variable (s : State) (page cor unc : Nat)

/-- The receipts of sessions count too; the device's counters are those of the two bumps. -/
theorem State.hbmErrors_dev : (s.hbmErrors page cor unc).dev = ((s.bumpDev 0 cor).bumpDev 1 unc).dev := by
  refine State.foldl_keeps (get := State.dev) ?_ _ _
  exact fun _ _ => rfl

theorem State.hbmErrors_corrected : (s.hbmErrors page cor unc).dev.ctr[0] = s.dev.ctr[0] + BitVec.ofNat 64 cor := by
  rw [State.hbmErrors_dev]
  show (vset (vset s.dev.ctr (0 : Fin 5) (s.dev.ctr[0] + BitVec.ofNat 64 cor)) (1 : Fin 5) _)[(0 : Fin 5)] = _
  rw [vset_ne _ _ (by decide), vset_self]

theorem State.hbmErrors_uncorrectable : (s.hbmErrors page cor unc).dev.ctr[1] = s.dev.ctr[1] + BitVec.ofNat 64 unc := by
  rw [State.hbmErrors_dev]
  show (vset (vset s.dev.ctr (0 : Fin 5) _) (1 : Fin 5) ((vset s.dev.ctr (0 : Fin 5) _)[(1 : Fin 5)] + BitVec.ofNat 64 unc))[(1 : Fin 5)] = _
  rw [vset_self, vset_ne _ _ (by decide)]
  rfl

theorem exec_patrolScrub_finds (h : s.dev.scrub ≠ 0) : exec (.patrolScrub page cor unc) s = .next (s.hbmErrors page cor unc) := if_neg h

end

/-! ### Power windows (21 R360, R361) -/

/-- An island after a step down of its clock, which has a lowest value. -/
def Island.steppedDown (x : Island) : Island := { x with clk := if 8 < x.clk then x.clk - 1 else x.clk }

section
variable (s : State) (i : Fin 32)

/-- A step down changes only the device's record. -/
theorem State.stepDown_onlyDev : s.stepDown i = { s with dev := (s.stepDown i).dev } := by
  unfold State.stepDown
  split <;> rfl

@[simp] theorem State.stepDown_module16 : (s.stepDown i).dev.module16 = s.dev.module16 := by
  unfold State.stepDown
  split <;> rfl

theorem State.stepDown_isl_self : (s.stepDown i).dev.isl[i] = (s.dev.isl[i]).steppedDown := by
  by_cases h : 8 < (s.dev.isl[i]).clk
  · rw [State.stepDown, if_pos h, Island.steppedDown, if_pos h]
    exact vset_self _ _ _
  · rw [State.stepDown, if_neg h, Island.steppedDown, if_neg h]

theorem State.stepDown_isl_ne {j : Fin 32} (h : j ≠ i) : (s.stepDown i).dev.isl[j] = s.dev.isl[j] := by
  unfold State.stepDown
  split
  · exact vset_ne _ _ h
  · rfl

end

section
variable (s : State)

theorem State.foldl_stepDown_onlyDev (l : List (Fin 32)) : l.foldl State.stepDown s = { s with dev := (l.foldl State.stepDown s).dev } := by
  induction l generalizing s with
  | nil => rfl
  | cons i l ih =>
    rw [List.foldl_cons]
    refine (ih _).trans ?_
    rw [s.stepDown_onlyDev i]

theorem State.foldl_stepDown_isl_ne {l : List (Fin 32)} {j : Fin 32} (h : j ∉ l) : (l.foldl State.stepDown s).dev.isl[j] = s.dev.isl[j] := by
  induction l generalizing s with
  | nil => rfl
  | cons i l ih =>
    rw [List.mem_cons, not_or] at h
    rw [List.foldl_cons, ih _ h.2, State.stepDown_isl_ne _ _ h.1]

/-- Every listed island takes one step. -/
theorem State.foldl_stepDown_isl {l : List (Fin 32)} (hn : l.Nodup) {j : Fin 32} (h : j ∈ l) :
    (l.foldl State.stepDown s).dev.isl[j] = (s.dev.isl[j]).steppedDown := by
  induction l generalizing s with
  | nil => cases h
  | cons i l ih =>
    obtain ⟨hi, hn⟩ := List.nodup_cons.1 hn
    rw [List.foldl_cons]
    obtain rfl | hl := List.mem_cons.1 h
    · rw [State.foldl_stepDown_isl_ne _ hi, State.stepDown_isl_self]
    · rw [ih _ hn hl, State.stepDown_isl_ne _ _ (by rintro rfl; exact hi hl)]

end

/-- The powers of a window that ends are noted. -/
def State.measured (s : State) (i : Fin 32) (watts16 module16 : Nat) : State :=
  let s0 := s.modIsland i (fun x => { x with watts16 := watts16 })
  { s0 with dev := { s0.dev with module16 := module16 } }

section
variable {s : State} {i : Fin 32} {w m : Nat}

theorem State.measured_isl_self : (s.measured i w m).dev.isl[i] = { s.dev.isl[i] with watts16 := w } := vset_self _ _ _

/-- Only the measured power of the island changes. -/
theorem State.measured_clk (j : Fin 32) : ((s.measured i w m).dev.isl[j]).clk = (s.dev.isl[j]).clk := by
  by_cases h : j = i
  · rw [h, State.measured_isl_self]
  · exact congrArg Island.clk (vset_ne _ _ h)

/-- The state after a window, by what the module and the island measured against their caps. -/
def State.afterWindow (s : State) (i : Fin 32) (w m : Nat) : State :=
  let s1 := s.measured i w m
  let cap := 16 * s.dev.islandcap[i]
  if 16 * s.dev.modcap < m then
    if s.dev.modWin = some (s.now / 17000) then s1
    else (List.finRange 32).foldl State.stepDown { s1 with dev := { s1.dev with modWin := some (s.now / 17000) } }
  else if cap < w then s1.stepDown i
  else if 10 * w < 9 * cap then s1.modIsland i (fun x => { x with clk := min 16 (x.clk + 1) })
  else s1

theorem exec_islandPowerWindow_after : exec (.islandPowerWindow i w m) s = .next (s.afterWindow i w m) := by
  rw [exec_islandPowerWindow]
  unfold execIslandPowerWindow State.afterWindow
  dsimp only
  (repeat' split) <;> rfl

theorem State.afterWindow_onlyDev : s.afterWindow i w m = { s with dev := (s.afterWindow i w m).dev } := by
  unfold State.afterWindow
  dsimp only
  split
  · split
    · rfl
    · exact State.foldl_stepDown_onlyDev _ _
  · split
    · exact State.stepDown_onlyDev _ _
    · split <;> rfl

theorem State.afterWindow_module16 : (s.afterWindow i w m).dev.module16 = m := by
  unfold State.afterWindow
  dsimp only
  split
  · split
    · rfl
    · exact State.foldl_keeps (get := fun s => s.dev.module16) (fun s i => s.stepDown_module16 i) _ _
  · split
    · exact State.stepDown_module16 _ _
    · split <;> rfl

theorem State.afterWindow_watts16 : ((s.afterWindow i w m).dev.isl[i]).watts16 = w := by
  have h0 : ((s.measured i w m).dev.isl[i]).watts16 = w := congrArg Island.watts16 State.measured_isl_self
  unfold State.afterWindow
  dsimp only
  split
  · split
    · exact h0
    · rw [State.foldl_stepDown_isl _ (List.nodup_finRange 32) (List.mem_finRange i)]
      exact h0
  · split
    · rw [State.stepDown_isl_self]
      exact h0
    · split
      · exact (congrArg Island.watts16 (vset_self _ _ _)).trans h0
      · exact h0

/-- Above the module's cap every island steps down, once in a window. -/
theorem State.afterWindow_module (hm : 16 * s.dev.modcap < m) (hw : s.dev.modWin ≠ some (s.now / 17000)) (j : Fin 32) :
    ((s.afterWindow i w m).dev.isl[j]).clk = if 8 < (s.dev.isl[j]).clk then (s.dev.isl[j]).clk - 1 else (s.dev.isl[j]).clk := by
  rw [State.afterWindow, if_pos hm, if_neg hw, State.foldl_stepDown_isl _ (List.nodup_finRange 32) (List.mem_finRange j)]
  show (if 8 < ((s.measured i w m).dev.isl[j]).clk then ((s.measured i w m).dev.isl[j]).clk - 1 else ((s.measured i w m).dev.isl[j]).clk) = _
  rw [State.measured_clk]

theorem State.afterWindow_moduleAgain (hm : 16 * s.dev.modcap < m) (hw : s.dev.modWin = some (s.now / 17000)) :
    ((s.afterWindow i w m).dev.isl[i]).clk = (s.dev.isl[i]).clk := by
  rw [State.afterWindow, if_pos hm, if_pos hw, State.measured_clk]

section
variable (hm : m ≤ 16 * s.dev.modcap)
include hm

theorem State.afterWindow_over (hw : 16 * s.dev.islandcap[i] < w) (hc : 8 < (s.dev.isl[i]).clk) :
    ((s.afterWindow i w m).dev.isl[i]).clk = (s.dev.isl[i]).clk - 1 := by
  have hclk := State.measured_clk (s := s) (i := i) (w := w) (m := m) i
  rw [State.afterWindow, if_neg hm.not_gt, if_pos hw, State.stepDown_isl_self, Island.steppedDown]
  dsimp only
  rw [hclk, if_pos hc]

theorem State.afterWindow_under (hw : 10 * w < 9 * (16 * s.dev.islandcap[i])) :
    ((s.afterWindow i w m).dev.isl[i]).clk = min 16 ((s.dev.isl[i]).clk + 1) := by
  rw [State.afterWindow, if_neg hm.not_gt, if_neg (by omega), if_pos hw]
  refine (congrArg Island.clk (vset_self _ _ _)).trans ?_
  dsimp only
  rw [State.measured_clk]

end

end

/-! ### Temperatures, and the end of power (21 R362) -/

theorem exec_thermalThrottle_heats {s : State} {i : Fin 32} (h : (s.dev.isl[i]).hot = false) :
    exec (.thermalThrottle i) s = .next ((s.modIsland i (fun x => { x with hot := true })).bumpDev 4 1) := by
  rw [exec_thermalThrottle]
  exact if_neg (by rw [h]; decide)

/-- A shutdown halts every core that runs a slice. -/
theorem exec_thermalShutdown_halts (s : State) (i : Fin 32) : ∃ t : State, exec (.thermalShutdown i) s = .next t ∧ t.dev.power = .shutdown ∧
    ∀ c : CoreId, (t.cores[c]).halted = (s.cores[c]).sl.isSome := by
  refine ⟨_, exec_thermalShutdown i s, rfl, fun c => ?_⟩
  show ((s.cores.map (fun c : Core => { c with halted := c.sl.isSome }))[c]).halted = _
  simp

/-! ### Parallax streams (20 R347, R350) -/

section
variable {s : State} {k : Nat} {p : PxIn} (hk : s.pxIn[k]? = some p)
include hk

section
variable (h0 : p.stage = 0)
include h0

/-- What a module that is not listed sends, or what no record could stand for, is refused. -/
theorem exec_parallaxStreamArrival_refuses (hr : p.fa ∉ s.dev.pxpeers ∨ s.dev.bootFail = true ∨ p.boff % 4096 ≠ 0 ∨ p.images = []) :
    exec (.parallaxStreamArrival k) s = .next (s.pxAnswer k p 1) := by
  simp only [exec_parallaxStreamArrival, execParallaxStreamArrival, hk, h0, bne_self_eq_false, Bool.false_eq_true, if_false]
  split
  · rfl
  · next hn =>
    obtain hr | hr | hr | hr := hr
    · exact absurd (by simp [hr]) hn
    · exact absurd (by simp [hr]) hn
    · exact absurd (by simp [hr]) hn
    · simp [hr]

variable {last : Image} (hp : p.fa ∈ s.dev.pxpeers) (hb : s.dev.bootFail = false) (ho : p.boff % 4096 = 0) (hl : p.images.getLast? = some last)
include hp hb ho hl

theorem exec_parallaxStreamArrival_tooBig (hr : s.storeBytes < (s.streamImage p last).off + 4096 + (s.streamImage p last).len) :
    exec (.parallaxStreamArrival k) s = .next (s.pxAnswer k p 3) := by
  simp [execParallaxStreamArrival, hk, h0, hp, hb, ho, hl, hr]

/-- One that fits begins by zeroing the record at its offset. -/
theorem exec_parallaxStreamArrival_begins (hr : (s.streamImage p last).off + 4096 + (s.streamImage p last).len ≤ s.storeBytes) :
    exec (.parallaxStreamArrival k) s =
      .next { s.zeroRecord p.boff with pxIn := (s.zeroRecord p.boff).pxIn.set k { p with stage := 1 } } := by
  simp [execParallaxStreamArrival, hk, h0, hp, hb, ho, hl, Nat.not_lt.2 hr]

end

variable {last : Image} (hl : p.images.getLast? = some last)
include hl

section
variable (h1 : p.stage = 1)
include h1

/-- The bytes are written, and the record then has still to come. -/
theorem State.pxStep_writes (hw : p.whole = true) :
    let im := s.streamImage p last
    let s1 := s.overwrite (p.boff + 4096) im.bytes
    s.pxStep k = some { s1 with pxIn := s1.pxIn.set k { p with images := [im], stage := 2 } } := by
  simp only [State.pxStep, hk, h1, hl, hw]
  rfl

/-- A stream that breaks off leaves no record. -/
theorem State.pxStep_breaks (hw : p.whole = false) :
    let s1 := s.overwrite (p.boff + 4096) (s.streamImage p last).bytes
    s.pxStep k = some { s1 with pxIn := s1.pxIn.eraseIdx k } := by
  simp only [State.pxStep, hk, h1, hl, hw]
  rfl

end

theorem State.pxStep_commits (h2 : p.stage = 2) : s.pxStep k = some ((s.commitImage last).pxAnswer k p 0) := by
  simp only [State.pxStep, hk, h2, hl]
  rfl

end

/-- Settles O51: each event by what it finds; a power window by the caps it meets; a stream stage by stage. -/
theorem theModuleFromOutside : Obligations.TheModuleFromOutside := by
  unfold Obligations.TheModuleFromOutside
  intro s sess terr va len k status page cor unc w m bytes i
  refine ⟨fun ha hc hb => ⟨fun t => exec_rmaWrite_writes ha hc hb, fun tr => exec_rmaWrite_fails ha hc hb⟩,
    fun ha => ⟨fun bs => exec_rmaRead_reads ha, fun tr => exec_rmaRead_fails ha⟩, exec_rmaRead_refused, exec_unsupportedPacket s,
    fun h => ⟨_, exec_patrolScrub_finds s page cor unc h, s.hbmErrors_mem page cor unc, s.hbmErrors_corrected page cor unc,
      s.hbmErrors_uncorrectable page cor unc⟩,
    ⟨_, exec_islandPowerWindow_after, State.afterWindow_onlyDev, State.afterWindow_module16, State.afterWindow_watts16,
      State.afterWindow_over, State.afterWindow_under, State.afterWindow_moduleAgain, State.afterWindow_module⟩,
    exec_thermalThrottle_heats, exec_thermalCooled i s, exec_thermalShutdown_halts s i,
    ⟨_, exec_deviceReset s, rfl, rfl, rfl, rfl, rfl, rfl, rfl, rfl, rfl, rfl, rfl, rfl⟩, exec_powerLoss s, exec_linkLoss k s,
    fun hs => (exec_parallaxAck k status s).trans (congrArg Host.Outcome.next (if_pos hs)),
    fun p hk h0 => ⟨exec_parallaxStreamArrival_refuses hk h0, fun last hp hb ho hl =>
      ⟨exec_parallaxStreamArrival_tooBig hk h0 hp hb ho hl, exec_parallaxStreamArrival_begins hk h0 hp hb ho hl⟩⟩,
    fun p last hk hl => ⟨State.pxStep_writes hk hl, State.pxStep_breaks hk hl, State.pxStep_commits hk hl⟩,
    fun tile r he => ?_, fun r he => ?_⟩
  · simp only [State.meetError, he]
  · simp only [State.meetError, he]

end Sys2Proof.Machine
end

section
/-! PROOFS. What a multiply computes: sparse and dense contents, K-blocks, one row, the rows of the data, the outliers (06 R123 to R126). -/

namespace Sys2Proof.Machine

open Sys2Proof

/-! ### Sparse lists -/

section
variable {α : Type} {d : α}

/-- Setting the entries of a sparse list in an array. -/
def setAll (a : Array α) (l : List (Nat × α)) : Array α := l.foldl (fun a p => a.setIfInBounds p.1 p.2) a

@[simp] theorem size_setAll (a : Array α) (l : List (Nat × α)) : (setAll a l).size = a.size := by
  induction l generalizing a with
  | nil => rfl
  | cons p l ih => exact (ih _).trans (by simp)

@[simp] theorem size_denseOf (n : Nat) (l : List (Nat × α)) : (denseOf d n l).size = n := (size_setAll _ l).trans (by simp)

theorem getD_setIfInBounds (a : Array α) {i j : Nat} {x : α} (h : i < a.size) : (a.setIfInBounds i x).getD j d = if i = j then x else a.getD j d := by
  by_cases e : i = j
  · simp [← e, Array.getD_eq_getD_getElem?, h]
  · simp [Array.getD_eq_getD_getElem?, Array.getElem?_setIfInBounds_ne e, e]

theorem getD_toList (a : Array α) (i : Nat) : a.toList.getD i d = a.getD i d := by simp [Array.getD_eq_getD_getElem?]

end

section
variable {α : Type} [DecidableEq α] {d : α}

/-- The sparse form of a list whose first element has key `j`. -/
def sparseFrom (d : α) (l : List α) (j : Nat) : List (Nat × α) := ((l.zipIdx j).filter (fun p => p.1 ≠ d)).map (fun p => (p.2, p.1))

theorem sparseOf_eq (l : List α) : sparseOf d l = sparseFrom d l 0 := rfl

@[simp] theorem sparseFrom_cons (x : α) (l : List α) (j : Nat) :
    sparseFrom d (x :: l) j = if x = d then sparseFrom d l (j + 1) else (j, x) :: sparseFrom d l (j + 1) := by
  by_cases h : x = d <;> simp [sparseFrom, h]

theorem sget_sparseFrom_below (l : List α) {j i : Nat} (h : i < j) : sget d (sparseFrom d l j) i = d := by
  induction l generalizing j with
  | nil => rfl
  | cons x l ih =>
    rw [sparseFrom_cons]
    split
    · exact ih (by omega)
    · rw [sget, if_neg (by omega), if_pos h]

/-- Reading the sparse form reads the list. -/
theorem sget_sparseFrom (l : List α) (j i : Nat) : sget d (sparseFrom d l j) (j + i) = l.getD i d := by
  induction l generalizing j i with
  | nil => rfl
  | cons x l ih =>
    have step (i : Nat) : sget d (sparseFrom d l (j + 1)) (j + (i + 1)) = l.getD i d := by rw [← ih, show j + (i + 1) = j + 1 + i by omega]
    rw [sparseFrom_cons]
    split
    · next hx =>
      cases i with
      | zero => rw [sget_sparseFrom_below l (by omega), hx]; rfl
      | succ i => exact step i
    · rw [sget]
      cases i with
      | zero => exact if_pos rfl
      | succ i => rw [if_neg (by omega), if_neg (by omega)]; exact step i

theorem sget_sparseOf (l : List α) (i : Nat) : sget d (sparseOf d l) i = l.getD i d := by simpa [sparseOf_eq] using sget_sparseFrom (d := d) l 0 i

/-- Setting a list's sparse form in an array of defaults leaves the list from its first key on. -/
theorem getD_setAll_sparseFrom (l : List α) (a : Array α) (j i : Nat) (hs : j + l.length ≤ a.size) (ha : ∀ i, j ≤ i → a.getD i d = d) :
    (setAll a (sparseFrom d l j)).getD i d = if i < j then a.getD i d else l.getD (i - j) d := by
  induction l generalizing a j with
  | nil =>
    split
    · rfl
    · exact ha i (by omega)
  | cons x l ih =>
    rw [List.length_cons] at hs
    have tail (h : ¬ i ≤ j) : (x :: l).getD (i - j) d = l.getD (i - (j + 1)) d := by
      rw [show i - j = i - (j + 1) + 1 by omega]
      rfl
    rw [sparseFrom_cons]
    split
    · next hx =>
      rw [ih a (j + 1) (by omega) (fun i hi => ha i (by omega))]
      obtain h | rfl | h := Nat.lt_trichotomy i j
      · rw [if_pos h, if_pos (by omega)]
      · rw [if_pos (by omega), if_neg (by omega), ha i (by omega), Nat.sub_self, hx]
        rfl
      · rw [if_neg (by omega), if_neg (by omega), tail (by omega)]
    · show (setAll (a.setIfInBounds j x) (sparseFrom d l (j + 1))).getD i d = _
      have hj : j < a.size := by omega
      rw [ih _ (j + 1) (by simp; omega) (fun i hi => by rw [getD_setIfInBounds a hj, if_neg (by omega), ha i (by omega)]),
        getD_setIfInBounds a hj]
      obtain h | rfl | h := Nat.lt_trichotomy i j
      · rw [if_pos (by omega), if_neg (by omega), if_pos h]
      · rw [if_pos (by omega), if_pos rfl, if_neg (by omega), Nat.sub_self]
        rfl
      · rw [if_neg (by omega), if_neg (by omega), tail (by omega)]

/-- An array made of a list's sparse form holds the list. -/
theorem getD_denseOf_sparseOf {n : Nat} {l : List α} (h : l.length ≤ n) (i : Nat) : (denseOf d n (sparseOf d l)).getD i d = l.getD i d := by
  have := getD_setAll_sparseFrom (d := d) l (Array.replicate n d) 0 i (by simpa using h) (fun i _ => by simp [Array.getD])
  simpa [denseOf, setAll, sparseOf_eq] using this

end

/-! ### K-blocks (06 R125) -/

theorem blockSum_eq_sum (w : Nat → Int) (l : List Int) (b : Nat) :
    blockSum w l.toArray b = ((List.range 32).map (fun i => w (32 * b + i) * l.getD (32 * b + i) 0)).sum := by
  rw [List.sum_eq_foldl, List.foldl_map]
  simp [blockSum, Array.getD_eq_getD_getElem?]

section
variable {plain : Bool} {r : ActRow}

/-- What a K-block makes of an entry does not depend on OVF and the flags before it, and it keeps OVF set. -/
theorem addBlock_threads (eW : Int) (bad : Bool) (S : Int) (b : Nat) (v : BitVec 32) (o : Bool) (fl : BitVec 6) :
    (addBlock plain eW bad r S b (v, o, fl)).1 = (addBlock plain eW bad r S b (v, false, 0)).1 ∧
    (addBlock plain eW bad r S b (v, o, fl)).2.1 = (o || (addBlock plain eW bad r S b (v, false, 0)).2.1) := by
  unfold addBlock
  split
  · simp [Bool.or_assoc]
  · split <;> simp

variable (plain r) in
/-- An entry, OVF and flags after the K-blocks of a list. -/
def addBlocks (eW : Nat → Int) (bad : Nat → Bool) (S : Nat → Int) (l : List Nat) (x : BitVec 32 × Bool × BitVec 6) : BitVec 32 × Bool × BitVec 6 :=
  l.foldl (fun x blk => addBlock plain (eW blk) (bad blk) r (S blk) blk x) x

theorem addBlocks_threads {eW : Nat → Int} {bad : Nat → Bool} {S : Nat → Int} (l : List Nat) (v : BitVec 32) (o : Bool) (fl : BitVec 6) :
    (addBlocks plain r eW bad S l (v, o, fl)).1 = (addBlocks plain r eW bad S l (v, false, 0)).1 ∧
    (addBlocks plain r eW bad S l (v, o, fl)).2.1 = (o || (addBlocks plain r eW bad S l (v, false, 0)).2.1) := by
  induction l generalizing v o fl with
  | nil => simp [addBlocks]
  | cons b l ih =>
    obtain ⟨h1, h2⟩ := addBlock_threads (plain := plain) (r := r) (eW b) (bad b) (S b) b v o fl
    have run (x : BitVec 32 × Bool × BitVec 6) : addBlocks plain r eW bad S (b :: l) x =
      addBlocks plain r eW bad S l ((addBlock plain (eW b) (bad b) r (S b) b x).1, (addBlock plain (eW b) (bad b) r (S b) b x).2.1,
        (addBlock plain (eW b) (bad b) r (S b) b x).2.2) := rfl
    rw [run (v, o, fl), run (v, false, 0), (ih _ _ _).1, (ih _ _ _).2, h1, h2]
    rw [((ih _ (addBlock plain (eW b) (bad b) r (S b) b (v, false, 0)).2.1 _)).1, ((ih _ (addBlock plain (eW b) (bad b) r (S b) b (v, false, 0)).2.1 _)).2]
    simp [Bool.or_assoc]

end

/-! ### One row, and a run of rows -/

/-- A step of row `m` of N columns gives each entry of that row its value, keeps all the others, and sets OVF where a column of the row overflows. -/
structure RowStep (N m : Nat) (val : Nat → BitVec 32 → BitVec 32) (ov : Nat → BitVec 32 → Bool) (a a' : MulAcc) : Prop where
  size : a'.ents.size = a.ents.size
  inside : ∀ n < N, a'.ents.getD (m * N + n) 0 = val n (a.ents.getD (m * N + n) 0)
  outside : ∀ i, i < m * N ∨ (m + 1) * N ≤ i → a'.ents.getD i 0 = a.ents.getD i 0
  ovf : a'.ovf = true ↔ a.ovf = true ∨ ∃ n < N, ov n (a.ents.getD (m * N + n) 0) = true

/-- The same for the rows `j`, `j + 1` and so on of a list. -/
structure RowsStep {R : Type} [Inhabited R] (N : Nat) (val : R → Nat → BitVec 32 → BitVec 32) (ov : R → Nat → BitVec 32 → Bool) (rs : List R) (j : Nat)
    (a a' : MulAcc) : Prop where
  size : a'.ents.size = a.ents.size
  inside : ∀ m < rs.length, ∀ n < N, a'.ents.getD ((j + m) * N + n) 0 = val (rs.getD m default) n (a.ents.getD ((j + m) * N + n) 0)
  outside : ∀ i, i < j * N ∨ (j + rs.length) * N ≤ i → a'.ents.getD i 0 = a.ents.getD i 0
  ovf : a'.ovf = true ↔ a.ovf = true ∨ ∃ m < rs.length, ∃ n < N, ov (rs.getD m default) n (a.ents.getD ((j + m) * N + n) 0) = true

section
variable {R : Type} [Inhabited R] {N : Nat} {val : R → Nat → BitVec 32 → BitVec 32} {ov : R → Nat → BitVec 32 → Bool} {step : MulAcc → R × Nat → MulAcc}

/-- Row steps one after another. -/
theorem rowsStep_foldl (hstep : ∀ (r : R) (m : Nat) (a : MulAcc), (m + 1) * N ≤ a.ents.size → RowStep N m (val r) (ov r) a (step a (r, m)))
    (rs : List R) (j : Nat) (a : MulAcc) (hs : (j + rs.length) * N ≤ a.ents.size) :
    RowsStep N val ov rs j a ((rs.zipIdx j).foldl step a) := by
  induction rs generalizing j a with
  | nil => exact ⟨rfl, fun m hm => absurd hm (Nat.not_lt_zero m), fun _ _ => rfl, by simp⟩
  | cons r rs ih =>
    have hlen : j + (r :: rs).length = j + 1 + rs.length := by rw [List.length_cons]; omega
    have hle : (j + 1) * N ≤ (j + 1 + rs.length) * N := Nat.mul_le_mul_right N (by omega)
    rw [hlen] at hs
    have h1 := hstep r j a (hle.trans hs)
    have h2 := ih (j + 1) (step a (r, j)) (by rw [h1.size]; exact hs)
    have hrow (m : Nat) : j + 1 + m = j + (m + 1) := by omega
    have later (m n : Nat) : (step a (r, j)).ents.getD ((j + (m + 1)) * N + n) 0 = a.ents.getD ((j + (m + 1)) * N + n) 0 :=
      h1.outside _ (Or.inr ((Nat.mul_le_mul_right N (by omega)).trans (Nat.le_add_right _ _)))
    rw [List.zipIdx_cons, List.foldl_cons]
    refine ⟨h2.size.trans h1.size, fun m hm n hn => ?_, fun i hi => ?_, ?_⟩
    · cases m with
      | zero =>
        have : (j + 0) * N + n < (j + 1) * N := by rw [Nat.add_zero, Nat.succ_mul]; omega
        rw [h2.outside _ (Or.inl this)]
        exact h1.inside n hn
      | succ m =>
        have := h2.inside m (by simpa using hm) n hn
        rw [hrow, later] at this
        exact this
    · rw [hlen] at hi
      rw [h2.outside i (hi.imp_left fun h => h.trans_le (Nat.mul_le_mul_right N (by omega))), h1.outside i (hi.imp_right hle.trans)]
    · rw [h2.ovf, h1.ovf, or_assoc]
      refine or_congr_right ⟨?_, ?_⟩
      · rintro (⟨n, hn, h⟩ | ⟨m, hm, n, hn, h⟩)
        · exact ⟨0, by simp, n, hn, h⟩
        · rw [hrow, later] at h
          exact ⟨m + 1, by simpa using hm, n, hn, h⟩
      · rintro ⟨m, hm, n, hn, h⟩
        cases m with
        | zero => exact Or.inl ⟨n, hn, h⟩
        | succ m => exact Or.inr ⟨m, by simpa using hm, n, hn, by rw [hrow, later]; exact h⟩

end

/-! ### The dense part of a row (06 R125) -/

/-- The K-blocks of column `n` of row `r` on an entry. -/
def mulCell (plain : Bool) (wf : WFmt) (b : Nat → Byte) (r : ActRow) (n : Nat) (x : BitVec 32 × Bool × BitVec 6) : BitVec 32 × Bool × BitVec 6 :=
  addBlocks plain r (fun blk => if wf = .mxint8 then ((b (32768 + 4 * n + blk)).toNat : Int) - 133 else 0)
    (fun blk => decide (wf = .mxint8) && (b (32768 + 4 * n + blk)).toNat == 255)
    (fun blk => ((List.range 32).map (fun i => weightAt wf b (32 * blk + i) n * r.vals.getD (32 * blk + i) 0)).sum) (List.range 4) x

/-- The step of a column whose entry is `i`. -/
def mulCol (plain : Bool) (wf : WFmt) (b : Nat → Byte) (r : ActRow) (a : MulAcc) (p : Nat × Nat) : MulAcc :=
  let x := mulCell plain wf b r p.1 (a.ents.getD p.2 0, a.ovf, a.fl)
  { ents := a.ents.setIfInBounds p.2 x.1, ovf := x.2.1, fl := x.2.2 }

section
variable {plain : Bool} {wf : WFmt} {b : Nat → Byte} {r : ActRow}

theorem zipIdx_range (n j : Nat) : (List.range n).zipIdx j = (List.range n).map (fun c => (c, j + c)) :=
  List.ext_getElem (by simp) fun i h1 h2 => by simp

theorem mulRow_eq_foldl (m : Nat) (a : MulAcc) :
    mulRow plain wf b m r a = ((List.range (wCols wf)).zipIdx (m * wCols wf)).foldl (mulCol plain wf b r) { a with fl := a.fl ||| r.fl } := by
  rw [zipIdx_range, List.foldl_map]
  simp only [mulRow, blockSum_eq_sum]
  rfl

theorem mulCell_threads (n : Nat) (v : BitVec 32) (o : Bool) (fl : BitVec 6) :
    (mulCell plain wf b r n (v, o, fl)).1 = (mulCell plain wf b r n (v, false, 0)).1 ∧
    (mulCell plain wf b r n (v, o, fl)).2.1 = (o || (mulCell plain wf b r n (v, false, 0)).2.1) := addBlocks_threads (List.range 4) v o fl

theorem mulCol_rowStep (n i : Nat) (a : MulAcc) (hi : (i + 1) * 1 ≤ a.ents.size) :
    RowStep 1 i (fun _ e => (mulCell plain wf b r n (e, false, 0)).1) (fun _ e => (mulCell plain wf b r n (e, false, 0)).2.1) a
      (mulCol plain wf b r a (n, i)) := by
  obtain ⟨h1, h2⟩ := mulCell_threads (plain := plain) (wf := wf) (b := b) (r := r) n (a.ents.getD i 0) a.ovf a.fl
  have hlt : i < a.ents.size := by omega
  refine ⟨by simp [mulCol], fun c hc => ?_, fun j hj => ?_, ?_⟩
  · obtain rfl : c = 0 := by omega
    rw [Nat.mul_one, Nat.add_zero]
    exact (getD_setIfInBounds _ hlt).trans ((if_pos rfl).trans h1)
  · exact (getD_setIfInBounds _ hlt).trans (if_neg (by omega))
  · rw [show (mulCol plain wf b r a (n, i)).ovf = _ from h2, Bool.or_eq_true]
    refine or_congr_right ⟨fun h => ⟨0, by omega, by simpa using h⟩, ?_⟩
    rintro ⟨c, hc, h⟩
    obtain rfl : c = 0 := by omega
    simpa using h

/-- Each column of the row gets its K-blocks, from the entry before it. -/
theorem mulRow_rowStep (m : Nat) (a : MulAcc) (hm : (m + 1) * wCols wf ≤ a.ents.size) :
    RowStep (wCols wf) m (fun n e => (mulCell plain wf b r n (e, false, 0)).1) (fun n e => (mulCell plain wf b r n (e, false, 0)).2.1) a
      (mulRow plain wf b m r a) := by
  rw [Nat.succ_mul] at hm
  have h := rowsStep_foldl (N := 1) (val := fun n _ e => (mulCell plain wf b r n (e, false, 0)).1)
    (ov := fun n _ e => (mulCell plain wf b r n (e, false, 0)).2.1) mulCol_rowStep (List.range (wCols wf)) (m * wCols wf)
    { a with fl := a.fl ||| r.fl } (by simpa using hm)
  rw [← mulRow_eq_foldl] at h
  have get (n : Nat) (hn : n < wCols wf) : (List.range (wCols wf)).getD n default = n := by simp [hn]
  refine ⟨h.size, fun n hn => ?_, fun i hi => h.outside i (by simpa [Nat.succ_mul] using hi), h.ovf.trans (or_congr_right ⟨?_, ?_⟩)⟩
  · simpa [hn] using h.inside n (by simpa using hn) 0 Nat.one_pos
  · rintro ⟨n, hn, c, hc, ho⟩
    obtain rfl : c = 0 := by omega
    rw [List.length_range] at hn
    exact ⟨n, hn, by simpa [hn] using ho⟩
  · rintro ⟨n, hn, ho⟩
    exact ⟨n, by simpa using hn, 0, Nat.one_pos, by simpa [hn] using ho⟩

end

/-! ### The outliers (06 R126) -/

/-- An outlier's term on an entry. -/
def outlierVal (r : ActRow) (v : BitVec 32) (o : Outlier) : BitVec 32 :=
  if r.bad.getD (o.k / 32) false then BitVec.ofNat 32 fF32.canonNaN
  else BitVec.ofNat 32 (fF32.add v.toNat (outlierTerm o.delta (r.vals.getD o.k 0) (r.ea.getD (o.k / 32) 0)).1).1

section
variable {N m : Nat} {r : ActRow}

/-- One outlier changes one entry. -/
theorem outlierRow_cons (o : Outlier) (outl : List Outlier) (a : MulAcc) : ∃ fl : BitVec 6, outlierRow N m r (o :: outl) a =
    outlierRow N m r outl { a with ents := a.ents.setIfInBounds (m * N + o.n) (outlierVal r (a.ents.getD (m * N + o.n) 0) o), fl := fl } := by
  unfold outlierRow outlierVal
  rw [List.foldl_cons]
  by_cases h : r.bad.getD (o.k / 32) false = true
  · exact ⟨a.fl, by simp only [h, if_true]⟩
  · exact ⟨_, by simp only [h]; rfl⟩

/-- Each column of the row gets its outliers in list order. -/
theorem outlierRow_rowStep {outl : List Outlier} (ho : ∀ o ∈ outl, o.n < N) (a : MulAcc) (hm : (m + 1) * N ≤ a.ents.size) :
    RowStep N m (fun n e => (outl.filter (fun o => o.n == n)).foldl (outlierVal r) e) (fun _ _ => false) a (outlierRow N m r outl a) := by
  induction outl generalizing a with
  | nil => exact ⟨rfl, fun _ _ => rfl, fun _ _ => rfl, by simp [outlierRow]⟩
  | cons o outl ih =>
    obtain ⟨fl, e⟩ := outlierRow_cons (N := N) (m := m) (r := r) o outl a
    have hn : o.n < N := ho o List.mem_cons_self
    have hlt : m * N + o.n < a.ents.size := by rw [Nat.succ_mul] at hm; omega
    have h := ih (fun x hx => ho x (List.mem_cons_of_mem o hx))
      { a with ents := a.ents.setIfInBounds (m * N + o.n) (outlierVal r (a.ents.getD (m * N + o.n) 0) o), fl := fl } (by simpa using hm)
    rw [← e] at h
    refine ⟨h.size.trans (by simp), fun n hc => ?_, fun i hi => ?_, by simpa using h.ovf⟩
    · rw [h.inside n hc]
      dsimp only
      rw [getD_setIfInBounds _ hlt, List.filter_cons]
      by_cases hon : o.n = n
      · simp [hon]
      · simp [hon]
    · rw [h.outside i hi]
      dsimp only
      rw [getD_setIfInBounds _ hlt, if_neg (by rw [Nat.succ_mul] at hi; omega)]

end

/-! ### A multiply (06 R125) -/

section
variable {b : Bank} {f : AFmt} {f32 : Bool} {data : List (List Byte)} {outl : List Outlier} {x : Acc} {bs : List Byte} {es : List (BitVec 32)}

/-- The K-blocks of entry (m, n) of a multiply. -/
def mulSum (b : Bank) (f : AFmt) (f32 : Bool) (data : List (List Byte)) (bs : List Byte) (es : List (BitVec 32)) (m n : Nat) : BitVec 32 × Bool × BitVec 6 :=
  mulCell (unscaled b.held f f32) b.held (fun j => bs.getD j 0) (actRow f (data.getD m [])) n (es.getD (m * wCols b.held + n) 0, false, 0)

/-- What a multiply computes: the K-blocks of each entry, its outliers, and OVF. -/
structure Multiplied (b : Bank) (f : AFmt) (f32 : Bool) (data : List (List Byte)) (outl : List Outlier) (x : Acc) (bs : List Byte) (es : List (BitVec 32))
    (y : Acc) : Prop where
  inside : ∀ m n, m < data.length → n < wCols b.held → sget 0 y.ents (m * wCols b.held + n) =
    (outl.filter (fun o => o.n == n)).foldl (outlierVal (actRow f (data.getD m []))) (mulSum b f f32 data bs es m n).1
  outside : ∀ i, data.length * wCols b.held ≤ i → sget 0 y.ents i = es.getD i 0
  ovf : y.ovf = true ↔ x.ovf = true ∨ ∃ m n, m < data.length ∧ n < wCols b.held ∧ (mulSum b f f32 data bs es m n).2.1 = true

theorem multiply_multiplied (hb : b.bytes = sparseOf 0 bs) (hbs : bs.length ≤ 33792) (hx : x.ents = sparseOf 0 es) (hes : es.length = 1024)
    (hd : data.length ≤ 1024 / wCols b.held) (ho : ∀ o ∈ outl, o.n < wCols b.held) :
    Multiplied b f f32 data outl x bs es (multiply b f f32 data outl x).1 := by
  have hN : data.length * wCols b.held ≤ 1024 := (Nat.mul_le_mul_right _ hd).trans (Nat.div_mul_le_self _ _)
  have hw : (fun i => (denseOf (0 : Byte) 33792 b.bytes).getD i 0) = fun j => bs.getD j 0 := funext fun i => by
    rw [hb, getD_denseOf_sparseOf hbs]
  have he (i : Nat) : (denseOf (0 : BitVec 32) 1024 x.ents).getD i 0 = es.getD i 0 := by rw [hx, getD_denseOf_sparseOf hes.le]
  have h1 := rowsStep_foldl (R := List Byte) (N := wCols b.held)
    (step := fun a p => mulRow (unscaled b.held f f32) b.held (fun j => bs.getD j 0) p.2 (actRow f p.1) a)
    (fun row m a hm => mulRow_rowStep m a hm) data 0 { ents := denseOf 0 1024 x.ents, ovf := x.ovf, fl := 0 } (by simpa using hN)
  generalize ha : List.foldl _ _ _ = a1 at h1
  have h2 := rowsStep_foldl (R := List Byte) (N := wCols b.held) (step := fun a p => outlierRow (wCols b.held) p.2 (actRow f p.1) outl a)
    (fun row m a hm => outlierRow_rowStep ho a hm) data 0 a1 (by rw [h1.size]; simpa using hN)
  generalize ha2 : List.foldl _ _ _ = a2 at h2
  have hm : (multiply b f f32 data outl x).1 = { x with ents := sparseOf 0 a2.ents.toList, ovf := a2.ovf } := by
    rw [← ha2, ← ha, ← hw]
    simp only [multiply, List.zipIdx_map, List.foldl_map]
    rfl
  rw [hm]
  obtain ⟨-, in1, out1, ovf1⟩ := h1
  obtain ⟨-, in2, out2, ovf2⟩ := h2
  simp only [Nat.zero_add, Nat.zero_mul, Nat.not_lt_zero, false_or, he] at in1 out1 ovf1 in2 out2
  refine ⟨fun m n hm hn => ?_, fun i hi => ?_, ?_⟩
  · rw [sget_sparseOf, getD_toList, in2 m hm n hn, in1 m hm n hn]
    rfl
  · rw [sget_sparseOf, getD_toList, out2 i hi, out1 i hi]
  · rw [show a2.ovf = true ↔ a1.ovf = true by simpa using ovf2, ovf1]
    refine or_congr_right ⟨?_, ?_⟩
    · rintro ⟨m, hm, n, hn, h⟩
      exact ⟨m, n, hm, hn, h⟩
    · rintro ⟨m, n, hm, hn, h⟩
      exact ⟨m, hm, n, hn, h⟩

end

end Sys2Proof.Machine
end

section
/-! PROOFS. A copy's beats (12 R261, R262, 11 R246): what a beat reads and writes, which requests it sends, and how a copy ends. -/

namespace Sys2Proof.Machine

open Sys2Proof

section
variable {s : State} {tile : TileId} {k : Nat}

/-! ### The steps of a copy -/

section
variable {q : Copy} (hq : (s.tiles[tile]).copyQ.find? (fun q => q.cid == k) = some q)
include hq

theorem exec_copyBeat_writes (h : q.frontIn = true) : exec (.copyBeat tile k) s = .next ((s.frontOut tile q).freeSource tile q.cid) := by
  rw [exec_copyBeat, execCopyBeat, hq]
  exact if_pos h

theorem exec_copyBeat_issues (h : q.frontIn = false) (hi : s.canIssueBeat tile q = true) : exec (.copyBeat tile k) s = .next (s.issueBeat tile q) := by
  rw [exec_copyBeat, execCopyBeat, hq]
  simp [h, hi]

theorem exec_copyComplete_settled (h : q.settled = true) : exec (.copyComplete tile k) s = .next (s.endCopy tile q (match q.failed with
    | some (_, tr) => .failed tr
    | none => .complete)) := by
  rw [exec_copyComplete, execCopyComplete, hq]
  exact congrArg Host.Outcome.next (if_pos h)

end

/-- A refusal that comes back is noted on the copy whose beat it names. -/
theorem exec_copyFailure_notes {p : Packet} {req : Nat} {tr : TrapRec} {own : Bool} (ha : s.Arriving k p) (hb : p.body = .refuse req tr own)
    (ht : nodeTile p.dst = some tile) (hk : isCopyReq (s.keptReq req) = true) {q : Copy} {b : Nat}
    (hf : (s.tiles[tile]).copyQ.findSome? (fun q => (q.byteOf req).map (fun b => (q, b))) = some (q, b)) :
    let q' := { q.fail b tr with outIds := q.outIds.filter (·.1 != req), reads := fillSegs q.reads req [] }
    exec (.copyFailure k) s = .next (((((s.accepted p).sendAck p).forget req).modCopy tile q.cid (fun _ => q')).settleCopy tile q') := by
  obtain ⟨hp, hs⟩ := ha
  have hf' : ((s.accepted p).tiles[tile]).copyQ.findSome? (fun q => (q.byteOf req).map (fun b => (q, b))) = some (q, b) := hf
  simp only [exec_copyFailure, execCopyFailure, hp, hb, ht, hk, State.arrive_next hs, hf']
  rfl

/-! ### A beat that issues -/

section
variable (s tile)

/-- The state in which the engine's beat of this cycle is taken. -/
def State.beatTaken : State := s.modTile tile (fun x => { x with lastBeat := some s.now })

variable {q : Copy}

theorem State.issueBeat_refused {u : TileId} {tr : TrapRec}
    (h : ((s.beatTaken tile).beatStale tile q q.src).or ((s.beatTaken tile).beatStale tile q q.dst) = some (u, tr)) :
    s.issueBeat tile q = ((s.beatTaken tile).bump u (refusalCounter tr)).modCopy tile q.cid (fun y => y.fail q.next tr) := by
  rw [State.beatTaken] at h
  unfold State.issueBeat
  simp only [h]
  rfl

section
variable (hs : (s.beatTaken tile).beatStale tile q q.src = none) (hd : (s.beatTaken tile).beatStale tile q q.dst = none)
include hs hd

theorem State.issueBeat_local {p : Nat} (hp : q.src = .local' p) :
    s.issueBeat tile q = (((s.beatTaken tile).modCopy tile q.cid (fun y => { y with next := q.next + q.lenAt q.next })).beatWrite tile q q.next
      ((s.beatTaken tile).bytes (scratchKey tile (p + q.next)) (q.lenAt q.next))).freeSource tile q.cid := by
  rw [State.beatTaken] at hs hd
  unfold State.issueBeat
  rw [hp] at hs ⊢
  simp only [hs, hd]
  rfl

theorem State.issueBeat_asks (hp : ∀ p, q.src ≠ .local' p) : s.issueBeat tile q = (s.beatTaken tile).beatAsk tile q := by
  rw [State.beatTaken] at hs hd
  unfold State.issueBeat
  simp only [hs, hd]
  split
  · next h => cases h
  · next h => exact absurd h (hp _)
  · rfl

end

/-- Requests sent one after another: the network gets their messages in order, and memory stays. -/
theorem State.foldl_send_net {α : Type} (f : α → Nat × Msg) (src : Nat) (who : Option Who) (terr : Nat) (l : List α) :
    ∃ ps : List Packet, (l.foldl (fun s g => s.send src (f g).1 0 who terr (f g).2) s).net = s.net ++ ps ∧
      ps.map (fun p => (p.dst, p.body)) = l.map f ∧ ∀ p ∈ ps, p.cls = 0 ∧ p.src = src := by
  induction l generalizing s with
  | nil => exact ⟨[], by simp, rfl, by simp⟩
  | cons g l ih =>
    obtain ⟨ps, hn, hm, hc⟩ := ih (s.send src (f g).1 0 who terr (f g).2)
    refine ⟨s.packet src (f g).1 0 who terr (f g).2 :: ps, ?_, by rw [List.map_cons, List.map_cons, hm]; rfl,
      List.forall_mem_cons.2 ⟨⟨rfl, rfl⟩, hc⟩⟩
    rw [List.foldl_cons, hn, State.send_net, List.append_assoc]
    rfl

/-- A beat that is asked for sends one request for each of its pieces. -/
theorem State.beatAsk_net : ∃ ps : List Packet, (s.beatAsk tile q).net = s.net ++ ps ∧ (s.beatAsk tile q).mem = s.mem ∧
    ps.map (fun p => (p.dst, p.body)) = q.pieces.map q.readOf ∧ ∀ p ∈ ps, p.cls = 0 ∧ p.src = tile.val := by
  obtain ⟨ps, hn, hm, hc⟩ := s.foldl_send_net q.readOf tile.val (some q.who) q.terr q.pieces
  exact ⟨ps, hn, State.foldl_mem _ _ _ fun s g => s.send_mem _ _ _ _ _ _, hm, hc⟩

/-! ### A beat that is written -/

theorem State.frontOut_whole (h : ∀ g ∈ q.front, (g.bytes.getD []).length = g.len) :
    let b := (q.front.head?.map (·.item)).getD 0
    s.frontOut tile q = (s.modCopy tile q.cid (fun y => { y with reads := y.reads.filter (fun g => g.item != b) })).beatWrite tile q b
      (q.front.flatMap (fun g => g.bytes.getD [])) := if_pos (List.all_eq_true.2 fun g hg => beq_iff_eq.2 (h g hg))

theorem State.frontOut_short (h : ∃ g ∈ q.front, (g.bytes.getD []).length ≠ g.len) :
    let b := (q.front.head?.map (·.item)).getD 0
    s.frontOut tile q = s.modCopy tile q.cid (fun y => { y with reads := y.reads.filter (fun g => g.item != b) }) := by
  obtain ⟨g, hg, hl⟩ := h
  exact if_neg fun ha => hl (beq_iff_eq.1 (List.all_eq_true.1 ha g hg))

variable {o : Nat} {bs : List Byte}

theorem State.beatWrite_local {p : Nat} (h : q.dst = .local' p) : s.beatWrite tile q o bs = s.setBytes (scratchKey tile (p + o)) bs := by
  rw [State.beatWrite, h]

/-- The write of a beat that leaves the tile is one message of class 0. -/
def State.SendsBeat (s : State) (tile : TileId) (q : Copy) (o : Nat) (bs : List Byte) (dst : Nat) (pl : Place) : Prop :=
  ∃ p : Packet, (s.beatWrite tile q o bs).net = s.net ++ [p] ∧ (s.beatWrite tile q o bs).mem = s.mem ∧
    p.cls = 0 ∧ p.src = tile.val ∧ p.dst = dst ∧ p.body = .copyWr pl (q.dstA + BitVec.ofNat 64 o) bs q.cid q.ver

theorem State.beatWrite_peer {u : TileId} {lidx fid off : Nat} (h : q.dst = .peer u lidx fid off) :
    s.SendsBeat tile q o bs u.val (.peer u lidx fid (off + o)) := by
  unfold State.SendsBeat State.beatWrite
  rw [h]
  exact ⟨_, rfl, rfl, rfl, rfl, rfl, rfl⟩

theorem State.beatWrite_hbm {va : Nat} (h : q.dst = .hbm va) : s.SendsBeat tile q o bs (hbmNode (va + o)) (.hbm (va + o)) := by
  unfold State.SendsBeat State.beatWrite
  rw [h]
  exact ⟨_, rfl, rfl, rfl, rfl, rfl, rfl⟩

end

end

/-! ### The pieces of a beat -/

section
variable {q : Copy}

theorem Copy.lenAt_le (q : Copy) (o : Nat) : q.lenAt o ≤ 128 := (Nat.min_le_right _ _).trans (Nat.sub_le _ _)

/-- A peer frame's beat is one read, of the beat's bytes. -/
theorem Copy.pieces_peer {u : TileId} {lidx fid off : Nat} (h : q.src = .peer u lidx fid off) : q.pieces.map q.readOf =
    [(u.val, .read (.peer u lidx fid (off + q.next)) (q.srcA + BitVec.ofNat 64 q.next) (q.lenAt q.next) q.ver false)] := by
  simp [Copy.pieces, Copy.readOf, h, Copy.atByte]

/-- No piece is empty, and none crosses a 256-byte block. -/
theorem mem_cutBlocks {j fuel off va n : Nat} {g : Seg} (h : g ∈ cutBlocks j fuel off va n) :
    ∃ d, g.off = off + d ∧ g.va = va + d ∧ 0 < g.len ∧ g.va % 256 + g.len ≤ 256 := by
  induction fuel generalizing off va n with
  | zero => cases h
  | succ fuel ih =>
    rw [cutBlocks] at h
    split at h
    · cases h
    · obtain rfl | h := List.mem_cons.1 h
      · exact ⟨0, rfl, rfl, by dsimp only; omega, by dsimp only; omega⟩
      · obtain ⟨d, ho, hv, hl⟩ := ih h
        exact ⟨_, ho.trans (Nat.add_assoc _ _ _), hv.trans (Nat.add_assoc _ _ _), hl⟩

/-- Two pieces are enough for 256 bytes. -/
theorem sum_len_cutBlocks_two {j off va n : Nat} (h : n ≤ 256) : ((cutBlocks j 2 off va n).map (·.len)).sum = n := by
  simp only [cutBlocks]
  split
  · next h0 => simp [h0]
  · split
    · next h1 => simp; omega
    · simp; omega

theorem Copy.pieces_hbm {va : Nat} (h : q.src = .hbm va) : (q.pieces.map (·.len)).sum = q.lenAt q.next ∧
    ∀ g ∈ q.pieces, (q.readOf g).1 = hbmNode g.va ∧ g.va = va + q.next + g.off ∧ 0 < g.len ∧ g.va % 256 + g.len ≤ 256 := by
  have hp : q.pieces = cutBlocks q.next 2 0 (va + q.next) (q.lenAt q.next) := by rw [Copy.pieces, h]
  rw [hp]
  refine ⟨sum_len_cutBlocks_two ((q.lenAt_le _).trans (by omega)), fun g hg => ?_⟩
  obtain ⟨d, ho, hv, hl⟩ := mem_cutBlocks hg
  rw [Nat.zero_add] at ho
  exact ⟨by rw [Copy.readOf, h], by rw [hv, ho], hl⟩

end

end Sys2Proof.Machine
end

section
/-! PROOFS. The matrix unit's entries: they start, read, and complete (06 R120 to R130), and what the formats hold. -/

namespace Sys2Proof.Machine

open Sys2Proof

/-! ### The steps of an entry -/

section
variable {s : State} {core : CoreId} {k : Nat} {e : MEntry}

/-- Only a bank load that runs asks for pieces. -/
theorem MEntry.running_of_toAsk {g : Seg} (h : e.toAsk = some g) : e.running = true := by
  unfold MEntry.toAsk at h
  split at h
  · by_contra hr
    simp [hr] at h
  · cases h

theorem MEntry.toAsk_of_mul (h : e.kind.unit = 0) : e.toAsk = none := by
  unfold MEntry.toAsk
  split
  · next hk => rw [hk] at h; cases h
  · rfl

section
variable (he : (s.cores[core]).findEntry k = some e) (hm : s.matrixMoves core = true)
include he hm

theorem exec_matrixStart_starts (hr : e.running = false) (hs : (s.cores[core]).mayStart e = true) (hd : (s.cores[core]).dbgHalt = false) :
    exec (.matrixStart core k) s = .next (s.startEntry core e) := by
  simp only [exec_matrixStart, execMatrixStart, he, hm, MEntry.goesOn, hr, hs, hd]
  rfl

theorem exec_matrixStart_goesOn (hg : e.goesOn = true) : exec (.matrixStart core k) s = .next (s.goOn core e) := by
  simp only [exec_matrixStart, execMatrixStart, he, hm, hg]
  rfl

theorem exec_matrixStart_reads (hr : e.running = true) (hu : e.kind.unit = 0) (hd : e.readsDone = false) :
    exec (.matrixStart core k) s = .next (s.readNext core e) := by
  rw [exec_matrixStart_goesOn he hm (by simp [MEntry.goesOn, hr, hu, hd]), State.goOn, MEntry.toAsk_of_mul hu]

theorem exec_matrixStart_asks {g : Seg} (hg : e.toAsk = some g) : exec (.matrixStart core k) s = .next (s.askPiece core e g) := by
  rw [exec_matrixStart_goesOn he hm (by simp [MEntry.goesOn, MEntry.running_of_toAsk hg, hg]), State.goOn, hg]

theorem exec_matrixComplete_finished (hf : e.finished = true) :
    exec (.matrixComplete core k) s = .next (((s.completeEntry core e).modCore core (fun c =>
      { c with mq := c.mq.filter (fun x => x.mid != k) })).modTile (tileOf core) (fun t => t.release k)) := by
  simp only [exec_matrixComplete, execMatrixComplete, he, hm, hf]
  rfl

end

/-! ### What a completed entry leaves -/

variable (s core) in
/-- An accumulator after a command on it. -/
theorem State.advanceAcc_accs (acc : Fin 8) (f : Acc → Acc) :
    ((s.modCore core (fun c => c.advanceAcc acc f)).cores[core]).accs[acc] = (f (s.cores[core]).accs[acc]).advance := by
  rw [State.modCore_self]
  exact vset_self _ _ _

theorem State.completeEntry_zero (h : e.kind = .zero) :
    s.completeEntry core e = s.modCore core (fun c => c.advanceAcc e.acc (fun x => { x with ents := [], ovf := false })) := by
  rw [State.completeEntry, h]

/-- The words that a drain writes. -/
def drained (x : Acc) (n : Nat) : List Byte := (List.range n).flatMap (fun i => leBytes 4 (sget 0 x.ents i).toNat)

theorem State.completeEntry_drain {addr n : Nat} (h : e.kind = .drain addr n) :
    s.completeEntry core e = (s.setBytes (sliceKey (s.sliceOn core) addr) (drained (s.cores[core]).accs[e.acc] n)).modCore core
      (fun c => c.advanceAcc e.acc id) := by
  rw [State.completeEntry, h]
  rfl

section
variable {bank : Fin 2} {f : AFmt} {f32 : Bool} {addr stride rows : Nat} {outl : List Outlier} {dfr : Bool} {data : List (List Byte)} {w : Option Bank}
  (h : e.kind = .mul bank f f32 addr stride rows outl dfr data w)
include h

theorem State.completeEntry_void (hv : e.voided = true) : s.completeEntry core e = s.modCore core (fun c => c.advanceAcc e.acc id) := by
  rw [State.completeEntry, h]
  exact if_pos hv

/-- An accumulator after a multiply, with the flags it raised. -/
def Acc.afterMul (x : Acc) (b : Bank) (f : AFmt) (f32 : Bool) (data : List (List Byte)) (outl : List Outlier) : Acc :=
  let r := multiply b f f32 data outl x
  { r.1 with flags := if r.2 = 0 then r.1.flags else r.1.flags ++ [(r.1.ver + 1, r.2)] }

theorem State.completeEntry_mul (hv : e.voided = false) : s.completeEntry core e =
    s.modCore core (fun c => c.advanceAcc e.acc (fun x => x.afterMul (w.getD (s.cores[core]).banks[bank]) f f32 data outl)) := by
  rw [State.completeEntry, h]
  exact if_neg (by simp [hv])

/-- The array reads one more row; the bank is the one that stood when it started. -/
theorem State.readNext_core : (s.readNext core e).cores[core] = (s.cores[core]).modEntry e.mid (fun z => { z with
    running := true
    kind := .mul bank f f32 addr stride rows outl dfr (data ++ [s.bytes (sliceKey (s.sliceOn core) (addr + data.length * stride)) (aBytes f)])
      (w.or (some (s.cores[core]).banks[bank])) }) := by
  rw [State.readNext, h]
  dsimp only
  split
  · exact State.modCore_self _ _ _
  · exact State.modCore_self _ _ _

end

/-- A command on an accumulator advances its version by one. -/
theorem State.completeEntry_ver (h : e.kind.unit ≠ 2) :
    (((s.completeEntry core e).cores[core]).accs[e.acc]).ver = ((s.cores[core]).accs[e.acc]).ver + 1 := by
  cases hk : e.kind with
  | zero =>
    rw [State.completeEntry_zero hk, State.advanceAcc_accs]
    rfl
  | drain addr n =>
    rw [State.completeEntry_drain hk, State.advanceAcc_accs]
    rfl
  | load b f a segs bad => exact absurd (by rw [hk]; rfl) h
  | mul bank f f32 addr stride rows outl dfr data w =>
    cases hv : e.voided with
    | true =>
      rw [State.completeEntry_void hk hv, State.advanceAcc_accs]
      rfl
    | false =>
      rw [State.completeEntry_mul hk hv, State.advanceAcc_accs]
      rfl

/-- A clear leaves every entry 0. -/
theorem State.completeEntry_zero_acc (h : e.kind = .zero) :
    let t := s.completeEntry core e
    let y := (t.cores[core]).accs[e.acc]
    t.mem = s.mem ∧ y.ovf = false ∧ ∀ i, sget 0 y.ents i = 0 := by
  dsimp only
  rw [State.completeEntry_zero h, State.advanceAcc_accs]
  exact ⟨rfl, rfl, fun _ => rfl⟩

/-! ### Drained words -/

theorem length_drained (x : Acc) (n : Nat) : (drained x n).length = 4 * n := by
  simp [drained, List.length_flatMap, leBytes_length, Nat.mul_comm]

/-- Word `i` of blocks of four bytes. -/
theorem take_drop_drained (x : Acc) {n i : Nat} (h : i < n) : ((drained x n).drop (4 * i)).take 4 = leBytes 4 (sget 0 x.ents i).toNat := by
  obtain ⟨m, rfl⟩ : ∃ m, n = i + (m + 1) := ⟨n - i - 1, by omega⟩
  have hd : drained x (i + (m + 1)) = drained x i ++ (leBytes 4 (sget 0 x.ents i).toNat ++
      (List.range m).flatMap (fun j => leBytes 4 (sget 0 x.ents (i + (j + 1))).toNat)) := by
    rw [drained, List.range_add, List.flatMap_append, List.range_succ_eq_map]
    simp [drained, List.flatMap_map]
  rw [hd, ← length_drained x i, List.drop_left, List.take_left' (leBytes_length 4 _)]

/-- A part of the bytes written. -/
theorem State.bytes_setBytes_part {key i n : Nat} {bs : List Byte} (h : Memory.wf s.mem = true) (hi : i + n ≤ bs.length) :
    (s.setBytes key bs).bytes (key + i) n = (bs.drop i).take n := by
  refine List.ext_getElem (by simp [State.bytes]; omega) fun j h1 h2 => ?_
  have hj : j < n := by simpa [State.bytes] using h1
  simpa [State.bytes, Nat.add_assoc] using State.byte_setBytes (k := key) h (show i + j < bs.length by omega)

theorem State.completeEntry_drained (hs : s.Inv) {addr n : Nat} (h : e.kind = .drain addr n) :
    let key := sliceKey (s.sliceOn core) addr
    let x := (s.cores[core]).accs[e.acc]
    let t := s.completeEntry core e
    let y := (t.cores[core]).accs[e.acc]
    y.ents = x.ents ∧ y.ovf = x.ovf ∧ SameOutside s t key (4 * n) ∧ ∀ i < n, t.bytes (key + 4 * i) 4 = leBytes 4 (sget 0 x.ents i).toNat := by
  dsimp only
  rw [State.completeEntry_drain h, State.advanceAcc_accs]
  refine ⟨rfl, rfl, fun a ha => State.byte_setBytes_ne hs (by rwa [length_drained]), fun i hi => ?_⟩
  rw [← take_drop_drained _ hi]
  exact State.bytes_setBytes_part hs (by rw [length_drained]; omega)

end

/-! ### Elements of a format (06 R120, R123) -/

/-- Element `k` of a row of little-endian elements. -/
theorem getElem?_leElems (n : Nat) {m k : Nat} (h : k < m) (bs : List Byte) : (leElems n m bs)[k]? = some (leNat ((bs.drop (n * k)).take n)) := by
  induction m generalizing k bs with
  | zero => omega
  | succ m ih =>
    cases k with
    | zero => simp [leElems]
    | succ k =>
      rw [leElems, List.getElem?_cons_succ, ih (by omega), List.drop_drop, Nat.mul_succ, Nat.add_comm]

theorem weightAt_ternary (b : Nat → Byte) (k n : Nat) : weightAt .ternary b k n =
    match (b ((128 * n + k) / 4)).toNat / 4 ^ ((128 * n + k) % 4) % 4 with
    | 1 => 1
    | 3 => -1
    | _ => 0 := by
  simp only [weightAt]
  generalize (b ((128 * n + k) / 4)).toNat / 4 ^ ((128 * n + k) % 4) % 4 = code
  by_cases h1 : code = 1
  · rw [h1]
    rfl
  by_cases h3 : code = 3
  · rw [h3]
    rfl
  rw [if_neg h1, if_neg h3]
  split
  · next h => exact absurd rfl h1
  · next h => exact absurd rfl h3
  · rfl

theorem unscaled_iff (w : WFmt) (f : AFmt) (f32 : Bool) : unscaled w f f32 = true ↔ w ≠ .mxint8 ∧ f ≠ .mxint8 ∧ f ≠ .split ∧ f32 = false := by
  simp [unscaled, and_assoc]

/-! ### One K-block (06 R125) -/

section
variable (eW S : Int) (bad : Bool) (r : ActRow) (blk : Nat) (v : BitVec 32 × Bool × BitVec 6)

theorem addBlock_unscaled : addBlock true eW bad r S blk v =
    (BitVec.ofInt 32 (v.1.toInt + S), v.2.1 || decide (v.1.toInt + S < -2 ^ 31) || decide (2 ^ 31 - 1 < v.1.toInt + S), v.2.2) := rfl

theorem addBlock_bad (h : bad = true ∨ r.bad.getD blk false = true) :
    addBlock false eW bad r S blk v = (BitVec.ofNat 32 fF32.canonNaN, v.2.1, v.2.2 ||| flagNV) := by
  unfold addBlock
  rw [if_neg (by simp), if_pos (by simpa using h)]

theorem addBlock_scaled (hb : bad = false) (hr : r.bad.getD blk false = false) :
    let u := fF32.round .rne false (decide (S < 0)) S.natAbs (eW + r.ea.getD blk 0) false
    addBlock false eW bad r S blk v = (BitVec.ofNat 32 (fF32.add v.1.toNat u.1).1, v.2.1, v.2.2 ||| u.2 ||| (fF32.add v.1.toNat u.1).2) := by
  unfold addBlock
  rw [if_neg (by simp), if_neg (by rw [hb, hr]; simp)]
  rfl

end

/-- Settles O46: a copy's beats and end, an entry's steps, what a completed entry leaves, and what the formats hold. -/
theorem copiesAndMatrixCommandsProceed : Obligations.CopiesAndMatrixCommandsProceed := by
  unfold Obligations.CopiesAndMatrixCommandsProceed
  refine ⟨fun s tile core k => ⟨fun q hq => ⟨exec_copyBeat_writes hq, exec_copyBeat_issues hq, fun hs => ?_⟩,
      fun p req tr own ha hb ht hk q b hf => exec_copyFailure_notes ha hb ht hk hf, fun e he hm => ?_⟩,
    fun s tile q bs o => ?_, fun s core e => ?_, fun eW S bad r blk v => ?_, fun by' bs k n w f f32 => ?_⟩
  · refine ⟨fun hn => ?_, fun b tr hb => ?_⟩
    · rw [exec_copyComplete_settled hq hs, hn]
    · rw [exec_copyComplete_settled hq hs, hb]
  · exact ⟨exec_matrixStart_starts he hm, exec_matrixStart_reads he hm, fun g => exec_matrixStart_asks he hm,
      fun hf => ⟨exec_matrixComplete_finished he hm hf, State.completeEntry_ver⟩⟩
  · refine ⟨fun u tr => State.issueBeat_refused s tile, fun hs hd => ⟨fun p => State.issueBeat_local s tile hs hd, fun hp => ?_⟩,
      fun u lidx fid off => Copy.pieces_peer, fun va => Copy.pieces_hbm, ⟨State.frontOut_whole s tile, State.frontOut_short s tile⟩,
      fun p => State.beatWrite_local s tile, fun u lidx fid off => State.beatWrite_peer s tile, fun va => State.beatWrite_hbm s tile⟩
    rw [State.issueBeat_asks s tile hs hd hp]
    exact State.beatAsk_net (s.beatTaken tile) tile
  · refine ⟨State.completeEntry_zero_acc, fun addr n hs => State.completeEntry_drained hs,
      fun bank f f32 addr stride rows outl dfr data w h => ⟨State.readNext_core h, fun hv => ?_, fun hv b bs es hw hb hbs hx hes hd ho => ?_⟩⟩
    · rw [State.completeEntry_void h hv, State.advanceAcc_accs]
      exact ⟨rfl, rfl, rfl⟩
    · have hm := multiply_multiplied (f := f) (f32 := f32) hb hbs hx hes hd ho
      dsimp only
      rw [State.completeEntry_mul h hv, State.advanceAcc_accs, hw]
      exact ⟨rfl, hm.inside, fun i hi _ => hm.outside i hi, hm.ovf⟩
  · exact ⟨addBlock_unscaled eW S bad r blk v, addBlock_bad eW S bad r blk v, addBlock_scaled eW S bad r blk v⟩
  · exact ⟨rfl, rfl, rfl, weightAt_ternary by' k n, rfl, rfl, fun hk => by simp [actRow, plainRow, getElem?_leElems 2 hk], unscaled_iff w f f32⟩

end Sys2Proof.Machine
end
